-- ==== Sys2Proof/Word.lean ====
section
/-!
DEFINITION. The word type of the TW880's host interface and the plainest operations on it: fields of a word
and updates of one place of a fixed-length table.
-/

namespace Sys2Proof

/-- A 32-bit word, the unit every host-visible value is carried in (R13). -/
abbrev Word := BitVec 32

/-- One byte of a packet or frame. -/
abbrev Byte := BitVec 8

/-- A Spindle count or instant: a 64-bit unsigned number that wraps (R61, R62). -/
abbrev Tick := BitVec 64

/-- The table `v` with the place `i` replaced by `f` of what it holds. -/
def Vector.upd {α : Type} {n : Nat} (v : Vector α n) (i : Fin n) (f : α → α) : Vector α n :=
  v.set i.val (f v[i.val]) i.isLt

end Sys2Proof
end

