-- ==== Sys2Proof/Machine/Codes.lean ====
section
/-!
DEFINITION. The code lists of the module: power states, safe patterns, fault classes, status codes, fault codes with
their classes and clearing policies, transports and the composite operands of commands.
-/

namespace Sys2Proof

/-- The transports of R519, in the order in which packets completed on one tick are taken (R523). -/
inductive Transport where
  | cn0 | cn1 | cn2 | cn3 | et0 | et1 | sv
deriving DecidableEq, Repr

/-- How the reply to a packet goes back where transport and sender do not say it. -/
structure Via where
  /-- ET0, ET1: the source port of the datagram, and the interface's address it was sent to (R468, R470); 0 where it is the
  address held -/
  udpPort : Nat := 0
  ownAddr : Nat := 0
  /-- CN1: the request came in classical frames (R520) -/
  classical : Bool := false
deriving DecidableEq, Repr

/-- What the header of a request carries beside opcode, COUNT and VERSION (R513), and how the packet came. -/
structure Hdr where
  transport : Transport
  /-- the sender: source address on CN0, node index on CN2 and CN3, IPv4 address on ET0 and ET1, 0 on CN1 and SV -/
  sender : Nat
  /-- the packet came in CEROL_TO from the Headstock over the axle link -/
  fromHead : Bool
  tag : BitVec 8
  timed : Bool
  relayed : Bool
  data : Bool
  via : Via := {}
deriving DecidableEq, Repr

/-- A request of a host command: its header and its parameter words, the instant words of a TIMED one included. -/
structure Req where
  hdr : Hdr
  words : List Word
deriving DecidableEq, Repr

/-- The value classes of R145. -/
inductive WClass where
  | f | q | b | x
deriving DecidableEq, Repr, Inhabited

/-- One output word or staged write that a pass delivers to the collector (R96, R155). -/
structure Deliver where
  /-- pass 2 of a redundant instance -/
  second : Bool
  /-- a staged write into region memory; otherwise an output word -/
  staged : Bool
  /-- the number of the output word, or the word address in region memory -/
  place : Nat
  value : Word
deriving DecidableEq, Repr

/-- Kinds of bus transaction of a supervisor core (R160). -/
inductive BusKind where
  | load | store | fetch
deriving DecidableEq, Repr

def BusKind.code : BusKind → Nat
  | .load => 0 | .store => 1 | .fetch => 2

/-- A bus transaction that leaves a core (R157, R160): kind, word address, byte enables and, for a write, data. `own` marks
one to the shared SRAM; the others go to the flash interface, a crossing or the fabric. -/
structure Transaction where
  kind : BusKind
  address : Nat
  enables : Nat
  data : Word
  own : Bool
deriving DecidableEq, Repr

/-- What a core retires (R157, R159): its address, the register-file write, the address of the next instruction, the write to
its own code TCM (true) or data TCM (false), the transaction it issues and the data that the crossing, the flash interface or
the fabric gives a load. The value of a load's `write` is the bits of the data that a disturbance of the core changes. -/
structure Retired where
  address : Nat
  write : Option (Nat × Word)
  next : Nat
  tcm : Option (Bool × Nat × Word)
  bus : Option Transaction
  answer : Word
deriving DecidableEq, Repr

/-- A retirement of one core of the safety pair; `held` is what the delay register holds of it, other than `r` where a
disturbance has changed the entry but not its parity bits (R158). -/
inductive Retirement where
  | core0 (r held : Retired)
  | core1 (r : Retired)
deriving DecidableEq, Repr

/-- The ST strap pins as sensed at boot (R647): the pins found in an invalid level read as an invalid strap. -/
structure Straps where
  headstock : Bool
  split : Bool
  node : Fin 16
  roleInvalid : Bool
  splitInvalid : Bool
  /-- bit b set: node strap b invalid -/
  nodeInvalid : Fin 16
deriving DecidableEq, Repr

/-- What a start finds (R553): the straps, the ticks since the PLL locked, the flash areas that fail their CRC-32C, a
role record that cannot be read (R568). -/
structure Boot where
  straps : Straps
  lock : Nat
  activeBad : Bool
  cellarBad : Bool
  roleBad : Bool
deriving DecidableEq, Repr

/-- The control pilot as measured over the last millisecond (R322, R323): positive and negative level in V, a PWM and its
frequency in Hz, the duties of the pilot periods that have ended since the last classification, newest first. -/
structure PilotLine where
  positive : Word
  negative : Word
  pwm : Bool
  freq : Word
  duties : List Word
deriving DecidableEq, Repr

/-- A filtered transition at a feedback port (R269, R273): a quadrature count up or down as wired, an illegal
quadrature change, a new Hall state. -/
inductive PortEdge where
  | up | down | illegal
  | hall (state : Fin 8)
deriving DecidableEq, Repr

/-- A supply that may limit its current (R630): of a feedback port, of a current-sense modulator. -/
inductive PortSupply where
  | fb (port : Fin 6)
  | cs (input : Fin 8)
deriving DecidableEq, Repr

/-- The formats of a CAN frame (R440). -/
inductive CanFormat where
  | classical | fd | xl
deriving DecidableEq, Repr

/-- A frame received on a CAN port (R440, R443): its identifier, the length of it, SEC of an XL frame; and whether the
controller finds an error in it (R452). -/
structure CanFrame where
  format : CanFormat
  ident : Nat
  extended : Bool
  sec : Bool
  data : List Byte
  damaged : Bool := false
deriving DecidableEq, Repr

/-- The header of a message object (R443): identifier, format, length, flags and the timestamp; for an XL frame SDT, VCID,
acceptance field and SEC (R440). -/
structure FrameHead where
  ident : Nat
  format : CanFormat
  length : Nat
  extended : Bool := false
  /-- an FD frame with bit-rate switch -/
  rateSwitch : Bool := false
  sdt : Nat := 0
  vcid : Nat := 0
  acceptance : Nat := 0
  sec : Bool := false
  stamp : Nat := 0
deriving DecidableEq, Repr

/-- What a wake detector of the PHY sees in SLEEP (R453): a dominant level held for some ticks, or a frame at a nominal
rate (code of R441). -/
inductive WakeCause where
  | level (ticks : Nat)
  | frame (f : CanFrame) (rate : Nat)
deriving DecidableEq, Repr

/-- The start-of-frame stamps that go with a packet of the axle link (R450, R479): of the frame that brought it, and of
the last CEROL_FROM frame the module sent. -/
structure Stamps where
  rx : Tick
  tx : Tick
deriving DecidableEq, Repr

/-- The content of an axle-link frame (R462 … R465) but for its sequence number; CEROL frames are SEGMENT_FRAME's. -/
inductive AxlePayload where
  /-- EVENT: byte 1 and the instant -/
  | event (causes : BitVec 8) (instant : Tick)
  /-- SYNC with the receiver's own start-of-frame stamp -/
  | sync (stamp : Tick)
  /-- SYNC_FU: the number of its SYNC and the Headstock's stamp -/
  | syncFu (of_ : BitVec 8) (stamp : Tick)
  /-- ALLOC_LO or ALLOC_HI: admitted bits, instant, the shares of the eight nodes, A and B -/
  | alloc (high : Bool) (mask : BitVec 8) (instant : Tick) (shares : List (Word × Word))
  /-- STATUS: bytes 1 … 3, epoch number, CRC of the image; and the sender's SYS_SET_CRC where it is known -/
  | status (flags patterns cls : BitVec 8) (epoch crc : Word) (setCrc : Option Word)
deriving DecidableEq, Repr

/-- What a DELAY_PROBE does (R479): the Headstock sends a probe, whose send stamp is t1; it closes a port's measurement;
a Tailstock takes the path delay of a port, in ticks. -/
inductive ProbeStep where
  | send (t1 : Tick)
  | finish
  | delay (port : Fin 2) (d : Rat)
deriving DecidableEq, Repr

/-- A frame on an Ethernet port (R468): an ARP request, an ICMP echo request, a UDP datagram, what the port discards by
its kind (fragments, IP options, VLAN tags, broadcast, multicast). -/
inductive EthFrame where
  | arp (target : BitVec 32)
  | echo (source dest : BitVec 32) (length : Nat)
  | udp (source dest : BitVec 32) (sourcePort port : BitVec 16) (bytes : List Byte)
  | excluded
deriving DecidableEq, Repr

/-- The causes of a loss of admission, in the order of R491. -/
inductive LossCause where
  | hvil | timeLock | epochSplit | headLost | linkLost | conflict
deriving DecidableEq, Repr

end Sys2Proof

namespace Sys2Proof.Machine

/-- The four checks of R219, in the order of its table. -/
inductive TrCheck where
  | torque | current | flux | sum
deriving DecidableEq, Repr

/-- The events that end DC export (R316). -/
inductive OutletEnd where
  | hvil | overload | overcurrent | voltage | headroom
deriving DecidableEq, Repr

/-- The checks of R336. -/
inductive CvCheck where
  | current | leg (j : Fin 4) | pfc (x : Fin 3) | dab
deriving DecidableEq, Repr

/-- A sampled comparator, or a member of a short-window detector pair, of an AFE (R421, R424, R428). -/
inductive MemberId where
  | comparator (k : Fin 32)
  | detector (k : Fin 8)
deriving DecidableEq, Repr

/-- The status codes of R543. -/
inductive Status where
  | ok | okScheduled
  | unknownOpcode | badLength | badCrc | badVersion
  | paramUnknown | outOfRange | reservedEncoding | readOnly | loopClosed | crossCheckFailed
  | stateForbids | illegalTransition | safePatternActive | busy | domainStopped
  | noStagedEpoch | epochInvalid | timeInPast
  | notHeadstock | tailstockUnknown | notAdmitted
  | selftestTargetActive | twinUnavailable
  | lockstepRequired | debugRefusedArmed
deriving DecidableEq, Repr

/-- The number of a status code (R543). -/
def Status.code : Status → Nat
  | .ok => 0x0000 | .okScheduled => 0x0001
  | .unknownOpcode => 0x0100 | .badLength => 0x0101 | .badCrc => 0x0102 | .badVersion => 0x0103
  | .paramUnknown => 0x0200 | .outOfRange => 0x0201 | .reservedEncoding => 0x0202 | .readOnly => 0x0203
  | .loopClosed => 0x0204 | .crossCheckFailed => 0x0205
  | .stateForbids => 0x0300 | .illegalTransition => 0x0301 | .safePatternActive => 0x0302 | .busy => 0x0303
  | .domainStopped => 0x0304
  | .noStagedEpoch => 0x0400 | .epochInvalid => 0x0401 | .timeInPast => 0x0402
  | .notHeadstock => 0x0500 | .tailstockUnknown => 0x0501 | .notAdmitted => 0x0502
  | .selftestTargetActive => 0x0600 | .twinUnavailable => 0x0601
  | .lockstepRequired => 0x0700 | .debugRefusedArmed => 0x0701

/-- The power state labels of R547. -/
inductive Power where
  | off | sleep | standby | ready | armed | run
deriving DecidableEq, Repr

/-- The code of a power state (R547). -/
def Power.code : Power → Nat
  | .off => 0 | .sleep => 1 | .standby => 2 | .ready => 3 | .armed => 4 | .run => 5

/-- The safe patterns, in the order of GET_STATUS (R532). -/
inductive Pattern where
  | none | off | ascLow | ascHigh
deriving DecidableEq, Repr

/-- The code of a pattern (R532, R592). -/
def Pattern.code : Pattern → Nat
  | .none => 0 | .off => 1 | .ascLow => 2 | .ascHigh => 3

/-- The classes of R575, lowest first. -/
inductive FaultClass where
  | c | b | a
deriving DecidableEq, Repr

/-- The code of a class (R540, R592). -/
def FaultClass.code : FaultClass → Nat
  | .c => 1 | .b => 2 | .a => 3

/-- The power functions of R592: traction A and B, converter, charger, chopper, actuators. -/
inductive Func where
  | ta | tb | cv | cg | ch | ax (a : Fin 4)
deriving DecidableEq, Repr

/-- The code of a function in a log record (R592). -/
def Func.code : Func → Nat
  | .ta => 0 | .tb => 1 | .cv => 2 | .cg => 3 | .ch => 4 | .ax a => 5 + a.val

/-- Every power function. -/
def Func.all : List Func := [.ta, .tb, .cv, .cg, .ch, .ax 0, .ax 1, .ax 2, .ax 3]

/-- The fault codes 0x0001 … 0x3008 of R589, each with its class and clearing policy. -/
def faultRowsA : List (Nat × FaultClass × Nat) := [
  (0x0001, .a, 0),  -- SYS_HVIL_OPEN
  (0x0002, .a, 0),  -- SYS_TIME_LOCK_LOST
  (0x0003, .a, 0),  -- SYS_EPOCH_SPLIT
  (0x0004, .a, 0),  -- SYS_HEAD_LOST
  (0x0005, .b, 0),  -- SYS_NODE_LOST
  (0x0006, .b, 0),  -- SYS_HEAD_CONFLICT
  (0x0007, .b, 0),  -- SYS_NODE_CONFLICT
  (0x0008, .b, 0),  -- SYS_ALLOC_STALE
  (0x0009, .c, 0),  -- SYS_ALLOC_LATE
  (0x000A, .c, 0),  -- SYS_COMMIT_ABORTED
  (0x0010, .c, 0),  -- CMD_TIMED_DROPPED
  (0x0020, .b, 0),  -- PWR_TRANSITION_FAIL
  (0x0021, .a, 0),  -- PWR_LVIN_LOST
  (0x0022, .b, 0),  -- EPOCH_BOOT_INVALID
  (0x0023, .b, 0),  -- EPOCH_FLASH_FAIL
  (0x0024, .c, 0),  -- EPOCH_FLASH_WEAR
  (0x1001, .a, 0),  -- FABRIC_FALLBACK_LIMIT
  (0x1002, .a, 0),  -- FABRIC_ACCESS_VIOLATION
  (0x1003, .a, 0),  -- FABRIC_UNIT_STUCK
  (0x1004, .b, 0),  -- FABRIC_FALLBACK_RATE
  (0x1005, .c, 0),  -- FABRIC_SLACK_ALARM
  (0x1006, .a, 0),  -- FABRIC_CHECKPOINT_ERROR
  (0x1007, .b, 0),  -- FABRIC_BIST_FAIL
  (0x2001, .a, 0),  -- TR_PLAUS_TORQUE
  (0x2002, .a, 0),  -- TR_PLAUS_CURRENT
  (0x2003, .a, 0),  -- TR_PLAUS_FLUX
  (0x2004, .a, 0),  -- TR_CURRENT_SUM
  (0x2005, .b, 0),  -- TR_MISS_RATE
  (0x2006, .b, 0),  -- TR_NO_LOW_SPEED_FLUX
  (0x2007, .a, 0),  -- TR_OVERSPEED
  (0x2008, .c, 0),  -- TR_FW_LIMIT
  (0x3001, .a, 0),  -- TR_PLAUS_TORQUE (traction B)
  (0x3002, .a, 0),  -- TR_PLAUS_CURRENT (traction B)
  (0x3003, .a, 0),  -- TR_PLAUS_FLUX (traction B)
  (0x3004, .a, 0),  -- TR_CURRENT_SUM (traction B)
  (0x3005, .b, 0),  -- TR_MISS_RATE (traction B)
  (0x3006, .b, 0),  -- TR_NO_LOW_SPEED_FLUX (traction B)
  (0x3007, .a, 0),  -- TR_OVERSPEED (traction B)
  (0x3008, .c, 0)]  -- TR_FW_LIMIT (traction B)

/-- The fault codes 0x4001 … 0x6004 of R589, each with its class and clearing policy. -/
def faultRowsB : List (Nat × FaultClass × Nat) := [
  (0x4001, .b, 0),  -- CV_PRECHARGE_FAIL
  (0x4002, .a, 0),  -- CV_LEG_OVERCURRENT
  (0x4003, .a, 0),  -- CV_PLAUS_CURRENT
  (0x4004, .a, 0),  -- CV_PLAUS_LEG
  (0x4011, .b, 0),  -- DO_OVERLOAD
  (0x4012, .a, 0),  -- DO_OVERCURRENT
  (0x4013, .c, 0),  -- DO_HVIL_OPEN
  (0x4014, .b, 0),  -- DO_VOLTAGE
  (0x4031, .b, 0),  -- CH_SWITCH_OPEN
  (0x4032, .b, 0),  -- CH_FAILED_OPEN
  (0x4033, .a, 0),  -- CH_SWITCH_SHORT
  (0x4034, .c, 0),  -- CH_RES_LIMIT
  (0x4035, .b, 0),  -- DCL_OV1
  (0x4036, .a, 0),  -- DCL_OV2
  (0x5001, .a, 2),  -- CG_PFC_OVERCURRENT
  (0x5002, .a, 2),  -- CG_DAB_OVERCURRENT
  (0x5003, .a, 2),  -- CG_BUS_OVERVOLTAGE
  (0x5004, .a, 2),  -- CG_PLAUS_PFC
  (0x5005, .a, 2),  -- CG_PLAUS_DAB
  (0x5006, .b, 2),  -- CG_TIMER_EXPIRED
  (0x5007, .b, 2),  -- CG_TIMER_EXPIRED_DERATED
  (0x5008, .c, 2),  -- CG_PILOT_ERROR
  (0x5009, .b, 2),  -- CG_PROXIMITY_INVALID
  (0x500A, .c, 2),  -- CG_SOURCE_TIMEOUT
  (0x500B, .c, 2),  -- CG_AC_LOST
  (0x500C, .b, 2),  -- EX_AC_OVERLOAD
  (0x500D, .a, 2),  -- EX_AC_EXTERNAL_SOURCE
  (0x500E, .b, 2),  -- CG_BUS_PRECHARGE_FAIL
  (0x6001, .a, 0),  -- AX_BOOT_UVLO
  (0x6002, .a, 0),  -- AX_OVERCURRENT
  (0x6003, .b, 0),  -- AX_POSITION_LOST
  (0x6004, .b, 0)]  -- AX_MOVE_TIMEOUT

/-- The fault codes 0x7001 … 0xA009 of R589, each with its class and clearing policy. -/
def faultRowsC : List (Nat × FaultClass × Nat) := [
  (0x7001, .a, 1),  -- GD_DESAT
  (0x7002, .a, 1),  -- GD_HARD_SHORT
  (0x7003, .a, 1),  -- GD_UVLO_POS
  (0x7004, .a, 1),  -- GD_UVLO_NEG
  (0x7005, .a, 1),  -- GD_LINK_LOST
  (0x7006, .a, 1),  -- GD_SELFTEST_FAIL
  (0x7007, .c, 0),  -- GD_EN_OFF
  (0x7008, .c, 0),  -- GD_LINK_ERROR_RATE
  (0x8001, .a, 0),  -- AFE_SD_OVERCURRENT
  (0x8002, .a, 0),  -- AFE_SD_LOST
  (0x8003, .b, 0),  -- AFE_OPEN_WIRE
  (0x8004, .c, 0),  -- AFE_SLICE_FAIL
  (0x8005, .b, 0),  -- AFE_NO_SPARE
  (0x8006, .b, 0),  -- AFE_SLICE_LOST
  (0x8007, .b, 0),  -- AFE_TWIN_FAIL
  (0x8008, .c, 0),  -- AFE_QUEUE_DISCARD
  (0x9001, .b, 0),  -- FB_INDEX_DEVIATION
  (0x9002, .b, 0),  -- FB_HALL_INVALID
  (0x9003, .b, 0),  -- FB_SSI_ERROR
  (0x9004, .b, 0),  -- FB_SSI_MISMATCH
  (0x9005, .b, 0),  -- FB_LINE_BREAK
  (0x9006, .c, 0),  -- FB_ERROR_RATE
  (0x9007, .c, 0),  -- FB_EP_OVERRUN
  (0xA001, .c, 0),  -- BUS_OFF
  (0xA002, .b, 0),  -- BUS_OBJECT_ECC
  (0xA003, .c, 0),  -- BUS_RX_OVERRUN
  (0xA004, .c, 0),  -- BUS_HP_OVERRUN
  (0xA005, .c, 0),  -- IS_ADDRESS_LOST
  (0xA006, .b, 0),  -- AL_PORT_DOWN
  (0xA007, .a, 0),  -- AL_LINK_LOST
  (0xA008, .b, 0),  -- AL_LINK_LOST_HEAD
  (0xA009, .c, 0)]  -- ET_LINK_DOWN

/-- The fault codes 0xB001 … 0xD004 of R589, each with its class and clearing policy. -/
def faultRowsD : List (Nat × FaultClass × Nat) := [
  (0xB001, .c, 0),  -- SUP_LOCKSTEP_TRANSIENT
  (0xB002, .a, 3),  -- SUP_LOCKSTEP_LOST
  (0xB003, .b, 0),  -- SUP_MAIN_COMPARE_FAILED
  (0xB004, .b, 0),  -- SUP_FALLBACK_COMPARE_FAILED
  (0xB005, .a, 3),  -- SUP_COMPARE_LOST
  (0xB006, .b, 0),  -- SUP_DELAY_PARITY_FAILED
  (0xB007, .b, 0),  -- SUP_LOCKSTEP_RETRY_RATE
  (0xB010, .c, 0),  -- FLOG_OVERRUN
  (0xB011, .b, 0),  -- FLOG_WRITE_FAIL
  (0xB012, .b, 0),  -- FAULT_TABLE_FULL
  (0xB013, .a, 3),  -- PATTERN_VERIFY_FAIL
  (0xB014, .c, 0),  -- TWIN_TEST_OVERDUE
  (0xC001, .c, 0),  -- MEM_UNCORR_REPAIRED
  (0xC002, .a, 0),  -- MEM_UNCORR_SUP
  (0xC003, .b, 0),  -- MEM_UNCORR_FABRIC
  (0xC004, .a, 0),  -- MEM_UNCORR_REPEAT
  (0xC005, .c, 0),  -- MEM_CORRECTED_RATE
  (0xC006, .b, 0),  -- MEM_SCRUB_LAP
  (0xC011, .b, 0),  -- THERM_STALE
  (0xC012, .b, 0),  -- THERM_SENSOR_BROKEN
  (0xC013, .c, 0),  -- THERM_T1
  (0xC014, .b, 0),  -- THERM_T2
  (0xC015, .a, 0),  -- THERM_T3
  (0xD001, .b, 0),  -- SPINDLE_TS_REF_LOST
  (0xD002, .a, 3),  -- SPINDLE_REF_LOST
  (0xD003, .a, 3),  -- SPINDLE_LOST
  (0xD004, .c, 0)]  -- XING_EVENT_OVERFLOW
/-- Every fault code of the module (R589): there are no others. -/
def faultRows : List (Nat × FaultClass × Nat) := faultRowsA ++ faultRowsB ++ faultRowsC ++ faultRowsD

/-- The class and clearing policy of a defined fault code (R588, R589). -/
def faultInfo (code : Nat) : Option (FaultClass × Nat) := (faultRows.find? (fun r => r.1 == code)).map (·.2)

/-- The class of a fault code; class C for a code no table defines, which no rule raises. -/
def classOf (code : Nat) : FaultClass := ((faultInfo code).map (·.1)).getD .c

/-- The clearing policy of a fault code. -/
def policyOf (code : Nat) : Nat := ((faultInfo code).map (·.2)).getD 0

/-! The fault codes by name (traction B raises the area 2 codes at +0x1000, R661). -/
namespace F

def sysHvilOpen : Nat := 0x0001
def sysTimeLockLost : Nat := 0x0002
def sysEpochSplit : Nat := 0x0003
def sysHeadLost : Nat := 0x0004
def sysNodeLost : Nat := 0x0005
def sysHeadConflict : Nat := 0x0006
def sysNodeConflict : Nat := 0x0007
def sysAllocStale : Nat := 0x0008
def sysAllocLate : Nat := 0x0009
def sysCommitAborted : Nat := 0x000A
def cmdTimedDropped : Nat := 0x0010
def pwrTransitionFail : Nat := 0x0020
def pwrLvinLost : Nat := 0x0021
def epochBootInvalid : Nat := 0x0022
def epochFlashFail : Nat := 0x0023
def epochFlashWear : Nat := 0x0024
def fabricFallbackLimit : Nat := 0x1001
def fabricAccessViolation : Nat := 0x1002
def fabricUnitStuck : Nat := 0x1003
def fabricFallbackRate : Nat := 0x1004
def fabricSlackAlarm : Nat := 0x1005
def fabricCheckpointError : Nat := 0x1006
def fabricBistFail : Nat := 0x1007
def trPlausTorque : Nat := 0x2001
def trPlausCurrent : Nat := 0x2002
def trPlausFlux : Nat := 0x2003
def trCurrentSum : Nat := 0x2004
def trMissRate : Nat := 0x2005
def trNoLowSpeedFlux : Nat := 0x2006
def trOverspeed : Nat := 0x2007
def trFwLimit : Nat := 0x2008
def cvPrechargeFail : Nat := 0x4001
def cvLegOvercurrent : Nat := 0x4002
def cvPlausCurrent : Nat := 0x4003
def cvPlausLeg : Nat := 0x4004
def doOverload : Nat := 0x4011
def doOvercurrent : Nat := 0x4012
def doHvilOpen : Nat := 0x4013
def doVoltage : Nat := 0x4014
def chSwitchOpen : Nat := 0x4031
def chFailedOpen : Nat := 0x4032
def chSwitchShort : Nat := 0x4033
def chResLimit : Nat := 0x4034
def dclOv1 : Nat := 0x4035
def dclOv2 : Nat := 0x4036
def cgPfcOvercurrent : Nat := 0x5001
def cgDabOvercurrent : Nat := 0x5002
def cgBusOvervoltage : Nat := 0x5003
def cgPlausPfc : Nat := 0x5004
def cgPlausDab : Nat := 0x5005
def cgTimerExpired : Nat := 0x5006
def cgTimerExpiredDerated : Nat := 0x5007
def cgPilotError : Nat := 0x5008
def cgProximityInvalid : Nat := 0x5009
def cgSourceTimeout : Nat := 0x500A
def cgAcLost : Nat := 0x500B
def exAcOverload : Nat := 0x500C
def exAcExternalSource : Nat := 0x500D
def cgBusPrechargeFail : Nat := 0x500E
def axBootUvlo : Nat := 0x6001
def axOvercurrent : Nat := 0x6002
def axPositionLost : Nat := 0x6003
def axMoveTimeout : Nat := 0x6004
def gdDesat : Nat := 0x7001
def gdHardShort : Nat := 0x7002
def gdUvloPos : Nat := 0x7003
def gdUvloNeg : Nat := 0x7004
def gdLinkLost : Nat := 0x7005
def gdSelftestFail : Nat := 0x7006
def gdEnOff : Nat := 0x7007
def gdLinkErrorRate : Nat := 0x7008
def afeSdOvercurrent : Nat := 0x8001
def afeSdLost : Nat := 0x8002
def afeOpenWire : Nat := 0x8003
def afeSliceFail : Nat := 0x8004
def afeNoSpare : Nat := 0x8005
def afeSliceLost : Nat := 0x8006
def afeTwinFail : Nat := 0x8007
def afeQueueDiscard : Nat := 0x8008
def fbIndexDeviation : Nat := 0x9001
def fbHallInvalid : Nat := 0x9002
def fbSsiError : Nat := 0x9003
def fbSsiMismatch : Nat := 0x9004
def fbLineBreak : Nat := 0x9005
def fbErrorRate : Nat := 0x9006
def fbEpOverrun : Nat := 0x9007
def busOff : Nat := 0xA001
def busObjectEcc : Nat := 0xA002
def busRxOverrun : Nat := 0xA003
def busHpOverrun : Nat := 0xA004
def isAddressLost : Nat := 0xA005
def alPortDown : Nat := 0xA006
def alLinkLost : Nat := 0xA007
def alLinkLostHead : Nat := 0xA008
def etLinkDown : Nat := 0xA009
def supLockstepTransient : Nat := 0xB001
def supLockstepLost : Nat := 0xB002
def supMainCompareFailed : Nat := 0xB003
def supFallbackCompareFailed : Nat := 0xB004
def supCompareLost : Nat := 0xB005
def supDelayParityFailed : Nat := 0xB006
def supLockstepRetryRate : Nat := 0xB007
def flogOverrun : Nat := 0xB010
def flogWriteFail : Nat := 0xB011
def faultTableFull : Nat := 0xB012
def patternVerifyFail : Nat := 0xB013
def twinTestOverdue : Nat := 0xB014
def memUncorrRepaired : Nat := 0xC001
def memUncorrSup : Nat := 0xC002
def memUncorrFabric : Nat := 0xC003
def memUncorrRepeat : Nat := 0xC004
def memCorrectedRate : Nat := 0xC005
def memScrubLap : Nat := 0xC006
def thermStale : Nat := 0xC011
def thermSensorBroken : Nat := 0xC012
def thermT1 : Nat := 0xC013
def thermT2 : Nat := 0xC014
def thermT3 : Nat := 0xC015
def spindleTsRefLost : Nat := 0xD001
def spindleRefLost : Nat := 0xD002
def spindleLost : Nat := 0xD003
def xingEventOverflow : Nat := 0xD004

end F

end Sys2Proof.Machine
end

