-- ==== Sys2Proof/Machine/Micro.lean ====
section
/-!
DEFINITION. The operations of the fabric units (R28, R149, R151): what a library program is made of. The programs
themselves belong to the library release (Config.program); what each operation does in pass 1 and in pass 2 stands in
Unit.lean.
-/

namespace Sys2Proof.Machine

/-- A place a unit reads or writes during a launch (R28, R154). -/
inductive Store where
  /-- its own register window, 16 entries -/
  | window (r : Nat)
  /-- the cluster register file, 256 entries -/
  | file (e : Nat)
  /-- a word of the 8 KiB cluster scratch -/
  | scratch (a : Nat)
  /-- a word of the run-ahead lane the unit computes: no other lane can be named (R35) -/
  | lane (a : Nat)
  /-- a word of region memory; a write is staged -/
  | memory (a : Nat)
  /-- a constant of the library among the region table words (R668) -/
  | const (w : Nat)
  /-- bits [15:0] of a sample word, sign-extended, by trigger and channel code (R154) -/
  | sample (k : Nat)
  /-- the remaining fields of a sample word -/
  | sampleRest (k : Nat)
  /-- a committed output on the fabric exchange (R40) -/
  | exchange (x : Nat)
deriving DecidableEq, Repr

/-- Operations on two operands (R151). -/
inductive BinOp where
  | add | sub | mul | div | min | max | addSat | subSat | mulSat | lt | le | eq | ne | and | or | xor
deriving DecidableEq, Repr

/-- Operations on one operand (R151). -/
inductive UnOp where
  | move | negate | abs | sqrt | not | toQ | toF | flagToQ
deriving DecidableEq, Repr

/-- One operation of a library program (R151). `cls` is the class of the operands. -/
inductive MicroOp where
  | bin (op : BinOp) (cls : WClass) (a b dst : Store)
  | un (op : UnOp) (cls : WClass) (a dst : Store)
  /-- a · b + c with one rounding, class F -/
  | fma (a b c dst : Store)
  /-- logical shift of class B or X, to the left or to the right -/
  | shift (cls : WClass) (left : Bool) (n : Nat) (a dst : Store)
  /-- shift right with rounding, half to even, class Q -/
  | shiftRound (n : Nat) (a dst : Store)
  /-- a bit of a class B or X word as a flag of that class -/
  | testBit (cls : WClass) (n : Nat) (a dst : Store)
  /-- `a` where the flag is true, else `b`; `fcls` is the class of the flag -/
  | select (cls fcls : WClass) (flag a b dst : Store)
  /-- the next operation is `target` where the flag, of class `fcls`, is true -/
  | branch (fcls : WClass) (flag : Store) (target : Nat)
  /-- an output word to the unit's collector input -/
  | output (place : Nat) (a : Store)
  /-- the unit computes the lane of a branch from here on (R103, R104) -/
  | enter (branch : Nat)
  /-- a candidate output word or staged write of the branch, into the unit's own lane -/
  | candidate (staged : Bool) (place : Nat) (a : Store)
deriving DecidableEq, Repr

/-- Where an output word goes (R96). -/
inductive Dest where
  | crossing | exchange | status
deriving DecidableEq, Repr, Inhabited

/-- What an entry declares for one pass in each cluster of its mask (R96, R102): register-file entries it reads and
those each unit may write, scratch words it may use. -/
structure PassDecl where
  reads : List Nat
  writes : List (Nat × Nat)
  scratch : List Nat
deriving DecidableEq, Repr, Inhabited

/-- What a library entry declares beside the figures of R675 (R96, R155, R58). -/
structure EntryDecl where
  pass1 : PassDecl
  pass2 : PassDecl
  /-- the class of each output word, by its place; none: declared without a class (R156) -/
  outputs : List (Option WClass)
  /-- the destination of each output word, by its place (R96) -/
  dests : List Dest
  /-- the staged writes: word address and class -/
  staged : List (Nat × Option WClass)
  /-- the sample words it takes: trigger · 512 + 256 · AFE + channel code -/
  samples : List Nat
  /-- the constants it takes among the region table words -/
  constants : List Nat
  /-- a host-class entry: where its output words stand among HOST_OUT_0 … HOST_OUT_63 -/
  placement : List Nat
deriving DecidableEq, Repr, Inhabited

end Sys2Proof.Machine
end

