-- ==== Sys2Proof/Config.lean ====
section
/-!
DEFINITION. What one module or one library release fixes and the spec leaves open: constants without a body, so that
no proof can see a value of them. Each is named in the assumption log.
-/

namespace Sys2Proof.Config

/-- What a library release declares of a host-class entry (0x300 … 0x3FF): the manual does not fix it (R675). -/
structure HostEntry where
  /-- clusters its CLUSTER_MASK must have -/
  clusters : Nat
  /-- the units it uses in each cluster, one bit per unit -/
  units : Nat
  /-- whether REDUNDANT may be 0, 1 -/
  redundantOff : Bool
  redundantOn : Bool
  /-- whether RUN_AHEAD may be 1 -/
  runAhead : Bool
  /-- bit c set: CLASS c allowed -/
  classes : Nat
  scheduleLength : Nat
  outputWords : Nat
  /-- with run-ahead: lanes per pass, DEFER and the resolve margin (R103, R107, R128) -/
  lanes : Nat
  defer : Nat
  resolveMargin : Nat
  decl : Machine.EntryDecl
deriving DecidableEq, Repr, Inhabited

/-- What a library entry declares of a region table word: the range and the default (R668, R669). -/
structure TableWord where
  lo : Word
  hi : Word
  default : Word
  /-- declared f32, so that a NaN or an infinity is refused under R16 -/
  isF32 : Bool
deriving DecidableEq, Repr, Inhabited

/-- FREE VALUE. The k-th value the manual leaves open on a path on which the machine goes on. DESIGN CHOICE, log
entry 7. -/
opaque freeWord : Nat → Word

/-- FREE VALUE. The factory words of the module: R671's service identity, R472's MAC addresses, R434's factory
offsets, R471's identity number from the serial number, each by its parameter ID. DESIGN CHOICE, log entry 5. -/
opaque factoryWord : Nat → Word

/-- FREE VALUE. The declarations of the host-class entries of the library release held (R675). DESIGN CHOICE, log
entry 6. -/
opaque hostEntry : Nat → Option HostEntry

/-- FREE VALUE. What the library release declares of an entry of R675's table beside the figures the table gives: the
register-file entries and scratch of each pass, the addresses of the staged writes, the constants (R96). DESIGN
CHOICE, log entry 6. -/
opaque entryDecl : Nat → Machine.EntryDecl

/-- FREE VALUE. The class the library release declares of an output word or staged write of an entry of R675's table
(R155). DESIGN CHOICE, log entry 6. -/
opaque wordClass : (entry : Nat) → (staged : Bool) → (place : Nat) → WClass

/-- FREE VALUE. The program of unit `unit` of a library entry: the full computation, or the branches of run-ahead (R27,
R153). DESIGN CHOICE, log entry 51. -/
opaque program : (entry unit : Nat) → (full : Bool) → List Machine.MicroOp

/-- FREE VALUE. The library schedule of a unit that runs both passes of an entry: whether the k-th operation it starts is one
of pass 2 (R102). DESIGN CHOICE, log entry 51. -/
opaque schedule : (entry unit : Nat) → (k : Nat) → Bool

/-- FREE VALUE. The register-file entries each unit of a cluster may write and the scratch words that all host-class entries
share, for pass 1 and for pass 2 (R675). DESIGN CHOICE, log entry 6. -/
opaque hostSet : (second : Bool) → Machine.PassDecl

/-- FREE VALUE. What an integer division by zero writes, beside setting RANGE (R149). DESIGN CHOICE, log entry 8. -/
opaque divByZero : Word → Word

/-- FREE VALUE. The quotient |u| / Vax of an actuator's duty where its supply sample Vax is not above 0 (R383). DESIGN CHOICE,
log entry 8. -/
opaque dutyWithoutSupply : (u vax : Word) → Word

/-- FREE VALUE. What the conversion of a binary32 value outside the signed 32-bit range gives (R151). DESIGN CHOICE,
log entry 8. -/
opaque convertOver : Word → Word

/-- FREE VALUE. The declaration of region table word `w` by library entry `e` (R668). DESIGN CHOICE, log entry 6. -/
opaque tableWord : (e w : Nat) → Option TableWord

/-- FREE VALUE. The Reset value of region table word `w` of region `n`: the library default (R668). DESIGN CHOICE,
log entry 6. -/
opaque tableReset : (n w : Nat) → Word

/-- FREE VALUES. The transcendental functions the formulas of the manual name and for which it states no rounding;
argument and result are binary32 words in rad. DESIGN CHOICE, log entry 8. -/
opaque sin : Word → Word
opaque cos : Word → Word
opaque atan2 : Word → Word → Word
opaque exp : Word → Word

/-- FREE VALUE. The tangent of a binary64 m · 2^e as a binary64, by significand and exponent: the supervisor's, for the notch
(R209). DESIGN CHOICE, log entry 8. -/
opaque tan64 : (m e : Int) → Int × Int

/-- FREE VALUES. The gains of the phase-locked loop of region 3, in 1/s and 1/s², binary32 (R317). DESIGN CHOICE, log entry 70. -/
opaque pllKp : Word
opaque pllKi : Word

end Sys2Proof.Config
end

