-- ==== Sys2Proof/Machine/Module.lean ====
section
/-!
DEFINITION. The hardware of the module as plain data, one structure per part of the module. The reset values of the
parts stand in Initial.lean and State.lean.
-/

namespace Sys2Proof.Machine

/-- The reference the PLL follows (R93). -/
inductive RefSource where
  | crystal | ts | holdover
deriving DecidableEq, Repr

/-- The code of SPINDLE_STATUS.REF_IN_USE (R93). -/
def RefSource.code : RefSource → Nat
  | .crystal => 0 | .ts => 1 | .holdover => 2

/-- Time (R61 … R66, R91, R93). DEDUCED, log entry 56. -/
structure Timing where
  /-- the 64-bit Spindle count (R61) -/
  count : Tick
  /-- the model's own clock: real time since power-on in ticks of 2.5 ns, unchanged by a step of the count (R482) -/
  elapsed : Nat
  /-- the PLL is locked and the count runs (R553 step 2) -/
  running : Bool
  valid : Bool
  ref : RefSource
  tsFault : Bool
  xtalFault : Bool
  stepped : Bool
  refLossCount : Nat
  /-- the count has stepped since the last counting window began: the next keeps what is counted now (R482) -/
  carryWindow : Bool
  /-- the count in the retention words of the AUX standby rail (R551) -/
  retained : Tick
deriving DecidableEq, Repr

/-- A power-state transition in progress (R551). -/
structure Transition where
  /-- the target SET_POWER_STATE named -/
  target : Power
  /-- the state this leg of it starts from, and the one it leads to -/
  source : Power
  dest : Power
  /-- the step of R551's row reached -/
  stage : Nat
  /-- the clock at the start of the leg -/
  started : Nat
deriving DecidableEq, Repr

/-- Power state and supply (R547 … R555, R572, R634 … R642, R655 … R657). -/
structure Supply where
  label : Power
  transition : Option Transition
  lastFail : Nat
  holdup : Bool
  lvinOk : Bool
  hvauxOk : Bool
  store : Bool
  lvin : Word
  hvaux : Word
  /-- the level of EN (R355), low only once its fall is valid; the clocks of its last fall and of its last rise -/
  en : Bool
  enFellAt : Nat
  enRoseAt : Nat
  hvil : Bool
  /-- bit p: the supply of FBp is in current limit (R630) -/
  fbLimited : Nat
  /-- 250,000 bit/s on SV (R649) -/
  svSlow : Bool
  /-- rails of the islands and the LGD removed by a failed pattern check (R582) -/
  railsRemoved : Bool
  /-- the CAN wake of R454: bit p; a wake held while SLEEP is being entered (R455) -/
  wakeReason : Nat
  wakeHeld : Bool
  /-- the clock at which the last SLEEP ended by a wake (R454) -/
  wokeAt : Option Nat
  /-- the strap pins as they stand on the ST port (R647) -/
  pins : Straps
  /-- the clock at which the label became READY (R616), and at which the island rails began to ramp (R360, R551) -/
  readyAt : Nat
  rampAt : Nat
deriving DecidableEq, Repr

/-- The straps in use after R648 (R657). -/
structure StrapsInUse where
  headstock : Bool
  split : Bool
  node : Fin 16
  /-- [0] ROLE, [1] SPLIT, [2 … 5] N0 … N3 (R657) -/
  invalid : Nat
deriving DecidableEq, Repr

/-- One die (R22, R59, R613 … R618). -/
structure Die where
  /-- 0 off, 1 in tolerance, 2 out of tolerance -/
  supply : Nat
  inReset : Bool
  bist : Nat
  throttle : Nat
  temp : Word
  /-- the clock of the last measurement -/
  measuredAt : Option Nat
deriving DecidableEq, Repr

/-- An epoch image (R556). Of the RW-E values it lists those that differ from their Reset value, by rising ID; of the
launch tables the entries not both words zero, by rising 512 · n + index. DESIGN CHOICE, log entry 11. -/
structure Image where
  number : Word
  params : List (Nat × Word)
  launch : List (Nat × Word × Word)
deriving DecidableEq, Repr

/-- A commit or revert accepted and not yet complete (R565, R570). -/
structure Pending where
  revert : Bool
  instant : Tick
  systemWide : Bool
  /-- I has been reached: numbers and slot roles have changed (R566 step 1) -/
  switched : Bool
deriving DecidableEq, Repr

/-- A provisional system-wide commit at a Tailstock (R494, R497), or the vote of one at the Headstock. -/
structure Provisional where
  revert : Bool
  instant : Tick
  /-- the confirmation has come (R494) -/
  confirmed : Bool
  /-- Headstock: the nodes asked, one bit each, and the status codes that have come back -/
  asked : Nat
  replies : List (Nat × Nat)
deriving DecidableEq, Repr

/-- The configuration epochs (R556 … R573). -/
structure Epochs where
  active : Image
  staged : Option Image
  cellar : Option Image
  /-- the shadow of STAGED, the CELLAR area: fails its CRC-32C -/
  stagedBad : Bool
  cellarBad : Bool
  /-- the recorded ACTIVE area fails its CRC-32C (R568) -/
  activeBad : Bool
  /-- the image the regions still on the old epoch run (R566 step 2) -/
  previous : Image
  /-- region n runs `previous` until its first boundary at or after I -/
  onOld : Vector Bool 8
  pending : Option Pending
  provisional : Option Provisional
  flashPending : Bool
  /-- programming of the image has completed (R567) -/
  programmed : Bool
  /-- what the role record in FL names (R558, R567) -/
  flashActive : Image
  flashCellar : Option Image
  roleReadable : Bool
  bootFallback : Bool
  commitCount : Nat
  lastSwitch : Tick
deriving DecidableEq, Repr

/-- The live-class parameters (R663); FLOG_ERASE reads from the log. -/
structure Live where
  fabricSupply0 : Word
  fabricSupply1 : Word
  torqueSetpoint : Vector Word 2
  speedSetpoint : Vector Word 2
  dcVref : Word
  cgISet : Word
  cgVSet : Word
  recordSelect : Word
  countSelect : Word
  /-- a supply level change of CF0, of CF1 is in progress (R136) -/
  supplyBusy0 : Bool
  supplyBusy1 : Bool
deriving DecidableEq, Repr

/-- A live-class write accepted and not yet in effect (R20, R526). -/
structure LiveWrite where
  id : Nat
  value : Word
  /-- takes effect at the first boundary after, or at or after, this instant -/
  from_ : Tick
  /-- a boundary on the instant itself counts (a timed write, R526) -/
  atInstant : Bool
deriving DecidableEq, Repr

/-- A pending timed command (R525 … R528). -/
structure TimedCmd where
  opcode : Nat
  hdr : Hdr
  words : List Word
  instant : Tick
deriving DecidableEq, Repr

/-- A packet completed and not yet taken by the interpreter (R523, R524). -/
structure QueuedPacket where
  transport : Transport
  sender : Nat
  fromHead : Bool
  words : List Word
  stamps : Stamps
  via : Via := {}
deriving DecidableEq, Repr

/-- A command that waits for hardware or for a Tailstock; its reply leaves when its result is ready (R523). -/
structure Waiting where
  opcode : Nat
  hdr : Hdr
  count : Nat
  /-- what the command acts on: a die, a pair, a node -/
  target : Nat
  /-- the clock at acceptance -/
  since : Nat
  /-- status and data of the reply, once the result is ready -/
  result : Option (Nat × Nat × List Word)
  /-- what the command still has to send: the instant of an admission, opcode and tag of the packet relayed, the data of a
  reply that leaves when its writes are applied -/
  words : List Word := []
  key : Nat := 0
  /-- its writes into a clocked domain cross: the clock at which they are applied together (R86) -/
  heldUntil : Option Nat := none
  /-- ADMIT_TAILSTOCK: 0 the relayed READ_PARAM is out, 1 the relayed ADMIT_TAILSTOCK is out (R487) -/
  stage : Nat := 0
deriving DecidableEq, Repr

/-- An open reassembly of a segmented packet (R520, R521). -/
structure Reassembly where
  transport : Transport
  sender : Nat
  /-- total packet length in bytes -/
  total : Nat
  bytes : List Byte
  nextSeq : Nat
  lastAt : Nat
  via : Via := {}
deriving DecidableEq, Repr

/-- The command interpreter (R516 … R546). -/
structure Interp where
  accepted : Nat
  rejected : Nat
  undecodable : Nat
  segmentDrops : Nat
  timedDropped : Nat
  timed : List TimedCmd
  waiting : List Waiting
  queue : List QueuedPacket
  reassemblies : List Reassembly
  liveWrites : List LiveWrite
deriving DecidableEq, Repr

/-- An active fault (R587, R540). -/
structure ActiveFault where
  code : Nat
  detail : Nat
  /-- CONDITION: the cause is present (R588, R676) -/
  cond : Bool
deriving DecidableEq, Repr

/-- A fault-log record; its CHECK word is computed (R592). -/
structure LogRec where
  code : Nat
  detail : Nat
  kind : Nat
  state : Nat
  coverage : Bool
  func : Nat
  pattern : Nat
  tick : Tick
  boot : Nat
  seq : Nat
  epoch : Word
deriving DecidableEq, Repr

/-- Faults, safe patterns and the fault log (R575 … R601). -/
structure Faults where
  /-- oldest first -/
  active : List ActiveFault
  /-- the pattern on each power function, by the function code of R592 -/
  pattern : Vector Pattern 9
  /-- the fault that set it: code and detail -/
  patternBy : Vector (Nat × Nat) 9
  /-- an accepted release waits for the function's boundary (R583) -/
  releasing : Vector Bool 9
  /-- records waiting in the write buffer, oldest first (R593) -/
  buffer : List LogRec
  /-- records programmed in FL, oldest first (R591) -/
  ring : List LogRec
  counts : List (Nat × Nat)
  seq : Nat
  written : Nat
  lost : Nat
  erasing : Bool
  /-- the pattern a check holds each island to has failed once (R582): islands whose last frame contradicted it -/
  verifySuspect : List Nat
deriving DecidableEq, Repr

/-- A single control signal of a crossing (R81). -/
structure Toggle where
  /-- the sender's level, the level sent with the last toggle, which the receiver has, and the number of toggles sent -/
  level : Bool
  sent : Bool
  toggles : Nat
  /-- changes of level that wait for an acknowledge, oldest first: each goes out as a toggle of its own -/
  queue : List Bool
  /-- the clock at which the far side acknowledges the last toggle -/
  ackAt : Nat
deriving DecidableEq, Repr

/-- An event line (R82, R83). -/
structure EventLine where
  /-- the 3-bit event count and overflow bit held on the sending side (R82) -/
  events : Nat
  overflow : Bool
  /-- the receiving side's event counter (R83) -/
  received : Nat
  /-- the clock at which the handshake in progress is complete (R82) -/
  busy : Nat
deriving DecidableEq, Repr

/-- One crossing (R79 … R94). -/
structure Crossing where
  dropped : Nat
  overflow : Bool
  /-- its event line, and on crossing 13 the line of its own that signals high-priority frames (R449) -/
  line : EventLine
  hpLine : EventLine
  /-- per data lane, the clock at which the round trip of its last word is complete, and the words that wait for a lane
  (R79) -/
  lanes : List Nat
  held : Nat
  /-- its control signal (R81) -/
  control : Toggle
  /-- a supervisor access has found the domain stopped (R85), since this clock -/
  stalled : Option Nat
deriving DecidableEq, Repr

/-- The supervisor mode (R174). -/
inductive SupMode where
  | lockstep | split | suspended | lost
deriving DecidableEq, Repr

/-- The code of LOCKSTEP_STATUS.MODE (R174). -/
def SupMode.code : SupMode → Nat
  | .lockstep => 0 | .split => 1 | .suspended => 2 | .lost => 3

/-- The memories that the undo log covers (R162). -/
inductive CoreMem where
  | code | data | sram
deriving DecidableEq, Repr

/-- A delay register of core 0 (R158): a retirement that waits for comparison as it stands there, and the parity bits of its
bytes as they were written. -/
structure DelayReg where
  retired : Retired
  parity : List Nat
deriving DecidableEq, Repr

/-- A checkpoint: the architectural state of core 0 (R162, R163). -/
structure CoreState where
  regs : List (Nat × Word)
  next : Nat
deriving DecidableEq, Repr

/-- The safety pair (R157 … R174). -/
structure Lockstep where
  mode : SupMode
  /-- 0 untested, 1 healthy, 2 failed -/
  main : Nat
  fallback : Nat
  debug : Bool
  /-- a rollback runs: re-execution towards the next checkpoint (R165) -/
  rollback : Bool
  /-- the tick of the mismatch, and its fault detail -/
  mismatchTick : Tick
  mismatchDetail : Nat
  rollbacks : Nat
  parityErrors : Nat
  /-- transient retries in the window of R168, and the fault raised in it -/
  window : Nat
  windowRaised : Bool
  /-- logic BIST (R169): 0 none, 1 core 1, the comparators and the delay registers are tested, 2 core 0 is tested -/
  bist : Nat
  /-- a part has failed in the phase before -/
  bistFailed : Bool
  /-- the general registers of the cores and the address each goes on at (R157, R163) -/
  regs0 : List (Nat × Word)
  regs1 : List (Nat × Word)
  next0 : Nat
  next1 : Nat
  /-- the code TCMs, the data TCMs, and the words of the shared SRAM that the cores have written (R157, R602) -/
  code0 : List (Nat × Word)
  code1 : List (Nat × Word)
  tcm0 : List (Nat × Word)
  tcm1 : List (Nat × Word)
  sram : List (Nat × Word)
  /-- retirements of core 0 that core 1 has not matched, oldest first: at most three (R157, R158) -/
  delay : List DelayReg
  /-- the undo log, newest first: a word of a memory and its prior contents; the replay log, oldest first:
  transactions released and the data of loads (R162) -/
  undo : List (CoreMem × Nat × Word)
  replay : List (Transaction × Word)
  /-- transactions of the replay log that re-execution has passed (R165) -/
  replayed : Nat
  /-- the checkpoint store, newest first: at most two (R162), and the count at the newest -/
  store : List CoreState
  checkpointAt : Tick
deriving DecidableEq, Repr

/-- One scrubber (R602, R610 … R612, R622). -/
structure Scrubber where
  corrected : Nat
  uncorrected : Nat
  lastError : Word
  lap : Nat
  laps : Nat
  lapStart : Nat
  window : Nat
  windowRaised : Bool
  /-- the block and word of the next read -/
  block : Nat
  address : Nat
  /-- the blocks of the lap left out while they were filled, and that one of them is being read (R620) -/
  skipped : List Nat
  again : Bool
deriving DecidableEq, Repr

/-- Memory integrity and the temperature scan (R602 … R623). -/
structure Memory where
  scrubbers : Vector Scrubber 5
  /-- repaired words of fabric and AFE blocks: block, address, count tick of the first finding (R607) -/
  repaired : List (Nat × Nat × Nat)
  /-- words that read uncorrectable: block and word address (R603, R604) -/
  bad : List (Nat × Nat)
  /-- blocks whose fill runs (R609) -/
  filling : List Nat
  /-- the die the scan requested last (R615) -/
  lastScan : Nat
  scanRequest : Option Nat
deriving DecidableEq, Repr

/-- Service identity that changes (R671, R673). -/
structure Service where
  bootCount : Nat
  /-- seconds programmed in FL, and ticks counted since -/
  operatingTime : Nat
  unprogrammed : Nat
deriving DecidableEq, Repr


/-- The loop states of a traction loop (R214). -/
inductive LoopState where
  | open | starting | closed
deriving DecidableEq, Repr

/-- The code of TR_STATUS.LOOP (R226). -/
def LoopState.code : LoopState → Nat
  | .open => 0 | .starting => 1 | .closed => 2

/-- The carried state of a traction channel's entries (R197 … R203, R679): binary32 words unless stated. DESIGN
CHOICE, log entry 12. -/
structure Carried where
  /-- the period stamp of the last decision; none before the first (R679) -/
  stamp : Option Nat
  iAlpha : Word
  iBeta : Word
  psiVAlpha : Word
  psiVBeta : Word
  theta : Word
  omega : Word
  /-- previous comparator outputs φ0 and τ0 (R187, R188) -/
  phi : Bool
  tau : Int
  /-- the sector found last; 0 none since the region started (R190) -/
  sector : Nat
  /-- the vector in force (R192) -/
  vector : Nat
  /-- the latched residual with its period number (R202) -/
  eAlpha : Word
  eBeta : Word
  eStamp : Option Nat
  /-- position and speed latched with the sample, with their period number when valid (R202) -/
  capTheta : Word
  capSpeed : Word
  capStamp : Option Nat
  /-- the sensorless angles at the ends of the last 8 periods and at their beginning, in (−π, π], newest first (R185) -/
  angles : List Word
  /-- the last decision took its position from the sensorless model (R185) -/
  sensorless : Bool
deriving DecidableEq, Repr

/-- The sample of a traction channel: the words of one trigger as physical values (R177, R403). -/
structure TrSample where
  iU : Word
  iV : Word
  iW : Word
  vdc : Word
  vdcOk : Bool
  posOk : Bool
  theta : Word
  speed : Word
  /-- the clock of its arrival, and of the arrival of its VS1 word; none before the first (R249) -/
  at_ : Option Nat
  vdcAt : Option Nat
deriving DecidableEq, Repr

/-- The samples of the phase voltages during the observation of a flying start (R236): their number, the clocks of the first
and of the last, the last angle of eαβ in (−π, π], its unwrapped change since the first, the largest line back-EMF peak. -/
structure EmfWindow where
  count : Nat
  first : Nat
  last : Nat
  angle : Word
  turned : Word
  peak : Word
deriving DecidableEq, Repr

/-- One traction channel (R177 … R259). -/
structure Traction where
  loop : LoopState
  /-- a loop change accepted and not yet in effect: taken at the next boundary (R216) -/
  nextLoop : Option LoopState
  /-- the loop state at the last period boundary, which the decisions launched since follow (R216) -/
  atBoundary : LoopState
  speedMode : Bool
  openV0 : Bool
  /-- 0 encoder, 1 sensorless, 2 invalid (R226) -/
  position : Nat
  statSector : Nat
  statPhi : Bool
  statTau : Int
  statVector : Nat
  statBranch : Nat
  torqueEst : Word
  fluxEst : Word
  speedEst : Word
  switchRate : Word
  residual : Word
  /-- leg transitions of the last 400,000 ticks: count and number, newest first; the vector the legs were in at the last
  one, none with all six switches off (R225) -/
  transitions : List (Nat × Nat)
  legs : Option Nat
  /-- the output the last commit of the decision put in force: a vector, or all six switches off (R192, R215) -/
  output : Option Nat
  /-- the electrical power the channel committed last to the fabric exchange, in W (R310, R329) -/
  power : Word
  carried : Carried
  sample : TrSample
  /-- the pattern the supervisor wrote into the region (R186) -/
  patternSeen : Pattern
  -- references (R206 … R209)
  tref : Word
  psiRef : Word
  ramp : Word
  x1 : Word
  x2 : Word
  y1 : Word
  y2 : Word
  speedRef : Word
  integ : Word
  /-- the clamp acts: 1 on the positive bound, −1 on the negative, 0 not -/
  clampSide : Int
  -- bounds, field weakening, starts (R228 … R238)
  limPos : Word
  limNeg : Word
  limit : Nat
  fwTrim : Word
  idCmd : Word
  fwCount : Nat
  /-- 0 none, 1 observing, 2 braking (R258) -/
  catch_ : Nat
  startDir : Bool
  startSource : Nat
  startSpeed : Word
  /-- the clock at which observation began -/
  observeAt : Nat
  /-- the share of the last allocation in force (R211) -/
  share : Word
  -- patterns (R249 … R251)
  emfRatio : Word
  preselected : Pattern
  /-- PATTERN_OFF set by row 1 of R249 (R251) -/
  offByRow1 : Bool
  /-- svolt of the channel's own sample is held at 0 (R246) -/
  svoltHold : Bool
  /-- what a flying start has found: source, speed, angle (R236) -/
  startObs : Option (Nat × Word × Word)
  emf : EmfWindow
  -- plausibility (R219): ticks for which each check has been outside its envelope; the prediction of the current for the
  -- model's next period; the clock up to which a change of pattern suspends the current check
  outsideFor : Vector Nat 4
  plausAlpha : Word
  plausBeta : Word
  plausUntil : Nat
  missWindow : Nat
  missRaised : Bool
deriving DecidableEq, Repr

/-- The brake chopper and the DC link overvoltage watch (R239 … R248, R259). -/
structure Chopper where
  duty : Word
  /-- the duty in use in the current chopper period, and its switch -/
  dutyNow : Word
  switchNow : Nat
  resPower : Word
  resCap : Bool
  /-- 0 healthy, 1 open, 2 short, of GD34 and GD35 -/
  switch0 : Nat
  switch1 : Nat
  openCount0 : Nat
  openCount1 : Nat
  failed : Bool
  schop : Word
  svoltHold : Bool
  sregen : Word
  sregenValid : Bool
  /-- the chopper current has exceeded CH_SHORT_CURRENT with both switches commanded off since this clock (R242) -/
  shortSince : Option Nat
  vdc : Word
  /-- the clock at which the current chopper period began (R240) -/
  startedAt : Nat
  /-- chopper periods that have ended and that region 2 has not yet modelled and checked, oldest first: duty, switch, mean
  DC link voltage, mean current of the on-time (R241, R242) -/
  ended : List (Word × Nat × Word × Option Word)
deriving DecidableEq, Repr

/-- A counted edge of the current run: its count tick and the count after it (R279). -/
structure Edge where
  at_ : Nat
  count : Int
deriving DecidableEq, Repr

/-- An SSI frame on its way: the word with the state of its data line, the tick of its latch, the quadrature count and the
counts passed at the end of that tick, and the clock at which the last bit has been read (R276 … R278). -/
structure SsiFrame where
  word : Word
  lineBad : Bool
  tick : Nat
  count : Nat
  passed : Int
  readyAt : Nat
deriving DecidableEq, Repr

/-- One feedback port with its pass-through port (R261 … R291). -/
structure Feedback where
  /-- 0 unacquired, 1 acquiring, 2 acquired -/
  acquire : Nat
  posValid : Bool
  speedValid : Bool
  /-- ABZ count within the revolution, or 0 for a Hall source -/
  count : Nat
  revolutions : Int
  /-- Hall edge accumulator -/
  accumulator : Int
  /-- turns of the decoded angle, which a re-acquisition leaves standing: mechanical, electrical with source 5 (R287) -/
  turns : Int
  /-- quadrature counts passed; no correction of the count changes them (R279) -/
  passed : Int
  /-- an index of the present tick with the levels of A and B, evaluated when the edges of the tick are in (R285) -/
  indexPending : Option (Bool × Bool)
  /-- a frame whose latch tick is the present one, with the state of its data line: it meets the count behind the index of the
  tick (R278, R285) -/
  ssiPending : Option (Word × Bool)
  /-- the frame being read (R276) -/
  ssiReading : Option SsiFrame
  /-- the last legal Hall state, and the state as sampled (R268, R273) -/
  hall : Nat
  hallNow : Nat
  /-- last angle set by an edge or word, as an angle word, and its tick -/
  angle : Word
  angleAt : Nat
  edges : List Edge
  /-- no edge for FB_STANDSTILL_TIMEOUT (R279) -/
  stood : Bool
  decreasing : Bool
  indexSeen : Bool
  /-- source 2: the Hall start has happened (R275) -/
  hallStarted : Bool
  /-- index ignored until FB_INDEX_DEVIATION is cleared (R270) -/
  indexBlocked : Bool
  /-- source 4: the first valid word has set the count (R278) -/
  ssiStarted : Bool
  /-- counted edges in one direction since a Hall jump; none: no jump pending (R273) -/
  afterJump : Option Nat
  invalidSince : Option Nat
  overRange : Bool
  edgesSinceCapture : Nat
  ssiFresh : Bool
  ssiWord : Word
  ssiBad : Nat
  ssiAngle : Word
  ssiAt : Option Nat
  ssiSpeed : Word
  /-- ticks and unwrapped angles of valid words, newest first, back to the newest at least FB_SPEED_WINDOW older (R278) -/
  ssiTrail : List (Nat × Int)
  /-- broken lines, used or not: bit 0 A, 1 B, 2 Z, 3 Hall, 4 SSI (R281) -/
  broken : Nat
  /-- lines that have broken since FB_LINE_BREAK was last cleared (R281) -/
  lost : Nat
  indexDev : Int
  corrections : Nat
  errors : Nat
  overflow : Bool
  window : Nat
  windowRaised : Bool
  /-- the words of the last capture (R268, R290) -/
  capAngle : Word
  capSpeed : Word
  capStatus : Nat
  /-- EDGES, over-range and SSI_FRESH as the last capture took them, for an edge of the capture's own tick (R264, R285) -/
  capEdges : Nat
  capOver : Bool
  capFresh : Bool
  /-- regenerated output: emitted count and the clock of its last edge (R286, R287) -/
  epCount : Int
  epAt : Nat
  /-- the emitted count has yet to meet the decoded angle: 1 by whole revolutions after the port has begun anew, 2 outright
  after a change of the EP port (R286, R287) -/
  epStart : Nat
deriving DecidableEq, Repr

/-- The error and output histories of a compensator, newest first (R301). -/
structure Comp where
  e1 : Word
  e2 : Word
  e3 : Word
  u1 : Word
  u2 : Word
  u3 : Word
deriving DecidableEq, Repr

/-- One converter leg in the GDC and the AFE (R306 … R309, R427). -/
structure Leg where
  ipk : Word
  slope : Word
  /-- committed values waiting for the leg's next cycle (R309) -/
  nextIpk : Word
  nextSlope : Word
  /-- the low side is on since this clock; the high side is on otherwise -/
  lowOn : Bool
  onSince : Nat
  /-- the comparator ended the last on-time; the clock at which CV_DUTY_MAX last ended one (R341) -/
  trip : Bool
  dutyMaxAt : Option Nat
  /-- a cycle has begun since the loops closed -/
  cycling : Bool
deriving DecidableEq, Repr

/-- The DC link converter and the DC outlet (R296 … R316, R341). -/
structure Converter where
  closed : Bool
  /-- a loop change waits for the next boundary of region 2 (R298) -/
  nextClosed : Option Bool
  precharged : Bool
  /-- 0 not running, 1 waiting for Vbat and Vdc, 2 regulating (R311) -/
  precharge : Nat
  prechargeAt : Nat
  withinSince : Option Nat
  comp : Comp
  /-- the ramping reference of R305 and the effective one of R310 -/
  vrefRamp : Word
  vref : Word
  itot : Word
  vbat : Word
  vdc : Word
  ibat : Word
  limitCurrent : Bool
  limitPower : Bool
  limitVbat : Bool
  legs : Vector Leg 4
  legCurrents : Vector Word 4
  /-- 0 off, 1 ramping, 2 exporting -/
  outlet : Nat
  outletCurrent : Word
  outletVoltage : Word
  /-- the outlet power 0x060 committed last to the fabric exchange (R310) -/
  pdo : Word
  /-- CV_IPK: the mean peak current of the four legs as 0x060 last committed it (R340) -/
  ipk : Word
  /-- CV_STATUS as the last clean commit of 0x060 or 0x062 left it (R340, R341) -/
  shown : Word
  overloadSince : Option Nat
  outletVoltSince : Option Nat
  headroomSince : Option Nat
  /-- ticks for which each plausibility check has been outside its envelope (R315, R336) -/
  plausFor : Vector Nat 5
deriving DecidableEq, Repr

/-- The AC side at a clean commit of 0x073: the line voltages of VS2 … VS4, the phase currents, the line voltages formed
in export (R317, R326, R335). -/
structure AcSample where
  at_ : Nat
  lines : Vector Word 3
  amps : Vector Word 3
  formed : Vector Word 3
deriving DecidableEq, Repr

/-- The charger and AC export (R317 … R336, R342). -/
structure Charger where
  /-- CG_STATE, 0 … 9 (R328) -/
  state : Nat
  session : Bool
  /-- the session ends with this hand-over -/
  ending : Bool
  s2 : Bool
  pfClosed : Bool
  pvClosed : Bool
  dbClosed : Bool
  /-- PFC and DAB go off, PF, PV, DB close at the next period boundary of region 3 (R298, R333) -/
  offNext : Bool
  closePf : Bool
  closePv : Bool
  closeDb : Bool
  pf : Vector Comp 3
  pv : Comp
  db : Comp
  /-- 0 A … 5 F, 6 invalid -/
  pilot : Nat
  pilotDuty : Word
  /-- the duties of the last pilot periods, newest first: at most four (R323) -/
  pilotDuties : List Word
  digital : Bool
  proximity : Nat
  /-- the classifications last seen and how many in a row (R322, R324) -/
  pilotSeen : Nat × Nat
  proximitySeen : Nat × Nat
  /-- pilot, duty, digital request and proximity as classified, which the next clean commit of 0x073 takes (R38, R340) -/
  pilotIn : Nat
  dutyIn : Word
  digitalIn : Bool
  proximityIn : Nat
  /-- the AC side over the last nominal grid period, newest first -/
  acHist : List AcSample
  /-- the AC condition of R326 at the last sample, the rms line voltage -/
  acOk : Bool
  vll : Word
  /-- PFC duties of L1 … L3 (R318) -/
  pfDuty : Vector Word 3
  /-- since when the source condition fails, and whether the source is present (R326) -/
  failSince : Option Nat
  source : Bool
  presentSince : Option Nat
  entered : Nat
  /-- W in µs (R330) -/
  timerW : Nat
  timerHalf : Bool
  derated : Bool
  /-- 0 none, 1 constant current, 2 constant voltage, 3 complete -/
  phase : Nat
  target : Word
  integ : Word
  pref : Word
  endSince : Option Nat
  handStep : Nat
  handAt : Nat
  acAllowed : Word
  acPower : Word
  busVoltage : Word
  busRef : Word
  dabPhi : Word
  dabPower : Word
  ichg : Word
  vbat : Word
  /-- the formed phase voltage of AC export, that at the start of EXPORT_STOP, the milliseconds of the ramp, the angle in parts
  of 400,000,000 of a turn, and whether PF limits a phase current (R334, R335) -/
  exportV : Word
  exportFrom : Word
  exportStep : Nat
  formPhase : Nat
  limiting : Bool
  /-- the phase-locked loop: the grid angle in rad, the integral of its error in rad/s, the frequency in Hz (R317) -/
  gridAngle : Word
  gridInteg : Word
  gridFreq : Word
  limitSince : Option Nat
  apparentSince : Option Nat
  deviationSince : Option Nat
  quietSince : Option Nat
  /-- the last instance of 0x073 committed clean (R38, R326) -/
  heard : Bool
  /-- CG_STATUS, CG_TIMER_W and CG_P_REF as the last clean commit of 0x073 left them, CG_DAB_PHI as that of 0x071 (R340) -/
  shown : Word
  shownTimer : Nat
  shownRef : Word
  shownPhi : Word
  /-- an instance of 0x073 whose period contains a count divisible by 400,000 has committed clean and its evaluation has
  not been taken (R328) -/
  evalDue : Bool
  /-- ticks for which each plausibility check has been outside its envelope (R315, R336) -/
  plausFor : Vector Nat 5
deriving DecidableEq, Repr

/-- The states of GD_ISLAND_STATUS.STATE (R377). -/
inductive IslandState where
  | disabled | enabled | softOff | latched
deriving DecidableEq, Repr

/-- The code of GD_ISLAND_STATUS.STATE (R377). -/
def IslandState.code : IslandState → Nat
  | .disabled => 0 | .enabled => 1 | .softOff => 2 | .latched => 3

/-- One gate island (R345 … R369, R377, R677). -/
structure Island where
  state : IslandState
  /-- commanded state of the last good frame, and the output -/
  commanded : Bool
  output : Bool
  /-- the GDC's timing of the island: the level of the last edge placed, edges placed that have not reached the island with
  the clock of their placement, oldest first, the clock of the last turn-off placed and whether a pattern set it, since when
  a turn-on is asked for and not yet placed, whether a request for both switches of the leg has been served, the level the
  last edge has brought to the gate (R349 … R352) -/
  placed : Bool
  edges : List (Nat × Bool)
  offAt : Nat
  offByPattern : Bool
  askedAt : Option Nat
  served : Bool
  gateLevel : Bool
  /-- the clock at which `gateLevel` last rose (R349) -/
  gateAt : Nat
  /-- a reset frame of the GDC holds the output off until the next good frame, without a timeout (R354) -/
  waits : Bool
  /-- no good frame has reached the island, no good status frame the GDC, for 1,200 ticks (R354) -/
  linkDown : Bool
  statusDown : Bool
  /-- output turned off until the next good frame (R353) -/
  frameOff : Bool
  uvloPos : Bool
  uvloNeg : Bool
  railPosOk : Bool
  railNegOk : Bool
  /-- both rails have come into tolerance since entry to READY (R360) -/
  railsSeen : Bool
  /-- cause code 0 … 6 -/
  cause : Nat
  condition : Bool
  /-- the further causes that have latched since, a bit each, with the clock of the last one (R354, R367) -/
  also : Nat
  alsoAt : Nat
  selftest : Nat
  linkErrors : Nat
  window : Nat
  windowRaised : Bool
  /-- the clock of the turn-on edge, of the latch, of the last good frame in, of the last good status frame out -/
  onAt : Nat
  latchedAt : Nat
  goodFrameAt : Nat
  goodStatusAt : Nat
  /-- soft turn-off stage 1 … 3, 0 none, and the clock it began -/
  stage : Nat
  stageAt : Nat
  /-- the GDC knows of the latched fault (R364), or treats the island as latched (R354) -/
  reported : Bool
  /-- the further causes it knows of, a bit each -/
  alsoReported : Nat
  /-- the last two status frames seen by a pattern check (R582): how many in a row contradicted it -/
  contradicted : Nat
deriving DecidableEq, Repr

/-- The GDC's own running tests and timing (R355, R367, R371, R378). -/
structure GateCtl where
  /-- 0 idle, 1 island self-test, 2 GATE_DIAG -/
  test : Nat
  testIsland : Nat
  testAt : Nat
  /-- GATE_DIAG: channel, step 0 … 3 next to be measured, and the readings (R371) -/
  diagChannel : Nat
  diagStep : Nat
  diagVdc : Word
  diagReadings : List (List Word)
  /-- EN is observed since this clock (R355) -/
  enSeenAt : Nat
deriving DecidableEq, Repr

/-- One gearbox actuator (R380 … R400). -/
structure Actuator where
  closed : Bool
  nextClosed : Option Bool
  homed : Bool
  h0 : Int
  gear : Nat
  /-- 0 idle, 1 torque wait, 2 moving, 3 homing -/
  move : Nat
  /-- a timed move that starts at the next boundary of the region (R393) -/
  nextMove : Option Nat
  moveGear : Nat
  moveAt : Nat
  /-- the clock of the start of step 2 or of the last Hall edge while homing -/
  stepAt : Nat
  settleSince : Option Nat
  clamp : Bool
  ref : Word
  comp : Comp
  /-- committed demand, and the one in effect since the last valley (R383) -/
  u : Word
  uNow : Word
  duty : Word
  current : Word
  supply : Word
  /-- per leg: a pulse is forced around the last valley, around the next one (R384, R399) -/
  refreshing : Vector Bool 3
  refreshNext : Vector Bool 3
  /-- periods without a refresh, per leg U, V, W (R384) -/
  sinceRefresh : Vector Nat 3
  /-- legs whose bootstrap supply is below 7.5 V, bit per leg -/
  bootLow : Nat
  /-- leg states commanded by commutation: 0 off, 1 PWM, 2 low (R382) -/
  legs : Vector Nat 3
  /-- the clock of the last change of each leg's state: its turn-ons follow AX_DEAD_TIME later (R382) -/
  legsAt : Vector Nat 3
  /-- the gate of each leg that was on at that change, and may stay on: 0 none, 1 high, 2 low (R382) -/
  kept : Vector Nat 3
  /-- the clock of the last carrier valley, and the one up to which the low sides have been followed (R381, R384) -/
  valleyAt : Nat
  lowSeen : Nat
  /-- per leg: since when its low side is on without a break, refresh pulses apart, and the longest such run that reaches into
  the present carrier period (R384, R386) -/
  lowFrom : Vector (Option Nat) 3
  lowBest : Vector Nat 3
  /-- the last commit of 0x081 was clean: what it finds takes effect (R38) -/
  clean : Bool
  /-- the clock of the last ramp of the reference (R394) -/
  rampAt : Nat
deriving DecidableEq, Repr

/-! The control fabric (R27 … R41, R95 … R140) -/

/-- The structures that hold what the functions of the regions carry and commit, as one launch sees them, as a checkpoint
keeps them, as the fabric exchange publishes them (R39, R40, R70, R120). -/
structure Saved where
  traction : Vector Traction 2
  chopper : Chopper
  converter : Converter
  charger : Charger
  actuators : Vector Actuator 4
  live : Live
deriving DecidableEq, Repr

/-- An arrival at a collector input: what was delivered and the tick of its acceptance (R104, R105, R111). -/
inductive Item where
  | word (d : Deliver)
  | lane (second : Bool) (lane : Nat)
  | key (second : Bool) (key : Nat)
deriving DecidableEq, Repr

/-- A request pending at a collector input (R110). -/
structure Request where
  input : Nat
  entry : Nat
  /-- the launch instant of its instance, which with the entry names it (R72, R99) -/
  launch : Tick
  item : Item
deriving DecidableEq, Repr

/-- An instance of a launch-table entry in flight (R95). DESIGN CHOICE, log entry 26. -/
structure Instance where
  entry : Nat
  word0 : Word
  word1 : Word
  launch : Tick
  /-- the applicable commit instant (R99) -/
  commit : Tick
  period : Nat
  /-- run-ahead lanes are computed: not suspended (R108) -/
  lanesOn : Bool
  deferred : Bool
  /-- a deferral for a miss, which is counted (R106) -/
  missed : Bool
  notLaunched : Bool
  quenched : Bool
  /-- an access of a pass was blocked (R30), pass 1, pass 2 raised RANGE (R150), a pass read an uncorrectable word (R606) -/
  blocked : Bool
  range : Bool
  range2 : Bool
  invalid : Bool
  /-- at the commit instant a unit still waits for a written flag (R32) -/
  waiting : Bool
  /-- the sample words of its declaration that have arrived since its launch: trigger · 512 + code (R88, R105) -/
  arrived : List Nat
  accepted : List (Item × Tick)
  /-- the instance runs under the old epoch past the switch (R566 step 4) -/
  oldEpoch : Bool
  /-- the region state and the committed outputs of the other regions that its launch sees (R40, R70) -/
  seen : Saved
  /-- the words of the fabric exchange that its launch sees: region · 2^16 + entry · 64 + output word -/
  exchange : List (Nat × Word)
deriving DecidableEq, Repr

/-- The slack record of a launch-table entry (R128, R131) with its consecutive-fallback count (R123). -/
structure EntryRec where
  minSlack : Nat
  lastSlack : Nat
  minResolve : Nat
  lastResolve : Nat
  late : Nat
  saturated : Bool
  alarm : Bool
  resolveAlarm : Bool
  consec : Nat
  /-- the output words of its last clean commit (R118, R119) -/
  outputs : List (Nat × Word)
deriving DecidableEq, Repr

/-- A unit that executes an instance (R28, R99): the next operation of its program in pass 1 and in pass 2, and its
register window, where an unlisted register reads 0. An idle unit is not listed. -/
structure UnitRun where
  unit : Nat
  entry : Nat
  launch : Tick
  pc1 : Nat
  pc2 : Nat
  /-- operations it has started, which is where it stands in the library schedule of the two passes (R102) -/
  steps : Nat
  /-- the branch whose lane it computes in pass 1, in pass 2 (R103, R104) -/
  lane1 : Option Nat
  lane2 : Option Nat
  window : List (Nat × Word)
deriving DecidableEq, Repr

/-- A run-ahead lane in use (R103 … R109): its scratch words, the candidate output words and staged writes of its branch. -/
structure Lane where
  cluster : Nat
  number : Nat
  entry : Nat
  launch : Tick
  second : Bool
  branch : Nat
  /-- the unit that computes it (R104) -/
  unit : Option Nat
  words : List (Nat × Word)
  candidates : List Deliver
  /-- freed: the count from which a launch may use it again (R109) -/
  freeFrom : Option Nat
deriving DecidableEq, Repr

/-- The shared stores of a cluster: register-file entries whose written flag is set (R31), and scratch words. -/
structure Cluster where
  file : List (Nat × Word)
  scratch : List (Nat × Word)
deriving DecidableEq, Repr

/-- One region of the control fabric (R36 … R41, R95 … R140, R173). -/
structure Region where
  /-- the region has started: launch tables loaded, not before its first boundary (R44) -/
  started : Bool
  /-- loaded and waiting for its first boundary -/
  waiting : Bool
  /-- stopped by a fill, BIST, reset or transition -/
  held : Bool
  /-- clusters marked failed by a stuck unit (R100), by fabric BIST (R137) -/
  stuck : Nat
  failed : Nat
  checkpointValid : Bool
  rebuilding : Bool
  reloadAt : Bool
  fallbacks : Nat
  mismatches : Nat
  lates : Nat
  quenches : Nat
  misses : Nat
  skips : Nat
  ranges : Nat
  /-- fallbacks in the counting window (R125), and the fault raised in it -/
  window : Nat
  windowRaised : Bool
  /-- throttle level in effect since the last boundary (R134) -/
  level : Nat
  records : List (Nat × EntryRec)
  flight : List Instance
  requests : List Request
  units : List UnitRun
  lanes : List Lane
  clusters : Vector Cluster 4
  /-- region memory: word addresses rising, none equal to the fill value 0 (R605) -/
  memory : List (Nat × Word)
  /-- the checkpoint shadow of the carried-state area (R120) -/
  shadow : List (Nat × Word)
  /-- entries whose launch-table word is being rewritten (R606) -/
  affected : List Nat
  /-- the last sample word of each trigger and channel code: trigger · 512 + 256 · AFE + code (R404) -/
  samples : List (Nat × Word)
deriving DecidableEq, Repr

/-- What an instance commits, on its way: it takes effect 4 ticks after the commit instant (R70, R80). -/
structure Landing where
  /-- the clock at which it takes effect -/
  at_ : Nat
  region : Fin 8
  inst : Instance
  /-- a clean commit; otherwise the fallback output -/
  clean : Bool
  /-- the GDC was in reset at the commit instant: its output words have been dropped (R88) -/
  dropped : Bool
  /-- the sample words of the region at the commit instant, and the traction samples there (R105) -/
  samples : List (Nat × Word)
  arrived : Vector TrSample 2
deriving DecidableEq, Repr

/-- Committed outputs of a region on the fabric exchange, readable from a clock on (R40). -/
structure Publication where
  from_ : Nat
  region : Fin 8
  saved : Saved
  words : List (Nat × Word)
deriving DecidableEq, Repr

/-! The analog front ends (R401 … R439) -/

/-- A SAR slice (R412 … R415). -/
structure Slice where
  failed : Bool
  /-- the position it holds; none: a spare -/
  position : Option Nat
  /-- the clock of its last completed calibration -/
  calibratedAt : Nat
  /-- a spare whose calibration runs (R414) -/
  calibrating : Bool
  /-- channels it has converted since it entered its position, one bit each (R413) -/
  seen : Nat
  /-- it has been rotated in: its first word of each channel carries SPARE_ORIGIN -/
  rotated : Bool
  /-- the running sweep has still to calibrate it (R416) -/
  sweepDue : Bool
  /-- its own correction: gain and offset as last measured (R412, R414) -/
  gain : Word
  offset : Word
deriving DecidableEq, Repr

/-- A sampled comparator or one member of a short-window detector pair (R421 … R431, R438). -/
structure Member where
  /-- 0 UNRESOLVED, 1 clear, 2 tripped (R428) -/
  decision : Nat
  active : Bool
  failed : Bool
  underTest : Bool
  /-- the clock, in time spent in ARMED and RUN, of the pair's last passing self-test (R596) -/
  passedAt : Nat
deriving DecidableEq, Repr

/-- An entry of a result queue (R404) with the fabric dies that have still to take it (R411). -/
structure QueueEntry where
  word : Word
  cf0 : Bool
  cf1 : Bool
deriving DecidableEq, Repr

/-- A trigger that has fired and whose words wait for their entry tick (R405, R406). -/
structure Fired where
  trigger : Nat
  /-- T, the reference instant of its words -/
  at_ : Tick
  latency : Nat
  dest : Nat
  /-- the words in the order of R406: channel code, open wire, over-range, spare origin, stale, sample -/
  words : List Word
deriving DecidableEq, Repr

/-- A running twin test (R431): the pair or comparator under test. -/
structure TwinTest where
  detector : Bool
  /-- the member under test -/
  index : Nat
  /-- what the member is fed in step 2, in order: the level, or the sum z of a bit stream, and the bit of R432's word it
  stands for (2 trip, 1 hold, 0 release) -/
  steps : List (Int × Nat)
  /-- the test has passed: the member samples its input again (step 3) -/
  passed : Bool
  /-- the clock of that -/
  at_ : Nat
  /-- 16 samples later both members drive the path -/
  opened : Bool
deriving DecidableEq, Repr

/-- One analog front end. -/
structure Afe where
  slices : Vector Slice 20
  sweep : Bool
  rotatedAt : Nat
  queue : List QueueEntry
  discarded : Nat
  fired : List Fired
  comparators : Vector Member 32
  /-- members 2i and 2i + 1 belong to sigma-delta input i -/
  detectors : Vector Member 8
  /-- bit i: the modulator of input i is lost (R420) -/
  sdLost : Nat
  /-- consecutive open-wire words of SAR input c (R417) -/
  openWire : Vector Nat 32
  /-- last word of each SAR input, repeated with STALE (R415) -/
  last : Vector Word 32
  /-- the clock up to which each position converts (R405, R408, R413) -/
  busyTo : Vector Nat 18
  test : Option TwinTest
deriving DecidableEq, Repr

/-! The buses (R440 … R475) -/

/-- A frame pending in a transmit object (R446). -/
structure TxFrame where
  object : Nat
  head : FrameHead
  oneShot : Bool
  data : List Byte
  /-- an allocation frame: its instant and whether its one repeat has been offered (R500) -/
  instant : Option Tick
  repeated : Bool
deriving DecidableEq, Repr

/-- A received frame in a receive object or FIFO, its start-of-frame stamp in the header (R443, R450). -/
structure RxFrame where
  head : FrameHead
  data : List Byte
deriving DecidableEq, Repr

/-- One CAN port. -/
structure CanPort where
  recErr : Nat
  tecErr : Nat
  /-- 0 off, 1 error active, 2 error passive, 3 bus-off, 4 recovering, 5 sleep (R474) -/
  state : Nat
  txFail : Nat
  rxOverrun : Nat
  busOff : Nat
  hpOverrun : Nat
  tooLong : Nat
  down : Bool
  /-- the clock at which a frame of another module was last received; none since boot (R466) -/
  heardAt : Option Nat
  tx : List TxFrame
  /-- the header of the frame each transmit object sent last, with its stamp (R443, R450) -/
  sent : List (Nat × FrameHead)
  /-- the receive FIFOs, by number, oldest frame first (R445) -/
  rx : List (Nat × RxFrame)
  /-- the high-priority buffer of four frames (R449) -/
  hp : List RxFrame
deriving DecidableEq, Repr

/-- One Ethernet port (R467 … R473). -/
structure EthPort where
  linkUp : Bool
  sqi : Nat
  discards : Nat
deriving DecidableEq, Repr

/-- A TP or ETP transfer to the module on CN0 (R457). -/
structure TpSession where
  peer : Nat
  extended : Bool
  size : Nat
  /-- the number of the packet expected next, the last one of those cleared to send, and the packet number an ETP data offset
  stands for -/
  next : Nat
  window : Nat
  offset : Nat
  data : List Byte
  lastAt : Nat
deriving DecidableEq, Repr

/-- A TP transfer of the module on CN0 to a peer (R457). -/
structure TpSend where
  peer : Nat
  bytes : List Byte
  lastAt : Nat
deriving DecidableEq, Repr

/-- The ISOBUS control function on CN0 (R456 … R459). -/
structure Isobus where
  /-- the address held; 254 is the null address -/
  address : Nat
  claimed : Bool
  /-- what other control functions have claimed: address and NAME -/
  others : List (Nat × Nat)
  session : Option TpSession
  /-- the transfer of the module that runs, and those that wait for it: peer and bytes -/
  sending : Option TpSend
  waiting : List (Nat × List Byte)
  /-- a complete packet of a source address, on its way to the interpreter -/
  arrived : Option (Nat × List Byte)
  /-- the clock of the last DM1, and the codes and details of the faults active then -/
  dm1At : Option Nat
  dm1Set : List (Nat × Nat)
deriving DecidableEq, Repr

/-! The system (R476 … R512) -/

/-- The time states of a Tailstock (R485). -/
inductive TimeState where
  | unlocked | slewing | linkLock | wiredLock
deriving DecidableEq, Repr

/-- The code of SYS_STATUS.TIME (R511). -/
def TimeState.code : TimeState → Nat
  | .unlocked => 0 | .slewing => 1 | .linkLock => 2 | .wiredLock => 3

/-- What a module knows of a node from its STATUS (R464). -/
structure Node where
  /-- the clocks of its last frame and of its last STATUS -/
  heardAt : Option Nat
  statusAt : Option Nat
  /-- bytes 1 and 4 … 7 of its last STATUS -/
  admitted : Bool
  porch : Bool
  timeLocked : Bool
  hvil : Bool
  power : Nat
  epoch : Word
  /-- SYS_SET_CRC of the node as last read by a relayed READ_PARAM (R487 step 1) -/
  setCrc : Option Word
  conflict : Bool
  /-- the Headstock has measured its path delays on the node's first entry to the Porch (R479) -/
  measured : Bool
  /-- its STATUS says Headstock -/
  head : Bool
  /-- the shares of the allocation in force -/
  shareA : Word
  shareB : Word
deriving DecidableEq, Repr

/-- An allocation held for its instant (R501): node, share A, share B. -/
structure Allocation where
  instant : Tick
  shares : List (Nat × Word × Word)
  realloc : Bool
deriving DecidableEq, Repr

/-- A SYNC received and waiting for its SYNC_FU (R478). -/
structure SyncSeen where
  seq : Nat
  stamp : Tick
  at_ : Nat
deriving DecidableEq, Repr

/-- A path-delay measurement at the Headstock (R479, R480). -/
structure Measurement where
  /-- nodes still to be measured, the present one first -/
  nodes : List Nat
  /-- 0 CN2, 1 CN3 -/
  port : Nat
  /-- probes sent on this port, and the clock of the last -/
  sent : Nat
  sentAt : Nat
  /-- per probe: t1, t2, t3, t4 as they become known -/
  stamps : List (Option Tick × Option Tick × Option Tick × Option Tick)
deriving DecidableEq, Repr

/-- A copy of an axle-link frame seen within the last millisecond (R461). -/
structure Copy where
  ident : Nat
  sender : Nat
  seq : Nat
  at_ : Nat
deriving DecidableEq, Repr

/-- The system functions. -/
structure System where
  /-- listening after boot until this clock (R477) -/
  listening : Bool
  listenAt : Nat
  /-- silent on the axle link for good -/
  silenced : Bool
  headConflict : Bool
  nodeConflict : Bool
  /-- the clock of the module's own last STATUS; none before its first (R464, R486) -/
  statusAt : Option Nat
  /-- the Tailstock is admitted -/
  admitted : Bool
  /-- Headstock: bit n, node n admitted -/
  admittedMask : Nat
  nodes : Vector Node 16
  /-- Tailstock: the Headstock's ACTIVE number and SYS_SET_CRC as known, and the clock of its last frame -/
  headEpoch : Option Word
  headSetCrc : Option Word
  headAt : Option Nat
  -- time agreement (R478 … R485)
  timeState : TimeState
  samples : List Rat
  wired : List Rat
  lockCount : Nat
  unlockCount : Nat
  wiredCount : Nat
  missingPulses : Nat
  /-- the number of the SYNC counted last towards a lock; 256 none -/
  countedSeq : Nat
  sampleAt : Nat
  /-- the last instance of 0x0B0 fell back: allocation held, no rate correction (R118) -/
  rateHeld : Bool
  rate : Rat
  rateAt : Nat
  delays : Vector (Option Rat) 2
  /-- path delays in use from the next SYNC on (R479) -/
  newDelays : Vector (Option Rat) 2
  sync : Vector (Option SyncSeen) 2
  measurement : Option Measurement
  -- allocation (R498 … R505)
  held : List Allocation
  /-- instant of the last accepted allocation, reallocations included -/
  lastAccepted : Option Tick
  lastAllocTick : Tick
  allocAt : Option Nat
  stale : Bool
  lateCount : Nat
  /-- causes of R465 not yet sent in an EVENT, and the instant of the earliest -/
  causes : Nat
  causeAt : Tick
  /-- next sequence numbers by priority identifier (R461) -/
  seqs : List (Nat × Nat)
  /-- the number of the SYNC that the last number of SYNC_FU was for; 256 none -/
  fuOf : Nat
  /-- the axle-link port that went down last (R466) -/
  lastDown : Nat
  /-- the clock up to which TS is driven high (R483) -/
  tsUntil : Nat
  copies : List Copy
deriving DecidableEq, Repr

/-- What leaves the module during one command: a reply packet, a frame, a datagram, an edge. DESIGN CHOICE, log
entry 18. -/
inductive Out where
  /-- a datagram: interface, own address, destination, next hop, destination port, packet (R468) -/
  | udp (port source dest hop destPort : Nat) (words : List Word)
  /-- a serial frame with its delimiters (R522) -/
  | serial (bytes : List Byte)
  | frame (port : Nat) (head : FrameHead) (data : List Byte)
  | arp (port : Nat)
  | icmp (port dest length : Nat)
  /-- TS goes high for so many ticks (R483) -/
  | tsPulse (high : Nat)
  /-- the path delay of a port in ticks, on its way to a Tailstock (R479) -/
  | pathDelay (node port : Nat) (d : Rat)
deriving DecidableEq, Repr

/-- The hardware of one module. -/
structure Module where
  time : Timing
  supply : Supply
  straps : StrapsInUse
  dies : Vector Die 46
  epochs : Epochs
  live : Live
  interp : Interp
  faults : Faults
  regions : Vector Region 8
  /-- the 64 output words of the host-class entries -/
  hostOut : Vector Word 64
  crossings : Vector Crossing 22
  /-- commits on their way into the clocked domains and region memory (R70, R80) -/
  landings : List Landing
  /-- what launches read on the fabric exchange, and what becomes readable there (R40) -/
  published : Saved
  exchange : List (Nat × Word)
  publishing : List Publication
  /-- the checkpoints of what the functions carry, each part that of the region that serves the function (R120) -/
  checkpoints : Saved
  lockstep : Lockstep
  memory : Memory
  service : Service
  traction : Vector Traction 2
  chopper : Chopper
  feedback : Vector Feedback 6
  converter : Converter
  charger : Charger
  islands : Vector Island 36
  gate : GateCtl
  actuators : Vector Actuator 4
  afe : Vector Afe 2
  can : Vector CanPort 4
  eth : Vector EthPort 2
  isobus : Isobus
  sys : System
  /-- the clock of time spent in ARMED and RUN (R596) -/
  drivenTime : Nat
  /-- the MODEL's own: how many free values have been used (Config.freeWord) -/
  free : Nat
  /-- the MODEL's own: what left the module during the last command -/
  out : List Out
deriving DecidableEq, Repr

end Sys2Proof.Machine
end

