-- ==== Sys2Proof/Syntax.lean ====
section
/-!
DEFINITION. The commands the module takes: one constructor per row of the table, in its order. The first operand `dt` of each is
the real time in ticks of 2.5 ns that has passed since the command before it.
-/

namespace Sys2Proof

/-- A command from outside: a request of the host, an event on a pin, a bus or a wire, a moment of the module's
own clock. DESIGN CHOICE, log entry 50. -/
inductive Instr where
  /-- GET_STATUS (R532). -/
  | getStatus (dt : Nat) (r : Req)
  /-- ECHO (R531). -/
  | echo (dt : Nat) (r : Req)
  /-- READ_PARAM (R533). -/
  | readParam (dt : Nat) (r : Req)
  /-- READ_PARAM_BLOCK (R533). -/
  | readParamBlock (dt : Nat) (r : Req)
  /-- STAGE_PARAM (R534). -/
  | stageParam (dt : Nat) (r : Req)
  /-- WRITE_LIVE (R534). -/
  | writeLive (dt : Nat) (r : Req)
  /-- FABRIC_SUPPLY_WRITE (R45). -/
  | fabricSupplyWrite (dt : Nat) (h : Hdr) (instant : Tick) (d : Fin 2) (value : Word)
  /-- FABRIC_SUPPLY_CHANGE_DONE (R136). -/
  | fabricSupplyChangeDone (dt : Nat) (d : Fin 2)
  /-- FLOG_RECORD_SELECT (R595). -/
  | flogRecordSelect (dt : Nat) (h : Hdr) (instant : Tick) (value : Word)
  /-- FLOG_COUNT_SELECT (R595). -/
  | flogCountSelect (dt : Nat) (h : Hdr) (instant : Tick) (value : Word)
  /-- FLOG_ERASE (R595). -/
  | flogErase (dt : Nat) (h : Hdr) (instant : Tick)
  /-- FLOG_ERASE_DONE (R595). -/
  | flogEraseDone (dt : Nat)
  /-- OPEN_STAGING (R535). -/
  | openStaging (dt : Nat) (r : Req)
  /-- COMMIT_EPOCH_AT (R562). -/
  | commitEpochAt (dt : Nat) (r : Req)
  /-- DISCARD_STAGED (R560). -/
  | discardStaged (dt : Nat) (r : Req)
  /-- REVERT_EPOCH (R570). -/
  | revertEpoch (dt : Nat) (r : Req)
  /-- STAGE_LAUNCH (R78). -/
  | stageLaunch (dt : Nat) (r : Req)
  /-- READ_LAUNCH (R78). -/
  | readLaunch (dt : Nat) (r : Req)
  /-- EPOCH_CONFIRM (R494). -/
  | epochConfirm (dt : Nat) (r : Req)
  /-- SET_POWER_STATE (R549). -/
  | setPowerState (dt : Nat) (r : Req)
  /-- TORQUE_SETPOINT (R207). -/
  | torqueSetpoint (dt : Nat) (r : Req)
  /-- SPEED_SETPOINT (R207). -/
  | speedSetpoint (dt : Nat) (r : Req)
  /-- LOOP_OPEN (R537). -/
  | loopOpen (dt : Nat) (r : Req)
  /-- LOOP_CLOSE (R537). -/
  | loopClose (dt : Nat) (r : Req)
  /-- SHIFT_REQUEST (R394). -/
  | shiftRequest (dt : Nat) (r : Req)
  /-- PARK_LOCK (R393). -/
  | parkLock (dt : Nat) (r : Req)
  /-- CHARGE_START (R327). -/
  | chargeStart (dt : Nat) (r : Req)
  /-- CHARGE_STOP (R333). -/
  | chargeStop (dt : Nat) (r : Req)
  /-- EXPORT_START_AC (R334). -/
  | exportStartAc (dt : Nat) (h : Hdr)
  /-- EXPORT_START_DC (R315). -/
  | exportStartDc (dt : Nat) (h : Hdr)
  /-- EXPORT_STOP_AC (R335). -/
  | exportStopAc (dt : Nat) (h : Hdr)
  /-- EXPORT_STOP_DC (R316). -/
  | exportStopDc (dt : Nat) (h : Hdr)
  /-- MEASURE_TEMP (R539). -/
  | measureTemp (dt : Nat) (r : Req)
  /-- SELFTEST_SUP (R169). -/
  | selftestSup (dt : Nat) (h : Hdr)
  /-- SELFTEST_FABRIC (R137). -/
  | selftestFabric (dt : Nat) (h : Hdr) (d : Fin 2)
  /-- SELFTEST_ISLAND (R367). -/
  | selftestIsland (dt : Nat) (h : Hdr) (i : Fin 36)
  /-- SELFTEST_COMPARATOR_PAIR (R431). -/
  | selftestComparatorPair (dt : Nat) (h : Hdr) (a : Fin 2) (k : Fin 32)
  /-- SELFTEST_DETECTOR_PAIR (R431). -/
  | selftestDetectorPair (dt : Nat) (h : Hdr) (a : Fin 2) (i : Fin 4)
  /-- CALIBRATE (R416). -/
  | calibrate (dt : Nat) (r : Req)
  /-- READ_FAULTS (R540). -/
  | readFaults (dt : Nat) (r : Req)
  /-- ACK_FAULTS (R583). -/
  | ackFaults (dt : Nat) (r : Req)
  /-- FILL_MEMORY (R609). -/
  | fillMemory (dt : Nat) (r : Req)
  /-- SCRUB_CONTROL (R612). -/
  | scrubControl (dt : Nat) (h : Hdr) (sc : Fin 5)
  /-- SCRUB_RESTART (R612). -/
  | scrubRestart (dt : Nat) (h : Hdr) (sc : Fin 5)
  /-- READ_SLACK (R131). -/
  | readSlack (dt : Nat) (r : Req)
  /-- READ_SLACK_CLEAR (R129). -/
  | readSlackClear (dt : Nat) (r : Req)
  /-- GATE_DIAG (R371). -/
  | gateDiag (dt : Nat) (r : Req)
  /-- ADMIT_TAILSTOCK (R487). -/
  | admitTailstock (dt : Nat) (r : Req)
  /-- RELEASE_TAILSTOCK (R490). -/
  | releaseTailstock (dt : Nat) (r : Req)
  /-- TIME_SYNC (R480). -/
  | timeSync (dt : Nat) (r : Req)
  /-- TIME_SYNC_PROBE (R479). -/
  | timeSyncProbe (dt : Nat) (h : Hdr) (t2 : Tick) (t3 : Tick)
  /-- ALLOCATE_TORQUE (R498). -/
  | allocateTorque (dt : Nat) (r : Req)
  /-- RELAY (R541). -/
  | relay (dt : Nat) (r : Req)
  /-- DEBUG_ATTACH (R172). -/
  | debugAttach (dt : Nat) (r : Req)
  /-- RESET_DIE (R43). -/
  | resetDie (dt : Nat) (r : Req)
  /-- MODULE_RESTART (R43). -/
  | moduleRestart (dt : Nat) (h : Hdr) (b : Boot)
  /-- DIE_RESET_RELEASE (R44). -/
  | dieResetRelease (dt : Nat) (d : Fin 46)
  /-- PACKET_RECEIVED (R517). -/
  | packetReceived (dt : Nat) (t : Transport) (sender : Nat) (via : Via) (fromHead : Bool) (words : List Word) (stamps : Stamps)
  /-- PACKET_UNDECODABLE (R516). -/
  | packetUndecodable (dt : Nat)
  /-- TRANSPORT_QUEUE_FULL (R524). -/
  | transportQueueFull (dt : Nat) (t : Transport) (sender : Nat) (via : Via) (fromHead : Bool) (words : List Word) (stamps : Stamps)
  /-- SEGMENT_FRAME (R521). -/
  | segmentFrame (dt : Nat) (t : Transport) (sender : Nat) (via : Via) (fromHead : Bool) (bytes : List Byte) (stamps : Stamps)
  /-- SEGMENT_TIMEOUT (R521). -/
  | segmentTimeout (dt : Nat)
  /-- SV_FRAME (R522). -/
  | svFrame (dt : Nat) (bytes : List Byte)
  /-- REPLY_SEND (R515). -/
  | replySend (dt : Nat) (i : Nat)
  /-- TIMED_COMMAND_DUE (R528). -/
  | timedCommandDue (dt : Nat)
  /-- PERIOD_BOUNDARY (R68). -/
  | periodBoundary (dt : Nat) (n : Fin 8)
  /-- LAUNCH (R71). -/
  | launch (dt : Nat) (n : Fin 8) (e : Fin 512)
  /-- SAMPLE_WORD_ARRIVAL (R79). -/
  | sampleWordArrival (dt : Nat) (a : Fin 2) (d : Fin 2)
  /-- LANE_COMPLETE (R104). -/
  | laneComplete (dt : Nat) (n : Fin 8) (unit : Fin 16) (entry : Nat) (second : Bool) (branch : Nat)
  /-- RESOLVE_KEY (R105). -/
  | resolveKey (dt : Nat) (n : Fin 8) (unit : Fin 16) (entry : Nat) (second : Bool) (key : Fin 32)
  /-- COLLECTOR_ACCEPT (R111). -/
  | collectorAccept (dt : Nat) (n : Fin 8) (moments : List (List (Nat × Bool))) (upsets : List (Nat × Nat × Word))
  /-- COMMIT_INSTANT (R113). -/
  | commitInstant (dt : Nat) (n : Fin 8)
  /-- DEFERRED_COMMIT (R106). -/
  | deferredCommit (dt : Nat) (n : Fin 8)
  /-- FABRIC_UNIT_STUCK (R100). -/
  | fabricUnitStuck (dt : Nat) (n : Fin 8) (u : Fin 16)
  /-- FABRIC_FALLBACK_RATE (R125). -/
  | fabricFallbackRate (dt : Nat) (n : Fin 8)
  /-- COUNT_WINDOW_END (R125). -/
  | countWindowEnd (dt : Nat)
  /-- FABRIC_CHECKPOINT_ERROR (R122). -/
  | fabricCheckpointError (dt : Nat) (n : Fin 8)
  /-- CHECKPOINT_REBUILT (R122). -/
  | checkpointRebuilt (dt : Nat) (n : Fin 8)
  /-- FABRIC_BIST_DONE (R137). -/
  | fabricBistDone (dt : Nat) (d : Fin 2) (failed : Nat)
  /-- SUP_BIST_DONE (R169). -/
  | supBistDone (dt : Nat) (core : Bool) (main : Bool) (fallback : Bool) (parity : Bool)
  /-- XING_EVENT_OVERFLOW (R83). -/
  | xingEventOverflow (dt : Nat) (i : Fin 22)
  /-- CROSSING_STALL_TIMEOUT (R85). -/
  | crossingStallTimeout (dt : Nat) (d : Fin 46)
  /-- SPINDLE_TS_REF_LOST (R66). -/
  | spindleTsRefLost (dt : Nat)
  /-- SPINDLE_REF_LOST (R66). -/
  | spindleRefLost (dt : Nat)
  /-- SPINDLE_LOST (R66). -/
  | spindleLost (dt : Nat)
  /-- LOCKSTEP_CHECKPOINT (R163). -/
  | lockstepCheckpoint (dt : Nat) (main : Bool) (fallback : Bool) (parity : Bool) (ran : List Retirement)
  /-- LOCKSTEP_MISMATCH (R165). -/
  | lockstepMismatch (dt : Nat) (ran : List Retirement)
  /-- SUP_LOCKSTEP_LOST (R166). -/
  | supLockstepLost (dt : Nat) (ran : List Retirement)
  /-- FLYING_START (R236). -/
  | flyingStart (dt : Nat) (c : Fin 2)
  /-- TR_PLAUS_DWELL_EXPIRY (R219). -/
  | trPlausDwellExpiry (dt : Nat) (c : Fin 2) (k : Machine.TrCheck)
  /-- PRESELECT_UPDATE (R250). -/
  | preselectUpdate (dt : Nat)
  /-- ISLAND_HEALTH_CHANGE (R250). -/
  | islandHealthChange (dt : Nat) (i : Fin 36)
  /-- PATTERN_REEVALUATION (R251). -/
  | patternReevaluation (dt : Nat) (c : Fin 2)
  /-- PATTERN_WRITE_TO_REGION (R186). -/
  | patternWriteToRegion (dt : Nat) (c : Fin 2)
  /-- CHOPPER_PERIOD (R240). -/
  | chopperPeriod (dt : Nat) (vdc : Word) (current : Option Word)
  /-- CH_SWITCH_SHORT (R242). -/
  | chSwitchShort (dt : Nat)
  /-- CHOPPER_BACKSTOP (R245). -/
  | chopperBackstop (dt : Nat)
  /-- DCL_OV1 (R247). -/
  | dclOv1 (dt : Nat)
  /-- DCL_OV2 (R248). -/
  | dclOv2 (dt : Nat)
  /-- FB_EDGE (R269). -/
  | fbEdge (dt : Nat) (p : Fin 6) (e : PortEdge) (held : Nat)
  /-- FB_INDEX (R270). -/
  | fbIndex (dt : Nat) (p : Fin 6) (aHigh : Bool) (bHigh : Bool) (held : Nat)
  /-- FB_HALL_INVALID (R273). -/
  | fbHallInvalid (dt : Nat) (p : Fin 6)
  /-- SSI_FRAME (R276). -/
  | ssiFrame (dt : Nat) (p : Fin 6) (w : Word) (lineBad : Bool)
  /-- FB_STANDSTILL_TIMEOUT (R279). -/
  | fbStandstillTimeout (dt : Nat) (p : Fin 6)
  /-- FB_LINE_BREAK (R281). -/
  | fbLineBreak (dt : Nat) (p : Fin 6) (l : Fin 5)
  /-- FB_EP_OVERRUN (R287). -/
  | fbEpOverrun (dt : Nat) (p : Fin 2)
  /-- CONVERTER_CYCLE_START (R306). -/
  | converterCycleStart (dt : Nat) (j : Fin 4)
  /-- DI_COMPARATOR_TRIP (R427). -/
  | diComparatorTrip (dt : Nat) (j : Fin 4) (levels : List Word)
  /-- DUTY_MAX_END (R306). -/
  | dutyMaxEnd (dt : Nat) (j : Fin 4)
  /-- PRECHARGE_COMPLETE (R311). -/
  | prechargeComplete (dt : Nat)
  /-- CV_PRECHARGE_FAIL (R311). -/
  | cvPrechargeFail (dt : Nat)
  /-- DC_EXPORT_END (R316). -/
  | dcExportEnd (dt : Nat) (k : Machine.OutletEnd)
  /-- PILOT_CLASSIFY (R322). -/
  | pilotClassify (dt : Nat) (p : PilotLine)
  /-- PROXIMITY_CLASSIFY (R324). -/
  | proximityClassify (dt : Nat) (resistance : Word)
  /-- SOURCE_LOST (R326). -/
  | sourceLost (dt : Nat)
  /-- CH_STATE_EVALUATION (R328). -/
  | chStateEvaluation (dt : Nat)
  /-- CV_CG_PLAUS_DWELL_EXPIRY (R336). -/
  | cvCgPlausDwellExpiry (dt : Nat) (k : Machine.CvCheck)
  /-- ISLAND_FRAME (R353). -/
  | islandFrame (dt : Nat) (i : Fin 36) (good : Bool)
  /-- ISLAND_STATUS_FRAME (R364). -/
  | islandStatusFrame (dt : Nat) (i : Fin 36) (good : Bool)
  /-- GD_LINK_LOST (R354). -/
  | gdLinkLost (dt : Nat) (i : Fin 36) (atGdc : Bool)
  /-- EN_FALL (R355). -/
  | enFall (dt : Nat)
  /-- EN_RISE (R357). -/
  | enRise (dt : Nat)
  /-- GD_UVLO (R359). -/
  | gdUvlo (dt : Nat) (i : Fin 36) (pos : Bool)
  /-- ISLAND_RAIL_TIMEOUT (R360). -/
  | islandRailTimeout (dt : Nat) (i : Fin 36)
  /-- GD_DESAT (R361). -/
  | gdDesat (dt : Nat) (i : Fin 36)
  /-- GD_HARD_SHORT (R362). -/
  | gdHardShort (dt : Nat) (i : Fin 36)
  /-- SOFT_TURN_OFF_STAGE (R363). -/
  | softTurnOffStage (dt : Nat) (i : Fin 36)
  /-- ISLAND_SELFTEST_DONE (R367). -/
  | islandSelftestDone (dt : Nat) (desat : Bool) (hard : Bool) (pos : Bool) (neg : Bool) (sto : Bool)
  /-- GATE_DIAG_STEP (R371). -/
  | gateDiagStep (dt : Nat) (u : Word) (v : Word) (w : Word)
  /-- HALL_COMMUTATION (R382). -/
  | hallCommutation (dt : Nat) (a : Fin 4)
  /-- ACTUATOR_CARRIER_VALLEY (R383). -/
  | actuatorCarrierValley (dt : Nat) (a : Fin 4) (iu : Word) (iv : Word) (iw : Word) (vax : Word)
  /-- AX_BOOT_UVLO (R385). -/
  | axBootUvlo (dt : Nat) (a : Fin 4) (leg : Fin 3)
  /-- AX_POSITION_LOST (R389). -/
  | axPositionLost (dt : Nat) (a : Fin 4)
  /-- HOMING_STALL (R390). -/
  | homingStall (dt : Nat) (a : Fin 4)
  /-- AX_MOVE_TIMEOUT (R394). -/
  | axMoveTimeout (dt : Nat) (a : Fin 4)
  /-- MOVE_COMPLETE (R394). -/
  | moveComplete (dt : Nat) (a : Fin 4)
  /-- AFE_TRIGGER (R405). -/
  | afeTrigger (dt : Nat) (a : Fin 2) (t : Fin 64) (sar : List (BitVec 16)) (pv : List (BitVec 16)) (sd : List Nat)
  /-- QUEUE_ENTRY (R406). -/
  | queueEntry (dt : Nat) (a : Fin 2)
  /-- SLICE_ROTATION (R413). -/
  | sliceRotation (dt : Nat) (a : Fin 2)
  /-- SLICE_CALIBRATION_DONE (R414). -/
  | sliceCalibrationDone (dt : Nat) (a : Fin 2) (i : Fin 20) (gain : Word) (offset : Word) (inl : Word)
  /-- AFE_SD_LOST (R420). -/
  | afeSdLost (dt : Nat) (a : Fin 2) (i : Fin 4)
  /-- SD_DETECTOR_TRIP (R421). -/
  | sdDetectorTrip (dt : Nat) (a : Fin 2) (k : Fin 8) (window : Nat)
  /-- PROTECTION_COMPARATOR_TRIP (R430). -/
  | protectionComparatorTrip (dt : Nat) (a : Fin 2) (k : Fin 32) (levels : List Word)
  /-- COMPARATOR_RELEASE (R422). -/
  | comparatorRelease (dt : Nat) (a : Fin 2) (k : Machine.MemberId) (levels : List Word) (window : Nat)
  /-- TWIN_TEST_DONE (R431). -/
  | twinTestDone (dt : Nat) (a : Fin 2) (reads : List Bool)
  /-- CAN_FRAME_RECEIVED (R444). -/
  | canFrameReceived (dt : Nat) (p : Fin 4) (f : CanFrame) (stamp : Tick) (taken : Nat)
  /-- CAN_FRAME_TRANSMITTED (R446). -/
  | canFrameTransmitted (dt : Nat) (p : Fin 4) (stamp : Tick) (error : Bool)
  /-- ONE_SHOT_FAIL (R447). -/
  | oneShotFail (dt : Nat) (p : Fin 4) (error : Bool)
  /-- BUS_OBJECT_ECC (R448). -/
  | busObjectEcc (dt : Nat) (p : Fin 4) (object : Fin 256)
  /-- HP_BUFFER_FRAME (R449). -/
  | hpBufferFrame (dt : Nat) (p : Fin 2) (n : Fin 16) (stamp : Tick) (data : List Byte) (taken : Nat)
  /-- BUS_OFF (R452). -/
  | busOff (dt : Nat) (p : Fin 4)
  /-- BUS_OFF_RECOVERY (R452). -/
  | busOffRecovery (dt : Nat) (p : Fin 4) (seen : Nat)
  /-- BUS_WAKE (R454). -/
  | busWake (dt : Nat) (p : Fin 4) (c : WakeCause) (b : Boot)
  /-- ADDRESS_CLAIM (R456). -/
  | addressClaim (dt : Nat) (a : Option (Fin 254))
  /-- DM1_SEND (R458). -/
  | dm1Send (dt : Nat)
  /-- AXLE_LINK_FRAME (R461). -/
  | axleLinkFrame (dt : Nat) (p : Fin 2) (n : Fin 16) (seq : Byte) (k : AxlePayload)
  /-- AL_PORT_DOWN (R466). -/
  | alPortDown (dt : Nat) (p : Fin 2)
  /-- ETHERNET_DATAGRAM (R468). -/
  | ethernetDatagram (dt : Nat) (e : Fin 2) (f : EthFrame)
  /-- ET_LINK_DOWN (R469). -/
  | etLinkDown (dt : Nat) (e : Fin 2)
  /-- SYNC_SEND (R476). -/
  | syncSend (dt : Nat)
  /-- SYNC_RECEIVED (R478). -/
  | syncReceived (dt : Nat) (p : Fin 2) (n : Fin 16) (seq : Byte) (of_ : Byte) (rx : Tick) (tx : Tick) (gap : Nat)
  /-- WIRED_SYNC_EDGE (R483). -/
  | wiredSyncEdge (dt : Nat) (edge : Nat)
  /-- SYNC_HOLDOVER_EXPIRY (R485). -/
  | syncHoldoverExpiry (dt : Nat)
  /-- LISTEN_PERIOD_END (R477). -/
  | listenPeriodEnd (dt : Nat)
  /-- STATUS_SEND (R464). -/
  | statusSend (dt : Nat)
  /-- EVENT_SEND (R465). -/
  | eventSend (dt : Nat)
  /-- ADMISSION_LOSS (R491). -/
  | admissionLoss (dt : Nat) (c : LossCause)
  /-- NODE_REMOVAL (R503). -/
  | nodeRemoval (dt : Nat) (n : Fin 16)
  /-- ALLOCATION_INSTANT (R501). -/
  | allocationInstant (dt : Nat)
  /-- SYS_ALLOC_STALE (R502). -/
  | sysAllocStale (dt : Nat)
  /-- COMMIT_VOTE_DEADLINE (R494). -/
  | commitVoteDeadline (dt : Nat)
  /-- COMMIT_CONFIRM_DEADLINE (R494). -/
  | commitConfirmDeadline (dt : Nat)
  /-- EPOCH_SWITCH (R566). -/
  | epochSwitch (dt : Nat) (head : Option Word)
  /-- EPOCH_FLASH_DONE (R567). -/
  | epochFlashDone (dt : Nat)
  /-- EPOCH_FLASH_FAIL (R567). -/
  | epochFlashFail (dt : Nat)
  /-- PWR_TRANSITION_FAIL (R551). -/
  | pwrTransitionFail (dt : Nat)
  /-- START_UP (R553). -/
  | startUp (dt : Nat) (b : Boot) (lvin : Word)
  /-- LVIN_LOST (R555). -/
  | lvinLost (dt : Nat) (lvin : Word)
  /-- LVIN_RETURN (R638). -/
  | lvinReturn (dt : Nat) (lvin : Word)
  /-- HVAUX_LOST (R639). -/
  | hvauxLost (dt : Nat) (hvaux : Word)
  /-- HVIL_CHANGE (R642). -/
  | hvilChange (dt : Nat) (current : Word)
  /-- FB_SUPPLY_LIMIT (R630). -/
  | fbSupplyLimit (dt : Nat) (p : PortSupply)
  /-- SV_RATE_CHANGE (R649). -/
  | svRateChange (dt : Nat)
  /-- PATTERN_VERIFY (R582). -/
  | patternVerify (dt : Nat) (i : Fin 36) (on : Bool)
  /-- FAULT_RAISED (R575). -/
  | faultRaised (dt : Nat) (code : Nat) (detail : Nat) (cond : Bool)
  /-- FLOG_PROGRAM (R593). -/
  | flogProgram (dt : Nat) (ok : Bool)
  /-- TWIN_TEST_OVERDUE (R596). -/
  | twinTestOverdue (dt : Nat) (a : Fin 2) (detector : Bool) (pair : Nat)
  /-- MEMORY_READ_ERROR (R603). -/
  | memoryReadError (dt : Nat) (block : Nat) (addr : Nat) (bad : Bool) (scrub : Bool) (entry : Nat)
  /-- SCRUB_TICK (R610). -/
  | scrubTick (dt : Nat) (sc : Fin 5)
  /-- MEM_SCRUB_LAP (R611). -/
  | memScrubLap (dt : Nat) (sc : Fin 5)
  /-- FILL_DONE (R609). -/
  | fillDone (dt : Nat) (d : Fin 46)
  /-- TEMP_MEASUREMENT (R613). -/
  | tempMeasurement (dt : Nat) (d : Fin 46) (v10 : Word) (v100 : Word) (temp : Word)
  /-- THERM_STALE (R616). -/
  | thermStale (dt : Nat) (d : Fin 46)
  /-- POWER_TRANSITION_PROGRESS (R551). -/
  | powerTransitionProgress (dt : Nat) (b : Boot)
  /-- HVAUX_RETURN (R637). -/
  | hvauxReturn (dt : Nat) (hvaux : Word)
  /-- HOLDUP_STORE_CHARGED (R637). -/
  | holdupStoreCharged (dt : Nat)
  /-- DIE_SUPPLY_CHANGE (R23). -/
  | dieSupplyChange (dt : Nat) (d : Fin 46) (ok : Bool)
  /-- REFERENCE_RECOVERY (R66). -/
  | referenceRecovery (dt : Nat) (crystal : Bool)
  /-- FB_LINE_RESTORED (R281). -/
  | fbLineRestored (dt : Nat) (p : Fin 6) (l : Fin 5)
  /-- FB_SUPPLY_RECOVERY (R630). -/
  | fbSupplyRecovery (dt : Nat) (p : PortSupply)
  /-- SD_MODULATOR_RECOVERY (R420). -/
  | sdModulatorRecovery (dt : Nat) (a : Fin 2) (i : Fin 4)
  /-- UVLO_RECOVERY (R359). -/
  | uvloRecovery (dt : Nat) (i : Fin 36) (pos : Bool)
  /-- BOOT_UVLO_RELEASE (R385). -/
  | bootUvloRelease (dt : Nat) (a : Fin 4) (leg : Fin 3)
  /-- ET_LINK_UP (R469). -/
  | etLinkUp (dt : Nat) (e : Fin 2) (sqi : Fin 8)
  /-- TP_SESSION_TIMEOUT (R457). -/
  | tpSessionTimeout (dt : Nat)
  /-- WIRED_SYNC_PULSE_MISSING (R483). -/
  | wiredSyncPulseMissing (dt : Nat)
  /-- DELAY_PROBE (R479). -/
  | delayProbe (dt : Nat) (k : ProbeStep)
  /-- TAILSTOCK_REPLY_TIMEOUT (R541). -/
  | tailstockReplyTimeout (dt : Nat)
  /-- WORD_REWRITE (R606). -/
  | wordRewrite (dt : Nat) (block : Nat) (addr : Nat)
  /-- OPERATING_TIME_PROGRAM (R673). -/
  | operatingTimeProgram (dt : Nat)
deriving DecidableEq, Repr

end Sys2Proof
end

