-- ==== Sys2Proof/Decode.lean ====
section
/-!
DEFINITION. The command a word of the command table spells. The table gives none of its rows bits, so no word spells one;
the packets of the host's commands are decoded in Machine/Operands.lean and Machine/Interp.lean.
-/

namespace Sys2Proof

/-- The command that the `nbits` bits of `w` spell: none, for every word. DEDUCED, log entry 10. -/
def decodeTableWord (_nbits _w : Nat) : Option Instr := none

end Sys2Proof
end

