-- ==== Sys2Proof/Machine/Bits.lean ====
section
/-!
DEFINITION. Bit fields, two-word instants, saturating counters and the CRC-32C that every check of the module uses.
-/

namespace Sys2Proof.Machine

/-- The bits `[msb:lsb]` of a word as a number (R9). -/
def bits (w : Word) (msb lsb : Nat) : Nat := (w.toNat >>> lsb) % 2 ^ (msb + 1 - lsb)

/-- Bit `i` of a word. -/
def bit (w : Word) (i : Nat) : Bool := w.toNat.testBit i

/-- A word from its fields, each a value and the bit its lowest bit lies at; the fields of a map do not overlap. -/
def pack (fs : List (Nat × Nat)) : Word :=
  BitVec.ofNat 32 (fs.foldl (fun a f => a + f.1 * 2 ^ f.2) 0)

/-- The number of a flag, 0 or 1. -/
def flag (b : Bool) : Nat := if b then 1 else 0

/-- The word of a number, modulo 2^32. -/
def word (n : Nat) : Word := BitVec.ofNat 32 n

/-- The low word of a tick64 value, which comes first (R13). -/
def tickLow (t : Tick) : Word := BitVec.ofNat 32 t.toNat

/-- The high word of a tick64 value. -/
def tickHigh (t : Tick) : Word := BitVec.ofNat 32 (t.toNat / 2 ^ 32)

/-- The two words of a tick64 value, low word first (R13). -/
def tickWords (t : Tick) : List Word := [tickLow t, tickHigh t]

/-- The tick64 value of a low and a high word (R13). -/
def tickOf (lo hi : Word) : Tick := BitVec.ofNat 64 (lo.toNat + hi.toNat * 2 ^ 32)

/-- A counter that saturates at `max` (R18). -/
def satAdd (max n k : Nat) : Nat := Nat.min max (n + k)

/-- A 32-bit counter increased by one, saturating (R18). -/
def inc32 (n : Nat) : Nat := satAdd 0xFFFFFFFF n 1

/-- A 16-bit counter increased by one, saturating (R18). -/
def inc16 (n : Nat) : Nat := satAdd 0xFFFF n 1

/-- The four bytes of a word, least significant first (R14). -/
def wordBytes (w : Word) : List Byte :=
  [BitVec.ofNat 8 w.toNat, BitVec.ofNat 8 (w.toNat / 2 ^ 8), BitVec.ofNat 8 (w.toNat / 2 ^ 16),
   BitVec.ofNat 8 (w.toNat / 2 ^ 24)]

/-- The words of a byte sequence, four bytes to a word, least significant first (R14); a remainder of fewer than
four bytes gives none. -/
def bytesWords : List Byte → Option (List Word)
  | [] => some []
  | a :: b :: c :: d :: rest =>
    (bytesWords rest).map
      (word (a.toNat + b.toNat * 2 ^ 8 + c.toNat * 2 ^ 16 + d.toNat * 2 ^ 24) :: ·)
  | _ => none

/-- One bit step of the reflected Castagnoli polynomial 0x1EDC6F41, whose reflection is 0x82F63B78. -/
def crcBit (c : Nat) : Nat := if c % 2 = 1 then (c / 2) ^^^ 0x82F63B78 else c / 2

/-- One byte step of the CRC-32C. -/
def crcByte (c : Nat) (b : Byte) : Nat :=
  crcBit (crcBit (crcBit (crcBit (crcBit (crcBit (crcBit (crcBit (c ^^^ b.toNat))))))))

/-- CRC-32C over bytes: initial value and final exclusive-or 0xFFFFFFFF (the scope chapter). -/
def crc32cBytes (bs : List Byte) : Word := word ((bs.foldl crcByte 0xFFFFFFFF) ^^^ 0xFFFFFFFF)

/-- CRC-32C over words, each least significant byte first (R514, R556). -/
def crc32c (ws : List Word) : Word := crc32cBytes (ws.flatMap wordBytes)

/-- The sign-extended value of the low `n` bits of a number. -/
def sext (n v : Nat) : Int :=
  let m := v % 2 ^ n
  if m < 2 ^ (n - 1) then (m : Int) else (m : Int) - (2 ^ n : Nat)

/-- A word as a two's-complement integer (the i32 format of R13). -/
def i32 (w : Word) : Int := w.toInt

/-- The word of an integer in two's complement. -/
def i32Word (i : Int) : Word := BitVec.ofInt 32 i

/-- The number of set bits among the low `n` bits. -/
def popcount (n v : Nat) : Nat := ((List.range n).filter (fun i => v.testBit i)).length

/-- The positions of the set bits among the low `n` bits, lowest first. -/
def setBits (n v : Nat) : List Nat := (List.range n).filter (fun i => v.testBit i)

/-- A mask built from positions. -/
def maskOf (n : Nat) (p : Nat → Bool) : Nat :=
  (List.range n).foldl (fun a i => if p i then a + 2 ^ i else a) 0

end Sys2Proof.Machine
end

