-- ==== Sys2Proof/Machine/F32.lean ====
section
/-!
DEFINITION. Binary32 values as words (R13): ordering, the exact dyadic value of a finite word, rounding to nearest
with ties to even, and the operations of the fabric units with their zero and band rules (R147, R148).
Every function computes on natural numbers and integers, so that a value can be evaluated.
-/

namespace Sys2Proof.Machine.F32

/-- An exact value m · 2^e. -/
structure Dy where
  m : Int
  e : Int
deriving DecidableEq, Repr

/-- The exponent field of a word. -/
def expo (w : Word) : Nat := (w.toNat / 2 ^ 23) % 256

/-- The fraction field of a word. -/
def frac (w : Word) : Nat := w.toNat % 2 ^ 23

/-- The sign bit of a word. -/
def neg (w : Word) : Bool := w.toNat.testBit 31

/-- NaN or infinity, which no written value may be (R16). -/
def nonFinite (w : Word) : Bool := expo w == 255

/-- A NaN. -/
def isNaN (w : Word) : Bool := expo w == 255 && frac w != 0

/-- The NaN an unmeasured temperature reads as (R539). -/
def nan : Word := 0x7FC00000

/-- A word with −0.0 stored as +0.0 (R16). -/
def normZero (w : Word) : Word := if w = 0x80000000 then 0 else w

/-- The exact value of a finite word. -/
def dy (w : Word) : Dy :=
  let mag : Nat := if expo w = 0 then frac w else frac w + 2 ^ 23
  let e : Int := (if expo w = 0 then 1 else (expo w : Int)) - 150
  { m := if neg w then -(mag : Int) else (mag : Int), e := e }

/-- An order key of a finite word: the words are ordered as their values are (R674). -/
def key (w : Word) : Int :=
  let mag : Nat := w.toNat % 2 ^ 31
  if neg w then -(mag : Int) else (mag : Int)

/-- a < b of finite binary32 values. -/
def lt (a b : Word) : Bool := key a < key b

/-- a ≤ b of finite binary32 values. -/
def le (a b : Word) : Bool := key a ≤ key b

/-- The smaller of two values. -/
def fmin (a b : Word) : Word := if le a b then a else b

/-- The larger of two values. -/
def fmax (a b : Word) : Word := if le a b then b else a

/-- The value limited to lo … hi. -/
def clamp (x lo hi : Word) : Word := fmin (fmax x lo) hi

/-- The magnitude of a value. -/
def abs (w : Word) : Word := word (w.toNat % 2 ^ 31)

/-- The value with its sign changed; zero stays +0 (R147). -/
def negate (w : Word) : Word := if w.toNat % 2 ^ 31 = 0 then 0 else w ^^^ 0x80000000

/-- n / 2^k rounded to nearest, ties to even, with `sticky` marking a non-zero remainder already dropped. -/
def rneShift (n k : Nat) (sticky : Bool) : Nat :=
  match k with
  | 0 => n
  | k' + 1 =>
    let q := n / 2 ^ (k' + 1)
    let r := n % 2 ^ (k' + 1)
    let half := 2 ^ k'
    if r > half ∨ (r = half ∧ (sticky ∨ q % 2 = 1)) then q + 1 else q

/-- The binary32 word nearest to ± n · 2^e (sticky as in `rneShift`), ties to even, a magnitude below 2^−122 written
as +0 (R148), a magnitude beyond the format as infinity. -/
def roundMag (sgn : Bool) (n : Nat) (e : Int) (sticky : Bool) : Word :=
  if n = 0 then 0 else
  let len : Nat := Nat.log2 n + 1
  -- value is in [2^(len-1+e), 2^(len+e))
  let top : Int := (len : Int) - 1 + e
  if top < -122 then 0 else
  let sh : Int := (len : Int) - 24
  let q : Nat := if sh ≤ 0 then n * 2 ^ (-sh).toNat else rneShift n sh.toNat sticky
  -- q is in [2^23, 2^24]
  let top' : Int := if q = 2 ^ 24 then top + 1 else top
  let q' : Nat := if q = 2 ^ 24 then 2 ^ 23 else q
  let s : Nat := if sgn then 2 ^ 31 else 0
  if top' > 127 then word (s + 255 * 2 ^ 23)
  else word (s + (top' + 127).toNat * 2 ^ 23 + (q' - 2 ^ 23))

/-- The binary32 word nearest to an exact value. -/
def round (d : Dy) : Word := roundMag (decide (d.m < 0)) d.m.natAbs d.e false

/-- The exact sum of two exact values. -/
def addDy (a b : Dy) : Dy :=
  if a.e ≤ b.e then { m := a.m + b.m * 2 ^ (b.e - a.e).toNat, e := a.e }
  else { m := a.m * 2 ^ (a.e - b.e).toNat + b.m, e := b.e }

/-- The exact product. -/
def mulDy (a b : Dy) : Dy := { m := a.m * b.m, e := a.e + b.e }

/-- A NaN or infinite operand makes the result a NaN; the library treats a non-finite input as implausible (R150). -/
def lift2 (f : Dy → Dy → Word) (a b : Word) : Word :=
  if nonFinite a || nonFinite b then nan else f (dy a) (dy b)

/-- a + b, rounded once. -/
def add (a b : Word) : Word := lift2 (fun x y => round (addDy x y)) a b

/-- a − b, rounded once. -/
def sub (a b : Word) : Word := add a (negate b)

/-- a · b, rounded once. -/
def mul (a b : Word) : Word := lift2 (fun x y => round (mulDy x y)) a b

/-- a · b + c, rounded once. -/
def fma (a b c : Word) : Word :=
  if nonFinite c then nan else
  lift2 (fun x y => round (addDy (mulDy x y) (dy c))) a b

/-- a / b, rounded once; a division by zero gives a NaN, which sets RANGE (R148). -/
def div (a b : Word) : Word :=
  lift2 (fun x y =>
    if y.m = 0 then nan else
    let n := x.m.natAbs * 2 ^ 64
    let q := n / y.m.natAbs
    let r := n % y.m.natAbs
    -- two guard bits below the quotient carry the remainder
    roundMag (decide (x.m < 0) != decide (y.m < 0)) (q * 2 + (if r = 0 then 0 else 1)) (x.e - y.e - 65) false) a b

/-- The integer square root of n, digit by digit from bit `fuel`. -/
def isqrtGo (n : Nat) : Nat → Nat → Nat
  | 0, r => r
  | k + 1, r =>
    let c := r + 2 ^ k
    isqrtGo n k (if c * c ≤ n then c else r)

/-- √a, rounded once; a negative operand gives a NaN, which sets RANGE (R148). -/
def sqrt (a : Word) : Word :=
  if nonFinite a then nan else
  let x := dy a
  if x.m < 0 then nan else
  if x.m = 0 then 0 else
  let odd : Bool := x.e % 2 != 0
  let n : Nat := x.m.natAbs * (if odd then 2 else 1) * 2 ^ 64
  let e : Int := (if odd then x.e - 1 else x.e) - 64
  let r := isqrtGo n 48 0
  roundMag false (r * 2 + (if r * r = n then 0 else 1)) (e / 2 - 1) false

/-- The binary32 word nearest to a natural number. -/
def ofNat (n : Nat) : Word := roundMag false n 0 false

/-- The binary32 word nearest to an integer. -/
def ofInt (i : Int) : Word := roundMag (decide (i < 0)) i.natAbs 0 false

/-- The binary32 word nearest to n / d, rounded once. -/
def ofRat (n : Int) (d : Nat) : Word :=
  if d = 0 then nan else
  let s := 64 + Nat.log2 d
  let a := n.natAbs * 2 ^ s
  roundMag (decide (n < 0)) (a / d * 2 + (if a % d = 0 then 0 else 1)) (-(s : Int) - 1) false

/-- The integer nearest to a finite value times `k`, ties rounded up (R11), for a non-negative value. -/
def scaleRoundUp (w : Word) (k : Nat) : Nat :=
  let x := dy w
  let n := x.m.toNat * k
  if x.e ≥ 0 then n * 2 ^ x.e.toNat
  else
    let s := (-x.e).toNat
    (n * 2 + 2 ^ s) / 2 ^ (s + 1)

/-- A duration in µs as ticks of 2.5 ns: 400 to the µs, to the nearest tick, ties up (R11, the us32 format of R13). -/
def usTicks (w : Word) : Nat := scaleRoundUp w 400

/-- The integer nearest to a finite value, ties to even (the F → Q conversion of R151). -/
def toInt (w : Word) : Int :=
  let x := dy w
  let mag : Nat := if x.e ≥ 0 then x.m.natAbs * 2 ^ x.e.toNat else rneShift x.m.natAbs (-x.e).toNat false
  if x.m < 0 then -(mag : Int) else (mag : Int)

/-- The value rounded towards zero. -/
def trunc (w : Word) : Int :=
  let x := dy w
  let mag : Nat := if x.e ≥ 0 then x.m.natAbs * 2 ^ x.e.toNat else x.m.natAbs / 2 ^ (-x.e).toNat
  if x.m < 0 then -(mag : Int) else (mag : Int)

/-- The RANGE rule of R148: a result of 2^124 or more in magnitude, an infinity or a NaN. -/
def outOfBand (w : Word) : Bool := expo w ≥ 251

/-! ## Pass 2 (R142 … R148) -/

/-- x · 2^j exactly, by the exponent field alone; a zero stays as it is. Where the result leaves the normal range, which
no value inside the band of R148 does, the word itself. -/
def scaleExact (j : Int) (w : Word) : Word :=
  let e : Int := (expo w : Int) + j
  if w.toNat % 2 ^ 31 = 0 ∨ expo w = 0 ∨ expo w = 255 ∨ e < 1 ∨ 254 < e then w
  else word (w.toNat / 2 ^ 31 * 2 ^ 31 + e.toNat * 2 ^ 23 + frac w)

/-- x′ = −x · 2^k (R142); +0 is its own image (R147). -/
def transform (k : Int) (w : Word) : Word := negate (scaleExact k w)

/-- An exact result of pass 1, or of pass 2 with exponent `k`, rounded once, with zero and band judged by its magnitude
referred back to pass 1, and whether it sets RANGE (R148). -/
def roundPass (second : Bool) (k : Int) (d : Dy) : Word × Bool :=
  if second then
    let r := round { d with e := d.e - k }
    (scaleExact k r, outOfBand r)
  else
    let r := round d
    (r, outOfBand r)

/-! ## Binary64 (R209) -/

/-- An exact value rounded to the 53 bits of a binary64, ties to even; the values of the formulas that use it lie inside the
format's range. -/
def round64 (d : Dy) : Dy :=
  let n := d.m.natAbs
  let len := if n = 0 then 0 else Nat.log2 n + 1
  if len ≤ 53 then d
  else
    let q := rneShift n (len - 53) false
    { m := if d.m < 0 then -(q : Int) else q, e := d.e + ((len - 53 : Nat) : Int) }

def add64 (a b : Dy) : Dy := round64 (addDy a b)
def sub64 (a b : Dy) : Dy := round64 (addDy a { b with m := -b.m })
def mul64 (a b : Dy) : Dy := round64 (mulDy a b)

/-- a / b, rounded once; two guard bits carry the remainder. Zero where the divisor is zero. -/
def div64 (a b : Dy) : Dy :=
  if b.m = 0 then { m := 0, e := 0 } else
  let s := 64 + Nat.log2 b.m.natAbs
  let n := a.m.natAbs * 2 ^ s
  let q := n / b.m.natAbs * 2 + (if n % b.m.natAbs = 0 then 0 else 1)
  round64 { m := if decide (a.m < 0) != decide (b.m < 0) then -(q : Int) else q, e := a.e - b.e - s - 1 }

/-- An integer as a binary64. -/
def nat64 (n : Nat) : Dy := round64 { m := n, e := 0 }

/-- π as a binary64. -/
def pi64 : Dy := { m := 7074237752028440, e := -51 }

end Sys2Proof.Machine.F32
end

