-- ==== Sys2Proof/Machine/ParamMap.lean ====
section
/-!
DEFINITION. The parameter map: every defined ID with its access class, type, range and Reset value, written from the
parameter tables of the chapters by the directory of R666 and the instance offsets of R661, and the check a written
value passes on its own (R15, R16, R674).
-/

namespace Sys2Proof.Machine

/-- The access classes of R20 in use (R662: no parameter has access W). -/
inductive Access where
  | r | rwE | rwL
deriving DecidableEq, Repr

/-- The type of a parameter with the part of its range that names no other parameter (R664). -/
inductive PKind where
  /-- u32 with inclusive bounds -/
  | u32 (lo hi : Nat)
  /-- i32, every value -/
  | i32
  /-- f32 or us32 with inclusive binary32 bounds (R674); no interval: every finite value -/
  | f32 (ivs : List (Word × Word))
  /-- f32 in a range, not 0 (R434) -/
  | f32nz (lo hi : Word)
  | bool
  /-- enum with codes 0 … defs -/
  | enum (defs : Nat)
  /-- enum with codes 0 … defs defined, of which this instance allows some (R441, R288) -/
  | enumOf (defs : Nat) (allowed : List Nat)
  /-- field map with the given bits in use -/
  | bits (mask : Nat)
  | id16
  /-- u32 from a list of values -/
  | oneOf (vs : List Nat)
  /-- u32 holding a contiguous network mask (R472) -/
  | netmask
  /-- a clock frequency of R67: 400 MHz / n with n = 16 … 80 -/
  | sdClock
  /-- 0 or 100 … 4,000,000,000 (R434) -/
  | trigPeriod
  /-- the map of R407 -/
  | trigCtrl
  /-- a region table word (R668) -/
  | regionWord
  | tick64
deriving DecidableEq, Repr

/-- A row of the parameter map: `count` IDs from `first`, repeated `copies` times at distance `stride`. -/
structure PRow where
  first : Nat
  count : Nat
  stride : Nat
  copies : Nat
  access : Access
  kind : PKind
  reset : Word
deriving DecidableEq, Repr

/-- Whether a row defines an ID. -/
def PRow.covers (r : PRow) (id : Nat) : Bool :=
  r.first ≤ id &&
    (if r.copies = 1 then id - r.first < r.count
     else (id - r.first) / r.stride < r.copies && (id - r.first) % r.stride < r.count)

/-- Area 0 of the parameter map. -/
def rowsSystem : List PRow := [
  ⟨0x0, 8, 0x1, 1, .rwE, (.u32 0 0xFFFFFFFF), 0x0⟩,  -- SYS_USER_WORD_k
  ⟨0x40, 1, 0x1, 1, .rwE, (.u32 0x9C40 0x3D0900), 0x186A0⟩,  -- SYS_ALLOC_LEAD
  ⟨0x41, 1, 0x1, 1, .rwE, (.f32 [(0x44FA0000, 0x49742400)]), 0x459C4000⟩,  -- SYS_ALLOC_TIMEOUT
  ⟨0x42, 1, 0x1, 1, .rwE, (.enum 1), 0x1⟩,  -- SYS_REALLOC_MODE
  ⟨0x43, 1, 0x1, 1, .rwE, (.u32 0x3D0900 0x17D78400), 0x7A1200⟩,  -- SYS_COMMIT_LEAD
  ⟨0x44, 1, 0x1, 1, .rwE, (.u32 0xF4240 0xBEBC200), 0x3D0900⟩,  -- SYS_COMMIT_VOTE
  ⟨0x45, 1, 0x1, 1, .rwE, (.u32 0x30D40 0x5F5E100), 0xC3500⟩,  -- SYS_COMMIT_CONFIRM
  ⟨0x46, 1, 0x1, 1, .rwE, (.u32 0xC3500 0x17D78400), 0xB71B00⟩,  -- SYS_NODE_SILENCE
  ⟨0x47, 1, 0x1, 1, .rwE, (.u32 0 0xFFFFFFFF), 0x0⟩]  -- SYS_MACHINE_ID

/-- Area 1 of the parameter map. -/
def rowsFabric : List PRow := [
  ⟨0x1000, 1, 0x1, 1, .rwL, (.enum 2), 0x1⟩,  -- FABRIC_SUPPLY_CF0
  ⟨0x1001, 1, 0x1, 1, .rwL, (.enum 2), 0x1⟩,  -- FABRIC_SUPPLY_CF1
  ⟨0x1002, 1, 0x1, 1, .rwE, (.enum 4), 0x0⟩,  -- CF1_REGION3_USE
  ⟨0x1040, 8, 0x1, 1, .rwE, (.u32 0x3E8 0x4E20), 0x3E8⟩,  -- REGION_PERIOD_n
  ⟨0x1048, 8, 0x1, 1, .rwE, (.u32 0 19999), 0x0⟩,  -- REGION_PHASE_n
  ⟨0x1080, 8, 0x1, 1, .rwE, (.u32 0x4 0x3E8), 0x28⟩,  -- SLACK_MARGIN_n
  ⟨0x1088, 8, 0x1, 1, .rwE, (.u32 1 16), 0x4⟩,  -- FALLBACK_LIMIT_n
  ⟨0x1090, 1, 0x1, 1, .rwE, (.u32 0x1 0x186A0), 0x64⟩,  -- FALLBACK_RATE_LIMIT
  ⟨0x1200, 3584, 0x1, 1, .rwE, .regionWord, 0x0⟩]  -- region table words

/-- Area 2 of the parameter map, part 1. -/
def rowsTractionA : List PRow := [
  ⟨0x2000, 1, 0x1000, 2, .rwE, .bool, 0x0⟩,  -- TR_ENABLE
  ⟨0x2001, 1, 0x1000, 2, .rwE, (.u32 0x1 0xC), 0x4⟩,  -- TR_POLE_PAIRS
  ⟨0x2002, 1, 0x1000, 2, .rwE, (.enum 1), 0x0⟩,  -- TR_FORWARD_DIR
  ⟨0x2003, 1, 0x1000, 2, .rwE, (.f32 [(0x42C80000, 0x46BB8000)]), 0x453B8000⟩,  -- TR_RATED_SPEED
  ⟨0x2004, 1, 0x1000, 2, .rwE, (.f32 [(0x38D1B717, 0x3F800000)]), 0x3C23D70A⟩,  -- TR_RS
  ⟨0x2005, 1, 0x1000, 2, .rwE, (.f32 [(0x358637BD, 0x3DCCCCCD)]), 0x3951B717⟩,  -- TR_LD
  ⟨0x2006, 1, 0x1000, 2, .rwE, (.f32 [(0x358637BD, 0x3DCCCCCD)]), 0x3951B717⟩,  -- TR_LQ
  ⟨0x2007, 1, 0x1000, 2, .rwE, (.f32 [(0x3A83126F, 0x40000000)]), 0x3DCCCCCD⟩,  -- TR_PSI_PM
  ⟨0x2008, 1, 0x1000, 2, .rwE, (.enum 1), 0x0⟩,  -- TR_SETPOINT_SOURCE
  ⟨0x2040, 1, 0x1000, 2, .rwE, (.f32 [(0x3C23D70A, 0x3E4CCCCD)]), 0x3D23D70A⟩,  -- TR_BLEND_LOW
  ⟨0x2041, 1, 0x1000, 2, .rwE, (.f32 [(0x3C75C28F, 0x3E99999A)]), 0x3D75C28F⟩,  -- TR_BLEND_HIGH
  ⟨0x2042, 1, 0x1000, 2, .rwE, (.f32 [(0x447A0000, 0x4B189680)]), 0x47C35000⟩,  -- TR_DRIFT_TC
  ⟨0x2043, 1, 0x1000, 2, .rwE, (.f32 [(0x3DCCCCCD, 0x42480000)]), 0x40000000⟩,  -- TR_ZERO_CURRENT
  ⟨0x2080, 1, 0x1000, 2, .rwE, (.f32 [(0x3A83126F, 0x40000000)]), 0x3DCCCCCD⟩,  -- TR_FLUX_REF
  ⟨0x2081, 1, 0x1000, 2, .rwE, (.f32 [(0x38D1B717, 0x3DCCCCCD)]), 0x3B03126F⟩,  -- TR_FLUX_BAND
  ⟨0x2082, 1, 0x1000, 2, .rwE, (.f32 [(0x3DCCCCCD, 0x43FA0000)]), 0x40A00000⟩,  -- TR_TORQUE_BAND
  ⟨0x2083, 1, 0x1000, 2, .rwE, (.u32 0x1 0xF4240), 0x3E8⟩,  -- TR_MISS_RATE_LIMIT
  ⟨0x20C0, 1, 0x1000, 2, .rwE, (.f32 [(0x3F800000, 0x49742400)]), 0x461C4000⟩,  -- TR_TORQUE_RAMP
  ⟨0x20C1, 1, 0x1000, 2, .rwE, (.f32 [(0x3C23D70A, 0x447A0000)]), 0x41200000⟩,  -- TR_FLUX_RAMP
  ⟨0x20C2, 1, 0x1000, 2, .rwE, (.f32 [(0x3F800000, 0x47C35000)]), 0x447A0000⟩,  -- TR_SPEED_RAMP
  ⟨0x20C3, 1, 0x1000, 2, .rwE, (.f32 [(0x0, 0x42C80000)]), 0x3F000000⟩,  -- TR_SPEED_KP
  ⟨0x20C4, 1, 0x1000, 2, .rwE, (.f32 [(0x0, 0x461C4000)]), 0x40A00000⟩,  -- TR_SPEED_KI
  ⟨0x20C5, 1, 0x1000, 2, .rwE, (.u32 0x1 0x40), 0x8⟩,  -- TR_REF_DIVIDER
  ⟨0x20C6, 1, 0x1000, 2, .rwE, .bool, 0x0⟩,  -- TR_NOTCH_ENABLE
  ⟨0x20C7, 1, 0x1000, 2, .rwE, (.f32 [(0x40000000, 0x44FA0000)]), 0x41A00000⟩,  -- TR_NOTCH_FREQ
  ⟨0x20C8, 1, 0x1000, 2, .rwE, (.f32 [(0x0, 0x3F800000)]), 0x3DCCCCCD⟩,  -- TR_NOTCH_DEPTH
  ⟨0x20C9, 1, 0x1000, 2, .rwE, (.f32 [(0x3F000000, 0x447A0000)]), 0x40A00000⟩,  -- TR_NOTCH_WIDTH
  ⟨0x2100, 1, 0x1000, 2, .rwE, (.f32 [(0x3F800000, 0x447A0000)]), 0x41F00000⟩,  -- TR_PLAUS_TORQUE_ENV
  ⟨0x2101, 1, 0x1000, 2, .rwE, (.f32 [(0x0, 0x3F800000)]), 0x3DCCCCCD⟩,  -- TR_PLAUS_TORQUE_REL
  ⟨0x2102, 1, 0x1000, 2, .rwE, (.f32 [(0x41A00000, 0x47C35000)]), 0x43480000⟩,  -- TR_PLAUS_TORQUE_DWELL
  ⟨0x2103, 1, 0x1000, 2, .rwE, (.f32 [(0x3F800000, 0x44FA0000)]), 0x42480000⟩,  -- TR_PLAUS_CURRENT_ENV
  ⟨0x2104, 1, 0x1000, 2, .rwE, (.f32 [(0x41200000, 0x47C35000)]), 0x42C80000⟩,  -- TR_PLAUS_CURRENT_DWELL
  ⟨0x2105, 1, 0x1000, 2, .rwE, (.f32 [(0x3A83126F, 0x3F800000)]), 0x3CA3D70A⟩,  -- TR_PLAUS_FLUX_ENV
  ⟨0x2106, 1, 0x1000, 2, .rwE, (.f32 [(0x41A00000, 0x47C35000)]), 0x43FA0000⟩,  -- TR_PLAUS_FLUX_DWELL
  ⟨0x2107, 1, 0x1000, 2, .rwE, (.f32 [(0x3F800000, 0x447A0000)]), 0x41F00000⟩,  -- TR_CURRENT_SUM_ENV
  ⟨0x2108, 1, 0x1000, 2, .rwE, (.f32 [(0x40A00000, 0x47C35000)]), 0x42480000⟩,  -- TR_CURRENT_SUM_DWELL
  ⟨0x2140, 1, 0x1000, 2, .rwL, (.f32 [(0xC69C4000, 0x469C4000)]), 0x0⟩,  -- TR_TORQUE_SETPOINT
  ⟨0x2141, 1, 0x1000, 2, .rwL, (.f32 [(0xC6BB8000, 0x46BB8000)]), 0x0⟩,  -- TR_SPEED_SETPOINT
  ⟨0x2180, 1, 0x1000, 2, .rwE, (.f32 [(0x0, 0x469C4000)]), 0x43FA0000⟩,  -- TR_TORQUE_MAX_MOT
  ⟨0x2181, 1, 0x1000, 2, .rwE, (.f32 [(0x0, 0x469C4000)]), 0x43FA0000⟩]  -- TR_TORQUE_MAX_REGEN

/-- Area 2 of the parameter map, part 2. -/
def rowsTractionB : List PRow := [
  ⟨0x2182, 1, 0x1000, 2, .rwE, (.f32 [(0x0, 0x48AFC800)]), 0x48742400⟩,  -- TR_POWER_MAX_MOT
  ⟨0x2183, 1, 0x1000, 2, .rwE, (.f32 [(0x0, 0x48AFC800)]), 0x48742400⟩,  -- TR_POWER_MAX_REGEN
  ⟨0x2184, 1, 0x1000, 2, .rwE, (.f32 [(0x41200000, 0x44FA0000)]), 0x44160000⟩,  -- TR_CURRENT_MAX
  ⟨0x2185, 1, 0x1000, 2, .rwE, (.f32 [(0x41200000, 0x447A0000)]), 0x42C80000⟩,  -- TR_POWER_SPEED_FLOOR
  ⟨0x2186, 1, 0x1000, 2, .rwE, (.f32 [(0x3F000000, 0x43480000)]), 0x41200000⟩,  -- TR_ZERO_SPEED
  ⟨0x2187, 1, 0x1000, 2, .rwE, (.f32 [(0x42C80000, 0x46BB8000)]), 0x45BB8000⟩,  -- TR_SPEED_LIMIT_FWD
  ⟨0x2188, 1, 0x1000, 2, .rwE, (.f32 [(0x42C80000, 0x46BB8000)]), 0x447A0000⟩,  -- TR_SPEED_LIMIT_REV
  ⟨0x2189, 1, 0x1000, 2, .rwE, (.f32 [(0x41200000, 0x44FA0000)]), 0x43480000⟩,  -- TR_SPEED_TAPER
  ⟨0x218A, 1, 0x1000, 2, .rwE, (.f32 [(0x42C80000, 0x46CE4000)]), 0x45CE4000⟩,  -- TR_OVERSPEED
  ⟨0x218B, 1, 0x1000, 2, .rwE, (.f32 [(0x43960000, 0x44610000)]), 0x43E10000⟩,  -- TR_VDC_LOW_ZERO
  ⟨0x218C, 1, 0x1000, 2, .rwE, (.f32 [(0x43960000, 0x44660000)]), 0x43F00000⟩,  -- TR_VDC_LOW_FULL
  ⟨0x21C0, 1, 0x1000, 2, .rwE, .bool, 0x1⟩,  -- TR_FW_ENABLE
  ⟨0x21C1, 1, 0x1000, 2, .rwE, (.f32 [(0x3F000000, 0x3F866666)]), 0x3F666666⟩,  -- TR_FW_VOLTAGE_USE
  ⟨0x21C2, 1, 0x1000, 2, .rwE, (.f32 [(0x0, 0x49742400)]), 0x469C4000⟩,  -- TR_FW_KI
  ⟨0x21C3, 1, 0x1000, 2, .rwE, (.f32 [(0xC4FA0000, 0x0)]), 0xC3AF0000⟩,  -- TR_FW_ID_MIN
  ⟨0x21C4, 1, 0x1000, 2, .rwE, (.f32 [(0xC4FA0000, 0x0)]), 0xC3AF0000⟩,  -- TR_FW_MAP_ID_0
  ⟨0x21C5, 1, 0x1000, 2, .rwE, (.f32 [(0xC4FA0000, 0x0)]), 0xC3960000⟩,  -- TR_FW_MAP_ID_1
  ⟨0x21C6, 1, 0x1000, 2, .rwE, (.f32 [(0xC4FA0000, 0x0)]), 0xC37A0000⟩,  -- TR_FW_MAP_ID_2
  ⟨0x21C7, 1, 0x1000, 2, .rwE, (.f32 [(0xC4FA0000, 0x0)]), 0xC3480000⟩,  -- TR_FW_MAP_ID_3
  ⟨0x21C8, 1, 0x1000, 2, .rwE, (.f32 [(0xC4FA0000, 0x0)]), 0xC3160000⟩,  -- TR_FW_MAP_ID_4
  ⟨0x21C9, 1, 0x1000, 2, .rwE, (.f32 [(0xC4FA0000, 0x0)]), 0xC2C80000⟩,  -- TR_FW_MAP_ID_5
  ⟨0x21CA, 1, 0x1000, 2, .rwE, (.f32 [(0xC4FA0000, 0x0)]), 0xC2480000⟩,  -- TR_FW_MAP_ID_6
  ⟨0x21CB, 1, 0x1000, 2, .rwE, (.f32 [(0xC4FA0000, 0x0)]), 0x0⟩,  -- TR_FW_MAP_ID_7
  ⟨0x21CC, 1, 0x1000, 2, .rwE, (.f32 [(0x3A83126F, 0x40000000)]), 0x3CF5C28F⟩,  -- TR_FW_MAP_PSI_0
  ⟨0x21CD, 1, 0x1000, 2, .rwE, (.f32 [(0x3A83126F, 0x40000000)]), 0x3D23D70A⟩,  -- TR_FW_MAP_PSI_1
  ⟨0x21CE, 1, 0x1000, 2, .rwE, (.f32 [(0x3A83126F, 0x40000000)]), 0x3D4CCCCD⟩,  -- TR_FW_MAP_PSI_2
  ⟨0x21CF, 1, 0x1000, 2, .rwE, (.f32 [(0x3A83126F, 0x40000000)]), 0x3D75C28F⟩,  -- TR_FW_MAP_PSI_3
  ⟨0x21D0, 1, 0x1000, 2, .rwE, (.f32 [(0x3A83126F, 0x40000000)]), 0x3D8F5C29⟩,  -- TR_FW_MAP_PSI_4
  ⟨0x21D1, 1, 0x1000, 2, .rwE, (.f32 [(0x3A83126F, 0x40000000)]), 0x3DA3D70A⟩,  -- TR_FW_MAP_PSI_5
  ⟨0x21D2, 1, 0x1000, 2, .rwE, (.f32 [(0x3A83126F, 0x40000000)]), 0x3DB851EC⟩,  -- TR_FW_MAP_PSI_6
  ⟨0x21D3, 1, 0x1000, 2, .rwE, (.f32 [(0x3A83126F, 0x40000000)]), 0x3DCCCCCD⟩,  -- TR_FW_MAP_PSI_7
  ⟨0x2200, 1, 0x1000, 2, .rwE, (.f32 [(0x43480000, 0x47435000)]), 0x44FA0000⟩,  -- TR_CATCH_OBSERVE
  ⟨0x2201, 1, 0x1000, 2, .rwE, (.f32 [(0x3F800000, 0x42C80000)]), 0x40A00000⟩,  -- TR_CATCH_MIN_EMF
  ⟨0x2202, 1, 0x1000, 2, .rwE, (.f32 [(0x0, 0x46BB8000)]), 0x43960000⟩,  -- TR_CATCH_SPEED
  ⟨0x2203, 1, 0x1000, 2, .rwE, (.f32 [(0x0, 0x469C4000)]), 0x43480000⟩,  -- TR_CATCH_BRAKE_TORQUE
  ⟨0x2204, 1, 0x1000, 2, .rwE, (.enum 1), 0x0⟩,  -- TR_ASC_PREFERRED
  ⟨0x2205, 1, 0x1000, 2, .rwE, (.f32 [(0x3F000000, 0x3F800000)]), 0x3F666666⟩,  -- TR_ASC_ENTER_RATIO
  ⟨0x2206, 1, 0x1000, 2, .rwE, (.f32 [(0x3E99999A, 0x3F733333)]), 0x3F333333⟩]  -- TR_ASC_RELEASE_RATIO

/-- Area 4 of the parameter map, part 1. -/
def rowsConverterA : List PRow := [
  ⟨0x4000, 1, 0x1, 1, .rwE, .bool, 0x0⟩,  -- CV_ENABLE
  ⟨0x4001, 1, 0x1, 1, .rwE, (.f32 [(0x461C4000, 0x47C35000)]), 0x471C4000⟩,  -- CV_PWM_FREQ
  ⟨0x4002, 1, 0x1, 1, .rwE, (.f32 [(0x36A7C5AC, 0x3A83126F)]), 0x391D4952⟩,  -- CV_INDUCTANCE
  ⟨0x4003, 1, 0x1, 1, .rwE, (.f32 [(0x3F000000, 0x40000000)]), 0x3F400000⟩,  -- CV_SLOPE_FACTOR
  ⟨0x4004, 1, 0x1, 1, .rwE, (.u32 0x8 0x190), 0x28⟩,  -- CV_BLANK
  ⟨0x4005, 1, 0x1, 1, .rwE, (.f32 [(0x3F000000, 0x3F7AE148)]), 0x3F733333⟩,  -- CV_DUTY_MAX
  ⟨0x4006, 1, 0x1, 1, .rwE, (.f32 [(0x0, 0x44480000)]), 0x43C80000⟩,  -- CV_IBAT_DISCH_MAX
  ⟨0x4007, 1, 0x1, 1, .rwE, (.f32 [(0x0, 0x44480000)]), 0x43960000⟩,  -- CV_IBAT_CHG_MAX
  ⟨0x4008, 1, 0x1, 1, .rwE, (.f32 [(0x0, 0x486A6000)]), 0x486A6000⟩,  -- CV_POWER_MAX
  ⟨0x4009, 1, 0x1, 1, .rwE, (.f32 [(0x43AF0000, 0x444D0000)]), 0x43AF0000⟩,  -- CV_VBAT_MIN
  ⟨0x400A, 1, 0x1, 1, .rwE, (.f32 [(0x43AF0000, 0x444D0000)]), 0x444D0000⟩,  -- CV_VBAT_MAX
  ⟨0x400B, 1, 0x1, 1, .rwE, (.f32 [(0x3F800000, 0x42480000)]), 0x41200000⟩,  -- CV_VBAT_TAPER
  ⟨0x400C, 1, 0x1, 1, .rwE, (.f32 [(0x41200000, 0x43480000)]), 0x41F00000⟩,  -- CV_HEADROOM
  ⟨0x400D, 1, 0x1, 1, .rwE, .bool, 0x1⟩,  -- CV_FF_ENABLE
  ⟨0x400E, 1, 0x1, 1, .rwE, (.f32 [(0x41200000, 0x43C80000)]), 0x43480000⟩,  -- CV_LEG_I_TRIP
  ⟨0x400F, 1, 0x1, 1, .rwE, (.f32 [(0x41200000, 0x47C35000)]), 0x44FA0000⟩,  -- CV_PRECHARGE_RAMP
  ⟨0x4010, 1, 0x1, 1, .rwE, (.f32 [(0x461C4000, 0x4B189680)]), 0x48F42400⟩,  -- CV_PRECHARGE_TIMEOUT
  ⟨0x4011, 1, 0x1, 1, .rwE, (.f32 [(0x3F800000, 0x42480000)]), 0x41200000⟩,  -- CV_PRECHARGE_TOL
  ⟨0x4012, 1, 0x1, 1, .rwE, (.f32 [(0x3F800000, 0x43FA0000)]), 0x42200000⟩,  -- CV_PLAUS_CURRENT_ENV
  ⟨0x4013, 1, 0x1, 1, .rwE, (.f32 [(0x41200000, 0x47C35000)]), 0x43480000⟩,  -- CV_PLAUS_CURRENT_DWELL
  ⟨0x4014, 1, 0x1, 1, .rwE, (.f32 [(0x3F800000, 0x43FA0000)]), 0x41C80000⟩,  -- CV_PLAUS_LEG_ENV
  ⟨0x4015, 1, 0x1, 1, .rwE, (.f32 [(0x41200000, 0x47C35000)]), 0x43480000⟩,  -- CV_PLAUS_LEG_DWELL
  ⟨0x4040, 1, 0x1, 1, .rwE, (.f32 [(0xC9742400, 0x49742400)]), 0x40000000⟩,  -- DC coefficient 0
  ⟨0x4041, 1, 0x1, 1, .rwE, (.f32 [(0xC9742400, 0x49742400)]), 0xBFFD70A4⟩,  -- DC coefficient 1
  ⟨0x4042, 1, 0x1, 1, .rwE, (.f32 [(0xC9742400, 0x49742400)]), 0x0⟩,  -- DC coefficient 2
  ⟨0x4043, 1, 0x1, 1, .rwE, (.f32 [(0xC9742400, 0x49742400)]), 0x0⟩,  -- DC coefficient 3
  ⟨0x4044, 1, 0x1, 1, .rwE, (.f32 [(0xC9742400, 0x49742400)]), 0xBF800000⟩,  -- DC coefficient 4
  ⟨0x4045, 1, 0x1, 1, .rwE, (.f32 [(0xC9742400, 0x49742400)]), 0x0⟩,  -- DC coefficient 5
  ⟨0x4046, 1, 0x1, 1, .rwE, (.f32 [(0xC9742400, 0x49742400)]), 0x0⟩,  -- DC coefficient 6
  ⟨0x4047, 1, 0x1, 1, .rwE, (.u32 1 64), 0x1⟩,  -- DC divider
  ⟨0x4050, 1, 0x1, 1, .rwL, (.f32 [(0x43E10000, 0x445C0000)]), 0x44480000⟩,  -- DC_VREF
  ⟨0x4051, 1, 0x1, 1, .rwE, (.f32 [(0x41200000, 0x47C35000)]), 0x459C4000⟩,  -- DC_VREF_RAMP
  ⟨0x4080, 1, 0x1, 1, .rwE, .bool, 0x0⟩,  -- DO_ENABLE
  ⟨0x4081, 1, 0x1, 1, .rwE, (.f32 [(0x43FA0000, 0x44480000)]), 0x442F0000⟩,  -- DO_VREF
  ⟨0x4082, 1, 0x1, 1, .rwE, (.f32 [(0x3F800000, 0x43C80000)]), 0x438E8000⟩,  -- DO_I_MAX
  ⟨0x4083, 1, 0x1, 1, .rwE, (.f32 [(0x42C80000, 0x49742400)]), 0x461C4000⟩,  -- DO_I_DWELL
  ⟨0x4084, 1, 0x1, 1, .rwE, (.f32 [(0x3F800000, 0x44160000)]), 0x43C80000⟩,  -- DO_I_TRIP
  ⟨0x4085, 1, 0x1, 1, .rwE, (.f32 [(0x0, 0x48435000)]), 0x48435000⟩,  -- DO_POWER_MAX
  ⟨0x4C00, 1, 0x1, 1, .rwE, .bool, 0x0⟩,  -- CH_ENABLE
  ⟨0x4C01, 1, 0x1, 1, .rwE, (.f32 [(0x3F000000, 0x42480000)]), 0x40200000⟩]  -- CH_RESISTANCE

/-- Area 4 of the parameter map, part 2. -/
def rowsConverterB : List PRow := [
  ⟨0x4C02, 1, 0x1, 1, .rwE, (.enum 1), 0x1⟩,  -- CH_CURRENT_INPUT
  ⟨0x4C03, 1, 0x1, 1, .rwE, (.f32 [(0x43FA0000, 0x461C4000)]), 0x44FA0000⟩,  -- CH_PWM_FREQ
  ⟨0x4C04, 1, 0x1, 1, .rwE, (.f32 [(0x43E10000, 0x447A0000)]), 0x44610000⟩,  -- CH_V_START
  ⟨0x4C05, 1, 0x1, 1, .rwE, (.f32 [(0x43E10000, 0x447A0000)]), 0x44688000⟩,  -- CH_V_FULL
  ⟨0x4C06, 1, 0x1, 1, .rwE, (.f32 [(0x3DCCCCCD, 0x3F7AE148)]), 0x3F7AE148⟩,  -- CH_DUTY_MAX
  ⟨0x4C07, 1, 0x1, 1, .rwE, (.f32 [(0x447A0000, 0x48C35000)]), 0x471C4000⟩,  -- CH_RES_POWER_CONT
  ⟨0x4C08, 1, 0x1, 1, .rwE, (.f32 [(0x49742400, 0x4E0F0D18)]), 0x4BE4E1C0⟩,  -- CH_RES_TAU
  ⟨0x4C09, 1, 0x1, 1, .rwE, (.f32 [(0x3DCCCCCD, 0x3F666666)]), 0x3F000000⟩,  -- CH_OPEN_RATIO
  ⟨0x4C0A, 1, 0x1, 1, .rwE, (.f32 [(0x3F800000, 0x43FA0000)]), 0x41A00000⟩,  -- CH_SHORT_CURRENT
  ⟨0x4C0B, 1, 0x1, 1, .rwE, (.f32 [(0x41A00000, 0x461C4000)]), 0x43480000⟩,  -- CH_SHORT_DWELL
  ⟨0x4C0C, 1, 0x1, 1, .rwE, (.f32 [(0x3DCCCCCD, 0x447A0000)]), 0x41200000⟩,  -- CH_FAULT_REGEN_RAMP
  ⟨0x4C10, 1, 0x1, 1, .rwE, (.f32 [(0x43E10000, 0x44834000)]), 0x446B0000⟩,  -- DCL_REGEN_TAPER_START
  ⟨0x4C11, 1, 0x1, 1, .rwE, (.f32 [(0x43E10000, 0x44870000)]), 0x44700000⟩,  -- DCL_OV1
  ⟨0x4C12, 1, 0x1, 1, .rwE, (.f32 [(0x43E10000, 0x44898000)]), 0x447A0000⟩,  -- DCL_OV2
  ⟨0x4C13, 1, 0x1, 1, .rwE, (.f32 [(0x3F800000, 0x42480000)]), 0x41200000⟩]  -- DCL_OV_HYST

/-- Area 5 of the parameter map, part 1. -/
def rowsChargerA : List PRow := [
  ⟨0x5000, 1, 0x1, 1, .rwE, .bool, 0x0⟩,  -- CG_ENABLE
  ⟨0x5001, 1, 0x1, 1, .rwE, (.f32 [(0x40C00000, 0x427C0000)]), 0x427C0000⟩,  -- CG_AC_I_MAX
  ⟨0x5002, 1, 0x1, 1, .rwE, (.enum 1), 0x0⟩,  -- CG_GRID_FREQ
  ⟨0x5003, 1, 0x1, 1, .rwE, (.f32 [(0x43960000, 0x43C80000)]), 0x43AA0000⟩,  -- CG_AC_V_MIN
  ⟨0x5004, 1, 0x1, 1, .rwE, (.f32 [(0x43C80000, 0x43F00000)]), 0x43DC0000⟩,  -- CG_AC_V_MAX
  ⟨0x5005, 1, 0x1, 1, .rwE, (.f32 [(0x3DCCCCCD, 0x40A00000)]), 0x3F800000⟩,  -- CG_FREQ_TOL
  ⟨0x5006, 1, 0x1, 1, .rwE, (.f32 [(0x44228000, 0x44480000)]), 0x443B8000⟩,  -- CG_BUS_VREF
  ⟨0x5007, 1, 0x1, 1, .rwE, (.f32 [(0x442F0000, 0x44610000)]), 0x44548000⟩,  -- CG_BUS_OV
  ⟨0x5008, 1, 0x1, 1, .rwE, (.f32 [(0x41200000, 0x47C35000)]), 0x459C4000⟩,  -- CG_BUS_RAMP
  ⟨0x5009, 1, 0x1, 1, .rwE, (.f32 [(0x461C4000, 0x47C35000)]), 0x471C4000⟩,  -- CG_PFC_FREQ
  ⟨0x500A, 1, 0x1, 1, .rwE, (.f32 [(0x41200000, 0x43480000)]), 0x42F00000⟩,  -- CG_PFC_I_TRIP
  ⟨0x500B, 1, 0x1, 1, .rwE, (.f32 [(0x0, 0x472BE000)]), 0x472BE000⟩,  -- CG_POWER_MAX
  ⟨0x5040, 1, 0x1, 1, .rwE, (.f32 [(0x469C4000, 0x48435000)]), 0x47C35000⟩,  -- CG_DAB_FREQ
  ⟨0x5041, 1, 0x1, 1, .rwE, (.f32 [(0x3F000000, 0x40400000)]), 0x3F800000⟩,  -- CG_DAB_TURNS
  ⟨0x5042, 1, 0x1, 1, .rwE, (.f32 [(0x358637BD, 0x3A83126F)]), 0x37A7C5AC⟩,  -- CG_DAB_LLK
  ⟨0x5043, 1, 0x1, 1, .rwE, (.f32 [(0x3DCCCCCD, 0x3FC90FDA)]), 0x3F99999A⟩,  -- CG_DAB_PHI_MAX
  ⟨0x5044, 1, 0x1, 1, .rwE, (.f32 [(0x41200000, 0x43960000)]), 0x43160000⟩,  -- CG_DAB_I_TRIP
  ⟨0x5045, 1, 0x1, 1, .rwE, (.f32 [(0x3F800000, 0x43480000)]), 0x41700000⟩,  -- CG_PLAUS_PFC_ENV
  ⟨0x5046, 1, 0x1, 1, .rwE, (.f32 [(0x41200000, 0x47C35000)]), 0x43480000⟩,  -- CG_PLAUS_PFC_DWELL
  ⟨0x5047, 1, 0x1, 1, .rwE, (.f32 [(0x42C80000, 0x47435000)]), 0x459C4000⟩,  -- CG_PLAUS_DAB_ENV
  ⟨0x5048, 1, 0x1, 1, .rwE, (.f32 [(0x41200000, 0x47C35000)]), 0x43FA0000⟩,  -- CG_PLAUS_DAB_DWELL
  ⟨0x5080, 1, 0x1, 1, .rwE, (.f32 [(0xC9742400, 0x49742400)]), 0x40800000⟩,  -- PF coefficient 0
  ⟨0x5081, 1, 0x1, 1, .rwE, (.f32 [(0xC9742400, 0x49742400)]), 0xC079999A⟩,  -- PF coefficient 1
  ⟨0x5082, 1, 0x1, 1, .rwE, (.f32 [(0xC9742400, 0x49742400)]), 0x0⟩,  -- PF coefficient 2
  ⟨0x5083, 1, 0x1, 1, .rwE, (.f32 [(0xC9742400, 0x49742400)]), 0xBF800000⟩,  -- PF coefficient 3
  ⟨0x5084, 1, 0x1, 1, .rwE, (.f32 [(0xC9742400, 0x49742400)]), 0x0⟩,  -- PF coefficient 4
  ⟨0x5085, 1, 0x1, 1, .rwE, (.u32 1 64), 0x1⟩,  -- PF divider
  ⟨0x5088, 1, 0x1, 1, .rwE, (.f32 [(0xC9742400, 0x49742400)]), 0x43C80000⟩,  -- PV coefficient 0
  ⟨0x5089, 1, 0x1, 1, .rwE, (.f32 [(0xC9742400, 0x49742400)]), 0xC3C78000⟩,  -- PV coefficient 1
  ⟨0x508A, 1, 0x1, 1, .rwE, (.f32 [(0xC9742400, 0x49742400)]), 0x0⟩,  -- PV coefficient 2
  ⟨0x508B, 1, 0x1, 1, .rwE, (.f32 [(0xC9742400, 0x49742400)]), 0x0⟩,  -- PV coefficient 3
  ⟨0x508C, 1, 0x1, 1, .rwE, (.f32 [(0xC9742400, 0x49742400)]), 0xBF800000⟩,  -- PV coefficient 4
  ⟨0x508D, 1, 0x1, 1, .rwE, (.f32 [(0xC9742400, 0x49742400)]), 0x0⟩,  -- PV coefficient 5
  ⟨0x508E, 1, 0x1, 1, .rwE, (.f32 [(0xC9742400, 0x49742400)]), 0x0⟩,  -- PV coefficient 6
  ⟨0x508F, 1, 0x1, 1, .rwE, (.u32 1 64), 0x28⟩,  -- PV divider
  ⟨0x5090, 1, 0x1, 1, .rwE, (.f32 [(0xC9742400, 0x49742400)]), 0x37A7C5AC⟩,  -- DB coefficient 0
  ⟨0x5091, 1, 0x1, 1, .rwE, (.f32 [(0xC9742400, 0x49742400)]), 0xB79F6230⟩,  -- DB coefficient 1
  ⟨0x5092, 1, 0x1, 1, .rwE, (.f32 [(0xC9742400, 0x49742400)]), 0x0⟩,  -- DB coefficient 2
  ⟨0x5093, 1, 0x1, 1, .rwE, (.f32 [(0xC9742400, 0x49742400)]), 0xBF800000⟩,  -- DB coefficient 3
  ⟨0x5094, 1, 0x1, 1, .rwE, (.f32 [(0xC9742400, 0x49742400)]), 0x0⟩]  -- DB coefficient 4

/-- Area 5 of the parameter map, part 2. -/
def rowsChargerB : List PRow := [
  ⟨0x5095, 1, 0x1, 1, .rwE, (.u32 1 64), 0x4⟩,  -- DB divider
  ⟨0x50C0, 1, 0x1, 1, .rwE, (.f32 [(0x4C64E1C0, 0x5220EEBB)]), 0x50D693A4⟩,  -- CG_TIMER_LIMIT
  ⟨0x50C1, 1, 0x1, 1, .rwE, (.f32 [(0x3DCCCCCD, 0x42C80000)]), 0x40000000⟩,  -- CG_END_CURRENT
  ⟨0x50C2, 1, 0x1, 1, .rwE, (.f32 [(0x49742400, 0x4F5693A4)]), 0x4C64E1C0⟩,  -- CG_END_DWELL
  ⟨0x50C3, 1, 0x1, 1, .rwE, (.f32 [(0x47C35000, 0x4CBEBC20)]), 0x4A864700⟩,  -- CG_HANDOVER_RAMP
  ⟨0x50C4, 1, 0x1, 1, .rwE, (.f32 [(0x49742400, 0x51A0EEBB)]), 0x4E0F0D18⟩,  -- CG_SOURCE_WAIT
  ⟨0x50C5, 1, 0x1, 1, .rwE, (.f32 [(0x3DCCCCCD, 0x461C4000)]), 0x41A00000⟩,  -- CG_CHARGE_RAMP
  ⟨0x50C6, 1, 0x1, 1, .rwE, (.f32 [(0x0, 0x461C4000)]), 0x42480000⟩,  -- CG_CV_KI
  ⟨0x50C7, 1, 0x1, 1, .rwE, (.f32 [(0x0, 0x47C35000)]), 0x43480000⟩,  -- CG_CI_KP
  ⟨0x50C8, 1, 0x1, 1, .rwE, (.f32 [(0x0, 0x49742400)]), 0x44FA0000⟩,  -- CG_CI_KI
  ⟨0x50C9, 1, 0x1, 1, .rwL, (.f32 [(0, 0x44480000)]), 0x0⟩,  -- CG_I_SET
  ⟨0x50CA, 1, 0x1, 1, .rwL, (.f32 [(0x0, 0x444D0000)]), 0x0⟩,  -- CG_V_SET
  ⟨0x5100, 1, 0x1, 1, .rwE, .bool, 0x0⟩,  -- EX_AC_ENABLE
  ⟨0x5101, 1, 0x1, 1, .rwE, (.f32 [(0x43BE0000, 0x43CF8000)]), 0x43C80000⟩,  -- EX_AC_VOLTAGE
  ⟨0x5102, 1, 0x1, 1, .rwE, (.enum 1), 0x0⟩,  -- EX_AC_FREQ
  ⟨0x5103, 1, 0x1, 1, .rwE, (.f32 [(0x447A0000, 0x472BE000)]), 0x472BE000⟩,  -- EX_AC_S_MAX
  ⟨0x5104, 1, 0x1, 1, .rwE, (.f32 [(0x3F800000, 0x427C0000)]), 0x427C0000⟩]  -- EX_AC_I_MAX

/-- Area 6 of the parameter map. -/
def rowsActuator : List PRow := [
  ⟨0x6000, 1, 0x40, 4, .rwE, .bool, 0x0⟩,  -- AX_ENABLE
  ⟨0x6001, 1, 0x40, 4, .rwE, (.enum 1), 0x0⟩,  -- AX_ROLE
  ⟨0x6002, 1, 0x40, 4, .rwE, (.enum 2), 0x0⟩,  -- AX_TORQUE_LINK
  ⟨0x6003, 1, 0x40, 4, .rwE, (.f32 [(0x459C4000, 0x47435000)]), 0x469C4000⟩,  -- AX_PWM_FREQ
  ⟨0x6004, 1, 0x40, 4, .rwE, (.u32 0x8 0x190), 0x28⟩,  -- AX_DEAD_TIME
  ⟨0x6005, 1, 0x40, 4, .rwE, (.u32 0x30 0x190), 0x30⟩,  -- AX_REFRESH_PULSE
  ⟨0x6006, 1, 0x40, 4, .rwE, (.f32 [(0x41200000, 0x42C80000)]), 0x42480000⟩,  -- AX_REFRESH_INTERVAL
  ⟨0x6007, 1, 0x40, 4, .rwE, (.u32 0x0 0x5), 0x0⟩,  -- AX_COMM_SHIFT
  ⟨0x6008, 1, 0x40, 4, .rwE, (.f32 [(0x3F800000, 0x42340000)]), 0x42200000⟩,  -- AX_I_TRIP
  ⟨0x6009, 1, 0x40, 4, .rwE, (.f32 [(0x3F800000, 0x42700000)]), 0x41C00000⟩,  -- AX_V_MAX
  ⟨0x600A, 1, 0x40, 4, .rwE, (.f32 [(0x41200000, 0x47C35000)]), 0x44FA0000⟩,  -- AX_SPEED_MAX
  ⟨0x600B, 1, 0x40, 4, .rwE, (.u32 0x0 0x64), 0x2⟩,  -- AX_POS_TOL
  ⟨0x600C, 1, 0x40, 4, .rwE, (.f32 [(0x42C80000, 0x49742400)]), 0x469C4000⟩,  -- AX_SETTLE
  ⟨0x600D, 1, 0x40, 4, .rwE, (.f32 [(0x447A0000, 0x4B189680)]), 0x48F42400⟩,  -- AX_MOVE_TIMEOUT
  ⟨0x600E, 1, 0x40, 4, .rwE, (.f32 [(0x0, 0x44FA0000)]), 0x41A00000⟩,  -- AX_SHIFT_TORQUE
  ⟨0x600F, 1, 0x40, 4, .rwE, (.f32 [(0x447A0000, 0x4B189680)]), 0x48435000⟩,  -- AX_TORQUE_WAIT
  ⟨0x6010, 1, 0x40, 4, .rwE, (.enum 1), 0x0⟩,  -- AX_HOME_MODE
  ⟨0x6011, 1, 0x40, 4, .rwE, (.f32 [(0xC2700000, 0x42700000)]), 0xC0C00000⟩,  -- AX_HOME_VOLTAGE
  ⟨0x6012, 1, 0x40, 4, .rwE, (.f32 [(0x447A0000, 0x49742400)]), 0x47435000⟩,  -- AX_STALL_TIME
  ⟨0x6013, 1, 0x40, 4, .rwE, .i32, 0x0⟩,  -- AX_HOME_POS
  ⟨0x6014, 1, 0x40, 4, .rwE, (.f32 [(0x0, 0x43FA0000)]), 0x40A00000⟩,  -- AX_PARK_SPEED_MAX
  ⟨0x6018, 8, 0x40, 4, .rwE, .i32, 0x7FFFFFFF⟩,  -- AX_GEAR_POS_g
  ⟨0x6020, 1, 0x40, 4, .rwE, (.f32 [(0xC9742400, 0x49742400)]), 0x3F000000⟩,  -- AX loop coefficient 0
  ⟨0x6021, 1, 0x40, 4, .rwE, (.f32 [(0xC9742400, 0x49742400)]), 0xBEE66666⟩,  -- AX loop coefficient 1
  ⟨0x6022, 1, 0x40, 4, .rwE, (.f32 [(0xC9742400, 0x49742400)]), 0x0⟩,  -- AX loop coefficient 2
  ⟨0x6023, 1, 0x40, 4, .rwE, (.f32 [(0xC9742400, 0x49742400)]), 0xBF800000⟩,  -- AX loop coefficient 3
  ⟨0x6024, 1, 0x40, 4, .rwE, (.f32 [(0xC9742400, 0x49742400)]), 0x0⟩,  -- AX loop coefficient 4
  ⟨0x6025, 1, 0x40, 4, .rwE, (.u32 1 64), 0x14⟩]  -- AX loop divider

/-- Area 7 of the parameter map. -/
def rowsGate : List PRow := [
  ⟨0x7000, 1, 0x40, 6, .rwE, (.f32 [(0x41400000, 0x41A00000)]), 0x41900000⟩,  -- GD_VPOS
  ⟨0x7001, 1, 0x40, 6, .rwE, (.f32 [(0xC1000000, 0x0)]), 0xC0800000⟩,  -- GD_VNEG
  ⟨0x7002, 1, 0x40, 6, .rwE, (.u32 0x14 0x320), 0x50⟩,  -- GD_DEAD_TIME
  ⟨0x7003, 1, 0x40, 6, .rwE, (.u32 0x0 0x190), 0x28⟩,  -- GD_MIN_PULSE
  ⟨0x7004, 1, 0x40, 6, .rwE, (.f32 [(0x40400000, 0x41200000)]), 0x41000000⟩,  -- GD_DESAT_THRESHOLD
  ⟨0x7005, 1, 0x40, 6, .rwE, (.u32 0x28 0x4B0), 0xC8⟩,  -- GD_DESAT_BLANK
  ⟨0x7006, 1, 0x40, 6, .rwE, (.f32 [(0x3F000000, 0x40A00000)]), 0x40000000⟩,  -- GD_HARDSHORT_LEVEL
  ⟨0x7007, 1, 0x40, 6, .rwE, (.f32 [(0x40C00000, 0x41600000)]), 0x41200000⟩,  -- GD_STO_PLATEAU
  ⟨0x7008, 1, 0x40, 6, .rwE, (.u32 0x14 0xA0), 0x50⟩,  -- GD_STO_T1
  ⟨0x7009, 1, 0x40, 6, .rwE, (.u32 0x0 0xF0), 0x78⟩,  -- GD_STO_T2
  ⟨0x700A, 1, 0x40, 2, .rwE, (.u32 0x0 0x3F), 0x0⟩]  -- GD_PV_TRIGGER

/-- Area 8 of the parameter map, part 1. -/
def rowsAfeA : List PRow := [
  ⟨0x8000, 3, 0x1, 1, .r, (.u32 0 0xFFFFFFFF), 0x3D0F5C29⟩,  -- AFE0 AFE_IN_GAIN fixed
  ⟨0x8003, 12, 0x1, 1, .rwE, (.f32nz 0xC9742400 0x49742400), 0x3C23D70A⟩,  -- AFE0 AFE_IN_GAIN
  ⟨0x800F, 3, 0x1, 1, .r, (.u32 0 0xFFFFFFFF), 0x3D0F5C29⟩,  -- AFE0 AFE_IN_GAIN fixed
  ⟨0x8012, 14, 0x1, 1, .rwE, (.f32nz 0xC9742400 0x49742400), 0x3C23D70A⟩,  -- AFE0 AFE_IN_GAIN
  ⟨0x8020, 3, 0x1, 1, .r, (.u32 0 0xFFFFFFFF), 0x0⟩,  -- AFE0 AFE_IN_OFFSET fixed
  ⟨0x8023, 12, 0x1, 1, .rwE, (.f32 [(0xC9742400, 0x49742400)]), 0x0⟩,  -- AFE0 AFE_IN_OFFSET
  ⟨0x802F, 3, 0x1, 1, .r, (.u32 0 0xFFFFFFFF), 0x0⟩,  -- AFE0 AFE_IN_OFFSET fixed
  ⟨0x8032, 14, 0x1, 1, .rwE, (.f32 [(0xC9742400, 0x49742400)]), 0x0⟩,  -- AFE0 AFE_IN_OFFSET
  ⟨0x8040, 32, 0x1, 1, .rwE, (.enum 4), 0x0⟩,  -- AFE0 AFE_IN_OPENWIRE
  ⟨0x8060, 4, 0x1, 1, .rwE, (.f32nz 0xC9742400 0x49742400), 0x3C23D70A⟩,  -- AFE0 sigma-delta gain
  ⟨0x8064, 4, 0x1, 1, .rwE, (.f32 [(0xC9742400, 0x49742400)]), 0x0⟩,  -- AFE0 sigma-delta offset
  ⟨0x8080, 1, 0x1, 1, .rwE, .trigPeriod, 0x3E8⟩,  -- AFE0 trigger 0
  ⟨0x8081, 1, 0x1, 1, .rwE, .trigPeriod, 0x3E8⟩,  -- AFE0 trigger 1
  ⟨0x8082, 2, 0x1, 1, .r, (.u32 0 0xFFFFFFFF), 0x0⟩,  -- AFE0 trigger 2, 3 formed
  ⟨0x8084, 1, 0x1, 1, .rwE, .trigPeriod, 0x61A80⟩,  -- AFE0 trigger 4
  ⟨0x8085, 59, 0x1, 1, .rwE, .trigPeriod, 0x0⟩,  -- AFE0 other triggers
  ⟨0x80C0, 1, 0x1, 1, .rwE, (.u32 0 3999999999), 0x1FE⟩,  -- AFE0 trigger 0
  ⟨0x80C1, 1, 0x1, 1, .rwE, (.u32 0 3999999999), 0x14A⟩,  -- AFE0 trigger 1
  ⟨0x80C2, 2, 0x1, 1, .r, (.u32 0 0xFFFFFFFF), 0x0⟩,  -- AFE0 trigger 2, 3 formed
  ⟨0x80C4, 1, 0x1, 1, .rwE, (.u32 0 3999999999), 0x0⟩,  -- AFE0 trigger 4
  ⟨0x80C5, 59, 0x1, 1, .rwE, (.u32 0 3999999999), 0x0⟩,  -- AFE0 other triggers
  ⟨0x8100, 1, 0x1, 1, .rwE, (.u32 48 65535), 0x1D2⟩,  -- AFE0 trigger 0
  ⟨0x8101, 1, 0x1, 1, .rwE, (.u32 48 65535), 0x1D6⟩,  -- AFE0 trigger 1
  ⟨0x8102, 2, 0x1, 1, .rwE, (.u32 48 65535), 0x30⟩,  -- AFE0 trigger 2, 3 latency
  ⟨0x8104, 1, 0x1, 1, .rwE, (.u32 48 65535), 0x30⟩,  -- AFE0 trigger 4
  ⟨0x8105, 59, 0x1, 1, .rwE, (.u32 48 65535), 0x30⟩,  -- AFE0 other triggers
  ⟨0x8140, 1, 0x1, 1, .rwE, (.bits 0xFFFFFFFF), 0x2⟩,  -- AFE0 trigger 0
  ⟨0x8141, 1, 0x1, 1, .rwE, (.bits 0xFFFFFFFF), 0x7F⟩,  -- AFE0 trigger 1
  ⟨0x8142, 2, 0x1, 1, .r, (.u32 0 0xFFFFFFFF), 0x0⟩,  -- AFE0 trigger 2, 3 formed
  ⟨0x8144, 1, 0x1, 1, .rwE, (.bits 0xFFFFFFFF), 0x20180⟩,  -- AFE0 trigger 4
  ⟨0x8145, 59, 0x1, 1, .rwE, (.bits 0xFFFFFFFF), 0x0⟩,  -- AFE0 other triggers
  ⟨0x8180, 1, 0x1, 1, .rwE, .trigCtrl, 0x37⟩,  -- AFE0 trigger 0
  ⟨0x8181, 1, 0x1, 1, .rwE, .trigCtrl, 0xB8⟩,  -- AFE0 trigger 1
  ⟨0x8182, 2, 0x1, 1, .r, (.u32 0 0xFFFFFFFF), 0x0⟩,  -- AFE0 trigger 2, 3 formed
  ⟨0x8184, 1, 0x1, 1, .rwE, .trigCtrl, 0x160⟩,  -- AFE0 trigger 4
  ⟨0x8185, 59, 0x1, 1, .rwE, .trigCtrl, 0x30⟩,  -- AFE0 other triggers
  ⟨0x81C0, 1, 0x400, 2, .rwE, .sdClock, 0x4B989680⟩,  -- AFE_SD_CLOCK
  ⟨0x81C1, 1, 0x400, 2, .rwE, (.u32 0x4 0x190), 0x4⟩,  -- AFE_CMP_DIV
  ⟨0x81C2, 1, 0x400, 2, .rwE, (.u32 0x0 0x1F), 0x4⟩,  -- AFE_CMP_HYST
  ⟨0x81C3, 1, 0x400, 2, .rwE, (.u32 0x1 0x8), 0x2⟩]  -- AFE_CMP_FILTER

/-- Area 8 of the parameter map, part 2. -/
def rowsAfeB : List PRow := [
  ⟨0x81C4, 1, 0x400, 2, .rwE, (.u32 0x3E8 0x7FFF), 0x7530⟩,  -- AFE_OW_LEVEL
  ⟨0x81C5, 1, 0x400, 2, .rwE, (.u32 0x1 0xFF), 0x8⟩,  -- AFE_OW_COUNT
  ⟨0x81C6, 1, 0x400, 2, .rwE, (.f32 [(0x461C4000, 0x4C64E1C0)]), 0x49742400⟩,  -- AFE_ROTATE_INTERVAL
  ⟨0x81C7, 1, 0x400, 2, .rwE, (.u32 0x0 0x10), 0x2⟩,  -- AFE_SD_HYST
  ⟨0x81C8, 4, 0x400, 2, .rwE, (.oneOf [4, 8, 16, 32, 64, 128, 256]), 0x10⟩,  -- AFE_SD_OSR_i
  ⟨0x81CC, 4, 0x400, 2, .rwE, (.f32 [(0x0, 0x49742400)]), 0x0⟩,  -- AFE_SD_TRIP_i
  ⟨0x8400, 5, 0x1, 1, .r, (.u32 0 0xFFFFFFFF), 0x3D0F5C29⟩,  -- AFE1 AFE_IN_GAIN fixed
  ⟨0x8405, 13, 0x1, 1, .rwE, (.f32nz 0xC9742400 0x49742400), 0x3C23D70A⟩,  -- AFE1 AFE_IN_GAIN
  ⟨0x8412, 3, 0x1, 1, .r, (.u32 0 0xFFFFFFFF), 0x3D0F5C29⟩,  -- AFE1 AFE_IN_GAIN fixed
  ⟨0x8415, 11, 0x1, 1, .rwE, (.f32nz 0xC9742400 0x49742400), 0x3C23D70A⟩,  -- AFE1 AFE_IN_GAIN
  ⟨0x8420, 5, 0x1, 1, .r, (.u32 0 0xFFFFFFFF), 0x0⟩,  -- AFE1 AFE_IN_OFFSET fixed
  ⟨0x8425, 13, 0x1, 1, .rwE, (.f32 [(0xC9742400, 0x49742400)]), 0x0⟩,  -- AFE1 AFE_IN_OFFSET
  ⟨0x8432, 3, 0x1, 1, .r, (.u32 0 0xFFFFFFFF), 0x0⟩,  -- AFE1 AFE_IN_OFFSET fixed
  ⟨0x8435, 11, 0x1, 1, .rwE, (.f32 [(0xC9742400, 0x49742400)]), 0x0⟩,  -- AFE1 AFE_IN_OFFSET
  ⟨0x8440, 32, 0x1, 1, .rwE, (.enum 4), 0x0⟩,  -- AFE1 AFE_IN_OPENWIRE
  ⟨0x8460, 4, 0x1, 1, .rwE, (.f32nz 0xC9742400 0x49742400), 0x3C23D70A⟩,  -- AFE1 sigma-delta gain
  ⟨0x8464, 4, 0x1, 1, .rwE, (.f32 [(0xC9742400, 0x49742400)]), 0x0⟩,  -- AFE1 sigma-delta offset
  ⟨0x8480, 1, 0x1, 1, .rwE, .trigPeriod, 0x3E8⟩,  -- AFE1 trigger 0
  ⟨0x8481, 1, 0x1, 1, .rwE, .trigPeriod, 0x3E8⟩,  -- AFE1 trigger 1
  ⟨0x8482, 2, 0x1, 1, .r, (.u32 0 0xFFFFFFFF), 0x0⟩,  -- AFE1 trigger 2, 3 formed
  ⟨0x8484, 1, 0x1, 1, .rwE, .trigPeriod, 0x61A80⟩,  -- AFE1 trigger 4
  ⟨0x8485, 59, 0x1, 1, .rwE, .trigPeriod, 0x0⟩,  -- AFE1 other triggers
  ⟨0x84C0, 1, 0x1, 1, .rwE, (.u32 0 3999999999), 0x1FE⟩,  -- AFE1 trigger 0
  ⟨0x84C1, 1, 0x1, 1, .rwE, (.u32 0 3999999999), 0x14A⟩,  -- AFE1 trigger 1
  ⟨0x84C2, 2, 0x1, 1, .r, (.u32 0 0xFFFFFFFF), 0x0⟩,  -- AFE1 trigger 2, 3 formed
  ⟨0x84C4, 1, 0x1, 1, .rwE, (.u32 0 3999999999), 0x0⟩,  -- AFE1 trigger 4
  ⟨0x84C5, 59, 0x1, 1, .rwE, (.u32 0 3999999999), 0x0⟩,  -- AFE1 other triggers
  ⟨0x8500, 1, 0x1, 1, .rwE, (.u32 48 65535), 0x1D2⟩,  -- AFE1 trigger 0
  ⟨0x8501, 1, 0x1, 1, .rwE, (.u32 48 65535), 0x1D6⟩,  -- AFE1 trigger 1
  ⟨0x8502, 2, 0x1, 1, .rwE, (.u32 48 65535), 0x30⟩,  -- AFE1 trigger 2, 3 latency
  ⟨0x8504, 1, 0x1, 1, .rwE, (.u32 48 65535), 0x30⟩,  -- AFE1 trigger 4
  ⟨0x8505, 59, 0x1, 1, .rwE, (.u32 48 65535), 0x30⟩,  -- AFE1 other triggers
  ⟨0x8540, 1, 0x1, 1, .rwE, (.bits 0xFFFFFFFF), 0x1⟩,  -- AFE1 trigger 0
  ⟨0x8541, 1, 0x1, 1, .rwE, (.bits 0xFFFFFFFF), 0x3FF⟩,  -- AFE1 trigger 1
  ⟨0x8542, 2, 0x1, 1, .r, (.u32 0 0xFFFFFFFF), 0x0⟩,  -- AFE1 trigger 2, 3 formed
  ⟨0x8544, 1, 0x1, 1, .rwE, (.bits 0xFFFFFFFF), 0x100C00⟩,  -- AFE1 trigger 4
  ⟨0x8545, 59, 0x1, 1, .rwE, (.bits 0xFFFFFFFF), 0x0⟩,  -- AFE1 other triggers
  ⟨0x8580, 1, 0x1, 1, .rwE, .trigCtrl, 0x77⟩,  -- AFE1 trigger 0
  ⟨0x8581, 1, 0x1, 1, .rwE, .trigCtrl, 0xF8⟩,  -- AFE1 trigger 1
  ⟨0x8582, 2, 0x1, 1, .r, (.u32 0 0xFFFFFFFF), 0x0⟩]  -- AFE1 trigger 2, 3 formed

/-- Area 8 of the parameter map, part 3. -/
def rowsAfeC : List PRow := [
  ⟨0x8584, 1, 0x1, 1, .rwE, .trigCtrl, 0x160⟩,  -- AFE1 trigger 4
  ⟨0x8585, 59, 0x1, 1, .rwE, .trigCtrl, 0x30⟩]  -- AFE1 other triggers

/-- Area 9 of the parameter map. -/
def rowsFeedback : List PRow := [
  ⟨0x9000, 1, 0x40, 2, .rwE, (.enum 5), 0x0⟩,  -- FB_SOURCE
  ⟨0x9001, 1, 0x40, 2, .rwE, (.u32 0x1 0xFFFF), 0x400⟩,  -- FB_ABZ_LINES
  ⟨0x9002, 1, 0x40, 2, .rwE, (.enum 1), 0x0⟩,  -- FB_DIRECTION
  ⟨0x9003, 1, 0x40, 2, .rwE, (.f32 [(0x0, 0x40C90FDB)]), 0x0⟩,  -- FB_ANGLE_OFFSET
  ⟨0x9004, 1, 0x40, 2, .rwE, (.u32 0x0 0x190), 0x8⟩,  -- FB_FILTER
  ⟨0x9005, 1, 0x40, 2, .rwE, (.u32 0 0xFFFFFFFF), 0x0⟩,  -- FB_INDEX_POS
  ⟨0x9006, 1, 0x40, 2, .rwE, (.u32 0x0 0x3E8), 0x4⟩,  -- FB_INDEX_TOLERANCE
  ⟨0x9007, 1, 0x40, 2, .rwE, (.enum 1), 0x1⟩,  -- FB_INDEX_GATE
  ⟨0x9008, 1, 0x40, 2, .rwE, (.u32 0x190 0x3D0900), 0x9C40⟩,  -- FB_SPEED_WINDOW
  ⟨0x9009, 1, 0x40, 2, .rwE, (.f32 [(0x42C80000, 0x49742400)]), 0x47435000⟩,  -- FB_STANDSTILL_TIMEOUT
  ⟨0x900A, 1, 0x40, 2, .rwE, (.f32 [(0x0, 0x40C90FDB)]), 0x0⟩,  -- FB_HALL_OFFSET
  ⟨0x900B, 1, 0x40, 2, .rwE, (.f32 [(0x3F800000, 0x47C35000)]), 0x42C80000⟩,  -- FB_HALL_INVALID_DWELL
  ⟨0x900C, 1, 0x40, 2, .rwE, (.u32 0x28 0xFA0), 0x50⟩,  -- FB_SSI_CLOCK_DIV
  ⟨0x900D, 1, 0x40, 2, .rwE, (.u32 0x8 0x20), 0x19⟩,  -- FB_SSI_BITS
  ⟨0x900E, 1, 0x40, 2, .rwE, (.u32 0x8 0x18), 0xD⟩,  -- FB_SSI_TURN_BITS
  ⟨0x900F, 1, 0x40, 2, .rwE, (.u32 0x0 0x18), 0x0⟩,  -- FB_SSI_SHIFT
  ⟨0x9010, 1, 0x40, 2, .rwE, (.enum 1), 0x1⟩,  -- FB_SSI_CODE
  ⟨0x9011, 1, 0x40, 2, .rwE, (.u32 0x0 0x20), 0x20⟩,  -- FB_SSI_ERROR_BIT
  ⟨0x9012, 1, 0x40, 2, .rwE, (.u32 0xFA0 0x3D0900), 0x9C40⟩,  -- FB_SSI_INTERVAL
  ⟨0x9013, 1, 0x40, 2, .rwE, (.f32 [(0x3F800000, 0x42C80000)]), 0x41A00000⟩,  -- FB_SSI_MONOFLOP
  ⟨0x9014, 1, 0x40, 2, .rwE, (.f32 [(0x3A83126F, 0x3F800000)]), 0x3D4CCCCD⟩,  -- FB_SSI_TOLERANCE
  ⟨0x9015, 1, 0x40, 2, .rwE, .bool, 0x0⟩,  -- FB_SENSORLESS_PERMIT
  ⟨0x9016, 1, 0x40, 2, .rwE, (.u32 0x0 0x3F), 0x0⟩,  -- FB_CAPTURE_TRIGGER
  ⟨0x9017, 1, 0x40, 2, .rwE, (.u32 0x1 0xF4240), 0x64⟩,  -- FB_ERROR_RATE_LIMIT
  ⟨0x9080, 1, 0x40, 4, .rwE, (.enumOf 5 [0, 5]), 0x0⟩,  -- FB_SOURCE
  ⟨0x9082, 1, 0x40, 4, .rwE, (.enum 1), 0x0⟩,  -- FB_DIRECTION
  ⟨0x9084, 1, 0x40, 4, .rwE, (.u32 0x0 0x190), 0x8⟩,  -- FB_FILTER
  ⟨0x9088, 1, 0x40, 4, .rwE, (.u32 0x190 0x3D0900), 0x9C40⟩,  -- FB_SPEED_WINDOW
  ⟨0x9089, 1, 0x40, 4, .rwE, (.f32 [(0x42C80000, 0x49742400)]), 0x47435000⟩,  -- FB_STANDSTILL_TIMEOUT
  ⟨0x908B, 1, 0x40, 4, .rwE, (.f32 [(0x3F800000, 0x47C35000)]), 0x42C80000⟩,  -- FB_HALL_INVALID_DWELL
  ⟨0x9096, 1, 0x40, 4, .rwE, (.u32 0x0 0x3F), 0x0⟩,  -- FB_CAPTURE_TRIGGER
  ⟨0x9097, 1, 0x40, 4, .rwE, (.u32 0x1 0xF4240), 0x64⟩,  -- FB_ERROR_RATE_LIMIT
  ⟨0x9180, 1, 0x40, 2, .rwE, (.enum 2), 0x0⟩,  -- EP_MODE
  ⟨0x9181, 1, 0x40, 2, .rwE, (.u32 0x1 0xFFFF), 0x400⟩,  -- EP_LINES
  ⟨0x9182, 1, 0x40, 2, .rwE, (.u32 0 0xFFFFFFFF), 0x0⟩,  -- EP_INDEX_POS
  ⟨0x9183, 1, 0x40, 2, .rwE, (.u32 0x8 0x190), 0x14⟩]  -- EP_MIN_EDGE

/-- Area A of the parameter map. -/
def rowsBus : List PRow := [
  ⟨0xA000, 1, 0x40, 4, .rwE, .bool, 0x1⟩,  -- BUS_ENABLE
  ⟨0xA001, 1, 0x1, 1, .rwE, (.enumOf 2 [0]), 0x0⟩,  -- BUS_NOMINAL_RATE CN0
  ⟨0xA002, 1, 0x1, 1, .rwE, (.enumOf 7 [0]), 0x0⟩,  -- BUS_DATA_RATE CN0
  ⟨0xA003, 1, 0x1, 1, .rwE, (.enum 2), 0x1⟩,  -- BUS_WAKE CN0
  ⟨0xA004, 1, 0x40, 4, .rwE, (.u32 200 2000), 0x190⟩,  -- BUS_WAKE_FILTER
  ⟨0xA005, 1, 0x40, 4, .rwE, (.u32 0 0x1FFFFFFF), 0x0⟩,  -- BUS_WAKE_ID
  ⟨0xA006, 1, 0x40, 4, .rwE, (.u32 0 0x1FFFFFFF), 0x1FFFFFFF⟩,  -- BUS_WAKE_MASK
  ⟨0xA007, 1, 0x40, 4, .rwE, .bool, 0x1⟩,  -- BUS_WAKE_EXT
  ⟨0xA010, 1, 0x1, 1, .rwE, (.u32 0 0xFFFFFFFF), 0x0⟩,  -- IS_NAME_LOW
  ⟨0xA011, 1, 0x1, 1, .rwE, (.u32 0 0xFFFFFFFF), 0x80000000⟩,  -- IS_NAME_HIGH
  ⟨0xA012, 1, 0x1, 1, .rwE, (.u32 0x0 0xEE), 0x80⟩,  -- IS_ADDRESS_BASE
  ⟨0xA013, 1, 0x1, 1, .rwE, .bool, 0x0⟩,  -- DM1_INCLUDE_C
  ⟨0xA041, 1, 0x1, 1, .rwE, (.enumOf 2 [1, 2]), 0x2⟩,  -- BUS_NOMINAL_RATE CN1
  ⟨0xA042, 1, 0x1, 1, .rwE, (.enumOf 7 [0, 1, 2, 3, 4]), 0x4⟩,  -- BUS_DATA_RATE CN1
  ⟨0xA043, 1, 0x1, 1, .rwE, (.enum 2), 0x0⟩,  -- BUS_WAKE CN1
  ⟨0xA050, 1, 0x1, 1, .rwE, (.u32 0x0 0x1FFFFFFF), 0x600⟩,  -- CN1_REQ_ID
  ⟨0xA051, 1, 0x1, 1, .rwE, (.u32 0x0 0x1FFFFFFF), 0x680⟩,  -- CN1_REP_ID
  ⟨0xA052, 1, 0x1, 1, .rwE, .bool, 0x0⟩,  -- CN1_EXT
  ⟨0xA081, 1, 0x1, 1, .rwE, (.enumOf 2 [1, 2]), 0x2⟩,  -- BUS_NOMINAL_RATE CN2
  ⟨0xA082, 1, 0x1, 1, .rwE, (.enumOf 7 [3, 5, 6, 7]), 0x7⟩,  -- BUS_DATA_RATE CN2
  ⟨0xA083, 1, 0x1, 1, .rwE, (.enum 2), 0x0⟩,  -- BUS_WAKE CN2
  ⟨0xA090, 1, 0x1, 1, .rwE, (.u32 0x9C40 0x3D0900), 0x61A80⟩,  -- AL_SYNC_PERIOD
  ⟨0xA091, 1, 0x1, 1, .rwE, (.u32 0x61A80 0x2625A00), 0x3D0900⟩,  -- AL_STATUS_PERIOD
  ⟨0xA092, 1, 0x1, 1, .rwE, (.u32 0x61A80 0x2625A00), 0x124F80⟩,  -- AL_SILENCE
  ⟨0xA093, 1, 0x1, 1, .rwE, (.u32 0x0 0xFF), 0x0⟩,  -- AL_SDT
  ⟨0xA0C1, 1, 0x1, 1, .rwE, (.enumOf 2 [1, 2]), 0x2⟩,  -- BUS_NOMINAL_RATE CN3
  ⟨0xA0C2, 1, 0x1, 1, .rwE, (.enumOf 7 [3, 5, 6, 7]), 0x7⟩,  -- BUS_DATA_RATE CN3
  ⟨0xA0C3, 1, 0x1, 1, .rwE, (.enum 2), 0x0⟩,  -- BUS_WAKE CN3
  ⟨0xA100, 1, 0x10, 2, .rwE, .bool, 0x1⟩,  -- ET_ENABLE
  ⟨0xA101, 1, 0x10, 2, .rwE, (.enum 1), 0x0⟩,  -- ET_ROLE
  ⟨0xA102, 1, 0x1, 1, .rwE, (.u32 0 0xFFFFFFFF), 0xA0A000A⟩,  -- ET_IP_ADDR ET0
  ⟨0xA103, 1, 0x10, 2, .rwE, .netmask, 0xFFFFFF00⟩,  -- ET_NETMASK
  ⟨0xA104, 1, 0x10, 2, .rwE, (.u32 0 0xFFFFFFFF), 0x0⟩,  -- ET_GATEWAY
  ⟨0xA105, 1, 0x10, 2, .r, (.u32 0 0xFFFFFFFF), 0x0⟩,  -- ET_MAC_LOW
  ⟨0xA106, 1, 0x10, 2, .r, (.u32 0 0xFFFFFFFF), 0x0⟩,  -- ET_MAC_HIGH
  ⟨0xA112, 1, 0x1, 1, .rwE, (.u32 0 0xFFFFFFFF), 0xA0B000A⟩]  -- ET_IP_ADDR ET1

/-- Area B of the parameter map. -/
def rowsSafety : List PRow := [
  ⟨0xB000, 1, 0x1, 1, .rwE, (.u32 0x1 0x3E8), 0xA⟩,  -- LOCKSTEP_RETRY_RATE_LIMIT
  ⟨0xB040, 1, 0x1, 1, .rwE, (.enum 1), 0x0⟩,  -- FLT_MODE
  ⟨0xB041, 1, 0x1, 1, .rwL, (.u32 0 0xFFFFFFFF), 0x0⟩,  -- FLOG_RECORD_SELECT
  ⟨0xB042, 1, 0x1, 1, .rwL, .bool, 0x0⟩,  -- FLOG_ERASE
  ⟨0xB043, 1, 0x1, 1, .rwE, (.f32 [(0x0, 0x0), (0x4C64E1C0, 0x530CD0E4)]), 0x50D693A4⟩,  -- SAFETY_TWIN_TEST_INTERVAL
  ⟨0xB044, 1, 0x1, 1, .rwL, .id16, 0x0⟩]  -- FLOG_COUNT_SELECT

/-- Area C of the parameter map. -/
def rowsMemory : List PRow := [
  ⟨0xC000, 1, 0x1, 1, .rwE, (.u32 0x1 0xF4240), 0x3E8⟩,  -- MEM_CORRECTED_RATE_LIMIT
  ⟨0xC001, 5, 0x1, 1, .rwE, (.u32 0x3D0900 0xEE6B2800), 0x17D78400⟩,  -- MEM_SCRUB_LAP_LIMIT_s
  ⟨0xC006, 1, 0x1, 1, .rwE, (.u32 0x1 0x40), 0x4⟩,  -- MEM_SCRUB_DIV
  ⟨0xC040, 1, 0x1, 1, .rwE, (.f32 [(0x461C4000, 0x4C64E1C0)]), 0x49742400⟩,  -- THERM_STALE_LIMIT
  ⟨0xC041, 1, 0x1, 1, .rwE, (.bits 0xFFFFFFFF), 0xFFFFFFFF⟩,  -- THERM_SCAN_MASK_LOW
  ⟨0xC042, 1, 0x1, 1, .rwE, (.bits 0x3FFF), 0x3FFF⟩,  -- THERM_SCAN_MASK_HIGH
  ⟨0xC043, 1, 0x1, 1, .rwE, (.u32 0x1 0xF4240), 0xFA0⟩,  -- THERM_SCAN_DIVIDER
  ⟨0xC044, 1, 0x1, 1, .rwE, (.f32 [(0xC2200000, 0x43160000)]), 0x42DC0000⟩,  -- THERM_T1_0
  ⟨0xC045, 1, 0x1, 1, .rwE, (.f32 [(0xC2200000, 0x43160000)]), 0x42EC0000⟩,  -- THERM_T2_0
  ⟨0xC046, 1, 0x1, 1, .rwE, (.f32 [(0xC2200000, 0x431B0000)]), 0x42FA0000⟩,  -- THERM_T3_0
  ⟨0xC047, 1, 0x1, 1, .rwE, (.f32 [(0x3F800000, 0x41A00000)]), 0x40A00000⟩,  -- THERM_HYST_0
  ⟨0xC048, 1, 0x1, 1, .rwE, (.f32 [(0xC2200000, 0x43160000)]), 0x42D20000⟩,  -- THERM_T1_1
  ⟨0xC049, 1, 0x1, 1, .rwE, (.f32 [(0xC2200000, 0x43160000)]), 0x42E60000⟩,  -- THERM_T2_1
  ⟨0xC04A, 1, 0x1, 1, .rwE, (.f32 [(0xC2200000, 0x431B0000)]), 0x42FA0000⟩,  -- THERM_T3_1
  ⟨0xC04B, 1, 0x1, 1, .rwE, (.f32 [(0x3F800000, 0x41A00000)]), 0x40A00000⟩,  -- THERM_HYST_1
  ⟨0xC04C, 1, 0x1, 1, .rwE, (.f32 [(0xC2200000, 0x43160000)]), 0x42DC0000⟩,  -- THERM_T1_2
  ⟨0xC04D, 1, 0x1, 1, .rwE, (.f32 [(0xC2200000, 0x43160000)]), 0x42EC0000⟩,  -- THERM_T2_2
  ⟨0xC04E, 1, 0x1, 1, .rwE, (.f32 [(0xC2200000, 0x431B0000)]), 0x42FA0000⟩,  -- THERM_T3_2
  ⟨0xC04F, 1, 0x1, 1, .rwE, (.f32 [(0x3F800000, 0x41A00000)]), 0x40A00000⟩,  -- THERM_HYST_2
  ⟨0xC050, 1, 0x1, 1, .rwE, (.f32 [(0xC2200000, 0x43160000)]), 0x43070000⟩,  -- THERM_T1_3
  ⟨0xC051, 1, 0x1, 1, .rwE, (.f32 [(0xC2200000, 0x43160000)]), 0x430F0000⟩,  -- THERM_T2_3
  ⟨0xC052, 1, 0x1, 1, .rwE, (.f32 [(0xC2200000, 0x431B0000)]), 0x43160000⟩,  -- THERM_T3_3
  ⟨0xC053, 1, 0x1, 1, .rwE, (.f32 [(0x3F800000, 0x41A00000)]), 0x40A00000⟩]  -- THERM_HYST_3

/-- Area D of the parameter map. -/
def rowsTime : List PRow := [
  ⟨0xD000, 1, 0x1, 1, .r, .tick64, 0x0⟩,  -- SPINDLE_NOW
  ⟨0xD001, 1, 0x1, 1, .rwE, (.enum 1), 0x0⟩,  -- SPINDLE_REF_SELECT
  ⟨0xD002, 1, 0x1, 1, .rwE, (.enum 3), 0x0⟩,  -- TS_MODE
  ⟨0xD003, 1, 0x1, 1, .r, (.u32 0 0xFFFFFFFF), 0x0⟩,  -- SPINDLE_STATUS
  ⟨0xD004, 1, 0x1, 1, .r, (.u32 0 0xFFFFFFFF), 0x0⟩,  -- REF_LOSS_COUNT
  ⟨0xD040, 1, 0x1, 1, .rwE, (.f32 [(0x3F800000, 0x43480000)]), 0x42F00000⟩,  -- SYS_SLEW_MAX
  ⟨0xD041, 1, 0x1, 1, .rwE, (.f32 [(0x459C4000, 0x4B189680)]), 0x47C35000⟩,  -- SYS_SYNC_HOLDOVER
  ⟨0xD042, 1, 0x1, 1, .rwE, (.f32 [(0x0, 0x43FA0000)]), 0x0⟩,  -- SYS_TS_CABLE_DELAY
  ⟨0xD043, 1, 0x1, 1, .rwE, (.u32 0x4 0x40), 0x10⟩]  -- SYS_DELAY_SAMPLES

/-- Area E of the parameter map, part 1. -/
def rowsStatusA : List PRow := [
  ⟨0xE000, 1, 0x1, 1, .r, (.u32 0 0xFFFFFFFF), 0x0⟩,  -- PWR_STATUS
  ⟨0xE001, 1, 0x1, 1, .r, (.u32 0 0xFFFFFFFF), 0x0⟩,  -- EPOCH_STATUS
  ⟨0xE002, 1, 0x1, 1, .r, (.u32 0 0xFFFFFFFF), 0x0⟩,  -- EPOCH_ACTIVE_NUMBER
  ⟨0xE003, 1, 0x1, 1, .r, (.u32 0 0xFFFFFFFF), 0x0⟩,  -- EPOCH_STAGED_NUMBER
  ⟨0xE004, 1, 0x1, 1, .r, (.u32 0 0xFFFFFFFF), 0x0⟩,  -- EPOCH_CELLAR_NUMBER
  ⟨0xE005, 1, 0x1, 1, .r, (.u32 0 0xFFFFFFFF), 0x0⟩,  -- EPOCH_ACTIVE_CRC
  ⟨0xE006, 1, 0x1, 1, .r, .tick64, 0x0⟩,  -- EPOCH_PENDING_TICK
  ⟨0xE008, 1, 0x1, 1, .r, .tick64, 0x0⟩,  -- EPOCH_LAST_SWITCH_TICK
  ⟨0xE00A, 1, 0x1, 1, .r, (.u32 0 0xFFFFFFFF), 0x0⟩,  -- EPOCH_COMMIT_COUNT
  ⟨0xE040, 46, 0x1, 1, .r, (.u32 0 0xFFFFFFFF), 0x0⟩,  -- DIE_STATUS_n
  ⟨0xE080, 22, 0x1, 1, .r, (.u32 0 0xFFFFFFFF), 0x0⟩,  -- CROSSING_STATUS_i
  ⟨0xE0C0, 8, 0x1, 1, .r, (.u32 0 0xFFFFFFFF), 0x0⟩,  -- REGION_STATUS_n
  ⟨0xE0C8, 8, 0x1, 1, .r, (.u32 0 0xFFFFFFFF), 0x0⟩,  -- REGION_FALLBACK_COUNT_n
  ⟨0xE0D0, 8, 0x1, 1, .r, (.u32 0 0xFFFFFFFF), 0x0⟩,  -- REGION_MISMATCH_COUNT_n
  ⟨0xE0D8, 8, 0x1, 1, .r, (.u32 0 0xFFFFFFFF), 0x0⟩,  -- REGION_LATE_COUNT_n
  ⟨0xE0E0, 8, 0x1, 1, .r, (.u32 0 0xFFFFFFFF), 0x0⟩,  -- REGION_QUENCH_COUNT_n
  ⟨0xE0E8, 8, 0x1, 1, .r, (.u32 0 0xFFFFFFFF), 0x0⟩,  -- REGION_RESOLVE_MISS_COUNT_n
  ⟨0xE0F0, 8, 0x1, 1, .r, (.u32 0 0xFFFFFFFF), 0x0⟩,  -- REGION_SKIP_COUNT_n
  ⟨0xE0F8, 8, 0x1, 1, .r, (.u32 0 0xFFFFFFFF), 0xFFFF⟩,  -- REGION_MIN_SLACK_n
  ⟨0xE100, 1, 0x1, 1, .r, (.u32 0 0xFFFFFFFF), 0x0⟩,  -- LOCKSTEP_STATUS
  ⟨0xE101, 1, 0x1, 1, .r, (.u32 0 0xFFFFFFFF), 0x0⟩,  -- LOCKSTEP_ROLLBACK_COUNT
  ⟨0xE102, 1, 0x1, 1, .r, (.u32 0 0xFFFFFFFF), 0x0⟩,  -- DELAY_PARITY_COUNT
  ⟨0xE103, 1, 0x1, 1, .r, .tick64, 0x0⟩,  -- LAST_ROLLBACK_TICK
  ⟨0xE108, 8, 0x1, 1, .r, (.u32 0 0xFFFFFFFF), 0x0⟩,  -- REGION_RANGE_COUNT_n
  ⟨0xE110, 8, 0x1, 1, .r, (.u32 0 0xFFFFFFFF), 0x0⟩,  -- REGION_K_n
  ⟨0xE140, 1, 0x40, 2, .r, (.u32 0 0xFFFFFFFF), 0x0⟩,  -- TR_STATUS
  ⟨0xE141, 1, 0x40, 2, .r, (.u32 0 0xFFFFFFFF), 0x0⟩,  -- TR_TORQUE_EST
  ⟨0xE142, 1, 0x40, 2, .r, (.u32 0 0xFFFFFFFF), 0x0⟩,  -- TR_FLUX_EST
  ⟨0xE143, 1, 0x40, 2, .r, (.u32 0 0xFFFFFFFF), 0x0⟩,  -- TR_SPEED_EST
  ⟨0xE144, 1, 0x40, 2, .r, (.u32 0 0xFFFFFFFF), 0x0⟩,  -- TR_TORQUE_REF
  ⟨0xE145, 1, 0x40, 2, .r, (.u32 0 0xFFFFFFFF), 0x0⟩,  -- TR_FLUX_REF_USED
  ⟨0xE146, 1, 0x40, 2, .r, (.u32 0 0xFFFFFFFF), 0x0⟩,  -- TR_SWITCH_RATE
  ⟨0xE147, 1, 0x40, 2, .r, (.u32 0 0xFFFFFFFF), 0x0⟩,  -- TR_RESIDUAL
  ⟨0xE148, 1, 0x40, 2, .r, (.u32 0 0xFFFFFFFF), 0x0⟩,  -- TR_ENVELOPE_STATUS
  ⟨0xE149, 1, 0x40, 2, .r, (.u32 0 0xFFFFFFFF), 0x0⟩,  -- TR_ID_CMD
  ⟨0xE14A, 1, 0x40, 2, .r, (.u32 0 0xFFFFFFFF), 0x0⟩,  -- TR_TORQUE_LIM_POS
  ⟨0xE14B, 1, 0x40, 2, .r, (.u32 0 0xFFFFFFFF), 0x0⟩,  -- TR_TORQUE_LIM_NEG
  ⟨0xE14C, 1, 0x40, 2, .r, (.u32 0 0xFFFFFFFF), 0x0⟩,  -- TR_BACK_EMF_RATIO
  ⟨0xE14D, 1, 0x40, 2, .r, (.u32 0 0xFFFFFFFF), 0x0⟩,  -- TR_START_SPEED
  ⟨0xE200, 1, 0x8, 6, .r, (.u32 0 0xFFFFFFFF), 0x0⟩]  -- FB_STATUS

/-- Area E of the parameter map, part 2. -/
def rowsStatusB : List PRow := [
  ⟨0xE201, 1, 0x8, 6, .r, (.u32 0 0xFFFFFFFF), 0x0⟩,  -- FB_ANGLE
  ⟨0xE202, 1, 0x8, 6, .r, (.u32 0 0xFFFFFFFF), 0x0⟩,  -- FB_SPEED
  ⟨0xE203, 1, 0x8, 6, .r, (.u32 0 0xFFFFFFFF), 0x0⟩,  -- FB_REVOLUTIONS
  ⟨0xE204, 1, 0x8, 6, .r, (.u32 0 0xFFFFFFFF), 0x0⟩,  -- FB_INDEX_DEV_LAST
  ⟨0xE205, 1, 0x8, 6, .r, (.u32 0 0xFFFFFFFF), 0x0⟩,  -- FB_INDEX_CORRECTIONS
  ⟨0xE206, 1, 0x8, 6, .r, (.u32 0 0xFFFFFFFF), 0x0⟩,  -- FB_ERROR_COUNT
  ⟨0xE207, 1, 0x8, 6, .r, (.u32 0 0xFFFFFFFF), 0x0⟩,  -- FB_SSI_WORD
  ⟨0xE240, 1, 0x1, 1, .r, (.u32 0 0xFFFFFFFF), 0x0⟩,  -- CV_STATUS
  ⟨0xE241, 1, 0x1, 1, .r, (.u32 0 0xFFFFFFFF), 0x0⟩,  -- CV_VBAT
  ⟨0xE242, 1, 0x1, 1, .r, (.u32 0 0xFFFFFFFF), 0x0⟩,  -- CV_IBAT
  ⟨0xE243, 1, 0x1, 1, .r, (.u32 0 0xFFFFFFFF), 0x0⟩,  -- CV_VREF
  ⟨0xE244, 1, 0x1, 1, .r, (.u32 0 0xFFFFFFFF), 0x0⟩,  -- CV_IPK
  ⟨0xE245, 1, 0x1, 1, .r, (.u32 0 0xFFFFFFFF), 0x0⟩,  -- DO_CURRENT
  ⟨0xE280, 1, 0x1, 1, .r, (.u32 0 0xFFFFFFFF), 0x0⟩,  -- CG_STATUS
  ⟨0xE281, 1, 0x1, 1, .r, (.u32 0 0xFFFFFFFF), 0x0⟩,  -- CG_TIMER_W
  ⟨0xE282, 1, 0x1, 1, .r, (.u32 0 0xFFFFFFFF), 0x0⟩,  -- CG_PILOT_DUTY
  ⟨0xE283, 1, 0x1, 1, .r, (.u32 0 0xFFFFFFFF), 0x0⟩,  -- CG_AC_ALLOWED
  ⟨0xE284, 1, 0x1, 1, .r, (.u32 0 0xFFFFFFFF), 0x0⟩,  -- CG_AC_POWER
  ⟨0xE285, 1, 0x1, 1, .r, (.u32 0 0xFFFFFFFF), 0x0⟩,  -- CG_BUS_VOLTAGE
  ⟨0xE286, 1, 0x1, 1, .r, (.u32 0 0xFFFFFFFF), 0x0⟩,  -- CG_DAB_PHI
  ⟨0xE287, 1, 0x1, 1, .r, (.u32 0 0xFFFFFFFF), 0x0⟩,  -- CG_P_REF
  ⟨0xE2C0, 1, 0x1, 1, .r, (.u32 0 0xFFFFFFFF), 0x0⟩,  -- CH_STATUS
  ⟨0xE2C1, 1, 0x1, 1, .r, (.u32 0 0xFFFFFFFF), 0x0⟩,  -- CH_RES_POWER_EST
  ⟨0xE2C2, 1, 0x1, 1, .r, (.u32 0 0xFFFFFFFF), 0x0⟩,  -- CH_REGEN_SCALE
  ⟨0xE300, 36, 0x1, 1, .r, (.u32 0 0xFFFFFFFF), 0x0⟩,  -- GD_ISLAND_STATUS_i
  ⟨0xE324, 1, 0x1, 1, .r, (.u32 0 0xFFFFFFFF), 0x0⟩,  -- GD_STATUS
  ⟨0xE340, 4, 0x8, 4, .r, (.u32 0 0xFFFFFFFF), 0x0⟩,  -- AX_STATUS, AX_POSITION, AX_CURRENT, AX_DUTY
  ⟨0xE380, 1, 0x1, 2, .r, (.u32 0 0xFFFFFFFF), 0x0⟩,  -- AFE_STATUS
  ⟨0xE382, 8, 0x1, 1, .r, (.u32 0 0xFFFFFFFF), 0x0⟩,  -- AFE_SD_STATUS_m
  ⟨0xE38A, 1, 0x1, 2, .r, (.u32 0 0xFFFFFFFF), 0x0⟩,  -- AFE_QUEUE_DISCARD
  ⟨0xE3C0, 32, 0x20, 2, .r, (.u32 0 0xFFFFFFFF), 0x0⟩,  -- AFE_CMP_STATUS_k
  ⟨0xE400, 1, 0x8, 4, .r, (.u32 0 0xFFFFFFFF), 0x0⟩,  -- BUS_STATUS
  ⟨0xE401, 1, 0x8, 4, .r, (.u32 0 0xFFFFFFFF), 0x0⟩,  -- BUS_TX_FAIL_COUNT
  ⟨0xE402, 1, 0x8, 4, .r, (.u32 0 0xFFFFFFFF), 0x0⟩,  -- BUS_RX_OVERRUN_COUNT
  ⟨0xE403, 1, 0x8, 4, .r, (.u32 0 0xFFFFFFFF), 0x0⟩,  -- BUS_BUSOFF_COUNT
  ⟨0xE404, 1, 0x8, 4, .r, (.u32 0 0xFFFFFFFF), 0x0⟩,  -- BUS_HP_OVERRUN_COUNT
  ⟨0xE405, 1, 0x8, 4, .r, (.u32 0 0xFFFFFFFF), 0x0⟩,  -- BUS_RX_TOO_LONG
  ⟨0xE420, 1, 0x1, 1, .r, (.u32 0 0xFFFFFFFF), 0x0⟩,  -- WAKE_REASON
  ⟨0xE421, 1, 0x1, 1, .r, (.u32 0 0xFFFFFFFF), 0xFE⟩,  -- IS_ADDRESS
  ⟨0xE430, 1, 0x8, 2, .r, (.u32 0 0xFFFFFFFF), 0x0⟩]  -- ET_STATUS

/-- Area E of the parameter map, part 3. -/
def rowsStatusC : List PRow := [
  ⟨0xE431, 1, 0x8, 2, .r, (.u32 0 0xFFFFFFFF), 0x0⟩,  -- ET_DISCARD_COUNT
  ⟨0xE440, 1, 0x1, 1, .r, (.u32 0 0xFFFFFFFF), 0x0⟩,  -- SYS_STATUS
  ⟨0xE441, 1, 0x1, 1, .r, (.u32 0 0xFFFFFFFF), 0x0⟩,  -- SYS_TIME_OFFSET
  ⟨0xE442, 1, 0x1, 1, .r, (.u32 0 0xFFFFFFFF), 0x0⟩,  -- SYS_RATE_ADJUST
  ⟨0xE443, 1, 0x1, 1, .r, (.u32 0 0xFFFFFFFF), 0x0⟩,  -- SYS_PATH_DELAY_CN2
  ⟨0xE444, 1, 0x1, 1, .r, (.u32 0 0xFFFFFFFF), 0x0⟩,  -- SYS_PATH_DELAY_CN3
  ⟨0xE445, 1, 0x1, 1, .r, (.u32 0 0xFFFFFFFF), 0x0⟩,  -- SYS_SET_CRC
  ⟨0xE446, 1, 0x1, 1, .r, (.u32 0 0xFFFFFFFF), 0x0⟩,  -- SYS_ADMITTED_MASK
  ⟨0xE447, 1, 0x1, 1, .r, (.u32 0 0xFFFFFFFF), 0x0⟩,  -- SYS_PRESENT_MASK
  ⟨0xE448, 1, 0x1, 1, .r, (.u32 0 0xFFFFFFFF), 0x0⟩,  -- SYS_ALLOC_LATE_COUNT
  ⟨0xE449, 1, 0x1, 1, .r, .tick64, 0x0⟩,  -- SYS_LAST_ALLOC_TICK
  ⟨0xE480, 1, 0x1, 1, .r, (.u32 0 0xFFFFFFFF), 0x0⟩,  -- CMD_ACCEPT_COUNT
  ⟨0xE481, 1, 0x1, 1, .r, (.u32 0 0xFFFFFFFF), 0x0⟩,  -- CMD_REJECT_COUNT
  ⟨0xE482, 1, 0x1, 1, .r, (.u32 0 0xFFFFFFFF), 0x0⟩,  -- CMD_UNDECODABLE_COUNT
  ⟨0xE483, 1, 0x1, 1, .r, (.u32 0 0xFFFFFFFF), 0x0⟩,  -- CMD_SEGMENT_DROP_COUNT
  ⟨0xE484, 1, 0x1, 1, .r, (.u32 0 0xFFFFFFFF), 0x0⟩,  -- CMD_TIMED_PENDING
  ⟨0xE485, 1, 0x1, 1, .r, (.u32 0 0xFFFFFFFF), 0x0⟩,  -- CMD_TIMED_DROPPED_COUNT
  ⟨0xE4C0, 1, 0x1, 1, .r, (.u32 0 0xFFFFFFFF), 0x0⟩,  -- FAULT_SUMMARY
  ⟨0xE4C1, 1, 0x1, 1, .r, (.u32 0 0xFFFFFFFF), 0x0⟩,  -- FLOG_WRITTEN
  ⟨0xE4C2, 1, 0x1, 1, .r, (.u32 0 0xFFFFFFFF), 0x0⟩,  -- FLOG_LOST_COUNT
  ⟨0xE4C3, 1, 0x1, 1, .r, (.u32 0 0xFFFFFFFF), 0x0⟩,  -- FLOG_OLDEST_SEQ
  ⟨0xE4C4, 1, 0x1, 1, .r, (.u32 0 0xFFFFFFFF), 0x0⟩,  -- FLOG_NEWEST_SEQ
  ⟨0xE4C5, 1, 0x1, 1, .r, (.u32 0 0xFFFFFFFF), 0x0⟩,  -- FLOG_COUNT
  ⟨0xE4C8, 8, 0x1, 1, .r, (.u32 0 0xFFFFFFFF), 0x0⟩,  -- FLOG_RECORD_w
  ⟨0xE500, 46, 0x1, 1, .r, (.u32 0 0xFFFFFFFF), 0x7FC00000⟩,  -- DIE_TEMP_d
  ⟨0xE540, 1, 0x8, 5, .r, (.u32 0 0xFFFFFFFF), 0x0⟩,  -- MEM_CORRECTED_COUNT
  ⟨0xE541, 1, 0x8, 5, .r, (.u32 0 0xFFFFFFFF), 0x0⟩,  -- MEM_UNCORR_COUNT
  ⟨0xE542, 1, 0x8, 5, .r, (.u32 0 0xFFFFFFFF), 0x0⟩,  -- MEM_LAST_ERROR
  ⟨0xE543, 1, 0x8, 5, .r, (.u32 0 0xFFFFFFFF), 0x0⟩,  -- MEM_SCRUB_LAP
  ⟨0xE544, 1, 0x8, 5, .r, (.u32 0 0xFFFFFFFF), 0x0⟩,  -- MEM_SCRUB_LAPS
  ⟨0xE580, 1, 0x1, 1, .r, (.u32 0 0xFFFFFFFF), 0x0⟩,  -- PORT_STATUS
  ⟨0xE581, 1, 0x1, 1, .r, (.u32 0 0xFFFFFFFF), 0x0⟩,  -- PORT_STRAPS
  ⟨0xE582, 1, 0x1, 1, .r, (.u32 0 0xFFFFFFFF), 0x0⟩,  -- PORT_LVIN
  ⟨0xE583, 1, 0x1, 1, .r, (.u32 0 0xFFFFFFFF), 0x0⟩,  -- PORT_HVAUX
  ⟨0xE5C0, 64, 0x1, 1, .r, (.u32 0 0xFFFFFFFF), 0x0⟩]  -- HOST_OUT_w

/-- Area F of the parameter map. -/
def rowsService : List PRow := [
  ⟨0xF000, 1, 0x1, 1, .r, (.u32 0 0xFFFFFFFF), 0x0⟩,  -- SVC_SERIAL
  ⟨0xF001, 1, 0x1, 1, .r, (.u32 0 0xFFFFFFFF), 0x0⟩,  -- SVC_PART_CODE
  ⟨0xF002, 1, 0x1, 1, .r, (.u32 0 0xFFFFFFFF), 0x0⟩,  -- SVC_HW_ISSUE
  ⟨0xF003, 1, 0x1, 1, .r, (.u32 0 0xFFFFFFFF), 0x0⟩,  -- SVC_FW_VERSION
  ⟨0xF004, 1, 0x1, 1, .r, (.u32 0 0xFFFFFFFF), 0x0⟩,  -- SVC_FW_CRC
  ⟨0xF005, 1, 0x1, 1, .r, (.u32 0 0xFFFFFFFF), 0x0⟩,  -- SVC_LIBRARY_VERSION
  ⟨0xF006, 1, 0x1, 1, .r, (.u32 0 0xFFFFFFFF), 0x0⟩,  -- SVC_LIBRARY_CRC
  ⟨0xF007, 1, 0x1, 1, .r, (.u32 0 0xFFFFFFFF), 0x0⟩,  -- SVC_BUILD_DATE
  ⟨0xF008, 1, 0x1, 1, .r, (.u32 0 0xFFFFFFFF), 0x0⟩,  -- SVC_BOOT_COUNT
  ⟨0xF009, 1, 0x1, 1, .r, (.u32 0 0xFFFFFFFF), 0x0⟩]  -- SVC_OPERATING_TIME

/-- The rows of an area: R659 puts the area into bits [15:12] of an ID. -/
def areaRows (area : Nat) : List PRow :=
  match area with
  | 0 => rowsSystem | 1 => rowsFabric
  | 2 => rowsTractionA ++ rowsTractionB | 3 => rowsTractionA ++ rowsTractionB
  | 4 => rowsConverterA ++ rowsConverterB | 5 => rowsChargerA ++ rowsChargerB
  | 6 => rowsActuator | 7 => rowsGate | 8 => rowsAfeA ++ rowsAfeB ++ rowsAfeC | 9 => rowsFeedback
  | 10 => rowsBus | 11 => rowsSafety | 12 => rowsMemory | 13 => rowsTime
  | 14 => rowsStatusA ++ rowsStatusB ++ rowsStatusC | 15 => rowsService
  | _ => []

/-- The row that defines an ID; none for an ID the directory does not list (R660). -/
def rowOf (id : Nat) : Option PRow := (areaRows (id / 4096)).find? (fun r => r.covers id)

/-- Whether an ID is defined and epoch-class. -/
def isEpochClass (id : Nat) : Bool := ((rowOf id).map (fun r => r.access == .rwE)).getD false

/-- Whether an ID is defined and live-class (R663). -/
def isLiveClass (id : Nat) : Bool := ((rowOf id).map (fun r => r.access == .rwL)).getD false

/-- Every epoch-class ID in ascending order, the order of the image CRC (R556). -/
def epochIds : List Nat := (List.range 0xE000).filter isEpochClass

/-- The network masks of R472: ones followed by zeros. -/
def contiguous (w : Word) : Bool := (List.range 33).any (fun k => w.toNat == 2 ^ 32 - 2 ^ k)

/-- What a value fails by itself when written to a parameter of this kind (R15, R16, R534, R674). -/
def PKind.check (k : PKind) (w : Word) : Option Status :=
  let n := w.toNat
  let fl (ok : Bool) : Option Status :=
    if F32.nonFinite w then some .outOfRange else if ok then none else some .outOfRange
  match k with
  | .u32 lo hi => if lo ≤ n ∧ n ≤ hi then none else some .outOfRange
  | .i32 => none
  | .f32 ivs => fl (ivs.isEmpty || ivs.any (fun b => F32.le b.1 w && F32.le w b.2))
  | .f32nz lo hi => fl (F32.le lo w && F32.le w hi && F32.key w != 0)
  | .bool => if n ≤ 1 then none else some .reservedEncoding
  | .enum defs => if n ≤ defs then none else some .reservedEncoding
  | .enumOf defs allowed =>
    if n > defs then some .reservedEncoding else if allowed.contains n then none else some .outOfRange
  | .bits mask => if n &&& mask = n then none else some .reservedEncoding
  | .id16 => if n < 2 ^ 16 then none else some .reservedEncoding
  | .oneOf vs => if vs.contains n then none else some .outOfRange
  | .netmask => if contiguous w then none else some .outOfRange
  | .sdClock => fl ((List.range 65).any (fun i => F32.ofRat 400000000 (16 + i) == F32.normZero w))
  | .trigPeriod => if n = 0 ∨ (100 ≤ n ∧ n ≤ 4000000000) then none else some .outOfRange
  | .trigCtrl => if n ≥ 512 ∨ (n >>> 4) % 4 = 0 then some .reservedEncoding else none
  | .regionWord => none
  | .tick64 => none

/-- The value stored for a written word: −0.0 of an f32 is stored as +0.0 (R16). -/
def PKind.store (k : PKind) (w : Word) : Word :=
  match k with
  | .f32 _ | .f32nz _ _ | .sdClock => F32.normZero w
  | _ => w

/-- The constant Reset value of an ID (R21), 0 for an undefined one. -/
def resetWord (id : Nat) : Word := ((rowOf id).map (·.reset)).getD 0

end Sys2Proof.Machine
end

