-- ==== Sys2Proof/Machine/ParamNames.lean ====
section
/-!
DEFINITION. The IDs of the parameters by the names of the chapters, each of its first instance (R661).
-/

namespace Sys2Proof.Machine.P

def sysUserWord : Nat := 0x0000
def sysAllocLead : Nat := 0x0040
def sysAllocTimeout : Nat := 0x0041
def sysReallocMode : Nat := 0x0042
def sysCommitLead : Nat := 0x0043
def sysCommitVote : Nat := 0x0044
def sysCommitConfirm : Nat := 0x0045
def sysNodeSilence : Nat := 0x0046
def sysMachineId : Nat := 0x0047
def fabricSupplyCf0 : Nat := 0x1000
def fabricSupplyCf1 : Nat := 0x1001
def cf1Region3Use : Nat := 0x1002
def regionPeriod : Nat := 0x1040
def regionPhase : Nat := 0x1048
def slackMargin : Nat := 0x1080
def fallbackLimit : Nat := 0x1088
def fallbackRateLimit : Nat := 0x1090
def regionTable : Nat := 0x1200
def trEnable : Nat := 0x2000
def trPolePairs : Nat := 0x2001
def trForwardDir : Nat := 0x2002
def trRatedSpeed : Nat := 0x2003
def trRs : Nat := 0x2004
def trLd : Nat := 0x2005
def trLq : Nat := 0x2006
def trPsiPm : Nat := 0x2007
def trSetpointSource : Nat := 0x2008
def trBlendLow : Nat := 0x2040
def trBlendHigh : Nat := 0x2041
def trDriftTc : Nat := 0x2042
def trZeroCurrent : Nat := 0x2043
def trFluxRef : Nat := 0x2080
def trFluxBand : Nat := 0x2081
def trTorqueBand : Nat := 0x2082
def trMissRateLimit : Nat := 0x2083
def trTorqueRamp : Nat := 0x20C0
def trFluxRamp : Nat := 0x20C1
def trSpeedRamp : Nat := 0x20C2
def trSpeedKp : Nat := 0x20C3
def trSpeedKi : Nat := 0x20C4
def trRefDivider : Nat := 0x20C5
def trNotchEnable : Nat := 0x20C6
def trNotchFreq : Nat := 0x20C7
def trNotchDepth : Nat := 0x20C8
def trNotchWidth : Nat := 0x20C9
def trPlausTorqueEnv : Nat := 0x2100
def trPlausTorqueRel : Nat := 0x2101
def trPlausTorqueDwell : Nat := 0x2102
def trPlausCurrentEnv : Nat := 0x2103
def trPlausCurrentDwell : Nat := 0x2104
def trPlausFluxEnv : Nat := 0x2105
def trPlausFluxDwell : Nat := 0x2106
def trCurrentSumEnv : Nat := 0x2107
def trCurrentSumDwell : Nat := 0x2108
def trTorqueSetpoint : Nat := 0x2140
def trSpeedSetpoint : Nat := 0x2141
def trTorqueMaxMot : Nat := 0x2180
def trTorqueMaxRegen : Nat := 0x2181
def trPowerMaxMot : Nat := 0x2182
def trPowerMaxRegen : Nat := 0x2183
def trCurrentMax : Nat := 0x2184
def trPowerSpeedFloor : Nat := 0x2185
def trZeroSpeed : Nat := 0x2186
def trSpeedLimitFwd : Nat := 0x2187
def trSpeedLimitRev : Nat := 0x2188
def trSpeedTaper : Nat := 0x2189
def trOverspeed : Nat := 0x218A
def trVdcLowZero : Nat := 0x218B
def trVdcLowFull : Nat := 0x218C
def trFwEnable : Nat := 0x21C0
def trFwVoltageUse : Nat := 0x21C1
def trFwKi : Nat := 0x21C2
def trFwIdMin : Nat := 0x21C3
def trFwMapId : Nat := 0x21C4
def trFwMapPsi : Nat := 0x21CC
def trCatchObserve : Nat := 0x2200
def trCatchMinEmf : Nat := 0x2201
def trCatchSpeed : Nat := 0x2202
def trCatchBrakeTorque : Nat := 0x2203
def trAscPreferred : Nat := 0x2204
def trAscEnterRatio : Nat := 0x2205
def trAscReleaseRatio : Nat := 0x2206
def cvEnable : Nat := 0x4000
def cvPwmFreq : Nat := 0x4001
def cvInductance : Nat := 0x4002
def cvSlopeFactor : Nat := 0x4003
def cvBlank : Nat := 0x4004
def cvDutyMax : Nat := 0x4005
def cvIbatDischMax : Nat := 0x4006
def cvIbatChgMax : Nat := 0x4007
def cvPowerMax : Nat := 0x4008
def cvVbatMin : Nat := 0x4009
def cvVbatMax : Nat := 0x400A
def cvVbatTaper : Nat := 0x400B
def cvHeadroom : Nat := 0x400C
def cvFfEnable : Nat := 0x400D
def cvLegITrip : Nat := 0x400E
def cvPrechargeRamp : Nat := 0x400F
def cvPrechargeTimeout : Nat := 0x4010
def cvPrechargeTol : Nat := 0x4011
def cvPlausCurrentEnv : Nat := 0x4012
def cvPlausCurrentDwell : Nat := 0x4013
def cvPlausLegEnv : Nat := 0x4014
def cvPlausLegDwell : Nat := 0x4015
def dcB : Nat := 0x4040
def dcDivider : Nat := 0x4047
def dcVref : Nat := 0x4050
def dcVrefRamp : Nat := 0x4051
def doEnable : Nat := 0x4080
def doVref : Nat := 0x4081
def doIMax : Nat := 0x4082
def doIDwell : Nat := 0x4083
def doITrip : Nat := 0x4084
def doPowerMax : Nat := 0x4085
def chEnable : Nat := 0x4C00
def chResistance : Nat := 0x4C01
def chCurrentInput : Nat := 0x4C02
def chPwmFreq : Nat := 0x4C03
def chVStart : Nat := 0x4C04
def chVFull : Nat := 0x4C05
def chDutyMax : Nat := 0x4C06
def chResPowerCont : Nat := 0x4C07
def chResTau : Nat := 0x4C08
def chOpenRatio : Nat := 0x4C09
def chShortCurrent : Nat := 0x4C0A
def chShortDwell : Nat := 0x4C0B
def chFaultRegenRamp : Nat := 0x4C0C
def dclRegenTaperStart : Nat := 0x4C10
def dclOv1 : Nat := 0x4C11
def dclOv2 : Nat := 0x4C12
def dclOvHyst : Nat := 0x4C13
def cgEnable : Nat := 0x5000
def cgAcIMax : Nat := 0x5001
def cgGridFreq : Nat := 0x5002
def cgAcVMin : Nat := 0x5003
def cgAcVMax : Nat := 0x5004
def cgFreqTol : Nat := 0x5005
def cgBusVref : Nat := 0x5006
def cgBusOv : Nat := 0x5007
def cgBusRamp : Nat := 0x5008
def cgPfcFreq : Nat := 0x5009
def cgPfcITrip : Nat := 0x500A
def cgPowerMax : Nat := 0x500B
def cgDabFreq : Nat := 0x5040
def cgDabTurns : Nat := 0x5041
def cgDabLlk : Nat := 0x5042
def cgDabPhiMax : Nat := 0x5043
def cgDabITrip : Nat := 0x5044
def cgPlausPfcEnv : Nat := 0x5045
def cgPlausPfcDwell : Nat := 0x5046
def cgPlausDabEnv : Nat := 0x5047
def cgPlausDabDwell : Nat := 0x5048
def pfB : Nat := 0x5080
def pfDivider : Nat := 0x5085
def pvB : Nat := 0x5088
def pvDivider : Nat := 0x508F
def dbB : Nat := 0x5090
def dbDivider : Nat := 0x5095
def cgTimerLimit : Nat := 0x50C0
def cgEndCurrent : Nat := 0x50C1
def cgEndDwell : Nat := 0x50C2
def cgHandoverRamp : Nat := 0x50C3
def cgSourceWait : Nat := 0x50C4
def cgChargeRamp : Nat := 0x50C5
def cgCvKi : Nat := 0x50C6
def cgCiKp : Nat := 0x50C7
def cgCiKi : Nat := 0x50C8
def cgISet : Nat := 0x50C9
def cgVSet : Nat := 0x50CA
def exAcEnable : Nat := 0x5100
def exAcVoltage : Nat := 0x5101
def exAcFreq : Nat := 0x5102
def exAcSMax : Nat := 0x5103
def exAcIMax : Nat := 0x5104
def axEnable : Nat := 0x6000
def axRole : Nat := 0x6001
def axTorqueLink : Nat := 0x6002
def axPwmFreq : Nat := 0x6003
def axDeadTime : Nat := 0x6004
def axRefreshPulse : Nat := 0x6005
def axRefreshInterval : Nat := 0x6006
def axCommShift : Nat := 0x6007
def axITrip : Nat := 0x6008
def axVMax : Nat := 0x6009
def axSpeedMax : Nat := 0x600A
def axPosTol : Nat := 0x600B
def axSettle : Nat := 0x600C
def axMoveTimeout : Nat := 0x600D
def axShiftTorque : Nat := 0x600E
def axTorqueWait : Nat := 0x600F
def axHomeMode : Nat := 0x6010
def axHomeVoltage : Nat := 0x6011
def axStallTime : Nat := 0x6012
def axHomePos : Nat := 0x6013
def axParkSpeedMax : Nat := 0x6014
def axGearPos : Nat := 0x6018
def axB : Nat := 0x6020
def axDivider : Nat := 0x6025
def gdVpos : Nat := 0x7000
def gdVneg : Nat := 0x7001
def gdDeadTime : Nat := 0x7002
def gdMinPulse : Nat := 0x7003
def gdDesatThreshold : Nat := 0x7004
def gdDesatBlank : Nat := 0x7005
def gdHardshortLevel : Nat := 0x7006
def gdStoPlateau : Nat := 0x7007
def gdStoT1 : Nat := 0x7008
def gdStoT2 : Nat := 0x7009
def gdPvTrigger : Nat := 0x700A
def afeInGain : Nat := 0x8000
def afeInOffset : Nat := 0x8020
def afeInOpenwire : Nat := 0x8040
def afeSdGain : Nat := 0x8060
def afeSdOffset : Nat := 0x8064
def afeTrigPeriod : Nat := 0x8080
def afeTrigPhase : Nat := 0x80C0
def afeTrigLatency : Nat := 0x8100
def afeTrigInputs : Nat := 0x8140
def afeTrigCtrl : Nat := 0x8180
def afeSdClock : Nat := 0x81C0
def afeCmpDiv : Nat := 0x81C1
def afeCmpHyst : Nat := 0x81C2
def afeCmpFilter : Nat := 0x81C3
def afeOwLevel : Nat := 0x81C4
def afeOwCount : Nat := 0x81C5
def afeRotateInterval : Nat := 0x81C6
def afeSdHyst : Nat := 0x81C7
def afeSdOsr : Nat := 0x81C8
def afeSdTrip : Nat := 0x81CC
def fbSource : Nat := 0x9000
def fbAbzLines : Nat := 0x9001
def fbDirection : Nat := 0x9002
def fbAngleOffset : Nat := 0x9003
def fbFilter : Nat := 0x9004
def fbIndexPos : Nat := 0x9005
def fbIndexTolerance : Nat := 0x9006
def fbIndexGate : Nat := 0x9007
def fbSpeedWindow : Nat := 0x9008
def fbStandstillTimeout : Nat := 0x9009
def fbHallOffset : Nat := 0x900A
def fbHallInvalidDwell : Nat := 0x900B
def fbSsiClockDiv : Nat := 0x900C
def fbSsiBits : Nat := 0x900D
def fbSsiTurnBits : Nat := 0x900E
def fbSsiShift : Nat := 0x900F
def fbSsiCode : Nat := 0x9010
def fbSsiErrorBit : Nat := 0x9011
def fbSsiInterval : Nat := 0x9012
def fbSsiMonoflop : Nat := 0x9013
def fbSsiTolerance : Nat := 0x9014
def fbSensorlessPermit : Nat := 0x9015
def fbCaptureTrigger : Nat := 0x9016
def fbErrorRateLimit : Nat := 0x9017
def epMode : Nat := 0x9180
def epLines : Nat := 0x9181
def epIndexPos : Nat := 0x9182
def epMinEdge : Nat := 0x9183
def busEnable : Nat := 0xA000
def busNominalRate : Nat := 0xA001
def busDataRate : Nat := 0xA002
def busWake : Nat := 0xA003
def busWakeFilter : Nat := 0xA004
def busWakeId : Nat := 0xA005
def busWakeMask : Nat := 0xA006
def busWakeExt : Nat := 0xA007
def isNameLow : Nat := 0xA010
def isNameHigh : Nat := 0xA011
def isAddressBase : Nat := 0xA012
def dm1IncludeC : Nat := 0xA013
def cn1ReqId : Nat := 0xA050
def cn1RepId : Nat := 0xA051
def cn1Ext : Nat := 0xA052
def alSyncPeriod : Nat := 0xA090
def alStatusPeriod : Nat := 0xA091
def alSilence : Nat := 0xA092
def alSdt : Nat := 0xA093
def etEnable : Nat := 0xA100
def etRole : Nat := 0xA101
def etIpAddr : Nat := 0xA102
def etNetmask : Nat := 0xA103
def etGateway : Nat := 0xA104
def etMacLow : Nat := 0xA105
def etMacHigh : Nat := 0xA106
def lockstepRetryRateLimit : Nat := 0xB000
def fltMode : Nat := 0xB040
def flogRecordSelect : Nat := 0xB041
def flogErase : Nat := 0xB042
def safetyTwinTestInterval : Nat := 0xB043
def flogCountSelect : Nat := 0xB044
def memCorrectedRateLimit : Nat := 0xC000
def memScrubLapLimit : Nat := 0xC001
def memScrubDiv : Nat := 0xC006
def thermStaleLimit : Nat := 0xC040
def thermScanMaskLow : Nat := 0xC041
def thermScanMaskHigh : Nat := 0xC042
def thermScanDivider : Nat := 0xC043
def thermT1 : Nat := 0xC044
def thermT2 : Nat := 0xC045
def thermT3 : Nat := 0xC046
def thermHyst : Nat := 0xC047
def spindleNow : Nat := 0xD000
def spindleRefSelect : Nat := 0xD001
def tsMode : Nat := 0xD002
def spindleStatus : Nat := 0xD003
def refLossCount : Nat := 0xD004
def sysSlewMax : Nat := 0xD040
def sysSyncHoldover : Nat := 0xD041
def sysTsCableDelay : Nat := 0xD042
def sysDelaySamples : Nat := 0xD043
def svcSerial : Nat := 0xF000
def svcPartCode : Nat := 0xF001
def svcHwIssue : Nat := 0xF002
def svcFwVersion : Nat := 0xF003
def svcFwCrc : Nat := 0xF004
def svcLibraryVersion : Nat := 0xF005
def svcLibraryCrc : Nat := 0xF006
def svcBuildDate : Nat := 0xF007
def svcBootCount : Nat := 0xF008
def svcOperatingTime : Nat := 0xF009

end Sys2Proof.Machine.P
end

