-- ==== Sys2Proof/Machine/Params.lean ====
section
/-!
DEFINITION. The value of an epoch-class parameter in an image, in the ACTIVE epoch and in the epoch a region runs; the
formed trigger parameters; which functions an epoch enables and which region serves each.
-/

namespace Sys2Proof.Machine

/-- The IDs whose Reset value the factory writes into the module (R434, R471, R472, R671). -/
def isFactoryId (id : Nat) : Bool :=
  id == P.isNameLow || (0xA105 ≤ id && id ≤ 0xA106) || (0xA115 ≤ id && id ≤ 0xA116) ||
  (0x8020 ≤ id && id ≤ 0x8022) || (0x802F ≤ id && id ≤ 0x8031) || (0x8420 ≤ id && id ≤ 0x8424) ||
  (0x8432 ≤ id && id ≤ 0x8434) || (0xF000 ≤ id && id ≤ 0xF007)

/-- The Reset value of an epoch-class or factory parameter (R21, R668, R671). -/
def defaultWord (id : Nat) : Word :=
  if isFactoryId id then Config.factoryWord id
  else if 0x1200 ≤ id ∧ id ≤ 0x1FFF then Config.tableReset ((id - 0x1200) / 448) ((id - 0x1200) % 448)
  else resetWord id

/-- The value an image holds for an RW-E parameter (R556); an ID it does not list has its Reset value. -/
def Image.val (img : Image) (id : Nat) : Word :=
  match img.params.find? (fun p => p.1 == id) with
  | some p => p.2
  | none => defaultWord id

/-- The value as a number. -/
def Image.num (img : Image) (id : Nat) : Nat := (img.val id).toNat

/-- The value of a bool or enum as a flag. -/
def Image.on (img : Image) (id : Nat) : Bool := img.num id == 1

/-- An image with one value replaced; the list stays sorted and holds no Reset value. -/
def insertParam (id : Nat) (w d : Word) : List (Nat × Word) → List (Nat × Word)
  | [] => if w = d then [] else [(id, w)]
  | p :: ps =>
    if p.1 < id then p :: insertParam id w d ps
    else if p.1 = id then (if w = d then ps else (id, w) :: ps)
    else if w = d then p :: ps else (id, w) :: p :: ps

/-- STAGE_PARAM of one value into an image. -/
def Image.write (img : Image) (id : Nat) (w : Word) : Image :=
  { img with params := insertParam id w (defaultWord id) img.params }

/-- The two words of launch-table entry `e` of region `n`: zeros for an empty entry (R73). -/
def Image.entry (img : Image) (n e : Nat) : Word × Word :=
  match img.launch.find? (fun p => p.1 == 512 * n + e) with
  | some p => p.2
  | none => (0, 0)

/-- A launch table with one entry replaced; the list stays sorted and holds no empty entry. -/
def insertEntry (k : Nat) (w0 w1 : Word) : List (Nat × Word × Word) → List (Nat × Word × Word)
  | [] => if w0 = 0 ∧ w1 = 0 then [] else [(k, w0, w1)]
  | p :: ps =>
    if p.1 < k then p :: insertEntry k w0 w1 ps
    else if p.1 = k then (if w0 = 0 ∧ w1 = 0 then ps else (k, w0, w1) :: ps)
    else if w0 = 0 ∧ w1 = 0 then p :: ps else (k, w0, w1) :: p :: ps

/-- STAGE_LAUNCH of one entry. -/
def Image.writeEntry (img : Image) (n e : Nat) (w0 w1 : Word) : Image :=
  { img with launch := insertEntry (512 * n + e) w0 w1 img.launch }

/-- The non-empty launch entries of region `n`: index and words, by rising index. -/
def Image.entries (img : Image) (n : Nat) : List (Nat × Word × Word) :=
  (img.launch.filter (fun p => p.1 / 512 == n)).map (fun p => (p.1 % 512, p.2))

/-- Tax: the carrier period of actuator `a` in ticks (R381). -/
def Image.tax (img : Image) (a : Nat) : Nat := (F32.toInt (F32.div (F32.ofNat 400000000) (img.val (P.axPwmFreq + 0x40 * a)))).toNat

/-- The region that serves the actuators, the supervision models, the system functions (R54, R55). -/
def Image.axRegion (img : Image) : Nat := if img.num P.cf1Region3Use = 2 then 7 else 4
def Image.supRegion (img : Image) : Nat := if img.num P.cf1Region3Use = 3 then 7 else 5
def Image.sysRegion (img : Image) : Nat := if img.num P.cf1Region3Use = 4 then 7 else 6

/-- The system region as a region number. -/
def Image.sysFin (img : Image) : Fin 8 := if img.num P.cf1Region3Use = 4 then 7 else 6

/-- The actuator that a formed trigger of an AFE serves (R409). -/
def formedActuator (afe t : Nat) : Nat := 2 * afe + (t - 2)

/-- A trigger parameter of an AFE as an image holds or forms it (R409, R410). -/
def Image.trig (img : Image) (base afe t : Nat) : Nat :=
  if t = 2 ∨ t = 3 then
    let a := formedActuator afe t
    if base = P.afeTrigPeriod then img.tax a
    else if base = P.afeTrigPhase then a * img.tax a / 4
    else if base = P.afeTrigInputs then
      (match a with | 0 => 0x00008E00 | 1 => 0x00017000 | 2 => 0x00047000 | _ => 0x000B8000)
    else if base = P.afeTrigCtrl then (if img.axRegion = 7 then 0x1E0 else 0x120)
    else img.num (base + 0x400 * afe + t)
  else img.num (base + 0x400 * afe + t)

/-- The formed trigger parameters by ID (R409). -/
def formedTrig (id : Nat) : Option (Nat × Nat × Nat) :=
  let afe := (id - 0x8000) / 0x400
  let r := (id - 0x8000) % 0x400
  let base := [0x080, 0x0C0, 0x140, 0x180].find? (fun b => r == b + 2 || r == b + 3)
  if id < 0x8000 ∨ 0x8800 ≤ id then none else base.map (fun b => (0x8000 + b, afe, r - b))

/-- The value of a parameter of areas 0 … D in an image, formed parameters included (R409, R533). -/
def Image.read (img : Image) (id : Nat) : Word :=
  match formedTrig id with
  | some (base, afe, t) => word (img.trig base afe t)
  | none => img.val id

/-! ## In effect -/

/-- The value of an epoch-class parameter in the ACTIVE epoch. -/
def Module.par (m : Module) (id : Nat) : Word := m.epochs.active.val id

/-- The same as a number. -/
def Module.num (m : Module) (id : Nat) : Nat := (m.par id).toNat

/-- A us32 parameter of the ACTIVE epoch in ticks (R11). -/
def Module.us (m : Module) (id : Nat) : Nat := F32.usTicks (m.par id)

/-- The image region `n` runs: the old one until its first boundary at or after a commit instant (R566 step 2). -/
def Module.regionImage (m : Module) (n : Fin 8) : Image :=
  if m.epochs.onOld[n] then m.epochs.previous else m.epochs.active

/-- The region that serves a function in an image (R54, R55, R293). -/
def Image.regionOf (img : Image) : Func → Fin 8
  | .ta => 0
  | .tb => 1
  | .cv | .ch => 2
  | .cg => 3
  | .ax _ => if img.axRegion = 7 then 7 else 4

/-- Whether an image enables a function (R578); the chopper counts with CH_ENABLE. -/
def Image.enables (img : Image) : Func → Bool
  | .ta => img.on P.trEnable
  | .tb => img.on (P.trEnable + 0x1000)
  | .cv => img.on P.cvEnable
  | .cg => img.on P.cgEnable
  | .ch => img.on P.chEnable
  | .ax a => img.on (P.axEnable + 0x40 * a.val)

/-- Whether a function is enabled in the epoch that its region runs (R48). -/
def Module.enabled (m : Module) (f : Func) : Bool := (m.regionImage (m.epochs.active.regionOf f)).enables f

/-- The value of an epoch-class parameter as region `n` has it. -/
def Module.rpar (m : Module) (n : Fin 8) (id : Nat) : Word := (m.regionImage n).val id

/-- The same as a number. -/
def Module.rnum (m : Module) (n : Fin 8) (id : Nat) : Nat := (m.rpar n id).toNat

/-- The traction parameter `id` (of traction A) of channel `c`, as the region of the channel has it (R661). -/
def Module.tpar (m : Module) (c : Fin 2) (id : Nat) : Word :=
  m.rpar ⟨c.val, by omega⟩ (id + 0x1000 * c.val)

/-- The function an island serves: islands of traction A, B, the converter, the charger, the chopper (R345). -/
def islandFunc (i : Nat) : Func :=
  if i < 6 then .ta else if i < 12 then .tb else if i < 20 then .cv else if i < 34 then .cg else .ch

/-- The island's function is disabled in the epoch (R348). -/
def Module.unused (m : Module) (i : Fin 36) : Bool := !m.enabled (islandFunc i.val)

/-- The traction function of a channel. -/
def tractionFunc (c : Fin 2) : Func := if c.val = 0 then .ta else .tb

/-- The index of a function in the tables of Faults. -/
def Func.idx (f : Func) : Fin 9 :=
  match f with
  | .ta => 0 | .tb => 1 | .cv => 2 | .cg => 3 | .ch => 4
  | .ax a => ⟨5 + a.val, by omega⟩

/-- The pattern in force on a function. -/
def Module.patternOf (m : Module) (f : Func) : Pattern := m.faults.pattern[f.idx]

/-- A safe pattern is active for a function; the chopper counts with the converter (R293). -/
def Module.patterned (m : Module) (f : Func) : Bool := m.patternOf f != .none

/-- The instant the count shows. -/
def Module.now (m : Module) : Tick := m.time.count

/-- The module's power state label. -/
def Module.label (m : Module) : Power := m.supply.label

/-- The dies of READY are supplied: the label is READY or above. -/
def Module.atLeastReady (m : Module) : Bool := 3 ≤ m.label.code

/-- ARMED or RUN. -/
def Module.driven (m : Module) : Bool := 4 ≤ m.label.code

/-- A transition is in progress. -/
def Module.inTransition (m : Module) : Bool := m.supply.transition.isSome

/-- A die is supplied in tolerance and not held in reset. -/
def Module.dieRuns (m : Module) (d : Fin 46) : Bool := m.dies[d].supply == 1 && !m.dies[d].inReset

/-- The fabric die of a region: CF0 is die 2, CF1 die 3 (R68). -/
def regionDie (n : Fin 8) : Fin 46 := if n.val < 4 then 2 else 3

/-- The module is the Headstock (R657). -/
def Module.isHead (m : Module) : Bool := m.straps.headstock

/-- Admitted: the Headstock always is. -/
def Module.isAdmitted (m : Module) : Bool := m.isHead || m.sys.admitted

/-- LOCKSTEP_STATUS.GATING (R161, R174): 0 main, 1 fall-back, 2 none. -/
def Module.gating (m : Module) : Nat :=
  if m.lockstep.mode != .lockstep then 2
  else if m.lockstep.main != 2 then 0
  else if m.lockstep.fallback != 2 then 1 else 2

/-- AGPL_COVERAGE (R174): lockstep with a comparator gating, and no core alone in logic BIST (R169). -/
def Module.coverage (m : Module) : Bool := m.gating != 2 && m.lockstep.bist == 0

/-- The refusals of R170 apply: split mode, lockstep lost, comparison lost, debug attached; R169's BIST as well. -/
def Module.lockstepRequired (m : Module) : Bool := !m.coverage

end Sys2Proof.Machine
end

