-- ==== Sys2Proof/Machine/Crossings.lean ====
section
/-!
DEFINITION. The crossings between the dies: data lanes (R79), control signals (R81), event lines (R82, R83), and what goes
over them (R90).
-/

namespace Sys2Proof.Machine

/-- The ticks of a round trip of a crossing: 7.5 ns, at most 8 ns (R79). DESIGN CHOICE, log entry 63. -/
def roundTrip : Nat := 3

/-- The changes of a control signal that wait go out up to a clock, each as a toggle once the last one is acknowledged; `k`
bounds their number (R81). -/
def Toggle.settle (now : Nat) : Nat → Toggle → Toggle
  | 0, t => t
  | k + 1, t =>
    match t.queue with
    | [] => t
    | l :: ls =>
      if t.ackAt ≤ now then
        Toggle.settle now k { t with sent := l, toggles := t.toggles + 1, queue := ls, ackAt := t.ackAt + roundTrip }
      else t

/-- The lanes with one word sent on the first that is free at the clock `t`. -/
def takeLane (t : Nat) : List Nat → List Nat
  | [] => []
  | l :: ls => if l = t then (t + roundTrip) :: ls else l :: takeLane t ls

/-- Words that wait for a lane take one as its round trip ends, up to a clock; `k` bounds their number (R79). -/
def Crossing.feed (now : Nat) : Nat → Crossing → Crossing
  | 0, c => c
  | k + 1, c =>
    let first := c.lanes.foldl Nat.min (now + 1)
    if c.held = 0 ∨ now < first then c
    else Crossing.feed now k { c with held := c.held - 1, lanes := takeLane first c.lanes }

/-- A handshake takes the count of an event line up to a clock, where no overflow bit is set (R82, R83). -/
def EventLine.settle (now : Nat) (l : EventLine) : EventLine :=
  if l.busy ≤ now && l.events != 0 && !l.overflow then
    { l with received := satAdd 0xFFFFFFFF l.received l.events, events := 0, busy := l.busy + roundTrip }
  else l

/-- What a crossing does by itself up to a clock: changes of its control signal go out (R81), waiting words take a lane
(R79); its event lines hand over their counts (R82, R83). DESIGN CHOICE, log entry 63. -/
def Crossing.settle (now : Nat) (c : Crossing) : Crossing :=
  Crossing.feed now c.held { c with
    control := Toggle.settle now c.control.queue.length c.control, line := c.line.settle now, hpLine := c.hpLine.settle now }

/-- The clock at which the last word of a crossing, those that wait for a lane included, has crossed (R79, R86). -/
def Crossing.allAcross (c : Crossing) : Nat :=
  (Crossing.feed (c.lanes.foldl Nat.max 0 + roundTrip * c.held) c.held c).lanes.foldl Nat.max 0

/-- Crossing `i` with `f` applied. -/
def updCrossing (i : Fin 22) (f : Crossing → Crossing) (m : Module) : Module :=
  { m with crossings := Vector.upd m.crossings i f }

/-- A crossing's control signal is driven to a level: a change goes out as a toggle, at once where no toggle is
unacknowledged, else after those before it (R81). -/
def Crossing.drive (level : Bool) (now : Nat) (c : Crossing) : Crossing :=
  let k := c.control
  if level == k.level then c
  else if k.queue.isEmpty && k.ackAt ≤ now then
    { c with control := { k with level := level, sent := level, toggles := k.toggles + 1, ackAt := now + roundTrip } }
  else { c with control := { k with level := level, queue := k.queue ++ [level] } }

/-- The control signal of crossing `i` is driven (R81). -/
def driveControl (i : Fin 22) (level : Bool) (m : Module) : Module :=
  updCrossing i (Crossing.drive level m.time.elapsed) m

/-- An event on a line: a handshake takes it at once where the line is idle; during one it is added to the count, which
stays at 7 and sets the overflow bit (R82). -/
def EventLine.event (now : Nat) (l : EventLine) : EventLine :=
  if l.busy ≤ now && l.events = 0 && !l.overflow then
    { l with received := satAdd 0xFFFFFFFF l.received 1, busy := now + roundTrip }
  else if l.events < 7 then { l with events := l.events + 1 }
  else { l with overflow := true }

/-- The next handshake of a line takes the count with its overflow bit (R82, R83). -/
def EventLine.overrun (now : Nat) (l : EventLine) : EventLine :=
  { events := 0, overflow := false, received := satAdd 0xFFFFFFFF l.received l.events, busy := now + roundTrip }

/-- Data words are sent on a crossing: each takes a lane whose round trip is complete, the others wait for one (R79). -/
def Crossing.send (now k : Nat) (c : Crossing) : Crossing :=
  Crossing.feed now (c.held + k) { c with held := c.held + k, lanes := c.lanes.map (Nat.max now) }

/-- `k` data words are sent on crossing `i` (R79, R90). -/
def crossWords (i : Fin 22) (k : Nat) (m : Module) : Module := updCrossing i (Crossing.send m.time.elapsed k) m

/-- The control signal of crossing `i` changes its level: a start, a pattern, a commit (R81, R90). -/
def strobe (i : Fin 22) (m : Module) : Module := driveControl i (!(m.crossings[i]).control.level) m

/-- A command of the supervisor goes out on a crossing: its word, and the change of the control signal that starts it
(R90). -/
def sendCommand (i : Fin 22) (m : Module) : Module := strobe i (crossWords i 1 m)

/-- An event on the line of crossing `i`, with the word that says what it is (R82, R90). -/
def noteEvent (i : Fin 22) (m : Module) : Module :=
  crossWords i 1 (updCrossing i (fun c => { c with line := c.line.event m.time.elapsed }) m)

/-- The arrival of a high-priority frame on its own line of crossing 13, with its word (R449). -/
def noteHp (m : Module) : Module :=
  crossWords 13 1 (updCrossing 13 (fun c => { c with hpLine := c.hpLine.event m.time.elapsed }) m)

/-- The lanes with `k` words sent on the first free ones; none where fewer are free (R79). -/
def sendOn (now : Nat) : Nat → List Nat → Option (List Nat)
  | 0, ls => some ls
  | _ + 1, [] => none
  | k + 1, l :: ls =>
    if l ≤ now then (sendOn now k ls).map (fun r => (now + roundTrip) :: r)
    else (sendOn now (k + 1) ls).map (fun r => l :: r)

/-- A crossing transfers at the clock: a word on a lane, a toggle or an event handshake not complete (R94). -/
def Crossing.busy (now : Nat) (c : Crossing) : Bool :=
  c.lanes.any (fun l => now < l) || now < c.line.busy || now < c.hpLine.busy || now < c.control.ackAt

end Sys2Proof.Machine
end

