-- ==== Sys2Proof/Machine/Faults.lean ====
section
/-!
DEFINITION. Faults and safe patterns: raising a fault, the active table, the fault log, the functions a class A fault
affects, the choice and the setting of a pattern, the release, the FLT port.
-/

namespace Sys2Proof.Machine

/-- Entry `i` of a list of active faults with this code and detail. -/
def isActive (fs : List ActiveFault) (code detail : Nat) : Bool :=
  fs.any (fun f => f.code == code && f.detail == detail)

/-- A fault with this code is active, whatever its detail. -/
def Module.hasFault (m : Module) (code : Nat) : Bool := m.faults.active.any (fun f => f.code == code)

/-- An active fault of a class. -/
def Module.hasClass (m : Module) (k : FaultClass) : Bool := m.faults.active.any (fun f => classOf f.code == k)

/-- The code of the highest class active: 0 none, 1 C, 2 B, 3 A (R532, R601, R464). -/
def Module.highest (m : Module) : Nat :=
  if m.hasClass .a then 3 else if m.hasClass .b then 2 else if m.hasClass .c then 1 else 0

/-- The CONDITION bit of an active fault set to a value (R588, R676). -/
def setCond (code : Nat) (p : Nat → Bool) (c : Bool) (m : Module) : Module :=
  { m with faults := { m.faults with active := m.faults.active.map (fun f =>
      if f.code == code && p f.detail then { f with cond := c } else f) } }

/-- The condition of a fault and detail ends. -/
def endCond (code detail : Nat) (m : Module) : Module := setCond code (· == detail) false m

/-! ## The fault log -/

/-- A log record of the present moment (R592): the state label, coverage, boot and epoch at the event. -/
def logRec (m : Module) (code detail kind : Nat) (func : Nat) (pattern : Nat) (tick : Tick) : LogRec :=
  { code := code, detail := detail, kind := kind, state := m.supply.label.code, coverage := m.coverage,
    func := func, pattern := pattern, tick := tick, boot := m.service.bootCount, seq := m.faults.seq,
    epoch := m.epochs.active.number }

/-- Words 0 … 6 of a record (R592). -/
def LogRec.head (r : LogRec) : List Word :=
  let cls := if r.code = 0 then 0 else (classOf r.code).code
  let pol := if r.code = 0 then 0 else policyOf r.code
  [pack [(r.code, 16), (r.detail, 0)],
   pack [(r.kind, 28), (cls, 26), (pol, 24), (r.state, 21), (flag r.coverage, 20), (r.func, 16), (r.pattern, 14)],
   tickLow r.tick, tickHigh r.tick, word r.boot, word r.seq, r.epoch]

/-- The eight words of a record, CHECK included (R592). -/
def LogRec.words (r : LogRec) : List Word := r.head ++ [crc32c r.head]

/-- A record takes its sequence number and enters the write buffer; a buffer of `limit` records loses it (R593). -/
def pushRecord (limit : Nat) (r : LogRec) (m : Module) : Module :=
  let fs := { m.faults with seq := (m.faults.seq + 1) % 2 ^ 32 }
  { m with faults :=
      if fs.buffer.length < limit then { fs with buffer := fs.buffer ++ [r] } else { fs with lost := inc32 fs.lost } }

/-- The occurrence count of a code increased by one, saturating at 65,535 (R594). -/
def bumpCount (code : Nat) : List (Nat × Nat) → List (Nat × Nat)
  | [] => [(code, 1)]
  | p :: ps =>
    if p.1 < code then p :: bumpCount code ps
    else if p.1 = code then (code, inc16 p.2) :: ps
    else (code, 1) :: p :: ps

/-- The occurrence count of a code (R594). -/
def Module.occurrences (m : Module) (code : Nat) : Nat :=
  ((m.faults.counts.find? (fun p => p.1 == code)).map (·.2)).getD 0

/-! ## The active table -/

/-- The list without its oldest class C fault. -/
def dropOldestC : List ActiveFault → List ActiveFault
  | [] => []
  | f :: fs => if classOf f.code == .c then fs else f :: dropOldestC fs

/-- Entries in use beside the one reserved for FAULT_TABLE_FULL (R587). -/
def entriesInUse (fs : List ActiveFault) : Nat := (fs.filter (fun f => f.code != F.faultTableFull)).length

/-- A fault enters the table: on a free entry, on the entry of the oldest class C fault, or not at all (R587). -/
def enterTable (f : ActiveFault) (fs : List ActiveFault) : List ActiveFault :=
  if f.code = F.faultTableFull ∨ entriesInUse fs < 255 then fs ++ [f]
  else if fs.any (fun g => classOf g.code == .c) then dropOldestC fs ++ [f]
  else fs

/-- The fault is not entered: the table is full and holds no class C fault to displace (R587). -/
def tableRefuses (fs : List ActiveFault) : Bool :=
  255 ≤ entriesInUse fs && !fs.any (fun g => classOf g.code == .c)

/-- Table entry, occurrence count and KIND 1 record of one raising. -/
def enterFault (limit code detail : Nat) (cond : Bool) (tick : Tick) (m : Module) : Module :=
  let m1 := { m with faults := { m.faults with
    active := enterTable { code := code, detail := detail, cond := cond } m.faults.active,
    counts := bumpCount code m.faults.counts } }
  pushRecord limit (logRec m1 code detail 1 0 0 tick) m1

/-- FAULT_TABLE_FULL after a fault that found no entry (R587). -/
def noteFull (full : Bool) (tick : Tick) (m : Module) : Module :=
  if full && !isActive m.faults.active F.faultTableFull 0 then enterFault 512 F.faultTableFull 0 true tick m else m

/-- A record has been lost since `before`: FLOG_OVERRUN is raised, its record in the slot held free (R593). -/
def noteOverrun (before : Nat) (tick : Tick) (m : Module) : Module :=
  if m.faults.lost = before ∨ isActive m.faults.active F.flogOverrun 0 then m
  else noteFull (tableRefuses m.faults.active) tick (enterFault 513 F.flogOverrun 0 false tick m)

/-- A record other than a raising, with the overrun rule. -/
def record (code detail kind func pattern : Nat) (m : Module) : Module :=
  noteOverrun m.faults.lost m.time.count
    (pushRecord 512 (logRec m code detail kind func pattern m.time.count) m)

/-! ## The causes of EVENT -/

/-- A cause of R465 arises: bit `b` of EVENT byte 1; the instant of the earliest cause stands. -/
def noteCause (b : Nat) (tick : Tick) (m : Module) : Module :=
  if m.sys.causes.testBit b then m
  else { m with sys := { m.sys with
    causes := m.sys.causes + 2 ^ b, causeAt := if m.sys.causes = 0 then tick else m.sys.causeAt } }

/-! ## Patterns -/

/-- An island of a function holds a latched desaturation or hard-short fault (R249 row 1, R579). -/
def Module.latchedShort (m : Module) (f : Func) : Bool :=
  (List.finRange 36).any (fun i => islandFunc i.val == f &&
    (m.islands[i].state == .latched || m.islands[i].state == .softOff) &&
    (m.islands[i].cause == 1 || m.islands[i].cause == 2))

/-- A traction loop is OPEN from this moment (R217). -/
def openTraction (c : Fin 2) (m : Module) : Module :=
  { m with traction := Vector.upd m.traction c (fun t =>
      { t with loop := .open, nextLoop := none, catch_ := 0 }) }

/-- The channel of a traction function. -/
def channelFunc : Func → Option (Fin 2)
  | .ta => some 0
  | .tb => some 1
  | _ => none

/-- PATTERN_OFF of a traction inverter with a shorted leg is that of row 1 of R249 (R251). -/
def markRow1 (f : Func) (m : Module) : Module :=
  match channelFunc f with
  | some c =>
    if m.patternOf f == .off && m.latchedShort f then
      { m with traction := Vector.upd m.traction c (fun t => { t with offByRow1 := true }) }
    else m
  | none => m

/-- The release of a pattern ends row 1's (R251). -/
def unmarkRow1 (f : Func) (m : Module) : Module :=
  match channelFunc f with
  | some c => { m with traction := Vector.upd m.traction c (fun t => { t with offByRow1 := false }) }
  | none => m

/-- A charge session or AC export ends at once: S2 open, IDLE, no longer derated (R330, R333). -/
def endCharge (c : Charger) : Charger :=
  { c with state := 0, session := false, ending := false, s2 := false, derated := false, phase := 0, handStep := 0,
           exportV := 0 }

/-- PF, PV and DB are OPEN, nothing pending. -/
def openCharger (c : Charger) : Charger :=
  { c with pfClosed := false, pvClosed := false, dbClosed := false, offNext := false, closePf := false, closePv := false,
           closeDb := false }

/-- PFC and DAB go off at the next boundary of region 3; no close stays pending (R298, R333). -/
def chargerOff (c : Charger) : Charger := { c with offNext := true, closePf := false, closePv := false, closeDb := false }

/-- An actuator's loop opens and its move or homing is abandoned; CLAMP stays (R396). -/
def abandonAx (a : Actuator) : Actuator :=
  { a with closed := false, nextClosed := none,
           gear := if a.move = 2 then 15 else a.gear, move := 0, nextMove := none, settleSince := none,
           u := 0, uNow := 0, duty := 0, legs := Vector.replicate 3 0,
           refreshing := Vector.replicate 3 false, refreshNext := Vector.replicate 3 false }

/-- A leg whose loops open: an on-time in progress ends by neither of the ends R341 shows. -/
def Leg.stop (l : Leg) : Leg := { l with lowOn := false, trip := l.trip && !l.lowOn, cycling := false }

/-- What the setting of a safe pattern does to the loops and running operations of a function at the same moment
(R217, R298, R316, R333, R396). DEDUCED, log entry 30. -/
def patternEffect (f : Func) (m : Module) : Module :=
  match f with
  | .ta => openTraction 0 m
  | .tb => openTraction 1 m
  | .cv =>
    -- a precharge in progress stays in its step (R311)
    { m with converter := { m.converter with
               closed := false, nextClosed := none, outlet := 0, legs := m.converter.legs.map Leg.stop },
             charger := chargerOff (endCharge m.charger) }
  | .cg => { m with charger := openCharger (endCharge m.charger) }
  | .ch => m
  | .ax a => { m with actuators := Vector.upd m.actuators a abandonAx }

/-- The pattern on a function is replaced and a KIND 3 record written (R592). -/
def putPattern (f : Func) (p : Pattern) (code detail : Nat) (m : Module) : Module :=
  let m1 := { m with faults := { m.faults with
    pattern := m.faults.pattern.set f.idx.val p f.idx.isLt,
    patternBy := m.faults.patternBy.set f.idx.val (code, detail) f.idx.isLt,
    releasing := m.faults.releasing.set f.idx.val false f.idx.isLt } }
  let m2 := match f with
    | .ta | .tb => noteCause 1 m.time.count m1
    | .cv => noteCause 2 m.time.count m1
    | _ => m1
  markRow1 f (patternEffect f (record code detail 3 f.code p.code m2))

/-- A request for a pattern reaches a function (R578, R580): none on a disabled function; PATTERN_OFF stands over an
active short circuit; a second request for what stands changes nothing but withdraws a release under way.
DEDUCED, log entry 30. -/
def setPattern (f : Func) (p : Pattern) (code detail : Nat) (m : Module) : Module :=
  if !m.enabled f || p == .none then m
  else
    match m.patternOf f with
    | .none => putPattern f p code detail m
    | .off =>
      markRow1 f { m with faults := { m.faults with releasing := m.faults.releasing.set f.idx.val false f.idx.isLt } }
    | _ => if p == .off then putPattern f .off code detail m
           else { m with faults := { m.faults with
                    releasing := m.faults.releasing.set f.idx.val false f.idx.isLt } }

/-- The pre-selection of a traction channel, which is always one of the three patterns (R250). -/
def preselection (t : Traction) : Pattern := if t.preselected == .none then .off else t.preselected

/-- The pattern a request without a choice of its own puts on a function (R250, R579). -/
def Module.choice (m : Module) : Func → Pattern
  | .ta => preselection m.traction[0]
  | .tb => preselection m.traction[1]
  | _ => .off

/-- The power functions in the order of R592. -/
def powerFuncs : List Func := Func.all

/-- Safe patterns on several functions, each with its own choice. -/
def setPatterns (fs : List Func) (code detail : Nat) (m : Module) : Module :=
  fs.foldl (fun m f => setPattern f (m.choice f) code detail m) m

/-! ## Affected functions (R578, R607, R619) -/

/-- The functions whose region is `n`; CF1 region 1 and 2 as R578 gives them. -/
def Module.regionFuncs (m : Module) (n : Nat) : List Func :=
  let img := m.epochs.active
  if n = 0 then [.ta] else if n = 1 then [.tb] else if n = 2 then [.cv, .ch] else if n = 3 then [.cg]
  else if n = img.axRegion then [.ax 0, .ax 1, .ax 2, .ax 3]
  else if n = img.supRegion then powerFuncs
  else if n = img.sysRegion then
    ([.ta, .tb] : List Func).filter (fun f =>
      img.num (P.trSetpointSource + (if f == .tb then 0x1000 else 0)) == 1)
  else []

/-- The functions held by a die at T3 (R619). -/
def dieFuncs (d : Nat) : List Func :=
  if d = 2 then [.ta, .tb, .cv, .cg]
  else if d = 3 ∨ d = 8 then [.ax 0, .ax 1, .ax 2, .ax 3]
  else if d < 10 then powerFuncs
  else [islandFunc (d - 10)]

/-- The function that uses sigma-delta input `i` of an AFE (R421): CS3 carries the chopper or the outlet current, CS7 the
chopper current where CH_CURRENT_INPUT names it, else none. -/
def Module.sdFuncs (m : Module) (afe i : Nat) : List Func :=
  if i = 3 then (if afe = 0 || m.rnum 2 P.chCurrentInput == 1 then [.cv] else [])
  else if afe = 0 then [.ta] else [.tb]

/-- The functions a class A fault affects (R578, R607, R619). -/
def Module.affected (m : Module) (code detail : Nat) : List Func :=
  let area := code / 0x1000
  if area = 2 then [.ta] else if area = 3 then [.tb]
  else if area = 1 then m.regionFuncs (detail / 2 ^ 13)
  else if area = 7 then [islandFunc detail]
  else if code = F.chSwitchShort then [.ch]
  else if code = F.dclOv2 then [.ta, .tb, .cv, .cg]
  else if area = 4 then [.cv]
  else if area = 5 then [.cg]
  else if code = F.afeSdOvercurrent ∨ code = F.afeSdLost then m.sdFuncs (detail / 2 ^ 15) (detail % 2 ^ 15)
  else if area = 6 then [.ax ⟨detail % 4, Nat.mod_lt _ (by decide)⟩]
  else if code = F.supCompareLost then [.ta, .tb]
  else if code = F.thermT3 then dieFuncs detail
  else if code = F.memUncorrRepeat then
    (let b := detail / 256; if b < 16 then powerFuncs else m.regionFuncs ((b - 16) / 16))
  else powerFuncs

/-- The valid EN level: high once it has held for 80 ticks since its rise and since the GDC observes it; until then, and
while the GDC does not run, EN reads low (R355). DEDUCED, log entry 110. -/
def Module.enHigh (m : Module) : Bool :=
  m.supply.en && m.dieRuns 7 && Nat.max m.gate.enSeenAt m.supply.enRoseAt + 80 ≤ m.time.elapsed

/-- A request that carries PATTERN_OFF is present for a function (R579): EN low, a latched short. -/
def Module.offRequest (m : Module) (f : Func) : Bool := !m.enHigh || m.latchedShort f

/-- The GDC sets the pattern itself, on the protection path of a comparator, a detector or an island (R25, R585). -/
def gdcReacts (code : Nat) : Bool :=
  code / 0x1000 == 7 || [F.dclOv2, F.cvLegOvercurrent, F.cgBusOvervoltage, F.cgPfcOvercurrent, F.cgDabOvercurrent,
    F.afeSdOvercurrent].contains code

/-- An island fault of a self-test, whose function was off already: it asks for PATTERN_OFF (R379). -/
def Module.fromSelftest (m : Module) (code detail : Nat) : Bool :=
  code == F.gdSelftestFail || (code / 0x1000 == 7 && m.gate.test == 1 && m.gate.testIsland == detail)

/-- The reaction of a class A fault (R575, R578, R579); what the supervisor sets goes to the GDC on crossing 4 (R90). -/
def react (code detail : Nat) (m : Module) : Module :=
  if classOf code != .a then m
  else (m.affected code detail).foldl
    (fun m f => setPattern f (if m.offRequest f || m.fromSelftest code detail then .off else m.choice f) code detail m)
    (if gdcReacts code then m else sendCommand 4 m)

/-! ## Raising and clearing -/

/-- A fault is raised with its detection instant (R575 … R577, R587, R592 … R594). `cond` is its CONDITION. -/
def raiseAt (tick : Tick) (code detail : Nat) (cond : Bool) (m : Module) : Module :=
  if isActive m.faults.active code detail then
    -- the protection path sets its pattern at every trip (R430)
    (if gdcReacts code then react code detail else id) (setCond code (· == detail) cond m)
  else
    let full := tableRefuses m.faults.active && code != F.faultTableFull
    let m1 := enterFault 512 code detail cond tick m
    let m2 := noteFull full tick m1
    let m3 := noteOverrun m.faults.lost tick m2
    react code detail (if classOf code == .a then noteCause 3 tick m3 else m3)

/-- A fault is raised now. -/
def raise (code detail : Nat) (cond : Bool) (m : Module) : Module := raiseAt m.time.count code detail cond m

/-- The present CONDITION of an active fault: the table-full fault follows the table (R590), GD_EN_OFF the valid level of EN
(R355). -/
def Module.condOf (m : Module) (f : ActiveFault) : Bool :=
  if f.code = F.faultTableFull then 255 ≤ entriesInUse m.faults.active
  else if f.code = F.gdEnOff then !m.enHigh else f.cond

/-- An active fault may be cleared by a source: 0 ACK_FAULTS, 1 EN, 2 READ_FAULTS (R588, R344, R357). -/
def Module.clearable (m : Module) (policy : Nat) (f : ActiveFault) : Bool :=
  policyOf f.code == policy && !m.condOf f

/-- Clearing an active fault: it leaves the table and a KIND 2 record is written (R592). -/
def clearFault (f : ActiveFault) (m : Module) : Module :=
  record f.code f.detail 2 0 0
    { m with faults := { m.faults with
        active := m.faults.active.filter (fun g => !(g.code == f.code && g.detail == f.detail)) } }

/-- Clearing several faults, oldest first. -/
def clearFaults (fs : List ActiveFault) (m : Module) : Module := fs.foldl (fun m f => clearFault f m) m

/-- A T3 throttle level holds a function (R583, R619). -/
def Module.heldByT3 (m : Module) (f : Func) : Bool :=
  (List.finRange 46).any (fun d => m.dies[d].throttle == 3 && (dieFuncs d.val).contains f)

/-- A function may be released: no class A fault affects it, EN is high, no T3 holds it (R583). -/
def Module.releasable (m : Module) (f : Func) : Bool :=
  m.enHigh && !m.heldByT3 f &&
  !m.faults.active.any (fun a => classOf a.code == .a && (m.affected a.code a.detail).contains f)

/-- The release of a function's pattern at its boundary, with a KIND 4 record (R583, R592). -/
def releaseNow (f : Func) (m : Module) : Module :=
  let by_ := m.faults.patternBy[f.idx]
  let p := m.patternOf f
  let m1 := unmarkRow1 f (record by_.1 by_.2 4 f.code p.code m)
  { m1 with faults := { m1.faults with
      pattern := m1.faults.pattern.set f.idx.val .none f.idx.isLt,
      releasing := m1.faults.releasing.set f.idx.val false f.idx.isLt } }

/-- ACK_FAULTS releases what it may: the release waits for the boundary of the function's region (R583). -/
def releaseWhatMay (m : Module) : Module :=
  Func.all.foldl (fun m f =>
    if m.patterned f && m.releasable f then
      { m with faults := { m.faults with releasing := m.faults.releasing.set f.idx.val true f.idx.isLt } }
    else m) m

/-- FLT is driven low (R585, R586): a class A fault, with FLT_MODE 1 a class B fault, a failed pattern check, a chopper
short, and while an island of an enabled function holds a desaturation or hard short that its status frame has reported
(R364); released in OFF and SLEEP. -/
def Module.flt (m : Module) : Bool :=
  2 ≤ m.supply.label.code &&
  (m.hasClass .a || (m.num P.fltMode == 1 && m.hasClass .b) || m.supply.railsRemoved ||
   (List.finRange 36).any (fun i => m.enabled (islandFunc i.val) && m.islands[i].reported &&
     (m.islands[i].state == .softOff || m.islands[i].state == .latched) &&
     (m.islands[i].cause == 1 || m.islands[i].cause == 2)))

end Sys2Proof.Machine
end

