-- ==== Sys2Proof/Machine/Wire.lean ====
section
/-!
DEFINITION. What the module sends: the transmit objects of the CAN ports (R446), the axle-link sequence numbers (R461), the
transfers of CN0 (R457), the segments of a packet (R520), datagrams (R468) and serial frames (R522).
-/

namespace Sys2Proof.Machine

/-- Something leaves the module. -/
def emit (o : Out) (m : Module) : Module := { m with out := m.out ++ [o] }

/-- CAN port `p` with `f` applied. -/
def updCan (p : Fin 4) (f : CanPort → CanPort) (m : Module) : Module := { m with can := Vector.upd m.can p f }

/-- The system functions with `f` applied. -/
def updSys (f : System → System) (m : Module) : Module := { m with sys := f m.sys }

/-- The ISOBUS control function with `f` applied. -/
def updIsobus (f : Isobus → Isobus) (m : Module) : Module := { m with isobus := f m.isobus }

/-- `k` words for a transmitter of the SUP clocked domain cross, with the change of the control signal that starts it
(R81, R90). DESIGN CHOICE, log entry 63. -/
def transmit (k : Nat) (m : Module) : Module := strobe 12 (crossWords 12 k m)

/-- A controller that is bus-off or recovers from it (R474). -/
def CanPort.isOff (c : CanPort) : Bool := c.state == 3 || c.state == 4

/-! ## Stamps (R450, R451) -/

/-- The stamp of a frame whose synchronising edge lies on a tick: the count, in 48 bits, of the CAN clock edge that first
sees it, CAN clock edges lying on counts divisible by 5 (R67, R450). -/
def canStamp (t : Tick) : Nat := (t.toNat + 4) / 5 * 5 % 2 ^ 48

/-- The full instant of a stamp: the present count brought down to it (R451). -/
def fullStamp (now : Tick) (stamp : Nat) : Tick :=
  let low := now.toNat % 2 ^ 48
  let high := now.toNat / 2 ^ 48
  BitVec.ofNat 64 ((if low < stamp then (high + 2 ^ 16 - 1) % 2 ^ 16 else high) * 2 ^ 48 + stamp)

/-- The instant the module forms for a frame that began on a tick (R450, R451). -/
def Module.stampOf (m : Module) (t : Tick) : Tick := fullStamp m.time.count (canStamp t)

/-! ## Transmit objects (R440, R443, R446) -/

/-- The object of `lo … hi` for a frame: the one above those that hold frames, so that frames of one identifier leave in
order; the last where there is none above. DESIGN CHOICE, log entry 44. -/
def freeObject (tx : List TxFrame) (lo hi : Nat) : Nat :=
  (tx.filter (fun f => lo ≤ f.object && f.object ≤ hi)).foldl (fun o f => Nat.max o (Nat.min hi (f.object + 1))) lo

/-- A frame is placed into a transmit object of port `p`, its header and data crossing to the bus controller (R90); a port
whose transceiver is off takes none (R446, R471). -/
def offerFrame (p : Fin 4) (lo hi : Nat) (h : FrameHead) (oneShot : Bool) (data : List Byte) (instant : Option Tick)
    (m : Module) : Module :=
  if m.can[p].state = 0 ∨ m.can[p].state = 5 then m
  else
    updCan p (fun c =>
      { c with tx := c.tx ++ [{ object := freeObject c.tx lo hi, head := h, oneShot := oneShot, data := data,
                                instant := instant, repeated := false }] }) (transmit (1 + (data.length + 3) / 4) m)

/-- The header of a frame on CN0, classical with 29 bits, or on CN2 and CN3, XL with AL_SDT and the node index, SEC and
acceptance field 0 (R440). -/
def Module.headOn (m : Module) (p : Fin 4) (ident length : Nat) : FrameHead :=
  if p.val < 2 then { ident := ident, format := .classical, length := length, extended := true }
  else { ident := ident, format := .xl, length := length, sdt := m.num P.alSdt, vcid := m.straps.node.val }

/-- A frame is placed into an object of CN0, CN2 or CN3. -/
def offer (p : Fin 4) (lo hi ident : Nat) (oneShot : Bool) (data : List Byte) (instant : Option Tick) (m : Module) :
    Module :=
  offerFrame p lo hi (m.headOn p ident data.length) oneShot data instant m

/-! ## The axle link (R461) -/

/-- The module sends no axle-link frame: it listens after boot, or is silent for good (R477). -/
def Module.axleSilent (m : Module) : Bool := m.sys.listening || m.sys.silenced

/-- The sequence number the next frame of a priority identifier carries (R461). DEDUCED, log entry 40. -/
def Module.seqOf (m : Module) (ident : Nat) : Nat :=
  ((m.sys.seqs.find? (fun p => p.1 == ident)).map (·.2)).getD 0

/-- The sequence number of an identifier moves on, 255 to 0 (R461). -/
def bumpSeq (ident : Nat) (m : Module) : Module :=
  let next := (ident, (m.seqOf ident + 1) % 256)
  updSys (fun s => { s with seqs := s.seqs.filter (fun p => p.1 != ident) ++ [next] }) m

/-- An axle-link frame on both ports on the same tick, its sequence number in byte 0 (R461). -/
def offerAxle (ident : Nat) (oneShot : Bool) (data : List Byte) (instant : Option Tick) (m : Module) : Module :=
  if m.axleSilent then m
  else
    let bytes := BitVec.ofNat 8 (m.seqOf ident) :: data
    bumpSeq ident (offer 3 0 15 ident oneShot bytes instant (offer 2 0 15 ident oneShot bytes instant m))

/-! ## Segments (R520) -/

/-- Pieces of at most `b` bytes; `k` bounds their number. -/
def pieces (b : Nat) : Nat → List Byte → List (List Byte)
  | 0, _ => []
  | k + 1, xs => if xs.isEmpty then [] else xs.take b :: pieces b k (xs.drop b)

/-- The frames of a packet after the bytes a transport puts before the control byte: `a` packet bytes in the first, `b`
in each later one (R520). -/
def segments (a b : Nat) (bytes : List Byte) : List (List Byte) :=
  let cs := bytes.take a :: pieces b bytes.length (bytes.drop a)
  (List.range cs.length).map (fun i =>
    let control := (if i = 0 then 0x80 else 0) + (if i + 1 = cs.length then 0x40 else 0) + i % 16
    BitVec.ofNat 8 control :: ((if i = 0 then [BitVec.ofNat 8 (bytes.length / 4)] else []) ++ cs.getD i []))

/-- A packet in CEROL_TO to a node (R461, R462, R520). -/
def relayTo (node : Nat) (words : List Word) (m : Module) : Module :=
  (segments 109 110 (words.flatMap wordBytes)).foldl (fun m d => offerAxle (0x100 + node) false d none m) m

/-- A reply to the Headstock in CEROL_FROM (R461, R462, R520). -/
def replyFromNode (words : List Word) (m : Module) : Module :=
  (segments 109 110 (words.flatMap wordBytes)).foldl
    (fun m d => offerAxle (0x180 + m.straps.node.val) false d none m) m

/-- The data lengths of a CAN FD frame. -/
def fdLengths : List Nat := [0, 1, 2, 3, 4, 5, 6, 7, 8, 12, 16, 20, 24, 32, 48, 64]

/-- The data of an FD frame padded with 0xCC to a length the format has (R520). -/
def padFd (data : List Byte) : List Byte :=
  data ++ List.replicate (((fdLengths.find? (fun n => data.length ≤ n)).getD data.length) - data.length) 0xCC

/-- The header of a reply frame on CN1, in the format of the request, an FD frame with bit-rate switch when
BUS_DATA_RATE is not 0 (R460, R520). -/
def Module.replyHead (m : Module) (classical : Bool) (length : Nat) : FrameHead :=
  { ident := m.num P.cn1RepId, format := if classical then .classical else .fd, length := length,
    extended := m.num P.cn1Ext == 1, rateSwitch := !classical && m.num (P.busDataRate + 0x40) != 0 }

/-- A reply on CN1, in the objects 32 … 39 (R460, R520). -/
def replyOnCn1 (classical : Bool) (words : List Word) (m : Module) : Module :=
  let frames := if classical then segments 6 7 (words.flatMap wordBytes)
    else (segments 62 63 (words.flatMap wordBytes)).map padFd
  frames.foldl (fun m d => offerFrame 1 32 39 (m.replyHead classical d.length) false d none m) m

/-! ## Transfers on CN0 (R457) -/

/-- The identifier of a TP or ETP frame to an address, priority 7. PRESUMED, log entry 43. -/
def tpIdent (pf dest own : Nat) : Nat := 0x1C000000 + pf * 2 ^ 16 + dest * 2 ^ 8 + own

/-- A connection-management or data frame of TP or ETP goes into the objects 2 … 5. -/
def offerTp (pf dest : Nat) (data : List Byte) (m : Module) : Module :=
  offer 0 2 5 (tpIdent pf dest m.isobus.address) false data none m

/-- The packets of a transfer of `size` bytes, seven bytes in each. -/
def tpPackets (size : Nat) : Nat := (size + 6) / 7

/-- Packet `k`, from 1 on, of a transfer: its number and seven bytes, the last ones filled up with 0xFF (ISO 11783-3).
PRESUMED, log entry 43. -/
def tpData (bytes : List Byte) (k : Nat) : List Byte :=
  let part := (bytes.drop (7 * (k - 1))).take 7
  BitVec.ofNat 8 k :: (part ++ List.replicate (7 - part.length) 0xFF)

/-- A transfer of PGN 61184 to a peer is opened with its request to send (ISO 11783-3). PRESUMED, log entry 43. -/
def openTp (peer : Nat) (bytes : List Byte) (m : Module) : Module :=
  offerTp 0xEC peer [16, BitVec.ofNat 8 bytes.length, BitVec.ofNat 8 (bytes.length / 2 ^ 8),
      BitVec.ofNat 8 (tpPackets bytes.length), 0xFF, 0x00, 0xEF, 0x00]
    (updIsobus (fun x => { x with sending := some { peer := peer, bytes := bytes, lastAt := m.time.elapsed } }) m)

/-- A packet to an address on CN0: in one frame, or by TP, one transfer at a time (R457). The frame has priority 6.
PRESUMED, log entry 43. -/
def replyOnCn0 (dest : Nat) (bytes : List Byte) (m : Module) : Module :=
  if bytes.length ≤ 8 then offer 0 6 7 (0x18EF0000 + dest * 2 ^ 8 + m.isobus.address) false bytes none m
  else if m.isobus.sending.isSome then updIsobus (fun x => { x with waiting := x.waiting ++ [(dest, bytes)] }) m
  else openTp dest bytes m

/-! ## Packets -/

/-- The address of a next hop of interface `e` for an address (R468): itself inside the subnet of `own`, else the
gateway; none where there is no gateway. -/
def Module.hop (m : Module) (e own addr : Nat) : Option Nat :=
  let mask := m.num (P.etNetmask + 0x10 * e)
  let gate := m.num (P.etGateway + 0x10 * e)
  if (addr &&& mask) == (own &&& mask) then some addr else if gate = 0 then none else some gate

/-- A reply as a datagram of an interface in use, from port 46800 to the source address and port (R468, R472), from the
address the request was sent to (R470). -/
def replyDatagram (e : Fin 2) (dest : Nat) (v : Via) (words : List Word) (m : Module) : Module :=
  let own := if v.ownAddr = 0 then m.num (P.etIpAddr + 0x10 * e.val) else v.ownAddr
  match m.hop e.val own dest with
  | none => m
  | some hop =>
    if m.num (P.etEnable + 0x10 * e.val) != 1 || own = 0 then m
    else emit (.udp e.val own dest hop v.udpPort words) (transmit words.length m)

/-- The bytes of a packet as SV carries them between its delimiters (R522). -/
def escape : List Byte → List Byte
  | [] => []
  | b :: rest =>
    if b = 0xC0 then 0xDB :: 0xDC :: escape rest else if b = 0xDB then 0xDB :: 0xDD :: escape rest else b :: escape rest

/-- A packet leaves on a transport to the sender of a request (R518, R519): on CN0 only while an address is held, a packet
lost for want of one being counted (R456, R470). DESIGN CHOICE, log entry 18. -/
def sendPacket (t : Transport) (dest : Nat) (v : Via) (ws : List Word) (m : Module) : Module :=
  match t with
  | .cn0 =>
    if m.isobus.address = 254 then updCan 0 (fun c => { c with txFail := inc32 c.txFail }) m
    else replyOnCn0 dest (ws.flatMap wordBytes) m
  | .cn1 => replyOnCn1 v.classical ws m
  | .cn2 | .cn3 => replyFromNode ws m
  | .et0 => replyDatagram 0 dest v ws m
  | .et1 => replyDatagram 1 dest v ws m
  | .sv => emit (.serial (0xC0 :: escape (ws.flatMap wordBytes) ++ [0xC0])) (transmit ws.length m)

end Sys2Proof.Machine
end

