-- ==== Sys2Proof/Machine/Ops.lean ====
section
/-!
DEFINITION. The shared operations of every command: the passing of real time, what leaves the module, free values, the
reply to a request, the checks every request shares (R529, R530).
-/

namespace Sys2Proof.Machine

/-! ## Time -/

/-- `dt` ticks of real time pass: the clock, the Spindle count while it runs (R61, R62), the crossings' handshakes (R81,
R82), the time spent in ARMED and RUN (R596), the operating time not yet programmed (R673). What left the module during
the last command is forgotten. DESIGN CHOICE, log entry 1. -/
def passTime (dt : Nat) (m : Module) : Module :=
  { m with
    time := { m.time with
      elapsed := m.time.elapsed + dt,
      count := if m.time.running then m.time.count + BitVec.ofNat 64 dt else m.time.count },
    crossings := m.crossings.map (Crossing.settle (m.time.elapsed + dt)),
    drivenTime := if m.driven then m.drivenTime + dt else m.drivenTime,
    service := { m.service with
      unprogrammed := if m.atLeastReady then m.service.unprogrammed + dt else m.service.unprogrammed },
    out := [] }

/-- The next free value, and the module with the counter of free values advanced. DESIGN CHOICE, log entry 7. -/
def takeFree (m : Module) : Word × Module := (Config.freeWord m.free, { m with free := m.free + 1 })

/-! ## Requests -/

/-- What the interpreter decides about a request. -/
inductive Verdict where
  /-- refused, with status and detail -/
  | refuse (status : Status) (detail : Nat)
  /-- OK, with the data words of the reply -/
  | done (data : List Word) (m : Module)
  /-- OK_SCHEDULED, with the data words of the reply -/
  | scheduled (data : List Word) (m : Module)
  /-- accepted; the reply leaves when the result is ready (R523) -/
  | waits (m : Module)
  /-- neither accepted nor refused before an answer of a Tailstock is in (R487) -/
  | pends (m : Module)

/-- Word 0 of a request or, with `rep`, of its reply (R513, R515). -/
def word0 (opcode : Nat) (h : Hdr) (count : Nat) (rep : Bool) : Word :=
  pack [(opcode, 24), (h.tag.toNat, 16), (count, 8), (2, 4), (flag rep, 3), (flag h.timed, 2), (flag h.relayed, 1),
        (flag h.data, 0)]

/-- A reply packet (R515): data words only with OK or OK_SCHEDULED and DATA set. -/
def replyWords (opcode : Nat) (h : Hdr) (count : Nat) (status detail : Nat) (data : List Word) : List Word :=
  let ws := [word0 opcode h count true, pack [(status, 16), (detail, 0)]] ++
    (if status ≤ 1 && h.data then data else [])
  ws ++ [crc32c ws]

/-- The reply leaves on the transport and to the sender of the request (R518). -/
def sendReply (opcode : Nat) (h : Hdr) (count : Nat) (status detail : Nat) (data : List Word) (m : Module) : Module :=
  sendPacket h.transport h.sender h.via (replyWords opcode h count status detail data) m

/-- A refusal: CMD_REJECT_COUNT rises, the reply leaves, nothing else changes (R529). DEDUCED, log entry 13. -/
def refuse (opcode : Nat) (h : Hdr) (count : Nat) (st : Status) (detail : Nat) (m : Module) : Module :=
  sendReply opcode h count st.code detail []
    { m with interp := { m.interp with rejected := inc32 m.interp.rejected } }

/-- CMD_ACCEPT_COUNT rises (R545). -/
def countAccepted (m : Module) : Module :=
  { m with interp := { m.interp with accepted := inc32 m.interp.accepted } }

/-- The answer the verdict gives to a request of `count` parameter words that found the module as `m`. -/
def answer (opcode : Nat) (h : Hdr) (count : Nat) (m : Module) : Verdict → Module
  | .refuse st d => refuse opcode h count st d m
  | .done data m' => sendReply opcode h count 0 0 data (countAccepted m')
  | .scheduled data m' => sendReply opcode h count 1 0 data (countAccepted m')
  | .waits m' => countAccepted m'
  | .pends m' => m'

/-- A check: none passes, a status and detail refuses. -/
abbrev Check := Option (Status × Nat)

/-- A check that refuses with a status when a condition holds. -/
def failIf (b : Bool) (st : Status) (d : Nat := 0) : Check := if b then some (st, d) else none

/-- The first check of a list that refuses. -/
def firstFail : List Check → Check
  | [] => none
  | some r :: _ => some r
  | none :: cs => firstFail cs

/-- A verdict unless a check refuses. -/
def unlessFails (c : Check) (v : Verdict) : Verdict :=
  match c with
  | some (st, d) => .refuse st d
  | none => v

/-! ## The shared order of checks (R530) -/

/-- How an opcode may be timed (R525). -/
inductive Timing3 where
  | never | optional | required
deriving DecidableEq, Repr

/-- The own parameter words of a request, after the instant words (R525). -/
def ownWords (h : Hdr) (ws : List Word) : List Word := if h.timed then ws.drop 2 else ws

/-- The execution instant of a TIMED request (R525). -/
def instantOf (ws : List Word) : Tick := tickOf (ws.getD 0 0) (ws.getD 1 0)

/-- Row 1: COUNT wrong for the opcode and its TIMED bit (R530). -/
def checkLength (h : Hdr) (ws : List Word) (ok : Nat → Bool) : Check :=
  failIf ((h.timed && ws.length < 2) || !ok (ownWords h ws).length) .badLength

/-- Row 2: TIMED against R525, or an encoding the opcode does not have. -/
def checkEncoding (h : Hdr) (t : Timing3) (encodingOk : Bool) : Check :=
  failIf ((h.timed && t == .never) || (!h.timed && t == .required) || !encodingOk) .reservedEncoding

/-- System-class opcodes (R50): 0x80 … 0x84. -/
def isSystemClass (opcode : Nat) : Bool := 0x80 ≤ opcode && opcode ≤ 0x84

/-- Row 3: RELAYED on a packet that did not arrive in CEROL_TO from the Headstock; a system-class packet to a Tailstock
without RELAYED, or to a Headstock silenced by R477. -/
def checkRelayed (opcode : Nat) (h : Hdr) (m : Module) : Check :=
  let viaLink := (h.transport == .cn2 || h.transport == .cn3) && h.fromHead
  firstFail
    [failIf (h.relayed && !viaLink) .reservedEncoding,
     failIf (isSystemClass opcode && !m.isHead && !h.relayed) .notHeadstock,
     failIf (isSystemClass opcode && m.isHead && m.sys.silenced) .notHeadstock]

/-- The opcodes R170 refuses without coverage, but for SET_POWER_STATE whose target decides; and RELEASE_TAILSTOCK, to which
R490 applies the row of R488. DEDUCED, log entry 106. -/
def needsLockstep (opcode : Nat) : Bool :=
  (0x40 ≤ opcode && opcode ≤ 0x5F && opcode != 0x42) || opcode == 0x60 || opcode == 0x62 || opcode == 0x80 ||
  opcode == 0x81 || opcode == 0x83

/-- Row 4: the refusals of R170. -/
def checkLockstep (opcode : Nat) (m : Module) : Check :=
  failIf (needsLockstep opcode && m.lockstepRequired) .lockstepRequired

/-- Row 5: a timed instant earlier than SPINDLE_NOW (R525). -/
def checkInstant (h : Hdr) (ws : List Word) (m : Module) : Check :=
  failIf (h.timed && (instantOf ws).toNat < m.time.count.toNat) .timeInPast

/-- Rows 1 … 5 of R530 in order. DEDUCED, log entry 14. -/
def prelude (opcode : Nat) (h : Hdr) (ws : List Word) (lenOk : Nat → Bool) (t : Timing3) (encodingOk : Bool)
    (m : Module) : Check :=
  firstFail [checkLength h ws lenOk, checkEncoding h t encodingOk, checkRelayed opcode h m, checkLockstep opcode m,
             checkInstant h ws m]

/-- A Tailstock in RUN that is not admitted refuses drive, charge and export commands (R489). -/
def checkAdmitted (m : Module) : Check := failIf (!m.isAdmitted && m.label == .run) .notAdmitted

/-- The instant of a timed command, kept among the pending ones until it is due (R526, R527). -/
def placeTimed (opcode : Nat) (h : Hdr) (ws : List Word) (m : Module) : Module :=
  { m with interp := { m.interp with timed := m.interp.timed ++
      [{ opcode := opcode, hdr := h, words := ownWords h ws, instant := instantOf ws }] } }

/-- An optionally timed command whose checks passed: at once with OK, or pending with OK_SCHEDULED; at most 32 pending
(R526, R527). -/
def nowOrTimed (opcode : Nat) (h : Hdr) (ws : List Word) (m : Module) (effect : Module → Module) : Verdict :=
  if h.timed then
    if 32 ≤ m.interp.timed.length then .refuse .busy 0 else .scheduled [] (placeTimed opcode h ws m)
  else .done [] (effect m)

/-! ## Parts of the module updated in place -/

/-- Region `n` with `f` applied. -/
def updRegion (n : Fin 8) (f : Region → Region) (m : Module) : Module :=
  { m with regions := Vector.upd m.regions n f }

/-- Die `d` with `f` applied. -/
def updDie (d : Fin 46) (f : Die → Die) (m : Module) : Module := { m with dies := Vector.upd m.dies d f }

/-- Traction channel `c` with `f` applied. -/
def updTraction (c : Fin 2) (f : Traction → Traction) (m : Module) : Module :=
  { m with traction := Vector.upd m.traction c f }

/-- Feedback port `p` with `f` applied. -/
def updFeedback (p : Fin 6) (f : Feedback → Feedback) (m : Module) : Module :=
  { m with feedback := Vector.upd m.feedback p f }

/-- The region that serves a port (R261). -/
def Image.portRegion (img : Image) (p : Fin 6) : Fin 8 :=
  if p.val = 0 then 0 else if p.val = 1 then 1 else img.regionOf (.ax 0)

/-- A feedback parameter of a port, as the region that serves the port has it (R285). -/
def Module.fpar (m : Module) (p : Fin 6) (id : Nat) : Word :=
  m.rpar (m.epochs.active.portRegion p) (id + 0x40 * p.val)
def Module.fnum (m : Module) (p : Fin 6) (id : Nat) : Nat := (m.fpar p id).toNat

/-- The source of a port; FB2 … FB5 know only 0 and 5 (R261). -/
def Module.fsource (m : Module) (p : Fin 6) : Nat := m.fnum p P.fbSource

/-- A source takes the quadrature lines, the Hall lines, the SSI lines (R261). -/
def abzSource (s : Nat) : Bool := s == 1 || s == 2 || s == 4
def hallSource (s : Nat) : Bool := s == 2 || s == 5
def ssiSource (s : Nat) : Bool := s == 3 || s == 4
def Module.usesAbz (m : Module) (p : Fin 6) : Bool := abzSource (m.fsource p)
def Module.usesHall (m : Module) (p : Fin 6) : Bool := hallSource (m.fsource p)
def Module.usesSsi (m : Module) (p : Fin 6) : Bool := ssiSource (m.fsource p)

/-- A source uses line `l` of its port: A, B, Z, Hall, SSI. -/
def usesLine (src l : Nat) : Bool :=
  if l ≤ 2 then abzSource src else if l = 3 then hallSource src else ssiSource src
def Module.lineUsed (m : Module) (p : Fin 6) (l : Nat) : Bool := usesLine (m.fsource p) l

/-- Of a set of lines, a bit each, some is used by a source. -/
def usesAny (src lines : Nat) : Bool := (List.range 5).any (fun l => lines.testBit l && usesLine src l)

/-- A line the source uses reports a break (R267, R281, R291). -/
def Module.lineBroken (m : Module) (p : Fin 6) : Bool := usesAny (m.fsource p) m.feedback[p].broken

/-- A fault of a port is raised: an event of the port towards the supervisor (R82, R90). -/
def raisePort (code : Nat) (p : Fin 6) (cond : Bool) (m : Module) : Module := noteEvent 5 (raise code p.val cond m)

/-- What the break of a line does to a port whose source is `src` and uses it (R281). -/
def breakLine (src l : Nat) (f : Feedback) : Feedback :=
  let f1 := { f with lost := f.lost ||| 2 ^ l }
  if l ≤ 1 then { f1 with posValid := false, speedValid := false, edges := [] }
  else if l = 2 then f1
  else if l = 3 then (if src = 5 then { f1 with posValid := false, speedValid := false } else f1)
  else if src = 3 then { f1 with posValid := false, speedValid := false }
  else { f1 with posValid := false, ssiStarted := false }

/-- The unacquired condition of a port (R262, R271): position invalid, speed 0 and valid, every counter of R284 at 0; the Hall
lines are where they are. -/
def unacquire (f : Feedback) : Feedback :=
  { f with acquire := 0, posValid := false, speedValid := true, count := 0, revolutions := 0, accumulator := 0,
           edges := [], stood := false, indexSeen := false, hallStarted := false, indexBlocked := false, ssiStarted := false,
           afterJump := none, ssiBad := 0, ssiAt := none, ssiSpeed := 0, ssiTrail := [], angle := 0, angleAt := 0,
           errors := 0, corrections := 0, edgesSinceCapture := 0, overflow := false, indexPending := none,
           ssiPending := none, ssiReading := none, hall := if f.hallNow = 7 then 0 else f.hallNow,
           epStart := Nat.max 1 f.epStart }

/-- Two epochs differ in a parameter of a port (R262), of an EP port (R286). -/
def portChanged (old new : Image) (p : Fin 6) : Bool :=
  (List.range 0x18).any (fun i => old.val (0x9000 + i + 0x40 * p.val) != new.val (0x9000 + i + 0x40 * p.val))
def epChanged (old new : Image) (p : Fin 6) : Bool :=
  p.val < 2 && (List.range 4).any (fun i => old.val (P.epMode + i + 0x40 * p.val) != new.val (P.epMode + i + 0x40 * p.val))

/-- A port begins anew under an epoch (R262): the breaks and faults of what its source does not use have no condition any more,
a line it now uses may be broken (R281). -/
def restartPort (p : Fin 6) (new : Image) (m : Module) : Module :=
  let src := new.num (P.fbSource + 0x40 * p.val)
  let lines := m.feedback[p].broken
  let m1 := updFeedback p (fun f =>
    (List.range 5).foldl (fun f l => if lines.testBit l && usesLine src l then breakLine src l f else f)
      (unacquire f)) m
  let m2 := if ssiSource src then m1 else endCond F.fbSsiError p.val m1
  let m3 := if hallSource src then m2 else endCond F.fbHallInvalid p.val m2
  if usesAny src lines then raisePort F.fbLineBreak p true m3 else endCond F.fbLineBreak p.val m3

/-- The ports a region serves begin anew where the epoch it now runs changes a parameter of theirs (R262, R285); an EP port
starts at the present angle where one of its own changes (R287). -/
def restartPorts (n : Fin 8) (old new : Image) (m : Module) : Module :=
  ((List.finRange 6).filter (fun p => new.portRegion p == n)).foldl (fun m p =>
    let m1 := if portChanged old new p then restartPort p new m else m
    if epChanged old new p then updFeedback p (fun f => { f with epStart := 2 }) m1 else m1) m

/-- Island `i` with `f` applied. -/
def updIsland (i : Fin 36) (f : Island → Island) (m : Module) : Module :=
  { m with islands := Vector.upd m.islands i f }

/-- An island whose rails go: its output goes off, a soft turn-off ends latched (R347, R677). -/
def Island.unpowered (s : Island) : Island :=
  { s with output := false, gateLevel := false, edges := [], placed := false, askedAt := none, railPosOk := false,
           railNegOk := false, stage := 0, state := if s.state == .softOff then .latched else s.state,
           condition := s.condition && s.state != .softOff }

/-- The parameter group of an island (R345). -/
def islandGroup (i : Nat) : Nat :=
  if i < 6 then 0 else if i < 12 then 1 else if i < 20 then 2 else if i < 26 then 3 else if i < 34 then 4 else 5

/-- A gate parameter of an island under the settings its function's region runs (R48, R374). -/
def Module.gpar (m : Module) (i : Fin 36) (id : Nat) : Word :=
  m.rpar (m.epochs.active.regionOf (islandFunc i.val)) (id + 0x40 * islandGroup i.val)

/-- UVLO_NEG is monitored (R359). -/
def Module.negMonitored (m : Module) (i : Fin 36) : Bool := F32.le (m.gpar i P.gdVneg) (F32.ofInt (-2))

/-- A lost modulator whose input an enabled function uses (R420): the fault is raised for the function. -/
def raiseLost (m : Module) : Module :=
  (List.finRange 2).foldl (fun m a => (List.finRange 4).foldl (fun m i =>
    if m.dieRuns (if a.val = 0 then 4 else 5) && m.afe[a].sdLost.testBit i.val && (m.sdFuncs a.val i.val).any m.enabled
    then raise F.afeSdLost (a.val * 2 ^ 15 + i.val) true m else m) m) m

/-- The islands follow the functions enabled in the epoch: those of a disabled function are not enabled, those of an enabled one
are in ARMED and RUN (R218, R348); a modulator lost before is reported for a function enabled since (R420). -/
def followEnables (m : Module) : Module :=
  raiseLost { m with islands := Vector.ofFn (fun i =>
      let s := m.islands[i]
      if s.state == .enabled && m.unused i then { s with state := .disabled }
      else if s.state == .disabled && m.driven && !m.unused i then { s with state := .enabled } else s) }

/-- Actuator `a` with `f` applied. -/
def updActuator (a : Fin 4) (f : Actuator → Actuator) (m : Module) : Module :=
  { m with actuators := Vector.upd m.actuators a f }

/-- Analog front end `a` with `f` applied. -/
def updAfe (a : Fin 2) (f : Afe → Afe) (m : Module) : Module := { m with afe := Vector.upd m.afe a f }

/-- Ethernet port `e` with `f` applied. -/
def updEth (e : Fin 2) (f : EthPort → EthPort) (m : Module) : Module := { m with eth := Vector.upd m.eth e f }

/-- Node `n` as the module knows it, with `f` applied. -/
def updNode (n : Fin 16) (f : Node → Node) (m : Module) : Module :=
  { m with sys := { m.sys with nodes := Vector.upd m.sys.nodes n f } }

/-- A command of opcode `opcode` that waits, with the target it acts on. -/
def waitingFor (opcode : Nat) (h : Hdr) (count target : Nat) (m : Module) : Waiting :=
  { opcode := opcode, hdr := h, count := count, target := target, since := m.time.elapsed, result := none }

/-- The module with one command more that waits for its result (R523). -/
def Module.withWaiting (m : Module) (w : Waiting) : Module :=
  { m with interp := { m.interp with waiting := m.interp.waiting ++ [w] } }

/-- The writes of a command into the clocked domain of a die go out on a crossing, to be applied together on the tick after
the last word has crossed, behind the words that wait for the lane (R79, R86). -/
def holdWrites (i : Fin 22) (w : Waiting) (m : Module) : Module :=
  let m1 := sendCommand i m
  m1.withWaiting { w with heldUntil := some ((m1.crossings[i]).allAcross + 1) }

/-- Writes of a command are on their way to a die (R86). -/
def Module.writesOut (m : Module) (die opcode : Nat) : Bool :=
  m.interp.waiting.any (fun w => w.heldUntil.isSome && w.opcode == opcode && w.target == die)

/-- Scrubber `s` with `f` applied. -/
def updScrubber (s : Fin 5) (f : Scrubber → Scrubber) (m : Module) : Module :=
  { m with memory := { m.memory with scrubbers := Vector.upd m.memory.scrubbers s f } }

/-- Whether the count lies on a control-period boundary of region `n` (R68). -/
def Module.atBoundary (m : Module) (n : Fin 8) : Bool :=
  let p := m.rnum n (P.regionPeriod + n.val)
  let ph := m.rnum n (P.regionPhase + n.val)
  p != 0 && m.time.count.toNat % p == ph % p

/-- The number of the control period of region `n` that the count lies in (R68). -/
def Module.period (m : Module) (n : Fin 8) : Nat :=
  (m.time.count.toNat - m.rnum n (P.regionPhase + n.val)) / m.rnum n (P.regionPeriod + n.val)

/-- The first instant not before `t` on a boundary of period `p` and phase `ph` (R68). -/
def boundaryAtOrAfter (p ph t : Nat) : Nat :=
  if p = 0 then t else if t ≤ ph then ph else t + (p - (t - ph) % p) % p

end Sys2Proof.Machine
end

