-- ==== Sys2Proof/Machine/Initial.lean ====
section
/-!
DEFINITION. The values the parts of the module hold at boot, at entry to READY and after a die reset: the Reset columns
of the status tables (R21, R662) and, for hidden state without one, zero (the log names these).
-/

namespace Sys2Proof.Machine

/-- A die at boot: supplied or off, T0, not measured (R59, R622: NaN until measured). -/
def Die.init (supply : Nat) : Die :=
  { supply := supply, inReset := false, bist := 0, throttle := 0, temp := F32.nan, measuredAt := none }

/-- SUP, FL, PHY and AUX are supplied in STANDBY (R47). -/
def standbyDie (d : Nat) : Bool := d == 0 || d == 1 || d == 6 || d == 9

/-- A region before it starts. DESIGN CHOICE, log entry 4. -/
def Region.init : Region :=
  { started := false, waiting := false, held := false, stuck := 0, failed := 0, checkpointValid := true, rebuilding := false,
    reloadAt := false, fallbacks := 0, mismatches := 0, lates := 0, quenches := 0, misses := 0, skips := 0,
    ranges := 0, window := 0, windowRaised := false, level := 0, records := [], flight := [], requests := [],
    units := [], lanes := [], clusters := Vector.replicate 4 { file := [], scratch := [] }, memory := [], shadow := [],
    affected := [], samples := [] }

/-- The kinds of crossing `i` and the number of its data lanes (R90): whether it carries data, control, events. -/
def crossingKind (i : Nat) : (Bool × Bool × Bool) × Nat :=
  if i = 0 ∨ i = 2 ∨ i = 4 then ((true, true, false), 1)
  else if i = 1 ∨ i = 3 ∨ i = 5 then ((true, false, true), 1)
  else if i = 6 ∨ i = 8 ∨ i = 10 then ((true, false, false), 4)
  else if i = 7 ∨ i = 9 ∨ i = 11 then ((true, false, false), 2)
  else if i = 12 then ((true, true, false), 2)
  else if i = 13 then ((true, false, true), 2)
  else ((false, true, false), 1)

/-- A control signal at its inactive level, nothing toggled (R89). -/
def Toggle.init : Toggle := { level := false, sent := false, toggles := 0, queue := [], ackAt := 0 }

/-- An event line with nothing counted (R89). -/
def EventLine.init : EventLine := { events := 0, overflow := false, received := 0, busy := 0 }

/-- A crossing with nothing counted and its lanes empty (R89). -/
def Crossing.init (i : Nat) : Crossing :=
  { dropped := 0, overflow := false, line := EventLine.init, hpLine := EventLine.init,
    lanes := List.replicate (crossingKind i).2 0, held := 0, control := Toggle.init, stalled := none }

/-- Zero histories of a compensator (R305). -/
def Comp.zero : Comp := { e1 := 0, e2 := 0, e3 := 0, u1 := 0, u2 := 0, u3 := 0 }

/-- The library's initial values of a traction channel's entries (R679): no stamp, zero fluxes and currents. -/
def Carried.init : Carried :=
  { stamp := none, iAlpha := 0, iBeta := 0, psiVAlpha := 0, psiVBeta := 0, theta := 0, omega := 0, phi := false,
    tau := 0, sector := 0, vector := 0, eAlpha := 0, eBeta := 0, eStamp := none, capTheta := 0, capSpeed := 0,
    capStamp := none, angles := [], sensorless := false }

/-- No sample has arrived. -/
def TrSample.init : TrSample :=
  { iU := 0, iV := 0, iW := 0, vdc := 0, vdcOk := false, posOk := false, theta := 0, speed := 0, at_ := none, vdcAt := none }

/-- No phase voltage has been sampled (R236). -/
def EmfWindow.zero : EmfWindow := { count := 0, first := 0, last := 0, angle := 0, turned := 0, peak := 0 }

/-- A traction channel at boot: OPEN, no reference, PATTERN_OFF pre-selected (R214, R226, R258). DESIGN CHOICE,
log entry 4. -/
def Traction.init : Traction :=
  { loop := .open, nextLoop := none, atBoundary := .open, speedMode := false, openV0 := false, position := 2, statSector := 0,
    statPhi := false, statTau := 0, statVector := 0, statBranch := 0, torqueEst := 0, fluxEst := 0, speedEst := 0,
    switchRate := 0, residual := 0, transitions := [], legs := none, output := none, power := 0, carried := Carried.init,
    sample := TrSample.init, patternSeen := .none, tref := 0, psiRef := 0, ramp := 0, x1 := 0, x2 := 0, y1 := 0,
    y2 := 0, speedRef := 0, integ := 0, clampSide := 0, limPos := 0, limNeg := 0, limit := 0, fwTrim := 0,
    idCmd := 0, fwCount := 0, catch_ := 0, startDir := false, startSource := 0, startSpeed := 0, observeAt := 0,
    share := 0, emfRatio := 0, preselected := .off, offByRow1 := false,
    svoltHold := false, startObs := none, emf := EmfWindow.zero, outsideFor := Vector.replicate 4 0, plausAlpha := 0,
    plausBeta := 0, plausUntil := 0, missWindow := 0, missRaised := false }

/-- The chopper at boot; schop and svolt start at 1 (R246). -/
def Chopper.init : Chopper :=
  { duty := 0, dutyNow := 0, switchNow := 0, resPower := 0, resCap := false, switch0 := 0, switch1 := 0,
    openCount0 := 0, openCount1 := 0, failed := false, schop := 0x3F800000, svoltHold := false,
    sregen := 0x3F800000, sregenValid := false, shortSince := none, vdc := 0,
    startedAt := 0, ended := [] }

/-- A feedback port before its lines are known: unacquired, nothing valid (R262). DESIGN CHOICE, log entry 4. -/
def Feedback.init : Feedback :=
  { acquire := 0, posValid := false, speedValid := false, count := 0, revolutions := 0, accumulator := 0, turns := 0, passed := 0,
    indexPending := none, ssiPending := none, ssiReading := none, hall := 0, hallNow := 0,
    angle := 0, angleAt := 0, edges := [], stood := false, decreasing := false, indexSeen := false, hallStarted := false,
    indexBlocked := false, ssiStarted := false, afterJump := none, invalidSince := none, overRange := false,
    edgesSinceCapture := 0, ssiFresh := false, ssiWord := 0, ssiBad := 0, ssiAngle := 0, ssiAt := none,
    ssiSpeed := 0, ssiTrail := [], broken := 0, lost := 0, indexDev := 0, corrections := 0, errors := 0, overflow := false, window := 0,
    windowRaised := false, capAngle := 0, capSpeed := 0, capStatus := 0, capEdges := 0, capOver := false, capFresh := false, epCount := 0, epAt := 0,
    epStart := 2 }

/-- A converter leg, high side on at no current. -/
def Leg.init : Leg :=
  { ipk := 0, slope := 0, nextIpk := 0, nextSlope := 0, lowOn := false, onSince := 0, trip := false,
    dutyMaxAt := none, cycling := false }

/-- The converter at boot: loops OPEN, not precharged, no export (R296, R341). DESIGN CHOICE, log entry 4. -/
def Converter.init : Converter :=
  { closed := false, nextClosed := none, precharged := false, precharge := 0, prechargeAt := 0, withinSince := none,
    comp := Comp.zero, vrefRamp := 0, vref := 0, itot := 0, vbat := 0, vdc := 0, ibat := 0, limitCurrent := false,
    limitPower := false, limitVbat := false, legs := Vector.replicate 4 Leg.init,
    legCurrents := Vector.replicate 4 0, outlet := 0, outletCurrent := 0, outletVoltage := 0, pdo := 0, ipk := 0, shown := 0, overloadSince := none,
    outletVoltSince := none, headroomSince := none, plausFor := Vector.replicate 5 0 }

/-- The charger at boot: IDLE, S2 open, no source (R328, R342). DESIGN CHOICE, log entry 4. -/
def Charger.init : Charger :=
  { state := 0, session := false, ending := false, s2 := false, pfClosed := false, pvClosed := false,
    dbClosed := false, offNext := false, closePf := false, closePv := false, closeDb := false, pf := Vector.replicate 3 Comp.zero, pv := Comp.zero, db := Comp.zero,
    pilot := 0, pilotDuty := 0, pilotDuties := [], digital := false, proximity := 0,
    pilotSeen := (0, 0), proximitySeen := (0, 0), pilotIn := 0, dutyIn := 0, digitalIn := false, proximityIn := 0,
    acHist := [], acOk := false, vll := 0, pfDuty := Vector.replicate 3 0, failSince := none, source := false,
    presentSince := none, entered := 0, timerW := 0, timerHalf := false, derated := false,
    phase := 0, target := 0, integ := 0, pref := 0, endSince := none, handStep := 0, handAt := 0, acAllowed := 0,
    acPower := 0, busVoltage := 0, busRef := 0, dabPhi := 0, dabPower := 0, ichg := 0, vbat := 0, exportV := 0, exportFrom := 0,
    exportStep := 0, formPhase := 0, limiting := false, gridAngle := 0, gridInteg := 0, gridFreq := 0,
    limitSince := none, apparentSince := none, deviationSince := none, quietSince := none,
    shown := 0, shownTimer := 0, shownRef := 0, shownPhi := 0, heard := false, evalDue := false, plausFor := Vector.replicate 5 0 }

/-- An island unsupplied: disabled, rails off (R377). DESIGN CHOICE, log entry 4. -/
def Island.init : Island :=
  { state := .disabled, commanded := false, output := false, placed := false, edges := [], offAt := 0,
    offByPattern := false, askedAt := none, served := false, gateLevel := false, gateAt := 0,
    waits := false, linkDown := false, statusDown := false, frameOff := false, uvloPos := false, uvloNeg := false,
    railPosOk := false, railNegOk := false, railsSeen := false, cause := 0, condition := false, also := 0, alsoAt := 0, alsoReported := 0, selftest := 0,
    linkErrors := 0, window := 0, windowRaised := false, onAt := 0, latchedAt := 0, goodFrameAt := 0,
    goodStatusAt := 0, stage := 0, stageAt := 0, reported := false, contradicted := 0 }

/-- No test of the GDC runs. -/
def GateCtl.init : GateCtl :=
  { test := 0, testIsland := 0, testAt := 0, diagChannel := 0, diagStep := 0, diagVdc := 0, diagReadings := [],
    enSeenAt := 0 }

/-- An actuator at boot: OPEN, not homed, gear unknown (R399). DESIGN CHOICE, log entry 4. -/
def Actuator.init : Actuator :=
  { closed := false, nextClosed := none, homed := false, h0 := 0, gear := 15, move := 0, nextMove := none, moveGear := 0, moveAt := 0,
    stepAt := 0, settleSince := none, clamp := false, ref := 0, comp := Comp.zero, u := 0, uNow := 0, duty := 0,
    current := 0, supply := 0, refreshing := Vector.replicate 3 false,
    refreshNext := Vector.replicate 3 false, sinceRefresh := Vector.replicate 3 0, bootLow := 0,
    legs := Vector.replicate 3 0, legsAt := Vector.replicate 3 0, kept := Vector.replicate 3 0, valleyAt := 0, lowSeen := 0,
    lowFrom := Vector.replicate 3 none, lowBest := Vector.replicate 3 0, clean := false, rampAt := 0 }

/-- A slice: the first 18 hold the positions, two are spares (R413); before its first calibration its correction is gain 1,
offset 0. DESIGN CHOICE, log entry 4. -/
def Slice.init (i : Nat) : Slice :=
  { failed := false, position := if i < 18 then some i else none, calibratedAt := 0, calibrating := false, seen := 0, rotated := false,
    sweepDue := false, gain := 0x3F800000, offset := 0 }

/-- The role of comparator `k` of an AFE (R424, R438): 0 off, 1 protection, 2 regulation. -/
def cmpRole (afe k : Nat) : Nat :=
  if afe = 0 then (if k < 18 then 1 else if k < 22 then 2 else 0) else (if k < 18 then 1 else 0)

/-- A comparator at the release of its AFE: UNRESOLVED, the first member of each pair active (R428). -/
def Member.init (active : Bool) : Member :=
  { decision := 0, active := active, failed := false, underTest := false, passedAt := 0 }

/-- An analog front end at boot. DESIGN CHOICE, log entry 4. -/
def Afe.init (afe : Nat) : Afe :=
  { slices := Vector.ofFn (fun i => Slice.init i.val), sweep := false, rotatedAt := 0, queue := [], discarded := 0,
    fired := [],
    comparators := Vector.ofFn (fun k => Member.init (cmpRole afe k.val == 2 || (cmpRole afe k.val == 1 && k.val % 2 == 0))),
    detectors := Vector.ofFn (fun k => Member.init (k.val % 2 == 0)), sdLost := 0,
    openWire := Vector.replicate 32 0, last := Vector.replicate 32 0,
    busyTo := Vector.replicate 18 0, test := none }

/-- Every comparator and detector back to its power-up state (R428); the marks of failed members stay. DEDUCED,
log entry 34. -/
def Afe.preset (a : Afe) : Afe :=
  { a with comparators := a.comparators.map (fun c => { c with decision := 0, underTest := false }),
           detectors := a.detectors.map (fun d => { d with decision := 0, underTest := false }),
           test := none, queue := [], fired := [] }

/-- A CAN port at boot. DESIGN CHOICE, log entry 4. -/
def CanPort.init (state : Nat) : CanPort :=
  { recErr := 0, tecErr := 0, state := state, txFail := 0, rxOverrun := 0, busOff := 0, hpOverrun := 0,
    tooLong := 0, down := false, heardAt := none, tx := [], sent := [], rx := [], hp := [] }

/-- An Ethernet port at boot: the link trains (R553 step 6). -/
def EthPort.init : EthPort := { linkUp := false, sqi := 0, discards := 0 }

/-- No address held on CN0 (R473: IS_ADDRESS reads 254). -/
def Isobus.init : Isobus :=
  { address := 254, claimed := false, others := [], session := none, sending := none, waiting := [], arrived := none,
    dm1At := none, dm1Set := [] }

/-- A node not heard. -/
def Node.init : Node :=
  { heardAt := none, statusAt := none, admitted := false, porch := false, timeLocked := false, hvil := false, power := 0, epoch := 0,
    setCrc := none, conflict := false, measured := false, head := false, shareA := 0, shareB := 0 }

/-- The system functions at boot: listening from `now` (R477), unlocked, no allocation. DESIGN CHOICE, log entry 4. -/
def System.init (head : Bool) (node : Nat) (now : Nat) : System :=
  { listening := true, listenAt := now, silenced := false, headConflict := false, nodeConflict := false,
    statusAt := none, admitted := false, admittedMask := if head then 2 ^ node else 0,
    nodes := Vector.replicate 16 Node.init, headEpoch := none, headSetCrc := none, headAt := none,
    timeState := .unlocked, samples := [], wired := [], lockCount := 0, unlockCount := 0, wiredCount := 0,
    missingPulses := 0, countedSeq := 256, sampleAt := now, rateHeld := true, rate := 0, rateAt := now, delays := Vector.replicate 2 none,
    newDelays := Vector.replicate 2 none,
    sync := Vector.replicate 2 none, measurement := none, held := [], lastAccepted := none, lastAllocTick := 0,
    allocAt := none, stale := false, lateCount := 0, causes := 0, causeAt := 0, seqs := [], fuOf := 256,
    lastDown := 3, tsUntil := 0, copies := [] }

/-- A scrubber at boot (R622). -/
def Scrubber.init (now : Nat) (block : Nat) : Scrubber :=
  { corrected := 0, uncorrected := 0, lastError := 0, lap := 0, laps := 0, lapStart := now, window := 0,
    windowRaised := false, block := block, address := 0, skipped := [], again := false }

/-- The first block of a scrubber's list (R602). -/
def scrubFirst (s : Nat) : Nat := match s with | 0 => 0 | 1 => 16 | 2 => 80 | 3 => 9 | _ => 10

/-- Memory and scan at boot. -/
def Memory.init (now : Nat) : Memory :=
  { scrubbers := Vector.ofFn (fun s => Scrubber.init now (scrubFirst s.val)), repaired := [], bad := [], filling := [],
    lastScan := 45, scanRequest := none }

/-- The interpreter at boot: counts 0, nothing pending (R545, R554). -/
def Interp.init : Interp :=
  { accepted := 0, rejected := 0, undecodable := 0, segmentDrops := 0, timedDropped := 0, timed := [],
    waiting := [], queue := [], reassemblies := [], liveWrites := [] }

/-- The live-class parameters at Reset (R21). -/
def Live.init : Live :=
  { fabricSupply0 := resetWord P.fabricSupplyCf0, fabricSupply1 := resetWord P.fabricSupplyCf1,
    torqueSetpoint := Vector.replicate 2 (resetWord P.trTorqueSetpoint),
    speedSetpoint := Vector.replicate 2 (resetWord P.trSpeedSetpoint), dcVref := resetWord P.dcVref,
    cgISet := resetWord P.cgISet, cgVSet := resetWord P.cgVSet, recordSelect := resetWord P.flogRecordSelect,
    countSelect := resetWord P.flogCountSelect,
    supplyBusy0 := false, supplyBusy1 := false }

/-- The safety pair at boot (R174). -/
def Lockstep.init (split : Bool) : Lockstep :=
  { mode := if split then .split else .lockstep, main := 0, fallback := 0, debug := false, rollback := false,
    mismatchTick := 0, mismatchDetail := 0, rollbacks := 0, parityErrors := 0, window := 0, windowRaised := false,
    bist := 0, bistFailed := false, regs0 := [], regs1 := [], next0 := 0, next1 := 0, code0 := [], code1 := [],
    tcm0 := [], tcm1 := [], sram := [],
    delay := [], undo := [], replay := [], replayed := 0, store := [], checkpointAt := 0 }

/-- What the functions carry and commit at boot (R119, R679). -/
def Saved.init : Saved :=
  { traction := Vector.replicate 2 Traction.init, chopper := Chopper.init, converter := Converter.init,
    charger := Charger.init, actuators := Vector.replicate 4 Actuator.init, live := Live.init }

end Sys2Proof.Machine
end

