-- ==== Sys2Proof/Machine/Library.lean ====
section
/-!
DEFINITION. Launch-table entries (R73, R74), what the Yaleluc control library declares of its entries (R675), the factory
epoch (R195, R294, R615, R680), the CRC-32C of an image (R556) and of the system set (R493), the coefficients of the
loops (R561).
-/

namespace Sys2Proof.Machine

/-- The value of a finite binary32 word. -/
def F32.rat (w : Word) : Rat :=
  let d := F32.dy w
  if 0 ≤ d.e then ((d.m * 2 ^ d.e.toNat : Int) : Rat) else mkRat d.m (2 ^ (-d.e).toNat)

/-- The rational rounded to the nearest integer, ties to even. -/
def roundRat (q : Rat) : Int :=
  let f := q.floor
  let r := q - (f : Rat)
  if r < (1 : Rat) / 2 then f else if (1 : Rat) / 2 < r then f + 1 else if f % 2 = 0 then f else f + 1

/-- The binary32 word nearest to a rational. -/
def F32.ofQ (q : Rat) : Word := F32.ofRat q.num q.den

/-! ## Launch-table entries -/

/-- LAUNCH_OFFSET, CLUSTER_MASK, CLASS, REDUNDANT and RUN_AHEAD of word 0; COMMIT_DELTA and LIBRARY_ENTRY of word 1. -/
def launchOffset (w0 : Word) : Nat := bits w0 31 8
def clusterMask (w0 : Word) : Nat := bits w0 7 4
def launchClass (w0 : Word) : Nat := bits w0 3 2
def isRedundant (w0 : Word) : Bool := bit w0 1
def isRunAhead (w0 : Word) : Bool := bit w0 0
def commitDelta (w1 : Word) : Nat := bits w1 31 16
def libraryEntry (w1 : Word) : Nat := bits w1 9 0

/-- The entries of a region that are not empty: CLUSTER_MASK not 0 (R73). -/
def Image.table (img : Image) (n : Nat) : List (Nat × Word × Word) :=
  (img.entries n).filter (fun e => clusterMask e.2.1 != 0)

/-- What the library declares of an entry (R675). -/
structure LibEntry where
  entry : Nat
  clusters : Nat
  /-- units used in each cluster of the mask -/
  units : Nat
  redundantOff : Bool
  redundantOn : Bool
  runAheadOff : Bool
  runAheadOn : Bool
  /-- bit c: CLASS c allowed -/
  classes : Nat
  schedule : Nat
  /-- the schedule length with REDUNDANT 0 -/
  schedule0 : Nat
  outputs : Nat
  /-- lanes per pass -/
  lanes : Nat
  /-- DEFER (R107) -/
  defer : Nat
  /-- the resolve margin (R128) -/
  margin : Nat
deriving DecidableEq, Repr

/-- A row of R675 with REDUNDANT 1 and RUN_AHEAD 0. -/
def libRow (entry clusters units classes schedule outputs : Nat) : LibEntry :=
  { entry := entry, clusters := clusters, units := units, redundantOff := false, redundantOn := true,
    runAheadOff := true, runAheadOn := false, classes := classes, schedule := schedule, schedule0 := schedule,
    outputs := outputs, lanes := 0, defer := 0, margin := 0 }

/-- The library table of R675. -/
def libTable : List LibEntry :=
  [libRow 0x040 2 0xF 3 296 24,
   { libRow 0x041 2 0xF 3 300 24 with runAheadOff := false, runAheadOn := true, lanes := 18, defer := 256, margin := 4 },
   libRow 0x042 1 0xC 3 500 12, libRow 0x043 1 0x3 3 140 4, libRow 0x044 1 0xF 7 600 4,
   libRow 0x060 1 0xF 3 236 16, libRow 0x061 1 0xF 3 400 8, libRow 0x062 1 0xF 3 300 8, libRow 0x063 1 0xF 7 600 4,
   libRow 0x070 1 0xF 3 236 12, libRow 0x071 1 0xF 3 236 6, libRow 0x072 1 0xF 3 500 8, libRow 0x073 1 0xF 3 600 12,
   libRow 0x080 1 0xF 3 400 16, libRow 0x081 1 0xF 3 600 8, libRow 0x0A0 1 0xF 3 500 16, libRow 0x0A1 1 0xF 3 500 16,
   libRow 0x0B0 1 0xF 3 600 40, { libRow 0x0F0 1 0x1 3 200 1 with redundantOff := true, schedule0 := 120 }]

/-- Host-class entries (R58). -/
def isHostClass (e : Nat) : Bool := 0x300 ≤ e && e ≤ 0x3FF

/-- The declaration of a library entry; a host-class one from the library release held. -/
def libDecl (e : Nat) : Option LibEntry :=
  if isHostClass e then
    (Config.hostEntry e).map (fun h =>
      { entry := e, clusters := h.clusters, units := h.units, redundantOff := h.redundantOff,
        redundantOn := h.redundantOn, runAheadOff := true, runAheadOn := h.runAhead, classes := h.classes,
        schedule := h.scheduleLength, schedule0 := h.scheduleLength, outputs := Nat.min 64 h.outputWords, lanes := h.lanes, defer := h.defer,
        margin := h.resolveMargin })
  else libTable.find? (fun l => l.entry == e)

/-- DEFER of an entry: 256 ticks for the traction decision, the library's for a host-class entry (R107, R193). -/
def deferOf (e : Nat) : Nat := ((libDecl e).map (·.defer)).getD 0

/-- The resolve margin of an entry: 4 ticks for the traction decision, the library's for a host-class entry (R128, R193). -/
def marginOf (e : Nat) : Nat := ((libDecl e).map (·.margin)).getD 0

/-- The ticks from launch to the end of an execution: to the commit instant, plus DEFER with run-ahead (R75 item
6). DEDUCED, log entry 25. -/
def execSpan (w0 w1 : Word) : Nat := commitDelta w1 + (if isRunAhead w0 then deferOf (libraryEntry w1) else 0)

/-- The declared sets of one pass of an entry without the writable register-file entries and scratch words of `taken`. -/
def PassDecl.without (d : PassDecl) (taken : List PassDecl) : PassDecl :=
  { d with writes := d.writes.filter (fun w => !taken.any (fun t => t.writes.any (fun v => v.2 == w.2))),
           scratch := d.scratch.filter (fun a => !taken.any (fun t => t.scratch.contains a)) }

/-- What the entries of R675's table before entry `e` declare. -/
def claimedBefore (e : Nat) : List PassDecl :=
  (libTable.takeWhile (fun l => l.entry != e)).flatMap (fun l =>
    [(Config.entryDecl l.entry).pass1, (Config.entryDecl l.entry).pass2])

/-- What an entry declares beside the figures of R675 (R96): every output word and staged write of an entry of R675's
table has a class; the writable sets of the table's entries are pairwise disjoint, all host-class entries share one, disjoint
from those (R675), and the output words of a host-class entry go to HOST_OUT alone (R58). -/
def declOf (e : Nat) : EntryDecl :=
  if isHostClass e then
    let d := ((Config.hostEntry e).map (·.decl)).getD default
    let own (second : Bool) (p : PassDecl) : PassDecl :=
      ({ Config.hostSet second with reads := p.reads } : PassDecl).without (claimedBefore e)
    { d with pass1 := own false d.pass1, pass2 := own true d.pass2, dests := d.outputs.map (fun _ => .status) }
  else
    let d := Config.entryDecl e
    { d with pass1 := d.pass1.without (claimedBefore e), pass2 := d.pass2.without (claimedBefore e),
             outputs := (List.range (((libDecl e).map (·.outputs)).getD 0)).map (fun p => some (Config.wordClass e false p)),
             staged := d.staged.map (fun s => (s.1, some (Config.wordClass e true s.1))) }

/-- The output words of an entry that go to a destination, by place (R96). -/
def wordsTo (e : Nat) (t : Dest) : List Nat :=
  (List.range (((libDecl e).map (·.outputs)).getD 0)).filter (fun p => (declOf e).dests[p]? == some t)

/-- The class declared for an output word, or for the staged write of an address; none where it has none (R155, R156). -/
def declClass (e : Nat) (staged : Bool) (place : Nat) : Option WClass :=
  let d := declOf e
  if staged then (d.staged.find? (fun s => s.1 == place)).bind (·.2) else (d.outputs[place]?).bind id

/-- An output word or staged write is declared without a class (R156). Only a host-class entry can be: `declOf` gives every
word of an entry of R675's table its class. -/
def unclassed (e : Nat) : Bool :=
  let d := declOf e
  isHostClass e &&
  (d.outputs.any (·.isNone) || d.outputs.length < ((libDecl e).map (·.outputs)).getD 0 || d.staged.any (fun s => s.2.isNone))

/-- An entry may stand in region `n` of an image (R75 item 8, R54, R55, R58, R615). -/
def Image.serves (img : Image) (n e : Nat) : Bool :=
  if e = 0x0F0 then true
  else if isHostClass e then n == 7 && img.num P.cf1Region3Use == 1
  else if 0x040 ≤ e ∧ e ≤ 0x044 then n ≤ 1
  else if 0x060 ≤ e ∧ e ≤ 0x063 then n == 2
  else if 0x070 ≤ e ∧ e ≤ 0x073 then n == 3
  else if e = 0x080 ∨ e = 0x081 then n == img.axRegion
  else if e = 0x0A0 ∨ e = 0x0A1 then n == img.supRegion
  else if e = 0x0B0 then n == img.sysRegion
  else false

/-- Region `n` holds library entry `e`. -/
def Image.holds (img : Image) (n e : Nat) : Bool := (img.table n).any (fun t => libraryEntry t.2.2 == e)

/-! ## The factory epoch -/

/-- The two words of a launch-table entry with REDUNDANT 1 (R73, R74). -/
def launchWords (offset mask cls runAhead delta lib : Nat) : Word × Word :=
  (pack [(offset, 8), (mask, 4), (cls, 2), (1, 1), (runAhead, 0)], pack [(delta, 16), (lib, 0)])

/-- The factory launch tables at the factory period of 1,000 ticks (R195, R294, R615, R680). -/
def factoryLaunch : List (Nat × Word × Word) :=
  [(0, launchWords 700 0x3 0 1 300 0x041), (1, launchWords 960 0x4 0 0 140 0x043),
   (2, launchWords 120 0x4 1 0 500 0x042), (3, launchWords 200 0x8 2 0 600 0x044),
   (512, launchWords 700 0x3 0 1 300 0x041), (513, launchWords 960 0x4 0 0 140 0x043),
   (514, launchWords 120 0x4 1 0 500 0x042), (515, launchWords 200 0x8 2 0 600 0x044),
   (1024, launchWords 760 0x1 0 0 236 0x060), (1025, launchWords 100 0x2 1 0 400 0x061),
   (1026, launchWords 600 0x2 1 0 300 0x062), (1027, launchWords 200 0x4 2 0 600 0x063),
   (1536, launchWords 760 0x1 0 0 236 0x070), (1537, launchWords 760 0x2 0 0 236 0x071),
   (1538, launchWords 100 0x4 1 0 500 0x072), (1539, launchWords 150 0x8 1 0 600 0x073),
   (2048, launchWords 200 0x1 0 0 400 0x080), (2049, launchWords 100 0x2 1 0 600 0x081),
   (2560, launchWords 300 0x1 0 0 500 0x0A0), (2561, launchWords 300 0x2 0 0 500 0x0A1),
   (3072, launchWords 100 0x1 0 0 600 0x0B0), (3583, launchWords 0 0x8 1 0 200 0x0F0)]

/-- The factory epoch, number 0 (R21, R559): every parameter at its Reset value. -/
def factoryImage : Image := { number := 0, params := [], launch := factoryLaunch }

/-! ## Checks over an image -/

/-- The CRC-32C of an image (R556). -/
def Image.crc (img : Image) : Word :=
  crc32c (img.number :: (epochIds.map img.val) ++
    (List.range 4096).flatMap (fun k =>
      match img.launch.find? (fun p => p.1 == k) with
      | some p => [p.2.1, p.2.2]
      | none => [0, 0]))

/-- The IDs of the system set in ascending order (R493). -/
def systemSetIds : List Nat :=
  (List.range 8).map (0x0040 + ·) ++ (List.range 16).map (P.regionPeriod + ·) ++
  [P.trRefDivider, P.trRefDivider + 0x1000] ++
  [0xA081, 0xA082, P.alSyncPeriod, P.alStatusPeriod, P.alSilence, P.alSdt, 0xA0C1, 0xA0C2] ++
  [P.sysSlewMax, P.sysSyncHoldover, P.sysDelaySamples]

/-- SYS_SET_CRC of an image (R493). -/
def Image.setCrc (img : Image) : Word := crc32c (systemSetIds.map img.val)

/-- The ID lies in one of the ranges. -/
def inRanges (id : Nat) (rs : List (Nat × Nat)) : Bool := rs.any (fun r => r.1 ≤ id && id ≤ r.2)

/-- The loops of R537: TA, TB, DC, DI, PF, PV, DB, CH, AX0 … AX3. -/
def loopCount : Nat := 12

/-- The AFE-wide parameters of an AFE, which serve every function that has an input there (R434, R435). -/
def afeShared (afe : Nat) : List (Nat × Nat) :=
  [(0x81C0 + 0x400 * afe, 0x81C7 + 0x400 * afe)]

/-- SAR inputs `lo … hi` of an AFE: gain, offset, open-wire. -/
def afeInputs (afe lo hi : Nat) : List (Nat × Nat) :=
  [(0x8000 + 0x400 * afe + lo, 0x8000 + 0x400 * afe + hi), (0x8020 + 0x400 * afe + lo, 0x8020 + 0x400 * afe + hi),
   (0x8040 + 0x400 * afe + lo, 0x8040 + 0x400 * afe + hi)]

/-- Sigma-delta inputs `lo … hi` of an AFE: gain, offset, ratio, trip. -/
def afeSds (afe lo hi : Nat) : List (Nat × Nat) :=
  [(0x8060 + 0x400 * afe + lo, 0x8060 + 0x400 * afe + hi), (0x8064 + 0x400 * afe + lo, 0x8064 + 0x400 * afe + hi),
   (0x81C8 + 0x400 * afe + lo, 0x81C8 + 0x400 * afe + hi), (0x81CC + 0x400 * afe + lo, 0x81CC + 0x400 * afe + hi)]

/-- The parameter rows of trigger `t` of an AFE. -/
def afeTrigger (afe t : Nat) : List (Nat × Nat) :=
  [0x8080, 0x80C0, 0x8100, 0x8140, 0x8180].map (fun b => (b + 0x400 * afe + t, b + 0x400 * afe + t))

/-- The triggers of an AFE whose OWNER in the image is region `n`. -/
def Image.triggersOf (img : Image) (afe n : Nat) : List (Nat × Nat) :=
  ((List.range 64).filter (fun t => img.trig P.afeTrigCtrl afe t / 64 % 8 == n)).flatMap (afeTrigger afe)

/-- The parameters that are coefficients of loop `l` in an image (R561, R670). -/
def Image.coefficients (img : Image) (l : Nat) : List (Nat × Nat) :=
  let region (n : Nat) : List (Nat × Nat) :=
    [(P.regionPeriod + n, P.regionPeriod + n), (P.regionPhase + n, P.regionPhase + n),
     (0x1200 + 448 * n, 0x1200 + 448 * n + 447)]
  let group (g : Nat) : List (Nat × Nat) := [(0x7000 + 0x40 * g, 0x7000 + 0x40 * g + 0x3F)]
  if l ≤ 1 then
    [(0x2000 + 0x1000 * l, 0x2FFF + 0x1000 * l), (0x9000 + 0x40 * l, 0x903F + 0x40 * l),
     (0x9180 + 0x40 * l, 0x91BF + 0x40 * l)] ++ group l ++ afeShared l ++ afeSds l 0 2 ++
    afeInputs l (1 - l) (1 - l) ++ img.triggersOf l l ++ region l
  else if l ≤ 3 then
    [(0x4000, 0x4FFF)] ++ group 2 ++ group 5 ++ afeShared 0 ++ afeShared 1 ++ afeInputs 0 0 6 ++ afeSds 0 3 3 ++ afeSds 1 3 3 ++
    img.triggersOf 0 2 ++ region 2
  else if l ≤ 7 then
    [(0x5000, 0x5FFF)] ++ group 3 ++ group 4 ++ afeShared 1 ++ afeInputs 1 1 9 ++ img.triggersOf 1 3 ++ region 3
  else
    let a := l - 8
    let afe := a / 2
    let lo := if a % 2 = 0 then (if afe = 0 then 9 else 12) else (if afe = 0 then 12 else 15)
    let v := if afe = 0 then 15 + a else 16 + a
    [(0x6000 + 0x40 * a, 0x603F + 0x40 * a), (0x9080 + 0x40 * a, 0x90BF + 0x40 * a)] ++
    afeInputs afe lo (lo + 2) ++ afeInputs afe v v ++ afeTrigger afe 2 ++ afeTrigger afe 3 ++ region img.axRegion

/-- The regions whose launch table counts as a coefficient of loop `l` (R561). -/
def Image.loopRegion (img : Image) (l : Nat) : Nat :=
  if l ≤ 1 then l else if l ≤ 3 then 2 else if l ≤ 7 then 3 else img.axRegion

/-- The coefficients of loop `l` differ between two images (R561): a listed parameter of either with another value in
the other, or another launch table of the loop's region. -/
def coefficientsDiffer (a b : Image) (l : Nat) : Bool :=
  let rs := a.coefficients l ++ b.coefficients l
  let ids := (a.params ++ b.params).map (·.1)
  ids.any (fun id => inRanges id rs && a.val id != b.val id) ||
  (8 ≤ l && a.num P.cf1Region3Use != b.num P.cf1Region3Use) ||
  a.entries (a.loopRegion l) != b.entries (b.loopRegion l)

end Sys2Proof.Machine
end

