-- ==== Sys2Proof/Machine/Unit.lean ====
section
/-!
DEFINITION. A unit of the fabric (R27 … R35, R95 … R104, R147 … R155): what each operation of a program computes in pass 1 and
in pass 2, the stores it reaches, what it waits for, and what it raises at its collector input.
-/

namespace Sys2Proof.Machine

/-! ## Operations (R147 … R151) -/

/-- The class B word of a flag in a pass: pass 2 holds the complement (R146). -/
def flagWord (second b : Bool) : Word := if b != second then 0xFFFFFFFF else 0

/-- The flag that a class B word stands for in a pass (R146). -/
def flagOf (second : Bool) (w : Word) : Bool := (w != 0) != second

/-- A word of class `c` on its way into pass 2, with exponent `k` (R142, R145). -/
def forward (k : Int) (c : WClass) (w : Word) : Word :=
  match c with
  | .f => F32.transform k w
  | .q => 0 - w
  | .b => ~~~w
  | .x => w

/-- The inverse transform the collector applies (R145). -/
def inverse (k : Int) (c : WClass) (w : Word) : Word :=
  match c with
  | .f => F32.transform (-k) w
  | .q => 0 - w
  | .b => ~~~w
  | .x => w

/-- A class Q result with its RANGE flag: −2^31 sets it (R149). -/
def qResult (w : Word) : Word × Bool := (w, w == 0x80000000)

/-- A saturating class Q result: at ±(2^31 − 1) in both passes (R149). -/
def qSat (i : Int) : Word × Bool :=
  (BitVec.ofInt 32 (if i < -0x7FFFFFFF then -0x7FFFFFFF else if 0x7FFFFFFF < i then 0x7FFFFFFF else i), false)

/-- A value that an operation passes on without arithmetic, judged as a result: below 2^−122 it is written as +0 (R148). -/
def fJudge (w : Word) : Word := if F32.nonFinite w then w else F32.round (F32.dy w)

/-- A binary32 result from its value in pass 1: rounded and judged there, then brought into the pass (R148). -/
def fFrom (second : Bool) (k : Int) (r : Word) : Word × Bool :=
  (if second then F32.transform k r else r, F32.outOfBand r)

/-- Operands of a binary32 operation in the form of pass 1, which is exact (R142). -/
def fBack (second : Bool) (k : Int) (w : Word) : Word := if second then F32.transform (-k) w else w

/-- An operation on two operands of a class: the result word in the form of the pass, and whether it sets RANGE
(R147 … R149, R151). The dual forms of class F are those of R151: their exact value is the transform of the exact value
of pass 1, so the operation is rounded once on the operands referred back. -/
def BinOp.eval (second : Bool) (k : Int) (op : BinOp) (c : WClass) (a b : Word) : Word × Bool :=
  match c with
  | .f =>
    let x := fBack second k a
    let y := fBack second k b
    match op with
    | .add | .addSat => fFrom second k (F32.add x y)
    | .sub | .subSat => fFrom second k (F32.sub x y)
    | .mul | .mulSat => fFrom second k (F32.mul x y)
    | .div => fFrom second k (F32.div x y)
    | .min => fFrom second k (fJudge (fBack second k (if second then F32.fmax a b else F32.fmin a b)))
    | .max => fFrom second k (fJudge (fBack second k (if second then F32.fmin a b else F32.fmax a b)))
    | .lt => (flagWord false (if second then F32.le a b else F32.lt a b), false)
    | .le => (flagWord false (if second then F32.lt a b else F32.le a b), false)
    | .eq => (flagWord false ((F32.key a == F32.key b) != second), false)
    | .ne => (flagWord false ((F32.key a != F32.key b) != second), false)
    | .and | .or | .xor => (a, false)
  | .q | .x =>
    let dual := second && c == .q
    let i := a.toInt
    let j := b.toInt
    let q (w : Word) : Word × Bool := if c = .q then qResult w else (w, false)
    match op with
    | .add => q (a + b)
    | .sub => q (a - b)
    | .mul => q (if dual then 0 - a * b else a * b)
    | .div =>
      if b = 0 then (if dual then 0 - Config.divByZero (0 - a) else Config.divByZero a, true)
      else q (BitVec.ofInt 32 (if dual then -(i.tdiv j) else i.tdiv j))
    | .min => q (if dual then (if i ≤ j then b else a) else (if i ≤ j then a else b))
    | .max => q (if dual then (if i ≤ j then a else b) else (if i ≤ j then b else a))
    | .addSat => qSat (i + j)
    | .subSat => qSat (i - j)
    | .mulSat => qSat (if dual then -(i * j) else i * j)
    | .lt => (flagWord false (if dual then decide (i ≤ j) else decide (i < j)), false)
    | .le => (flagWord false (if dual then decide (i < j) else decide (i ≤ j)), false)
    | .eq => (flagWord false ((a == b) != dual), false)
    | .ne => (flagWord false ((a != b) != dual), false)
    | .and => (a &&& b, false)
    | .or => (a ||| b, false)
    | .xor => (a ^^^ b, false)
  | .b =>
    match op with
    | .and => (if second then a ||| b else a &&& b, false)
    | .or => (if second then a &&& b else a ||| b, false)
    | .xor => (if second then ~~~(a ^^^ b) else a ^^^ b, false)
    | .eq => (flagWord second (a == b), false)
    | .ne => (flagWord second (a != b), false)
    | _ => (a, false)

/-- The nearest integer of a binary32 value as a class Q word, half to even; a value outside the format is open, and sets
RANGE. -/
def nearestQ (w : Word) : Word × Bool :=
  if F32.nonFinite w then (Config.convertOver w, true)
  else
    let i := F32.toInt w
    if i < -0x80000000 ∨ 0x7FFFFFFF < i then (Config.convertOver w, true) else qResult (BitVec.ofInt 32 i)

/-- An operation on one operand of a class (R151); on class X both passes run it alike. -/
def UnOp.eval (pass2 : Bool) (k : Int) (op : UnOp) (c : WClass) (a : Word) : Word × Bool :=
  let second := pass2 && c != .x
  match op with
  | .move => (a, false)
  | .negate => match c with
    | .f => fFrom second k (fJudge (fBack second k (F32.negate a)))
    | .q => qResult (0 - a)
    | .b | .x => (0 - a, false)
  | .abs => match c with
    | .f => fFrom second k (fJudge (fBack second k (if second then F32.negate (F32.abs a) else F32.abs a)))
    | .q =>
      let m := if a.toInt < 0 then 0 - a else a
      qResult (if second then 0 - m else m)
    | .b | .x => (if a.toInt < 0 then 0 - a else a, false)
  | .sqrt => fFrom second k (F32.sqrt (fBack second k a))
  | .not => (~~~a, false)
  | .toQ =>
    let r := nearestQ (fBack second k a)
    (if second then 0 - r.1 else r.1, r.2)
  | .toF =>
    let v : Int := if second then -a.toInt else a.toInt
    fFrom second k (F32.ofInt v)
  | .flagToQ => (if flagOf second a then (if second then 0xFFFFFFFF else 1) else 0, false)

/-- A fused multiply-add (R151). -/
def fmaEval (second : Bool) (k : Int) (a b c : Word) : Word × Bool :=
  fFrom second k (F32.fma (fBack second k a) (fBack second k b) (fBack second k c))

/-- The pass holds the complement of a word of the class: pass 2, but for class X (R145). -/
def complemented (second : Bool) (c : WClass) : Bool := second && c != .x

/-- A logical shift: pass 2 fills with ones, but for class X (R151). -/
def shiftEval (second : Bool) (c : WClass) (left : Bool) (n : Nat) (a : Word) : Word :=
  let s (w : Word) : Word := if left then w <<< n else w >>> n
  if complemented second c then ~~~(s (~~~a)) else s a

/-- A bit of a word as a flag of its class: pass 2 inverts the sense, but for class X (R151). -/
def testBitEval (second : Bool) (c : WClass) (n : Nat) (a : Word) : Word :=
  flagWord (complemented second c) (a.toNat.testBit n != complemented second c)

/-- The flag that a word of its class stands for in a pass, as branch and select test it (R151, R152). -/
def flagTest (second : Bool) (c : WClass) (w : Word) : Bool := flagOf (complemented second c) w

/-- A shift right of class Q with rounding, half to even (R151). -/
def shiftRoundEval (n : Nat) (a : Word) : Word × Bool :=
  let v : Int := F32.rneShift a.toInt.natAbs n false
  qResult (BitVec.ofInt 32 (if a.toInt < 0 then -v else v))

/-! ## Declarations (R96, R102) -/

/-- What a pass may reach: pass 2 nothing that belongs to pass 1 (R102). -/
def EntryDecl.pass (d : EntryDecl) (second : Bool) : PassDecl :=
  if second then
    { reads := d.pass2.reads.filter (fun e => !d.pass1.reads.contains e && !d.pass1.writes.any (fun w => w.2 == e)),
      writes := d.pass2.writes.filter (fun w => !d.pass1.reads.contains w.2 && !d.pass1.writes.any (fun v => v.2 == w.2)),
      scratch := d.pass2.scratch.filter (fun a => !d.pass1.scratch.contains a) }
  else d.pass1

/-- The register-file entries an instance declares: their flags are cleared at its launch (R31). -/
def EntryDecl.fileEntries (d : EntryDecl) : List Nat :=
  [false, true].flatMap (fun s => (d.pass s).reads ++ (d.pass s).writes.map (·.2))

/-! ## Units, clusters and lanes -/

/-- The units of a region an entry runs on: its declared units in each cluster of its mask (R75, R675). -/
def unitsOf (w0 w1 : Word) : List Nat :=
  let us := ((libDecl (libraryEntry w1)).map (·.units)).getD 0
  (List.range 16).filter (fun u => (clusterMask w0).testBit (u / 4) && us.testBit (u % 4))

/-- The unit whose program a unit runs in a pass: in pass 2 that of its partner, where the instance uses both (R153). -/
def programUnit (us : List Nat) (u : Nat) (second : Bool) : Nat :=
  if second && us.contains (u ^^^ 1) then u ^^^ 1 else u

/-- The lanes an entry takes in each cluster of its mask for one pass (R75 item 7, R103). -/
def lanesPerPass (w0 w1 : Word) : Nat :=
  let k := popcount 4 (clusterMask w0)
  if isRunAhead w0 && k != 0 then ((((libDecl (libraryEntry w1)).map (·.lanes)).getD 0) + k - 1) / k else 0

/-- The lanes an entry declares in each of its clusters, for all its passes. -/
def lanesPerCluster (e : Nat × Word × Word) : Nat :=
  lanesPerPass e.2.1 e.2.2 * (if isRedundant e.2.1 then 2 else 1)

/-- The position of `t` in the cycle of period `p` at or after `o` (both offsets): 0 … p − 1. -/
def cyc (p o t : Nat) : Nat := if p = 0 then 0 else (t % p + p - o % p) % p

/-- The intervals of two entries intersect in some period (R75 item 6). -/
def overlap (p : Nat) (a b : Nat × Word × Word) : Bool :=
  cyc p (launchOffset a.2.1) (launchOffset b.2.1) ≤ execSpan a.2.1 a.2.2 ||
  cyc p (launchOffset b.2.1) (launchOffset a.2.1) ≤ execSpan b.2.1 b.2.2

/-- Two entries share a cluster. -/
def shareCluster (a b : Nat × Word × Word) : Bool := clusterMask a.2.1 &&& clusterMask b.2.1 != 0

/-- Lane numbers assigned to a run-ahead entry in a cluster. -/
structure LaneSet where
  entry : Nat × Word × Word
  cluster : Nat
  numbers : List Nat
deriving DecidableEq, Repr

/-- The lane numbers of one entry in one cluster, pass 1 before pass 2 (R103, R196): for 0x041 pass 1 from 0 on and pass 2
from 12 on; for a host-class entry the lowest of 0 … 23 that no entry before it in the table takes whose executions overlap
its own there. DESIGN CHOICE, log entry 61. -/
def lanesIn (p : Nat) (before : List LaneSet) (e : Nat × Word × Word) (c : Nat) : List Nat :=
  let per := lanesPerPass e.2.1 e.2.2
  if !isHostClass (libraryEntry e.2.2) then List.range per ++ (List.range per).map (12 + ·)
  else
    let taken := (before.filter (fun s => s.cluster == c && overlap p s.entry e)).flatMap (·.numbers)
    ((List.range 24).filter (fun k => !taken.contains k)).take (lanesPerCluster e)

/-- The assignment of lane numbers to the run-ahead entries of a table, fixed for the epoch (R103). -/
def assignLanes (p : Nat) (table : List (Nat × Word × Word)) : List LaneSet :=
  (table.filter (fun e => isRunAhead e.2.1)).foldl (fun before e =>
    before ++ ((List.range 4).filter (clusterMask e.2.1).testBit).map (fun c =>
      { entry := e, cluster := c, numbers := lanesIn p before e c })) []

/-- The physical lane of branch `b` of a pass of entry `e`: its cluster, and its number there (R103, R196). -/
def laneOf (p : Nat) (table : List (Nat × Word × Word)) (e : Nat × Word × Word) (b : Nat) (second : Bool) : Nat × Nat :=
  let per := Nat.max 1 (lanesPerPass e.2.1 e.2.2)
  let c := ((List.range 4).filter (clusterMask e.2.1).testBit).getD (b / per) 0
  let ns := (((assignLanes p table).find? (fun s => s.entry.1 == e.1 && s.cluster == c)).map (·.numbers)).getD []
  (c, ns.getD (b % per + (if second then per else 0)) 0)

/-- A word of a sparse list, 0 where none is listed. -/
def look (a : Nat) (l : List (Nat × Word)) : Option Word := (l.find? (fun p => p.1 == a)).map (·.2)

/-- A sparse list with one word replaced. -/
def putWord (a : Nat) (w : Word) (l : List (Nat × Word)) : List (Nat × Word) := (a, w) :: l.filter (fun p => p.1 != a)

/-- What a launch sees beside the stores of its region: the constants of the library, the sample words it declares, the
64-bit words of region memory that read uncorrectable. -/
structure Outside where
  constants : Nat → Word
  samples : List Nat
  bad : Nat → Bool

/-- What a read finds: a word in the form of the pass, a wait, or an access that is blocked (R28 … R31). -/
inductive Found where
  | value (w : Word)
  | waits
  | blocked

/-- The words of region memory a launch reads: fill where none is listed (R605). -/
def memoryWord (r : Region) (a : Nat) : Word := (look a r.memory).getD 0

/-- An instance by entry and launch instant: past an epoch switch two instances of one launch-table index can be in flight
(R72, R566 step 4). -/
def Instance.id (i : Instance) : Nat × Tick := (i.entry, i.launch)

/-- The instance a unit executes, a lane or a request belongs to. -/
def UnitRun.id (x : UnitRun) : Nat × Tick := (x.entry, x.launch)
def Lane.id (l : Lane) : Nat × Tick := (l.entry, l.launch)
def Request.id (q : Request) : Nat × Tick := (q.entry, q.launch)

/-- The branch whose lane a unit computes in a pass. -/
def UnitRun.lane (x : UnitRun) (second : Bool) : Option Nat := if second then x.lane2 else x.lane1

/-- The lane that is a unit's own in a pass of an instance: that of the branch it computes, in its cluster (R29, R35). -/
def Lane.isOwn (i : Instance) (u : Nat) (second : Bool) (l : Lane) : Bool :=
  l.id == i.id && l.second == second && l.cluster == u / 4 && l.unit == some u && l.freeFrom.isNone

/-- The unit's own lane in a pass; none where it computes none (R28, R35). -/
def Region.ownLane (r : Region) (i : Instance) (u : Nat) (second : Bool) : Option Lane :=
  match (r.units.find? (fun x => x.unit == u)).bind (fun x => x.lane second) with
  | none => none
  | some b => r.lanes.find? (fun l => l.branch == b && l.isOwn i u second)

/-- A read of a store by a pass of an instance on unit `u` (R28, R30, R31, R154). -/
def readStore (r : Region) (i : Instance) (out : Outside) (u : Nat) (second : Bool) (k : Int) (c : WClass) :
    Store → Found
  | .window n =>
    .value (((r.units.find? (fun x => x.unit == u)).bind (fun x => look (n % 16) x.window)).getD 0)
  | .file e =>
    let d := (declOf (libraryEntry i.word1)).pass second
    if !(d.reads.contains e || d.writes.contains (u % 4, e)) then .blocked
    else match look e ((r.clusters.toList.getD (u / 4) { file := [], scratch := [] }).file) with
      | some w => .value w
      | none => .waits
  | .scratch a =>
    if !((declOf (libraryEntry i.word1)).pass second).scratch.contains a then .blocked
    else .value ((look a ((r.clusters.toList.getD (u / 4) { file := [], scratch := [] }).scratch)).getD 0)
  | .lane a =>
    match r.ownLane i u second with
    | some l => .value ((look (a % 64) l.words).getD 0)
    | none => .blocked
  | .memory a =>
    let w := memoryWord r a
    .value (if second then forward k c w else w)
  | .const n =>
    if !(declOf (libraryEntry i.word1)).constants.contains n then .blocked
    else .value (if second then forward k c (out.constants n) else out.constants n)
  | .sample n =>
    if !out.samples.contains n then .blocked
    else if !i.arrived.contains n then .waits
    else
      let w : Word := BitVec.ofInt 32 (sext 16 ((look n r.samples).getD 0).toNat)
      .value (if second then forward k .q w else w)
  | .sampleRest n =>
    if !out.samples.contains n then .blocked else if !i.arrived.contains n then .waits else .value (((look n r.samples).getD 0) >>> 16)
  | .exchange n =>
    let w := (look n i.exchange).getD 0
    .value (if second then forward k c w else w)

/-- Cluster `c` of a region with `f` applied. -/
def updCluster (c : Nat) (f : Cluster → Cluster) (r : Region) : Region :=
  { r with clusters := Vector.ofFn (fun j => if j.val = c then f r.clusters[j] else r.clusters[j]) }

/-- Unit `u` with `f` applied. -/
def updUnit (u : Nat) (f : UnitRun → UnitRun) (r : Region) : Region :=
  { r with units := r.units.map (fun x => if x.unit = u then f x else x) }

/-- The lanes for which `p` holds, with `f` applied. -/
def updLanes (p : Lane → Bool) (f : Lane → Lane) (r : Region) : Region :=
  { r with lanes := r.lanes.map (fun l => if p l then f l else l) }

/-- An instance in flight, changed. -/
def updFlight (e : Nat × Tick) (f : Instance → Instance) : List Instance → List Instance
  | [] => []
  | i :: is => if i.id = e && !i.quenched then f i :: is else i :: updFlight e f is

/-- A blocked access marks the pass invalid and takes no effect (R30). DEDUCED, log entry 62. -/
def block (e : Nat × Tick) (r : Region) : Region :=
  { r with flight := updFlight e (fun i => { i with blocked := true }) r.flight }

/-- A pass that reads an uncorrectable word is invalid (R606). -/
def spoil (e : Nat × Tick) (r : Region) : Region :=
  { r with flight := updFlight e (fun i => { i with invalid := true }) r.flight }

/-- A pass has set its RANGE flag (R148, R149). -/
def setRange (e : Nat × Tick) (second : Bool) (r : Region) : Region :=
  { r with flight := updFlight e (fun i =>
      if second then { i with range2 := true } else { i with range := true }) r.flight }

/-- A change of the unit's own lane in a pass; without one the access is blocked (R28, R30, R35). -/
def changeLane (i : Instance) (u : Nat) (second : Bool) (f : Lane → Lane) (r : Region) : Region :=
  match r.ownLane i u second with
  | some l => updLanes (fun k => k.branch == l.branch && k.isOwn i u second) f r
  | none => block i.id r

/-- The entry of an instance declares an output word, or the staged write of an address (R30, R96). -/
def Instance.declares (i : Instance) (staged : Bool) (place : Nat) : Bool :=
  if staged then (declOf (libraryEntry i.word1)).staged.any (fun s => s.1 == place)
  else place < ((libDecl (libraryEntry i.word1)).map (·.outputs)).getD 0

/-- A write of a store by a pass (R28, R30, R31): register file and scratch as declared, the own lane, region memory as a
declared staged write that goes to the collector. -/
def writeStore (i : Instance) (u : Nat) (second : Bool) (w : Word) (r : Region) : Store → Region
  | .window n => updUnit u (fun x => { x with window := putWord (n % 16) w x.window }) r
  | .file e =>
    if !((declOf (libraryEntry i.word1)).pass second).writes.contains (u % 4, e) then block i.id r
    else updCluster (u / 4) (fun c => { c with file := putWord e w c.file }) r
  | .scratch a =>
    if !((declOf (libraryEntry i.word1)).pass second).scratch.contains a then block i.id r
    else updCluster (u / 4) (fun c => { c with scratch := putWord a w c.scratch }) r
  | .lane a => changeLane i u second (fun l => { l with words := putWord (a % 64) w l.words }) r
  | .memory a =>
    if !i.declares true a then block i.id r
    else
      { r with requests := r.requests ++ [{ input := u, entry := i.entry, launch := i.launch,
                                            item := .word { second := second, staged := true, place := a, value := w } }] }
  | _ => block i.id r

/-- The next operation of a pass is done: the unit goes on at `pc`. -/
def proceed (u : Nat) (second : Bool) (pc : Nat) (r : Region) : Region :=
  updUnit u (fun x =>
    if second then { x with pc2 := pc, steps := x.steps + 1 } else { x with pc1 := pc, steps := x.steps + 1 }) r

/-- A unit computes the lane of a branch from here on: one of its own cluster that no other unit computes; any other is
blocked (R29, R35, R103). -/
def enterLane (i : Instance) (u : Nat) (second : Bool) (b : Nat) (r : Region) : Region :=
  let free (l : Lane) : Bool := l.id == i.id && l.second == second && l.branch == b && l.cluster == u / 4 &&
    l.freeFrom.isNone && (l.unit.isNone || l.unit == some u)
  let mark (b : Option Nat) (r : Region) : Region :=
    updUnit u (fun x => if second then { x with lane2 := b } else { x with lane1 := b }) r
  if r.lanes.any free then mark (some b) (updLanes free (fun l => { l with unit := some u }) r)
  else mark none (block i.id r)

/-- The result of an operation: stored, with the RANGE flag it sets. -/
def finish (i : Instance) (u : Nat) (second : Bool) (dst : Store) (v : Word × Bool) (r : Region) : Region :=
  let r1 := writeStore i u second v.1 r dst
  if v.2 then setRange i.id second r1 else r1

/-- The stores an operation reads, each with the class of its word. -/
def MicroOp.reads (e : Nat) : MicroOp → List (Store × WClass)
  | .bin _ c a b _ => [(a, c), (b, c)]
  | .un _ c a _ => [(a, c)]
  | .fma a b c _ => [(a, .f), (b, .f), (c, .f)]
  | .shift c _ _ a _ | .testBit c _ a _ => [(a, c)]
  | .shiftRound _ a _ => [(a, .q)]
  | .select c fc f a b _ => [(f, fc), (a, c), (b, c)]
  | .branch fc f _ => [(f, fc)]
  | .output p a => [(a, (declClass e false p).getD .x)]
  | .enter _ => []
  | .candidate st p a => [(a, (declClass e st p).getD .x)]

/-- The read ports of the register file an operation uses (R34). -/
def MicroOp.ports (o : MicroOp) : Nat :=
  ((o.reads 0).filter (fun s => match s.1 with | .file _ => true | _ => false)).length

/-- The operation a pass of a unit runs next. -/
def nextOp (i : Instance) (x : UnitRun) (second : Bool) : Option MicroOp :=
  let us := unitsOf i.word0 i.word1
  (Config.program (libraryEntry i.word1) (programUnit us x.unit second) (!i.lanesOn))[if second then x.pc2 else x.pc1]?

/-- An output word of a pass has been raised at a collector input: each only once (R28). -/
def Region.raised (r : Region) (i : Instance) (second : Bool) (place : Nat) : Bool :=
  let hit (x : Item) : Bool := match x with
    | .word d => d.second == second && !d.staged && d.place == place
    | _ => false
  r.requests.any (fun q => q.id == i.id && hit q.item) || i.accepted.any (fun a => hit a.1)

/-- A candidate of the own lane replaced or added. -/
def putCandidate (d : Deliver) (l : Lane) : Lane :=
  { l with candidates := l.candidates.filter (fun c => !(c.staged == d.staged && c.place == d.place)) ++ [d] }

/-- One operation of a pass on a unit, on the operands it has read (R27, R151, R152): a branch in pass 2 tests the
transformed flag with the inverted sense. -/
def runOp (i : Instance) (x : UnitRun) (second : Bool) (k : Int) (vs : List Word) (o : MicroOp) (r : Region) : Region :=
  let u := x.unit
  let pc := (if second then x.pc2 else x.pc1) + 1
  let v (n : Nat) : Word := vs.getD n 0
  match o with
  | .bin op c _ _ d => proceed u second pc (finish i u second d (op.eval second k c (v 0) (v 1)) r)
  | .un op c _ d => proceed u second pc (finish i u second d (op.eval second k c (v 0)) r)
  | .fma _ _ _ d => proceed u second pc (finish i u second d (fmaEval second k (v 0) (v 1) (v 2)) r)
  | .shift c l n _ d => proceed u second pc (finish i u second d (shiftEval second c l n (v 0), false) r)
  | .shiftRound n _ d => proceed u second pc (finish i u second d (shiftRoundEval n (v 0)) r)
  | .testBit c n _ d => proceed u second pc (finish i u second d (testBitEval second c n (v 0), false) r)
  | .select _ fc _ _ _ d =>
    proceed u second pc (finish i u second d (if flagTest second fc (v 0) then v 1 else v 2, false) r)
  | .branch fc _ t => proceed u second (if flagTest second fc (v 0) then t else pc) r
  | .output p _ =>
    if !i.declares false p || r.raised i second p then proceed u second pc (block i.id r)
    else proceed u second pc { r with requests := r.requests ++
      [{ input := u, entry := i.entry, launch := i.launch,
         item := .word { second := second, staged := false, place := p, value := v 0 } }] }
  | .enter b => proceed u second pc (enterLane i u second b r)
  | .candidate st p _ =>
    proceed u second pc (if !i.declares st p then block i.id r
      else changeLane i u second (putCandidate { second := second, staged := st, place := p, value := v 0 }) r)

/-- The pass whose operation a unit starts next (R102): that of the library schedule, the other one where its program is at
its end; pass 1 of an instance with one pass. -/
def turnOf (i : Instance) (x : UnitRun) : Bool :=
  if !isRedundant i.word0 then false
  else
    let s := Config.schedule (libraryEntry i.word1) x.unit x.steps
    if (nextOp i x s).isSome then s else !s

/-- A unit that executes the instance waits for a written flag of the register file (R31, R32). -/
def Region.stillWaits (r : Region) (i : Instance) : Bool :=
  r.units.any (fun x => x.id == i.id &&
    (((nextOp i x (turnOf i x)).map (fun o => (o.reads (libraryEntry i.word1)).any (fun s => match s.1 with
      | .file e => (look e ((r.clusters.toList.getD (x.unit / 4) { file := [], scratch := [] }).file)).isNone
      | _ => false))).getD false))

/-- A step of a pass on a unit: nothing where the unit is idle, the library schedule has the other pass next (R102), its
program is at its end, or an operand is still waited for (R31, R98); a blocked access takes no effect and the unit goes on (R30). -/
def stepUnit (out : Instance → Outside) (k : Instance → Int) (u : Nat) (second : Bool) (r : Region) : Region :=
  match r.units.find? (fun x => x.unit == u) with
  | none => r
  | some x =>
    match r.flight.find? (fun i => i.id == x.id && !i.quenched) with
    | none => r
    | some i =>
      if second != turnOf i x then r else
      match nextOp i x second with
      | none => r
      | some o =>
        let reads := o.reads (libraryEntry i.word1)
        let spoiled := reads.any (fun s => match s.1 with | .memory a => (out i).bad (a / 2) | _ => false)
        let found := reads.map (fun s => readStore r i (out i) u second (k i) s.2 s.1)
        if found.any (fun f => match f with | .waits => true | _ => false) then r
        else if found.any (fun f => match f with | .blocked => true | _ => false) then
          proceed u second ((if second then x.pc2 else x.pc1) + 1) (block i.id r)
        else
          runOp i x second (k i) (found.map (fun f => match f with | .value w => w | _ => 0)) o
            (if spoiled then spoil i.id r else r)

/-- The register-file ports the next operation of a pass on a unit asks for. -/
def portsAsked (r : Region) (p : Nat × Bool) : Nat :=
  match r.units.find? (fun x => x.unit == p.1) with
  | none => 0
  | some x =>
    match r.flight.find? (fun i => i.id == x.id && !i.quenched) with
    | none => 0
    | some i => ((nextOp i x p.2).map (·.ports)).getD 0

/-- Of the passes that ask at one moment, those that a cluster's eight read ports serve, lowest unit index first; where the
reads of one do not all fit, it and every higher unit that reads go on waiting (R34). -/
def served (r : Region) (asked : List (Nat × Bool)) : List (Nat × Bool) :=
  let order := (List.range 16).flatMap (fun u => asked.filter (fun p => p.1 == u))
  (order.foldl (fun (a : List (Nat × Bool) × (Nat → Nat)) p =>
    let c := p.1 / 4
    let asks := portsAsked r p
    let used := a.2 c + asks
    if asks = 0 then (a.1 ++ [p], a.2)
    else if used ≤ 8 then (a.1 ++ [p], fun j => if j = c then used else a.2 j)
    else (a.1, fun j => if j = c then 8 else a.2 j)) ([], fun _ => 0)).1

/-- The operations of one moment: every pass that is served makes a step, and a disturbance changes register-window bits
of a unit. -/
def runMoment (out : Instance → Outside) (k : Instance → Int) (asked : List (Nat × Bool)) (r : Region) : Region :=
  (served r asked).foldl (fun r p => stepUnit out k p.1 p.2 r) r

/-- A disturbance: bits of register `n` of a unit's window change (an upset, which R155 is there to find). -/
def upset (u n : Nat) (bits : Word) (r : Region) : Region :=
  updUnit u (fun x => { x with window := putWord (n % 16) (((look (n % 16) x.window).getD 0) ^^^ bits) x.window }) r

end Sys2Proof.Machine
end

