-- ==== Sys2Proof/Machine/Validate.lean ====
section
/-!
DEFINITION. Epoch validation: every check of R563 in its order, each with the detail of R543. A check yields the detail
it fails with, or none.
-/

namespace Sys2Proof.Machine

/-- A check over an image: the detail it fails with. -/
abbrev Finding := Option Nat

/-- The detail `d` when the condition fails. -/
def needs (ok : Bool) (d : Nat) : Finding := if ok then none else some d

/-- The first finding of a list. -/
def firstOf (fs : List Finding) : Finding := fs.findSome? id

/-- The detail of a launch-table entry (R543). -/
def entryDetail (n e : Nat) : Nat := 0xE000 + 0x200 * n + e

/-- An enabled traction channel of an image. -/
def Image.trOn (img : Image) (c : Nat) : Bool := img.on (P.trEnable + 0x1000 * c)

/-- An enabled actuator of an image. -/
def Image.axOn (img : Image) (a : Nat) : Bool := img.on (P.axEnable + 0x40 * a)

/-- A parameter as a rational. -/
def Image.q (img : Image) (id : Nat) : Rat := F32.rat (img.val id)

/-! ## Ranges that name another parameter, in ascending ID order (R563, R664) -/

def checkRanges (img : Image) : Finding := firstOf (
  (List.range 8).map (fun n => needs (img.num (P.regionPhase + n) < img.num (P.regionPeriod + n)) (P.regionPhase + n)) ++
  (List.range 2).map (fun p => needs (img.num (P.fbIndexPos + 0x40 * p) < 4 * img.num (P.fbAbzLines + 0x40 * p))
    (P.fbIndexPos + 0x40 * p)) ++
  (List.range 2).map (fun p => needs (img.num (P.epIndexPos + 0x40 * p) < 4 * img.num (P.epLines + 0x40 * p))
    (P.epIndexPos + 0x40 * p)))

/-! ## Launch tables -/

/-- Some earlier entry stands in a relation to entry `e`. -/
def clashes (t : List (Nat × Word × Word)) (e : Nat × Word × Word)
    (r : Nat × Word × Word → Nat × Word × Word → Bool) : Bool :=
  t.any (fun d => d.1 < e.1 && r d e)

/-- A check of every entry of every region: the entry's detail where it fails. -/
def eachEntry (img : Image) (ok : Nat → List (Nat × Word × Word) → Nat × Word × Word → Bool) : Finding :=
  firstOf ((List.range 8).flatMap (fun n =>
    let t := img.table n
    t.map (fun e => needs (ok n t e) (entryDetail n e.1))))

/-- The two library entries break R33 when their executions overlap in a cluster (R675). -/
def sameWritable (a b : Nat × Word × Word) : Bool :=
  let x := libraryEntry a.2.2; let y := libraryEntry b.2.2
  x == y || (isHostClass x && isHostClass y)

def check33 (img : Image) : Finding :=
  eachEntry img (fun n t e =>
    !clashes t e (fun a b => shareCluster a b && overlap (img.num (P.regionPeriod + n)) a b && sameWritable a b))

/-- The library entries required of the CF1 functions (R680), with the region that serves each. -/
def Image.required (img : Image) : List (Nat × Nat) :=
  (if (List.range 4).any img.axOn then [(img.axRegion, 0x080), (img.axRegion, 0x081)] else []) ++
  (if img.trOn 0 || img.trOn 1 then [(img.supRegion, 0x0A0)] else []) ++
  (if img.on P.cvEnable || img.on P.cgEnable then [(img.supRegion, 0x0A1)] else []) ++ [(img.sysRegion, 0x0B0)]

def check57 (img : Image) : Finding :=
  firstOf ((img.required.filter (fun r => r.1 == 7)).map (fun r => needs (img.holds r.1 r.2) (entryDetail r.1 0)))

def check680 (img : Image) : Finding :=
  firstOf (img.required.map (fun r => needs (img.holds r.1 r.2) (entryDetail r.1 0)))

def check58 (img : Image) : Finding :=
  if img.num P.cf1Region3Use = 1 then
    firstOf ((img.table 7).map (fun e =>
      let l := libraryEntry e.2.2
      needs (isHostClass l || l == 0x0F0) (entryDetail 7 e.1)))
  else none

/-- The library allows the entry's settings (R75 items 3, 4). -/
def allowed (w0 w1 : Word) : Bool :=
  match libDecl (libraryEntry w1) with
  | none => false
  | some l =>
    (if isRedundant w0 then l.redundantOn else l.redundantOff) &&
    (if isRunAhead w0 then l.runAheadOn else l.runAheadOff) &&
    l.classes.testBit (launchClass w0) && popcount 4 (clusterMask w0) == l.clusters &&
    (if isRedundant w0 then l.schedule else l.schedule0) ≤ commitDelta w1

def check75 (img : Image) : Finding :=
  eachEntry img (fun n t e =>
    let p := img.num (P.regionPeriod + n)
    launchOffset e.2.1 < p && commitDelta e.2.2 + 4 ≤ p && allowed e.2.1 e.2.2 &&
    !clashes t e (fun a b => shareCluster a b && launchOffset a.2.1 == launchOffset b.2.1) &&
    (List.range 4).all (fun c =>
      let users := t.filter (fun d => d.1 ≤ e.1 && (clusterMask d.2.1).testBit c && isRunAhead d.2.1 && overlap p d e)
      !((clusterMask e.2.1).testBit c && isRunAhead e.2.1) || (users.map lanesPerCluster).sum ≤ 24) &&
    img.serves n (libraryEntry e.2.2))

def check92 (img : Image) : Finding :=
  firstOf (needs (img.num P.spindleRefSelect != 1 || img.num P.tsMode == 1) P.spindleRefSelect ::
    (List.range 8).map (fun n => needs (img.num (P.regionPhase + n) < img.num (P.regionPeriod + n)) (P.regionPhase + n)))

/-- The units an entry uses in each cluster of its mask. -/
def unitMask (e : Nat × Word × Word) : Nat := ((libDecl (libraryEntry e.2.2)).map (·.units)).getD 0

/-- The output words an entry declares. -/
def outputsOf (e : Nat × Word × Word) : Nat := ((libDecl (libraryEntry e.2.2)).map (·.outputs)).getD 0

def check101 (img : Image) : Finding := firstOf
  [eachEntry img (fun n t e =>
     !clashes t e (fun a b => shareCluster a b && unitMask a &&& unitMask b != 0 &&
       overlap (img.num (P.regionPeriod + n)) a b)),
   firstOf ((List.range 8).map (fun n =>
     let p := img.num (P.regionPeriod + n)
     let t := img.table n
     needs (t.all (fun e =>
       ((t.filter (fun d => cyc p (launchOffset d.2.1) (launchOffset e.2.1) ≤ execSpan d.2.1 d.2.2)).map outputsOf).sum
         ≤ 256)) (entryDetail n 0)))]

def check107 (img : Image) : Finding :=
  eachEntry img (fun n _ e => !isRunAhead e.2.1 || commitDelta e.2.2 + deferOf (libraryEntry e.2.2) + 4 ≤ img.num (P.regionPeriod + n))

def check124 (img : Image) : Finding := firstOf ((List.range 4).map (fun n =>
  needs (img.num (P.fallbackLimit + n) * img.num (P.regionPeriod + n) ≤ 80000) (P.fallbackLimit + n)))

/-- CLASS SKIPPABLE only where the library allows it (R135). -/
def check135 (img : Image) : Finding :=
  eachEntry img (fun _ _ e => launchClass e.2.1 != 2 ||
    ((libDecl (libraryEntry e.2.2)).map (fun l => l.classes.testBit 2)).getD false)

/-- A redundant entry declares no output word or staged write without a class (R156). -/
def check156 (img : Image) : Finding :=
  eachEntry img (fun _ _ e => !isRedundant e.2.1 || !unclassed (libraryEntry e.2.2))

/-! ## Traction, feedback -/

def check194 (img : Image) : Finding := firstOf ((List.range 2).map (fun n =>
  let es := (img.table n).map (fun e => libraryEntry e.2.2)
  needs (es.countP (fun e => e == 0x040 || e == 0x041) == 1 && es.contains 0x042 && es.contains 0x043)
    (entryDetail n 0)))

/-- The trigger of the channel's sample (R678). -/
def Image.sampleTrigger (img : Image) (c : Nat) : Nat := img.num (P.fbCaptureTrigger + 0x40 * c)

def check678 (img : Image) : Finding := firstOf ((List.range 2).map (fun c =>
  let t := img.sampleTrigger c
  let ctrl := img.trig P.afeTrigCtrl c t
  needs (!img.trOn c ||
    (img.trig P.afeTrigPeriod c t != 0 && ctrl % 8 == 7 && (img.trig P.afeTrigInputs c t).testBit (1 - c) &&
     (ctrl / 16 % 4).testBit 0)) (P.fbCaptureTrigger + 0x40 * c)))

/-- Ts_ref of a channel in seconds (R206). -/
def Image.tsRef (img : Image) (c : Nat) : Rat :=
  mkRat (img.num (P.trRefDivider + 0x1000 * c) * img.num (P.regionPeriod + c)) 400000000

def check210 (img : Image) : Finding := firstOf ((List.range 2).map (fun c =>
  let o := 0x1000 * c
  let f := img.q (P.trNotchFreq + o)
  needs (!img.on (P.trNotchEnable + o) ||
    (decide (f * img.tsRef c * 10 ≤ 1) && decide (img.q (P.trNotchWidth + o) ≤ f))) (P.trNotchEnable + o)))

/-- R222, on the exact values of the two parameters and of 0.005. DESIGN CHOICE, log entry 65. -/
def check222 (img : Image) : Finding := firstOf ((List.range 2).map (fun c =>
  let o := 0x1000 * c
  needs (!img.trOn c || decide (img.q (P.trBlendLow + o) + (5 : Rat) / 1000 ≤ img.q (P.trBlendHigh + o)))
    (P.trBlendHigh + o)))

/-- `a < b` on two parameters. -/
def Image.ltP (img : Image) (a b : Nat) : Bool := F32.lt (img.val a) (img.val b)

/-- 400 MHz divided by a frequency parameter times `k` is an integer, even when `even` is set. -/
def Image.divides (img : Image) (id k : Nat) (even : Bool) : Bool :=
  let f := img.q id * (k : Rat)
  if f = 0 then false
  else
    let q := (400000000 : Rat) / f
    q.den == 1 && (!even || q.num % 2 == 0)

def check256 (img : Image) : Finding := firstOf (
  (List.range 2).map (fun c =>
    let o := 0x1000 * c
    needs (!img.trOn c || img.ltP (P.trVdcLowZero + o) (P.trVdcLowFull + o)) (P.trVdcLowZero + o)) ++
  (List.range 2).map (fun c =>
    let o := 0x1000 * c
    needs (!img.trOn c || (img.ltP (P.trSpeedLimitFwd + o) (P.trOverspeed + o) &&
      img.ltP (P.trSpeedLimitRev + o) (P.trOverspeed + o))) (P.trOverspeed + o)) ++
  (List.range 2).flatMap (fun c =>
    let o := 0x1000 * c
    (List.range 7).map (fun j => needs (img.ltP (P.trFwMapId + o + j) (P.trFwMapId + o + j + 1)) (P.trFwMapId + o + j)) ++
    (List.range 7).map (fun j => needs (img.ltP (P.trFwMapPsi + o + j) (P.trFwMapPsi + o + j + 1)) (P.trFwMapPsi + o + j)) ++
    [needs (img.val (P.trFwMapId + o + 7) == 0) (P.trFwMapId + o + 7),
     needs (F32.le (F32.negate (img.val (P.trCurrentMax + o))) (img.val (P.trFwIdMin + o))) (P.trFwIdMin + o)]) ++
  (List.range 2).map (fun c =>
    let o := 0x1000 * c
    needs (img.ltP (P.trAscReleaseRatio + o) (P.trAscEnterRatio + o)) (P.trAscReleaseRatio + o)) ++
  [needs (img.divides P.chPwmFreq 1 false) P.chPwmFreq,
   needs (img.ltP P.chVStart P.chVFull && F32.le (img.val P.chVFull) (img.val P.dclRegenTaperStart) &&
     img.ltP P.dclRegenTaperStart P.dclOv1 && img.ltP P.dclOv1 P.dclOv2) P.chVStart,
   needs (decide (img.q P.dclOvHyst < img.q P.dclOv2 - img.q P.dclOv1)) P.dclOvHyst])

/-- FB_SOURCE of a port. -/
def Image.source (img : Image) (p : Nat) : Nat := img.num (P.fbSource + 0x40 * p)

/-- The source of a port has ABZ (R261): 1, 2 and 4. -/
def hasAbz (src : Nat) : Bool := src == 1 || src == 2 || src == 4

def check282 (img : Image) : Finding := firstOf ((List.range 2).map (fun c =>
  needs (!img.trOn c || img.source c != 0 || img.on (P.fbSensorlessPermit + 0x40 * c)) (P.fbSource + 0x40 * c)))

def check286 (img : Image) : Finding := firstOf ((List.range 2).map (fun p =>
  needs (img.num (P.epMode + 0x40 * p) != 1 || hasAbz (img.source p)) (P.epMode + 0x40 * p)))

def check289 (img : Image) : Finding := firstOf ((List.range 2).flatMap (fun p =>
  let o := 0x40 * p
  let src := img.source p
  let ssi := src == 3 || src == 4
  [needs (!ssi || img.num (P.fbSsiShift + o) + img.num (P.fbSsiTurnBits + o) ≤ img.num (P.fbSsiBits + o)) (P.fbSsiShift + o),
   needs (!ssi || (img.num (P.fbSsiBits + o) + 2) * img.num (P.fbSsiClockDiv + o) + F32.usTicks (img.val (P.fbSsiMonoflop + o))
     ≤ img.num (P.fbSsiInterval + o)) (P.fbSsiInterval + o),
   needs (!hasAbz src || decide ((4 * img.num (P.fbAbzLines + o) : Nat) * img.q (P.trOverspeed + 0x1000 * p) *
     ((img.num (P.fbFilter + o) + 4 : Nat) : Rat) ≤ (24000000000 : Rat))) (P.trOverspeed + 0x1000 * p)]))

/-! ## Converter, charger, gate drive, actuators -/

def check295 (img : Image) : Finding := firstOf
  [needs (!img.on P.cvEnable || (img.holds 2 0x060 && img.holds 2 0x062)) (entryDetail 2 0),
   needs (!img.on P.chEnable || img.holds 2 0x061) (entryDetail 2 0),
   needs (!img.on P.cgEnable || [0x070, 0x071, 0x072, 0x073].all (img.holds 3)) (entryDetail 3 0)]

/-- Every root of z + c, z² + b z + c, z³ + a z² + b z + c lies strictly inside the unit circle (Jury). -/
def inside1 (c : Rat) : Bool := decide (-1 < c ∧ c < 1)
def inside2 (b c : Rat) : Bool := decide (-1 < c ∧ c < 1 ∧ 0 < 1 + b + c ∧ 0 < 1 - b + c)
def inside3 (a b c : Rat) : Bool :=
  decide (-1 < c ∧ c < 1 ∧ 0 < 1 + a + b + c ∧ 0 < 1 - a + b - c ∧ b - a * c < 1 - c * c ∧ -(1 - c * c) < b - a * c)

/-- R304's condition on z² + b z + c: a simple root at z = 1 is admitted. -/
def stable2 (b c : Rat) : Bool := if 1 + b + c = 0 then inside1 (b + 1) else inside2 b c

/-- R304's condition on z³ + a z² + b z + c. -/
def stable3 (a b c : Rat) : Bool := if 1 + a + b + c = 0 then inside2 (a + 1) (a + b + 1) else inside3 a b c

/-- R304 for a 3P3Z block at a base. -/
def check3p3z (img : Image) (base : Nat) : Finding :=
  firstOf [needs (stable3 (img.q (base + 4)) (img.q (base + 5)) (img.q (base + 6))) (base + 4),
    needs ((List.range 4).any (fun i => F32.key (img.val (base + i)) != 0)) base]

/-- R304 for a 2P2Z block at a base. -/
def check2p2z (img : Image) (base : Nat) : Finding :=
  firstOf [needs (stable2 (img.q (base + 3)) (img.q (base + 4))) (base + 3),
    needs ((List.range 3).any (fun i => F32.key (img.val (base + i)) != 0)) base]

def check304 (img : Image) : Finding := firstOf (
  [if img.on P.cvEnable then check3p3z img P.dcB else none,
   if img.on P.cgEnable then firstOf [check2p2z img P.pfB, check3p3z img P.pvB, check2p2z img P.dbB] else none] ++
  (List.range 4).map (fun a => if img.axOn a then check2p2z img (P.axB + 0x40 * a) else none))

def check313 (img : Image) : Finding :=
  needs (!img.on P.doEnable || img.num P.chCurrentInput == 1) P.doEnable

/-- R338, with the DC_VREF in effect, which is live-class. DEDUCED, log entry 25. -/
def check338 (dcVref : Word) (img : Image) : Finding := firstOf
  [needs (!img.on P.cvEnable || img.divides P.cvPwmFreq 4 false) P.cvPwmFreq,
   needs (!img.on P.cvEnable || decide (img.q P.cvVbatMin + img.q P.cvVbatTaper < img.q P.cvVbatMax - img.q P.cvVbatTaper))
     P.cvVbatMin,
   needs (!img.on P.cvEnable || F32.lt dcVref (img.val P.chVStart)) P.dcVref,
   needs (!img.on P.doEnable || img.ltP P.doVref P.chVStart) P.doVref,
   needs (!img.on P.doEnable || img.ltP P.doIMax P.doITrip) P.doIMax,
   needs (!img.on P.cgEnable || img.divides P.cgPfcFreq 1 true) P.cgPfcFreq,
   needs (!img.on P.cgEnable || img.divides P.cgDabFreq 1 true) P.cgDabFreq,
   needs (!img.on P.exAcEnable || decide (img.q P.exAcVoltage * img.q P.exAcVoltage * 2 < img.q P.cgBusVref * img.q P.cgBusVref))
     P.exAcVoltage]

/-- The function a gate group belongs to is enabled (R345). -/
def Image.groupOn (img : Image) (g : Nat) : Bool :=
  match g with
  | 0 => img.trOn 0 | 1 => img.trOn 1 | 2 => img.on P.cvEnable | 3 => img.on P.cgEnable | 4 => img.on P.cgEnable
  | _ => img.on P.chEnable

/-- The switching frequency of a gate group's function (R375 item 3). -/
def groupFreq (g : Nat) : Nat :=
  match g with | 2 => P.cvPwmFreq | 3 => P.cgPfcFreq | 4 => P.cgDabFreq | _ => P.chPwmFreq

def check375 (img : Image) : Finding := firstOf ((List.range 6).flatMap (fun g =>
  let o := 0x40 * g
  let on := img.groupOn g
  [needs (!on || img.num (P.gdStoT1 + o) + img.num (P.gdStoT2 + o) ≤ 360) (P.gdStoT1 + o),
   needs (!on || decide (img.q (P.gdStoPlateau + o) ≤ img.q (P.gdVpos + o) - 2)) (P.gdStoPlateau + o),
   needs (!on || g < 2 || decide ((img.num (P.gdDeadTime + o) : Rat) * 4 * img.q (groupFreq g) < 400000000)) (P.gdDeadTime + o)]))

def check380 (img : Image) : Finding := firstOf ((List.range 4).map (fun a =>
  needs (!img.axOn a || img.source (2 + a) == 5) (P.fbSource + 0x40 * (2 + a))))

/-- K of an actuator (R384): the refresh interval in whole carrier periods. -/
def Image.refreshK (img : Image) (a : Nat) : Nat :=
  F32.usTicks (img.val (P.axRefreshInterval + 0x40 * a)) / (if img.tax a = 0 then 1 else img.tax a)

def check384 (img : Image) : Finding := firstOf ((List.range 4).map (fun a =>
  needs (!img.axOn a || 1 ≤ img.refreshK a) (P.axRefreshInterval + 0x40 * a)))

/-- A gear position is assigned (R397). -/
def Image.gearAssigned (img : Image) (a g : Nat) : Bool := img.num (P.axGearPos + 0x40 * a + g) != 0x7FFFFFFF

def check398 (img : Image) : Finding := firstOf ((List.range 4).flatMap (fun a =>
  let o := 0x40 * a
  let on := img.axOn a
  let gears := ((List.range 8).filter (img.gearAssigned a)).map (fun g => img.num (P.axGearPos + o + g))
  let ok (e : Nat) : Bool := (img.table img.axRegion).any (fun t => libraryEntry t.2.2 == e)
  let all (e : Nat) : Bool := (img.table img.axRegion).all (fun t =>
    libraryEntry t.2.2 != e || (isRedundant t.2.1 && launchClass t.2.1 ≤ 1))
  [needs (!on || img.divides (P.axPwmFreq + o) 4 false) (P.axPwmFreq + o),
   needs (!on || 4 * img.num (P.axDeadTime + o) < img.tax a) (P.axDeadTime + o),
   needs (!on || gears.dedup.length == gears.length) (P.axGearPos + o),
   needs (!on || img.num (P.axRole + o) != 1 || (img.num (P.axTorqueLink + o) != 0 && img.gearAssigned a 0 &&
     img.gearAssigned a 1)) (P.axRole + o),
   needs (!on || (ok 0x080 && ok 0x081 && all 0x080 && all 0x081)) (entryDetail img.axRegion 0)]))

/-! ## Analog front ends -/

/-- The SAR inputs of an AFE that are connected (R401). -/
def connected (afe : Nat) : Nat := if afe = 0 then 2 ^ 18 - 1 else 2 ^ 21 - 1

/-- The enabled triggers of an AFE: index, period, phase, inputs. -/
def Image.trigs (img : Image) (afe : Nat) : List (Nat × Nat × Nat × Nat) :=
  ((List.range 64).filter (fun t => img.trig P.afeTrigPeriod afe t != 0)).map (fun t =>
    (t, img.trig P.afeTrigPeriod afe t, img.trig P.afeTrigPhase afe t, img.trig P.afeTrigInputs afe t))

def check401 (img : Image) : Finding := firstOf ((List.range 2).flatMap (fun afe => (img.trigs afe).map (fun t =>
  needs (t.2.2.2 &&& connected afe == t.2.2.2) (P.afeTrigInputs + 0x400 * afe + t.1))))

/-- Two instants, one of each rhythm, lie less than 40 ticks apart somewhere. -/
def meet40 (p1 f1 p2 f2 : Nat) : Bool :=
  let g := Nat.gcd p1 p2
  let d := (f1 % g + g - f2 % g) % g
  d < 40 || g - d < 40

/-- An inverse of `a` modulo `n` by the extended Euclidean algorithm, `x`, `y` the coefficients so far. -/
def invGo : Nat → Int → Int → Int → Int → Int
  | 0, _, _, x, _ => x
  | k + 1, a, b, x, y => if b = 0 then x else invGo k b (a % b) y (x - a / b * y)

/-- The inverse of `a` modulo `n`, for coprime `a` and `n`. -/
def invMod (a n : Nat) : Nat := (invGo 64 a n 1 0 % (n : Int)).toNat

/-- The least instant that is r mod m and s mod p, where r and s agree modulo their gcd. -/
def crt (r m s p : Nat) : Nat :=
  let g := Nat.gcd m p
  let n := p / g
  let k := (((s : Int) - r) / (g : Int) * invMod (m / g) n % (n : Int)).toNat
  (r + k * m) % (m * n)

/-- The most conversions of the triggers `ts` that run at the instants t that are r mod m: each trigger is left out, or
taken with its start at most 39 ticks before t (R408 item 4). -/
def maxLoad : List (Nat × Nat × Nat × Nat) → Nat → Nat → Nat
  | [], _, _ => 0
  | t :: ts, r, m =>
    let p := t.2.1
    let g := Nat.gcd m p
    let d0 := (r % g + g - t.2.2.1 % g) % g
    let without := maxLoad ts r m
    if 40 ≤ d0 then without
    else (List.range ((39 - d0) / g + 1)).foldl (fun best j =>
      let s := (t.2.2.1 + d0 + j * g) % p
      Nat.max best (popcount 32 t.2.2.2 + maxLoad ts (crt r m s p) (m * (p / g)))) without

/-- The most conversions that run together: one trigger starts last, the others at most 39 ticks before it. -/
def peakLoad : List (Nat × Nat × Nat × Nat) → List (Nat × Nat × Nat × Nat) → Nat
  | _, [] => 0
  | before, t :: ts =>
    Nat.max (popcount 32 t.2.2.2 + maxLoad (before ++ ts) (t.2.2.1 % t.2.1) t.2.1) (peakLoad (t :: before) ts)

/-- Dmax of a trigger in half ticks of the modulator clock: 2 · 1.5 · (OSR − 1) · n (R408 item 2). -/
def Image.dmax2 (img : Image) (afe mask : Nat) : Nat :=
  let n := sdDivisor (img.val (P.afeSdClock + 0x400 * afe))
  (setBits 4 mask).foldl (fun a i => Nat.max a (3 * (img.num (P.afeSdOsr + 0x400 * afe + i) - 1) * n)) 0
where
  /-- n = 400 MHz / AFE_SD_CLOCK (R418). -/
  sdDivisor (f : Word) : Nat := (roundRat ((400000000 : Rat) / (if F32.rat f = 0 then 1 else F32.rat f))).toNat

def check408 (img : Image) : Finding := firstOf ((List.range 2).flatMap (fun afe =>
  let o := 0x400 * afe
  let ts := img.trigs afe
  let n := Image.dmax2.sdDivisor (img.val (P.afeSdClock + o))
  let sd (t : Nat) : Nat := img.trig P.afeTrigCtrl afe t % 16
  ts.map (fun t => needs (t.2.2.1 < t.2.1 && 100 ≤ t.2.1) (P.afeTrigPhase + o + t.1)) ++
  ts.map (fun t => needs (48 ≤ img.trig P.afeTrigLatency afe t.1 &&
    (sd t.1 == 0 || img.dmax2 afe (sd t.1) + 32 ≤ 2 * img.trig P.afeTrigLatency afe t.1)) (P.afeTrigLatency + o + t.1)) ++
  ts.map (fun t => needs (sd t.1 == 0 || (n % 2 == 0 && t.2.1 % n == 0 && t.2.2.1 % n == n / 2)) (P.afeTrigPeriod + o + t.1)) ++
  [needs (peakLoad [] ts ≤ 18) (P.afeTrigInputs + o)] ++
  ts.map (fun t => needs (ts.all (fun u => u.1 ≥ t.1 || u.2.2.2 &&& t.2.2.2 == 0 || !meet40 u.2.1 u.2.2.1 t.2.1 t.2.2.1))
    (P.afeTrigInputs + o + t.1)) ++
  ts.map (fun t => needs (t.2.2.2 &&& connected afe == t.2.2.2) (P.afeTrigInputs + o + t.1))))

/-- m⁺ of a short-window detector of sigma-delta input `i` (R421): ceil(((I − offset) / gain) / 512). -/
def Image.mPlus (img : Image) (afe i : Nat) : Int :=
  let o := 0x400 * afe + i
  ((img.q (P.afeSdTrip + o) - img.q (P.afeSdOffset + o)) / img.q (P.afeSdGain + o) / 512).ceil

def check421 (img : Image) : Finding := firstOf ((List.range 2).flatMap (fun c => (List.range 3).map (fun i =>
  let id := P.afeSdTrip + 0x400 * c + i
  needs (!img.trOn c || (F32.key (img.val id) != 0 && decide (img.mPlus c i ≤ 63))) id)))

/-! ## Buses, system, thermal, region tables -/

def check441 (img : Image) : Finding := firstOf
  [needs (img.val 0xA081 == img.val 0xA0C1) 0xA081, needs (img.val 0xA082 == img.val 0xA0C2) 0xA082]

def check471 (img : Image) : Finding := firstOf
  [needs (img.num P.isAddressBase + 15 ≤ 253) P.isAddressBase,
   needs (img.num P.cn1ReqId != img.num P.cn1RepId &&
     (img.on P.cn1Ext || (img.num P.cn1ReqId < 2048 && img.num P.cn1RepId < 2048))) P.cn1ReqId,
   needs (2 * img.num P.alSyncPeriod ≤ img.num P.alSilence) P.alSilence]

def check484 (head : Bool) (img : Image) : Finding :=
  if head then needs (img.num P.tsMode != 2) P.tsMode
  else firstOf [needs (img.num P.tsMode != 1 && img.num P.tsMode != 3) P.tsMode,
                needs (img.num P.spindleRefSelect != 1) P.spindleRefSelect]

def check509 (img : Image) : Finding := firstOf
  [needs (img.num P.sysCommitConfirm < img.num P.sysCommitVote && img.num P.sysCommitVote < img.num P.sysCommitLead)
     P.sysCommitConfirm,
   needs (2 * img.num P.alStatusPeriod ≤ img.num P.sysNodeSilence) P.sysNodeSilence,
   needs (2 * img.num P.alSyncPeriod ≤ F32.usTicks (img.val P.sysAllocTimeout)) P.sysAllocTimeout]

def check621 (img : Image) : Finding := firstOf (
  (List.range 4).map (fun g =>
    let o := 4 * g
    needs (img.ltP (P.thermT1 + o) (P.thermT2 + o) && img.ltP (P.thermT2 + o) (P.thermT3 + o)) (P.thermT1 + o)) ++
  (List.range 4).map (fun g =>
    let o := 4 * g
    needs (decide (img.q (P.thermHyst + o) < img.q (P.thermT2 + o) - img.q (P.thermT1 + o))) (P.thermHyst + o)) ++
  (List.range 8).map (fun n => needs (!img.holds n 0x0F0 ||
    img.num P.thermScanDivider * img.num (P.regionPeriod + n) * 46 ≤ F32.usTicks (img.val P.thermStaleLimit))
    P.thermStaleLimit))

/-- The declaration of region table word `w` of region `n` by the entries of the image (R668). -/
def Image.declared (img : Image) (n w : Nat) : Option Config.TableWord :=
  (img.table n).findSome? (fun e => Config.tableWord (libraryEntry e.2.2) w)

/-- R669, over the region table words an image lists with another than their Reset value. DESIGN CHOICE, log entry
6. -/
def check669 (img : Image) : Finding :=
  firstOf ((img.params.filter (fun p => 0x1200 ≤ p.1 && p.1 ≤ 0x1FFF)).map (fun p =>
    let n := (p.1 - 0x1200) / 448
    let w := (p.1 - 0x1200) % 448
    match img.declared n w with
    | none => needs (decide (p.2 = (0 : Word))) p.1
    | some d =>
      needs (if d.isF32 then F32.le d.lo p.2 && F32.le p.2 d.hi
             else d.lo.toNat ≤ p.2.toNat && p.2.toNat ≤ d.hi.toNat) p.1))

/-- Every check that the manual assigns to epoch validation, in the order of R563: the detail of the first failure. -/
def validate (head : Bool) (dcVref : Word) (img : Image) : Finding := firstOf
  [checkRanges img, check33 img, check57 img, check680 img, check58 img, check75 img, check92 img, check101 img,
   check107 img, check124 img, check135 img, check156 img, check194 img, check678 img, check210 img, check222 img, check256 img,
   check282 img, check286 img, check289 img, check295 img, check304 img, check313 img, check338 dcVref img,
   check375 img, check380 img, check384 img, check398 img, check401 img, check408 img, check421 img, check441 img,
   check471 img, check484 head img, check509 img, check621 img, check669 img]

end Sys2Proof.Machine
end

