-- ==== Sys2Proof/Machine/Epoch.lean ====
section
/-!
DEFINITION. Configuration epochs: the slots and what the staging commands do to them (R533 … R535, R77, R78, R559,
R560), the checks of a commit and a revert (R562 … R565, R570), the switch at the instant (R566), the flash (R567), the
system-wide vote (R492 … R497).
-/

namespace Sys2Proof.Machine

/-- The epochs with `f` applied. -/
def updEpochs (f : Epochs → Epochs) (m : Module) : Module := { m with epochs := f m.epochs }

/-- A commit is pending, until the switch of the last region, or provisional: nothing is staged (R497, R565). -/
def Module.stagingBusy (m : Module) : Bool :=
  m.epochs.pending.any (fun p => !p.revert) || m.epochs.provisional.any (fun p => !p.revert)

/-- STAGED is frozen: it is open and a commit is pending or provisional (R565, R573). -/
def Module.frozen (m : Module) : Bool := m.epochs.staged.isSome && m.stagingBusy

/-- A commit or revert is pending or provisional. -/
def Module.commitPending (m : Module) : Bool := m.epochs.pending.isSome || m.epochs.provisional.isSome

/-- A Headstock with at least one admitted Tailstock (R492). -/
def Module.leadsOthers (m : Module) : Bool :=
  m.isHead && m.sys.admittedMask % 2 ^ 16 != 2 ^ m.straps.node.val

/-! ## Staging -/

/-- OPEN_STAGING (R535): words source and number. -/
def openStaging (h : Hdr) (ws : List Word) (m : Module) : Verdict :=
  let src := ws.getD 0 0
  let num := ws.getD 1 0
  unlessFails (firstFail
    [prelude 0x20 h ws (· == 2) .never (bits src 31 2 == 0 && bits src 1 0 != 3) m,
     failIf (num == 0 || num == m.epochs.active.number ||
       m.epochs.cellar.any (fun c => c.number == num)) .outOfRange 1,
     failIf m.epochs.staged.isSome .busy,
     failIf (src == 1 && (m.epochs.cellar.isNone || m.epochs.cellarBad)) .epochInvalid])
    (let img := if src = 0 then m.epochs.active else if src = 1 then m.epochs.cellar.getD factoryImage else factoryImage
     .done [] (updEpochs (fun e => { e with staged := some { img with number := num }, stagedBad := false }) m))

/-- DISCARD_STAGED (R560). -/
def discardStaged (h : Hdr) (ws : List Word) (m : Module) : Verdict :=
  unlessFails (firstFail
    [prelude 0x22 h ws (· == 0) .never true m,
     failIf m.epochs.staged.isNone .noStagedEpoch,
     failIf m.frozen .busy])
    (.done [] (updEpochs (fun e => { e with staged := none, stagedBad := false }) m))

/-- The pairs of STAGE_PARAM and WRITE_LIVE (R534). -/
def pairsOf : List Word → List (Word × Word)
  | a :: b :: r => (a, b) :: pairsOf r
  | _ => []

/-- A list with the position of each element. -/
def indexed {α : Type} (xs : List α) : List (Nat × α) := (List.range xs.length).zip xs

/-- Row 2 of R530 for a pair: an id16 word beyond 16 bits, a code the parameter does not define. DEDUCED, log
entry 14. -/
def pairEncoding (i : Nat) (p : Word × Word) : Check :=
  if 2 ^ 16 ≤ p.1.toNat then some (.reservedEncoding, i)
  else match rowOf p.1.toNat with
    | none => none
    | some r => if r.kind.check p.2 = some .reservedEncoding then some (.reservedEncoding, i) else none

/-- Row 6 of R530 for a pair: unknown ID, not writable by this command, out of range. -/
def pairValue (cls : Access) (i : Nat) (p : Word × Word) : Check :=
  match rowOf p.1.toNat with
  | none => some (.paramUnknown, i)
  | some r =>
    if r.access != cls then some (.readOnly, i)
    else (r.kind.check p.2).map (fun s => (s, i))

/-- The ID is a region table word that the launch table of an image declares f32 (R668). -/
def Image.declaresF32 (img : Image) (id : Nat) : Bool :=
  0x1200 ≤ id && id ≤ 0x1FFF &&
  ((img.declared ((id - 0x1200) / 448) ((id - 0x1200) % 448)).map (·.isF32)).getD false

/-- A NaN or infinity in a region table word that the ACTIVE launch table declares f32 (R668). -/
def pairRegion (m : Module) (i : Nat) (p : Word × Word) : Check :=
  failIf (m.epochs.active.declaresF32 p.1.toNat && F32.nonFinite p.2) .outOfRange i

/-- STAGE_PARAM's checks (R534, R530). -/
def stageParamCheck (h : Hdr) (ws : List Word) (m : Module) : Check :=
  let ps := indexed (pairsOf ws)
  firstFail
    ([checkLength h ws (fun n => 2 ≤ n && n ≤ 62 && n % 2 == 0), checkEncoding h .never true] ++
     ps.map (fun p => pairEncoding p.1 p.2) ++ [checkRelayed 0x11 h m] ++ ps.map (fun p => pairValue .rwE p.1 p.2) ++
     ps.map (fun p => pairRegion m p.1 p.2) ++
     [failIf m.stagingBusy .busy, failIf m.epochs.staged.isNone .noStagedEpoch])

/-- The value stored for a written word of an ID: −0.0 of an f32 is stored as +0.0, a region table word judged by the
ACTIVE launch table (R16, R668). -/
def storedWord (active : Image) (id : Nat) (w : Word) : Word :=
  let v := ((rowOf id).map (fun r => r.kind.store w)).getD w
  if active.declaresF32 id && v == 0x80000000 then 0 else v

/-- Pairs written into an image in packet order (R534). -/
def Image.writePairs (img active : Image) (ps : List (Word × Word)) : Image :=
  ps.foldl (fun i p => i.write p.1.toNat (storedWord active p.1.toNat p.2)) img

/-- STAGE_PARAM (R534). -/
def stageParam (h : Hdr) (ws : List Word) (m : Module) : Verdict :=
  unlessFails (stageParamCheck h ws m)
    (.done [] (updEpochs (fun e => { e with staged := e.staged.map (fun s => s.writePairs m.epochs.active (pairsOf ws)) }) m))

/-! ## Launch tables (R77, R78) -/

/-- The fields of the first word: SLOT, REGION, COUNT, FIRST. -/
def launchSlot (w : Word) : Nat := bits w 20 20
def launchRegion (w : Word) : Nat := bits w 18 16
def launchCount (w : Word) : Nat := bits w 15 10
def launchFirst (w : Word) : Nat := bits w 8 0

/-- Reserved bits of the first word are zero and COUNT is not 0. -/
def launchWordOk (w : Word) : Bool := bits w 31 21 == 0 && !bit w 19 && !bit w 9 && launchCount w != 0

/-- STAGE_LAUNCH (R78, R565). -/
def stageLaunch (h : Hdr) (ws : List Word) (m : Module) : Verdict :=
  let w := ws.getD 0 0
  let es := pairsOf (ws.drop 1)
  unlessFails (firstFail
    [failIf (ws.length != 1 + 2 * launchCount w || h.timed && ws.length < 2) .badLength,
     failIf (!launchWordOk w || launchSlot w != 1 || h.timed ||
       es.any (fun e => launchClass e.1 == 3 || bits e.2 15 10 != 0)) .reservedEncoding,
     checkRelayed 0x24 h m,
     failIf (512 < launchFirst w + launchCount w || 30 < launchCount w) .outOfRange,
     failIf m.epochs.staged.isNone .noStagedEpoch,
     failIf m.frozen .busy])
    (.done [] (updEpochs (fun e => { e with staged := e.staged.map (fun s =>
      (indexed es).foldl (fun i p => i.writeEntry (launchRegion w) (launchFirst w + p.1) p.2.1 p.2.2) s) }) m))

/-- READ_LAUNCH (R78). -/
def readLaunch (h : Hdr) (ws : List Word) (m : Module) : Verdict :=
  let w := ws.getD 0 0
  unlessFails (firstFail
    [failIf (ws.length != 1) .badLength,
     failIf (!launchWordOk w || h.timed) .reservedEncoding,
     checkRelayed 0x25 h m,
     failIf (512 < launchFirst w + launchCount w || 30 < launchCount w) .outOfRange,
     failIf (launchSlot w == 1 && m.epochs.staged.isNone) .noStagedEpoch])
    (let img := if launchSlot w = 1 then m.epochs.staged.getD m.epochs.active else m.epochs.active
     .done ((List.range (launchCount w)).flatMap (fun i =>
       let e := img.entry (launchRegion w) (launchFirst w + i)
       [e.1, e.2])) m)

/-! ## Loops -/

/-- Loop `l` of R537 is OPEN, with no closing under way. -/
def Module.loopOpen (m : Module) (l : Nat) : Bool :=
  match l with
  | 0 => m.traction[0].loop == .open && m.traction[0].nextLoop.all (· == .open)
  | 1 => m.traction[1].loop == .open && m.traction[1].nextLoop.all (· == .open)
  | 2 | 3 => !m.converter.closed && m.converter.nextClosed != some true
  | 4 => !m.charger.pfClosed
  | 5 => !m.charger.pvClosed
  | 6 => !m.charger.dbClosed
  | 7 => m.charger.state == 0
  | 8 => !m.actuators[0].closed && m.actuators[0].nextClosed != some true && m.actuators[0].move == 0
  | 9 => !m.actuators[1].closed && m.actuators[1].nextClosed != some true && m.actuators[1].move == 0
  | 10 => !m.actuators[2].closed && m.actuators[2].nextClosed != some true && m.actuators[2].move == 0
  | _ => !m.actuators[3].closed && m.actuators[3].nextClosed != some true && m.actuators[3].move == 0

/-- R564 requires loop `l` OPEN when `new` is made active over `old`. -/
def mustBeOpen (old new : Image) (l : Nat) : Bool :=
  if l ≤ 1 then old.trOn l || new.trOn l else coefficientsDiffer old new l

/-- Row 8 of R562: the lowest-numbered loop that R564 requires OPEN and that is not. -/
def checkLoops (m : Module) (new : Image) : Check :=
  (((List.range loopCount).find? (fun l => !m.loopOpen l && mustBeOpen m.epochs.active new l))).map
    (fun l => (.loopClosed, l))

/-- The image a pending or provisional action makes active. -/
def Module.pendingImage (m : Module) : Option Image :=
  match m.epochs.pending with
  | some p => if p.switched then none else if p.revert then m.epochs.cellar else m.epochs.staged
  | none =>
    match m.epochs.provisional with
    | some p => if p.revert then m.epochs.cellar else m.epochs.staged
    | none => none

/-- LOOP_CLOSE of a loop that the pending action requires OPEN is refused with BUSY until the switch of the last region
(R565, R570). -/
def Module.loopHeldOpen (m : Module) (l : Nat) : Bool :=
  match m.pendingImage with
  | some img => mustBeOpen m.epochs.active img l
  | none => m.epochs.pending.any (·.switched) && mustBeOpen m.epochs.previous m.epochs.active l

/-! ## Commit and revert -/

/-- A commit or revert is the Headstock's question to an admitted Tailstock; one on the Porch commits and reverts on its own,
relayed or not (R492, R494). -/
def Module.asked (m : Module) (h : Hdr) : Bool := h.relayed && m.sys.admitted && !m.isHead

/-- The checks of R562 (rows 1 … 8) and R570 for the image to be made active; row 9 follows with the instant. -/
def commitChecks (revert : Bool) (h : Hdr) (ws : List Word) (m : Module) : Check :=
  let img := if revert then m.epochs.cellar else m.epochs.staged
  let bad := if revert then m.epochs.cellarBad else m.epochs.stagedBad
  -- a packet relayed to an admitted Tailstock carries the epoch number and the set CRC after the instant (R494 step 2)
  let own := if m.asked h then 2 else 0
  firstFail
    ([failIf (ws.length != (if revert && !h.timed then own else 2 + own)) .badLength,
      failIf (!revert && !h.timed) .reservedEncoding,
      failIf (h.relayed && !((h.transport == .cn2 || h.transport == .cn3) && h.fromHead)) .reservedEncoding,
      failIf (m.sys.admitted && !m.isHead && !h.relayed) .notHeadstock,
      failIf img.isNone (if revert then .epochInvalid else .noStagedEpoch),
      failIf (m.commitPending || m.inTransition || m.epochs.flashPending) .busy,
      failIf bad .epochInvalid] ++
     (match img with
      | none => []
      | some i =>
        [(validate m.isHead m.live.dcVref i).map (fun d => (.crossCheckFailed, d)),
         checkLoops m i,
         failIf (m.asked h && (i.number != (ownWords h ws).getD 0 0 || i.setCrc != (ownWords h ws).getD 1 0))
           .crossCheckFailed]))

/-- The instant of a commit or revert (R570, R494): named, or SPINDLE_NOW plus the lead. -/
def commitInstant (h : Hdr) (ws : List Word) (m : Module) : Tick :=
  if h.timed then instantOf ws
  else m.time.count + BitVec.ofNat 64 (if m.leadsOthers then m.num P.sysCommitLead else 400000)

/-- Row 9 of R562: the least lead. -/
def checkLead (h : Hdr) (ws : List Word) (m : Module) : Check :=
  let lead := if m.leadsOthers then m.num P.sysCommitLead else 400000
  failIf (h.timed && (instantOf ws).toNat < m.time.count.toNat + lead) .timeInPast

/-- The action becomes definite: pending, FLASH_PENDING set, a commit's image counted and its wear noted (R565, R567,
R569). -/
def makePending (revert : Bool) (instant : Tick) (wide : Bool) (m : Module) : Module :=
  let worn := !revert && 100000 ≤ m.epochs.commitCount
  let m1 := updEpochs (fun e => { e with
    pending := some { revert := revert, instant := instant, systemWide := wide, switched := false },
    provisional := none, flashPending := true, programmed := false,
    commitCount := if revert then e.commitCount else inc32 e.commitCount }) m
  if worn then raise F.epochFlashWear 0 false m1 else m1

/-- The nodes admitted beside the Headstock itself. -/
def Module.otherNodes (m : Module) : List Nat :=
  (setBits 16 m.sys.admittedMask).filter (fun n => n != m.straps.node.val)

/-- The words of a relayed commit or revert: instant, epoch number, set CRC (R494 step 2). DEDUCED, log entry 23. -/
def relayedCommit (revert : Bool) (instant : Tick) (img : Image) : List Word :=
  let opcode := if revert then 0x23 else 0x21
  let ws := tickWords instant ++ [img.number, img.setCrc]
  let hd : Word := pack [(opcode, 24), (ws.length, 8), (2, 4), (1, 2), (1, 1)]
  let body := hd :: ws
  body ++ [crc32c body]

/-- COMMIT_EPOCH_AT and REVERT_EPOCH (R562, R570, R494): pending at once, provisional at a Tailstock asked by the
Headstock, or relayed and left to the vote at a Headstock with admitted Tailstocks. -/
def commitOrRevert (revert : Bool) (h : Hdr) (ws : List Word) (m : Module) : Verdict :=
  unlessFails (firstFail [commitChecks revert h ws m, checkLead h ws m])
    (let i := commitInstant h ws m
     let img := (if revert then m.epochs.cellar else m.epochs.staged).getD m.epochs.active
     if m.leadsOthers then
       let asked := m.sys.admittedMask - 2 ^ m.straps.node.val
       let p : Provisional := { revert := revert, instant := i, confirmed := false, asked := asked, replies := [] }
       let m1 := updEpochs (fun e => { e with provisional := some p }) m
       let m2 := m.otherNodes.foldl (fun m n => relayTo n (relayedCommit revert i img) m) m1
       .waits { m2 with interp := { m2.interp with waiting := m2.interp.waiting ++
         [waitingFor (if revert then 0x23 else 0x21) h ws.length 0 m] } }
     else if m.asked h then
       let p : Provisional := { revert := revert, instant := i, confirmed := false, asked := 0, replies := [] }
       .scheduled [] (updEpochs (fun e => { e with provisional := some p }) m)
     else .scheduled [] (makePending revert i false m))

/-- EPOCH_CONFIRM (R494 steps 4, 5): accepted only relayed and by I − SYS_COMMIT_CONFIRM; 1 makes the provisional action
definite, 0 drops it. DEDUCED, log entry 23. -/
def epochConfirm (h : Hdr) (ws : List Word) (m : Module) : Verdict :=
  let w := ws.getD 0 0
  unlessFails (firstFail
    [prelude 0x26 h ws (· == 1) .never (w.toNat ≤ 1) m,
     failIf (!h.relayed) .reservedEncoding,
     failIf (!m.epochs.provisional.any (fun p => m.time.count.toNat + m.num P.sysCommitConfirm ≤ p.instant.toNat))
       .stateForbids])
    (match m.epochs.provisional with
     | none => .refuse .stateForbids 0
     | some p =>
       if w = 1 then .done [] (makePending p.revert p.instant true m)
       else .done [] (updEpochs (fun e => { e with provisional := none }) m))

/-! ## The switch (R566) -/

/-- The live-class clamp of R557 for CG_I_SET, the one live-class range that names a parameter. -/
def clampLive (m : Module) : Module :=
  let top := m.par P.cvIbatChgMax
  if F32.lt top m.live.cgISet then { m with live := { m.live with cgISet := top } } else m

/-- Every region has switched: the action is no longer pending (R565). -/
def settlePending (m : Module) : Module :=
  if (List.finRange 8).all (fun n => !m.epochs.onOld[n]) then
    updEpochs (fun e => { e with pending := match e.pending with
      | some p => if p.switched then none else some p
      | none => none }) m
  else m

/-- The role record is written: it names what the slots hold now (R567). -/
def writeRole (e : Epochs) : Epochs :=
  { e with flashActive := e.active, flashCellar := e.cellar, roleReadable := true, flashPending := false }

/-- The region of a die in use: it runs, waits for its first boundary or is held. -/
def Region.alive (r : Region) : Bool := r.started || r.waiting || r.held

/-- The slack records return to "no record"; the consecutive-fallback counts and the committed outputs are no part of them
(R129). -/
def EntryRec.cleared (v : EntryRec) : EntryRec :=
  { v with minSlack := 0xFFFF, lastSlack := 0xFFFF, minResolve := 0xFF, lastResolve := 0xFF, late := 0,
           saturated := false, alarm := false, resolveAlarm := false }
def Region.clearSlack (r : Region) : Region := { r with records := r.records.map (fun p => (p.1, p.2.cleared)) }

/-- The supervisor writes the settings of a new epoch into the clocked domains whose dies run, and the bus controllers' into
theirs: a command on each crossing (R90). DESIGN CHOICE, log entry 63. -/
def configure (m : Module) : Module :=
  let send (d : Fin 46) (i : Fin 22) (m : Module) : Module := if m.dieRuns d then sendCommand i m else m
  sendCommand 12 (send 7 4 (send 5 2 (send 4 0 m)))

/-- At I: numbers and slot roles change (R559, R566 step 1); a region of a die in use keeps its old epoch until its first
boundary at or after I, one that is stopped has none to keep; the role record follows when programming is
complete. DEDUCED, log entry 23. -/
def switchEpoch (m : Module) : Module :=
  match m.epochs.pending with
  | none => m
  | some p =>
    if p.switched || m.time.count.toNat < p.instant.toNat then m
    else
      let old := m.epochs.active
      -- under R568 the ACTIVE slot holds the recorded image, not the factory epoch that runs
      let slot := if m.epochs.bootFallback then m.epochs.flashActive else old
      let new := (if p.revert then m.epochs.cellar else m.epochs.staged).getD old
      let m1 := updEpochs (fun e =>
        let e1 := { e with
          active := new, cellar := some slot, cellarBad := e.activeBad, activeBad := false, previous := old,
          staged := if p.revert then e.staged else none, stagedBad := if p.revert then e.stagedBad else false,
          onOld := Vector.ofFn (fun n => (m.regions[n]).alive), bootFallback := false, lastSwitch := p.instant,
          pending := some { p with switched := true } }
        if e.programmed && !p.revert then writeRole e1 else e1)
        { m with regions := m.regions.map (fun r => if r.alive then r else r.clearSlack) }
      let mode (c : Fin 2) (m2 : Module) : Module :=
        let src := P.trSetpointSource + 0x1000 * c.val
        if (m.regions[(⟨c.val, by omega⟩ : Fin 8)]).alive || old.num src == new.num src then m2
        else { m2 with traction := Vector.upd m2.traction c (fun t => { t with speedMode := false }) }
      let ports (m2 : Module) : Module :=
        ((List.finRange 8).filter (fun n => !(m.regions[n]).alive)).foldl (fun m2 n => restartPorts n old new m2) m2
      settlePending (configure (followEnables (ports (mode 1 (mode 0 (if (m.regions[3]).alive then m1 else clampLive m1))))))

/-- Programming of the image, or of the role record of a revert, completes (R567, R570). -/
def flashDone (m : Module) : Module :=
  if !m.epochs.flashPending then m
  else
    updEpochs (fun e =>
      let e1 := { e with programmed := true }
      if e.pending.any (fun p => !p.switched) then (if e.pending.any (·.revert) then e else e1) else writeRole e1) m

/-- Programming fails: the role record stays as it was, the running epoch too (R567). -/
def flashFail (m : Module) : Module :=
  if m.epochs.flashPending then
    raise F.epochFlashFail 0 false (updEpochs (fun e => { e with flashPending := false }) m)
  else m

/-! ## The vote (R494, R495) -/

/-- The status and detail of the reply to the host when the vote fails (R495). -/
def voteStatus (p : Provisional) : Option (Nat × Nat) :=
  let rows := (setBits 16 p.asked).map (fun n => (n, (p.replies.find? (fun r => r.1 == n)).map (·.2)))
  match rows.find? (fun r => match r.2 with | some s => s != 1 | none => false) with
  | some (n, some s) => some (s, n)
  | _ => (rows.find? (fun r => r.2.isNone)).map (fun r => (Status.tailstockUnknown.code, r.1))

/-- EPOCH_CONFIRM as the Headstock relays it. -/
def confirmWords (v : Nat) : List Word :=
  let body : List Word := [pack [(0x26, 24), (1, 8), (2, 4), (1, 1)], word v]
  body ++ [crc32c body]

/-- The result of a waiting command of an opcode is known. -/
def resolveWaiting (opcodes : List Nat) (target : Nat → Bool) (status detail : Nat) (data : List Word) (m : Module) : Module :=
  { m with interp := { m.interp with waiting := m.interp.waiting.map (fun w =>
      if opcodes.contains w.opcode && target w.target && w.result.isNone then
        { w with result := some (status, detail, data) } else w) } }

/-- At I − SYS_COMMIT_VOTE the Headstock decides (R494 step 4, R495). -/
def commitVote (m : Module) : Module :=
  match m.epochs.provisional with
  | none => m
  | some p =>
    if !m.isHead || m.time.count.toNat + m.num P.sysCommitVote < p.instant.toNat then m
    else
      match voteStatus p with
      | none =>
        let m1 := (setBits 16 p.asked).foldl (fun m n => relayTo n (confirmWords 1) m) m
        resolveWaiting [0x21, 0x23] (fun _ => true) 1 0 [] (makePending p.revert p.instant true m1)
      | some (st, d) =>
        let yes := (setBits 16 p.asked).filter (fun n => p.replies.contains (n, 1))
        let m1 := yes.foldl (fun m n => relayTo n (confirmWords 0) m) m
        let m2 := updEpochs (fun e => { e with provisional := none }) m1
        raise F.sysCommitAborted d false (resolveWaiting [0x21, 0x23] (fun _ => true) st d [] m2)

/-- A provisional commit not confirmed by I − SYS_COMMIT_CONFIRM is dropped, with STAGED kept (R494 step 5). -/
def confirmDeadline (m : Module) : Module :=
  match m.epochs.provisional with
  | none => m
  | some p =>
    if m.isHead || m.time.count.toNat + m.num P.sysCommitConfirm < p.instant.toNat then m
    else updEpochs (fun e => { e with provisional := none }) m

/-! ## Status words -/

/-- EPOCH_STATUS (R573). -/
def epochStatus (m : Module) : Word :=
  let e := m.epochs
  let pend := match e.pending with
    | some p => if p.revert then 2 else 1
    | none => (match e.provisional with | some p => if p.revert then 2 else 1 | none => 0)
  let wide := e.provisional.isSome || e.pending.any (·.systemWide)
  pack [(if e.staged.isNone then 0 else if m.frozen then 2 else 1, 10), (pend, 8), (flag wide, 7),
        (flag e.flashPending, 6), (flag (e.cellar.isSome && !e.cellarBad), 5), (flag e.bootFallback, 4)]

/-- EPOCH_PENDING_TICK (R571). -/
def pendingTick (m : Module) : Tick :=
  match m.epochs.pending with
  | some p => p.instant
  | none => (m.epochs.provisional.map (·.instant)).getD 0

end Sys2Proof.Machine
end

