-- ==== Sys2Proof/Machine/Fabric.lean ====
section
/-!
DEFINITION. The control fabric: region memory and its checkpoint shadow (R120, R121), the start of a region (R44), what a
launch sees (R40, R70), the launch of an entry (R71, R133 … R135), arrivals at the collector (R104 … R112), the outcome
of an instance (R113) with the inverse transform of pass 2 (R143, R145), the slack records (R126 … R128).
-/

namespace Sys2Proof.Machine

/-! ## Region memory -/

/-- The fill value of region memory (R605): what an unlisted word reads as. DESIGN CHOICE, log entry 11. -/
def fillWord : Word := 0

/-- Words of a region's carried-state area: the first 16 KiB (R120). DESIGN CHOICE, log entry 11. -/
def carriedWords : Nat := 4096

/-- Words of region memory: 256 KiB (R602). -/
def regionWords : Nat := 65536

/-- A word of a sparse memory. -/
def memRead (a : Nat) (mem : List (Nat × Word)) : Word :=
  match mem.find? (fun p => p.1 == a) with
  | some p => p.2
  | none => fillWord

/-- A write keeps the list rising and free of fill values. -/
def memWrite (a : Nat) (w : Word) : List (Nat × Word) → List (Nat × Word)
  | [] => if w = fillWord then [] else [(a, w)]
  | p :: ps =>
    if p.1 < a then p :: memWrite a w ps
    else if p.1 = a then (if w = fillWord then ps else (a, w) :: ps)
    else if w = fillWord then p :: ps else (a, w) :: p :: ps

/-- The canonical form: addresses strictly rising inside region memory, no entry equal to the fill value. -/
def Memory.wf : List (Nat × Word) → Bool
  | [] => true
  | [p] => p.1 < regionWords && p.2 != fillWord
  | p :: q :: r => p.1 < q.1 && p.2 != fillWord && Memory.wf (q :: r)

/-- The part of region memory that is carried state. -/
def carriedPart (mem : List (Nat × Word)) : List (Nat × Word) := mem.filter (fun p => p.1 < carriedWords)

/-- The carried-state area reloaded from the shadow (R121 step 3). -/
def reload (r : Region) : Region :=
  { r with memory := r.shadow ++ r.memory.filter (fun p => carriedWords ≤ p.1) }

/-! ## Details and records -/

/-- The detail of a fabric fault: region, unit, entry (R141). -/
def fabricDetail (n unit entry : Nat) : Nat := n * 2 ^ 13 + unit * 2 ^ 9 + entry

/-- No record (R131). -/
def EntryRec.init : EntryRec :=
  { minSlack := 0xFFFF, lastSlack := 0xFFFF, minResolve := 0xFF, lastResolve := 0xFF, late := 0, saturated := false,
    alarm := false, resolveAlarm := false, consec := 0, outputs := [] }

/-- The record of an entry. -/
def Region.slackRec (r : Region) (e : Nat) : EntryRec :=
  match r.records.find? (fun p => p.1 == e) with
  | some p => p.2
  | none => EntryRec.init

/-- The records with that of one entry replaced. -/
def putRec (e : Nat) (v : EntryRec) : List (Nat × EntryRec) → List (Nat × EntryRec)
  | [] => [(e, v)]
  | p :: ps => if p.1 < e then p :: putRec e v ps else if p.1 = e then (e, v) :: ps else (e, v) :: p :: ps

/-- The record of an entry changed. -/
def Region.updRec (r : Region) (e : Nat) (f : EntryRec → EntryRec) : Region :=
  { r with records := putRec e (f (r.slackRec e)) r.records }

/-- The two data words of an entry's record (R131). -/
def EntryRec.words (v : EntryRec) (runAhead : Bool) : List Word :=
  [pack [(v.minSlack, 16), (v.lastSlack, 0)],
   pack [(if runAhead then v.minResolve else 0xFF, 24), (if runAhead then v.lastResolve else 0xFF, 16), (v.late, 8),
         (flag v.saturated, 2), (flag v.resolveAlarm, 1), (flag v.alarm, 0)]]

/-! ## Starting and stopping regions -/

/-- What executes in a region is gone: instances, their requests, units, lanes (R99). -/
def Region.quiet (r : Region) : Region :=
  { r with flight := [], requests := [], units := [], lanes := [] }

/-- A region as its die leaves reset or a fill: idle, memories filled, waiting for its first boundary; counts and the
marks of failed clusters stay (R44, R119, R605), but the consecutive-fallback counts of R123 begin anew. DESIGN
CHOICE, log entry 92. -/
def Region.restart (r : Region) : Region :=
  { r.quiet with started := false, waiting := true, held := false, checkpointValid := true, rebuilding := false,
                 reloadAt := false, records := r.records.map (fun p => (p.1, { p.2 with consec := 0, outputs := [] })),
                 clusters := Vector.replicate 4 { file := [], scratch := [] }, memory := [], shadow := [],
                 affected := [], samples := [] }

/-- A region that stops: what was in flight is gone. -/
def Region.stop (r : Region) : Region :=
  { r.quiet with started := false, waiting := false, held := false }

/-- The regions of a fabric die, 0 for CF0. -/
def regionsOf (d : Nat) (n : Fin 8) : Bool := n.val / 4 == d

/-- A function on every region of a fabric die. -/
def mapRegions (d : Nat) (f : Region → Region) (m : Module) : Module :=
  { m with regions := Vector.ofFn (fun n => if regionsOf d n then f m.regions[n] else m.regions[n]) }

/-- A region launches: started, its die running, no fill, BIST or reset, the count valid (R44, R66). -/
def Module.regionRuns (m : Module) (n : Fin 8) : Bool :=
  (m.regions[n]).started && !(m.regions[n]).held && m.dieRuns (regionDie n) && m.time.valid

/-! ## What a launch sees (R40, R70) -/

/-- The image an instance of region `n` runs under: past a switch the old epoch's (R72, R566 step 4). -/
def Module.imageOf (m : Module) (n : Fin 8) (i : Instance) : Image :=
  if i.oldEpoch then m.epochs.previous else m.regionImage n

/-- The module with region `n` under the epoch an instance runs under (R72). -/
def Instance.underEpoch (i : Instance) (n : Fin 8) (m : Module) : Module :=
  { m with epochs := { m.epochs with onOld := Vector.upd m.epochs.onOld n (fun b => b || i.oldEpoch) } }

/-- What the functions of the module hold now. -/
def Module.saved (m : Module) : Saved :=
  { traction := m.traction, chopper := m.chopper, converter := m.converter, charger := m.charger,
    actuators := m.actuators, live := m.live }

/-- The module as a launch saw it, in what the functions hold. -/
def Saved.view (s : Saved) (m : Module) : Module :=
  { m with traction := s.traction, chopper := s.chopper, converter := s.converter, charger := s.charger,
           actuators := s.actuators, live := s.live }

/-- The state of the plausibility models of a traction channel, which the supervision region carries (R219, R120), taken from
`src`. -/
def Traction.withModels (src t : Traction) : Traction :=
  { t with outsideFor := src.outsideFor, plausAlpha := src.plausAlpha, plausBeta := src.plausBeta }

/-- The part of region `n` of an image taken from one set of structures into another: a traction region its channel, region 2
the DC link, region 3 the charger, the actuators' region the actuators, the supervision region its models. -/
def Saved.take (n : Nat) (img : Image) (from_ into : Saved) : Saved :=
  let s1 := if h : n < 2 then
      { into with traction := into.traction.set n ((into.traction[n]).withModels from_.traction[n]) h } else into
  let s2 := if n = 2 then
      { s1 with chopper := from_.chopper, converter := { from_.converter with plausFor := into.converter.plausFor } } else s1
  let s3 := if n = 3 then { s2 with charger := { from_.charger with plausFor := into.charger.plausFor } } else s2
  let s4 := if n = img.supRegion then
      { s3 with traction := Vector.ofFn (fun c => (from_.traction[c]).withModels s3.traction[c]),
                converter := { s3.converter with plausFor := from_.converter.plausFor },
                charger := { s3.charger with plausFor := from_.charger.plausFor } } else s3
  if n = img.axRegion then { s4 with actuators := from_.actuators } else s4

/-- What a launch of region `n` sees: its own region as it stands, the others as the fabric exchange shows them, the
live-class parameters (R40, R70). -/
def Module.seenBy (m : Module) (n : Fin 8) : Saved :=
  Saved.take n.val (m.regionImage n) m.saved { m.published with live := m.live }

/-- The carried state of a traction channel and of its reference path taken from a checkpoint (R120, R197, R206). The leg
transitions of R225 are a record of what has landed in the GDC, and no rollback takes them back. DEDUCED, log entry 96. -/
def Traction.restore (c t : Traction) : Traction :=
  { t with carried := c.carried, tref := c.tref, psiRef := c.psiRef, ramp := c.ramp, x1 := c.x1, x2 := c.x2, y1 := c.y1,
           y2 := c.y2, speedRef := c.speedRef, integ := c.integ, clampSide := c.clampSide, fwTrim := c.fwTrim,
           idCmd := c.idCmd, fwCount := c.fwCount }

/-- The carried state of the DC link entries taken from a checkpoint (R301, R305, R310). -/
def Converter.restore (c v : Converter) : Converter :=
  { v with comp := c.comp, vrefRamp := c.vrefRamp, vref := c.vref, itot := c.itot }

/-- The carried state of the charger's entries taken from a checkpoint (R301, R317, R326, R330, R334). -/
def Charger.restore (c v : Charger) : Charger :=
  { v with pf := c.pf, pv := c.pv, db := c.db, timerW := c.timerW, timerHalf := c.timerHalf,
           phase := if v.session then c.phase else v.phase,
           target := c.target, integ := c.integ, pref := c.pref, busRef := c.busRef, gridAngle := c.gridAngle,
           gridInteg := c.gridInteg, acHist := c.acHist }

/-- The carried state of an actuator's entries taken from a checkpoint (R301, R387). -/
def Actuator.restore (c v : Actuator) : Actuator := { v with comp := c.comp, ref := c.ref, settleSince := c.settleSince }

/-- The carried state of a region's functions is that of its checkpoint (R121 step 3). -/
def restoreCarried (n : Fin 8) (c : Saved) (m : Module) : Module :=
  let m1 := if h : n.val < 2 then updTraction ⟨n.val, h⟩ (fun t => (c.traction[n.val]).restore t) m else m
  let m2 := if n.val = 2 then { m1 with converter := c.converter.restore m1.converter,
                                        chopper := { m1.chopper with resPower := c.chopper.resPower } } else m1
  let m3 := if n.val = 3 then { m2 with charger := c.charger.restore m2.charger } else m2
  let m4 := if n.val = (m.regionImage n).supRegion then
      { m3 with traction := Vector.ofFn (fun k => (c.traction[k]).withModels m3.traction[k]),
                converter := { m3.converter with plausFor := c.converter.plausFor },
                charger := { m3.charger with plausFor := c.charger.plausFor } } else m3
  if n.val = (m.regionImage n).axRegion then
    { m4 with actuators := Vector.ofFn (fun a => (c.actuators[a]).restore m4.actuators[a]) }
  else m4

/-- The checkpoint of a region is what its functions hold now, while its shadow is valid (R39, R115). -/
def keepCheckpoint (n : Fin 8) (m : Module) : Module :=
  if (m.regions[n]).checkpointValid then
    { m with checkpoints := Saved.take n.val (m.regionImage n) m.saved m.checkpoints }
  else m

/-! ## Launch -/

/-- The entry is due: the count is a boundary plus its LAUNCH_OFFSET (R69). -/
def Module.launchDue (m : Module) (n : Fin 8) (w0 : Word) : Bool :=
  let p := m.rnum n (P.regionPeriod + n.val)
  let o := m.rnum n (P.regionPhase + n.val) + launchOffset w0
  p != 0 && o ≤ m.time.count.toNat && (m.time.count.toNat - o) % p == 0

/-- The period number of an instance launched now: of the boundary at or before its launch (R133). -/
def Module.launchPeriod (m : Module) (n : Fin 8) (w0 : Word) : Nat :=
  (m.time.count.toNat - launchOffset w0 - m.rnum n (P.regionPhase + n.val)) / m.rnum n (P.regionPeriod + n.val)

/-- The instance is skipped at the region's throttle level (R133, R135): SKIPPABLE is class 2. -/
def skipped (level : Nat) (w0 : Word) (period : Nat) : Bool :=
  launchClass w0 == 2 && (2 ≤ level || (level == 1 && period % 2 == 1))

/-- A cluster of the mask is marked failed (R100, R137). -/
def Region.hitsFailed (r : Region) (w0 : Word) : Bool := clusterMask w0 &&& (r.stuck ||| r.failed) != 0

/-- The lanes a launch takes in a region of period `p`: one for each branch of each pass (R103, R196). -/
def newLanes (p : Nat) (table : List (Nat × Word × Word)) (i : Instance) : List Lane :=
  let w0 := i.word0
  let w1 := i.word1
  let per := ((libDecl (libraryEntry w1)).map (·.lanes)).getD 0
  [false, true].flatMap (fun s => if s && !isRedundant w0 then [] else
    (List.range per).map (fun b =>
      let l := laneOf p table (i.entry, w0, w1) b s
      { cluster := l.1, number := l.2, entry := i.entry, launch := i.launch, second := s, branch := b, unit := none, words := [], candidates := [],
        freeFrom := none }))

/-- The stores of a region as an instance starts in them: its units begin with cleared windows (R28), the written flags of
its declared register-file entries are cleared (R31), its lanes are taken (R103, R109). -/
def beginUnits (i : Instance) (p : Nat) (table : List (Nat × Word × Word)) (r : Region) : Region :=
  let us := unitsOf i.word0 i.word1
  let es := (declOf (libraryEntry i.word1)).fileEntries
  let ls := if i.lanesOn then newLanes p table i else []
  { r with
    units := r.units.filter (fun x => !us.contains x.unit) ++
      us.map (fun u => { unit := u, entry := i.entry, launch := i.launch, pc1 := 0, pc2 := 0, steps := 0, lane1 := none,
                              lane2 := none, window := [] }),
    clusters := Vector.ofFn (fun c => if (clusterMask i.word0).testBit c.val then
      { r.clusters[c] with file := (r.clusters[c]).file.filter (fun p => !es.contains p.1) } else r.clusters[c]),
    lanes := r.lanes.filter (fun l => !ls.any (fun k => k.cluster == l.cluster && k.number == l.number)) ++ ls }

/-- The decision entries of the library. -/
def isDecision (lib : Nat) : Bool := lib == 0x040 || lib == 0x041

/-- A traction decision whose carried state holds no period stamp takes the full computation (R679). -/
def Module.unstamped (m : Module) (n : Fin 8) (lib : Nat) : Bool :=
  if h : n.val < 2 then isDecision lib && ((m.traction[n.val]).carried.stamp).isNone else false

/-- A start of a launch, a commit instant on the tap of a region: a toggle on crossing 14 + n (R81, R90). -/
def tapToggle (n : Fin 8) (m : Module) : Module :=
  let i : Fin 22 := ⟨14 + n.val, by omega⟩
  strobe i m

/-- The start of an instance (R71, R95, R99, R108, R679). No sample word that came before its launch counts as arrived for it
(R88). DESIGN CHOICE, log entry 76. -/
def startInstance (n : Fin 8) (e : Nat) (w0 w1 : Word) (m : Module) : Module :=
  let r := m.regions[n]
  let dead := r.hitsFailed w0 || r.affected.contains e
  let suspended := isRunAhead w0 && (2 ≤ r.level || m.unstamped n (libraryEntry w1)) && !dead
  let c := m.time.count + BitVec.ofNat 64 (commitDelta w1 + (if suspended then deferOf (libraryEntry w1) else 0))
  let i : Instance :=
    { entry := e, word0 := w0, word1 := w1, launch := m.time.count, commit := c, period := m.launchPeriod n w0,
      lanesOn := isRunAhead w0 && !suspended && !dead, deferred := suspended, missed := false,
      notLaunched := dead, quenched := false, blocked := false, range := false, range2 := false, invalid := false,
      waiting := false, arrived := [], accepted := [], oldEpoch := false, seen := m.seenBy n, exchange := m.exchange }
  updRegion n (fun r =>
    let r1 := if dead then r else beginUnits i (m.rnum n (P.regionPeriod + n.val)) ((m.regionImage n).table n.val) r
    { r1 with flight := r.flight ++ [i] }) (tapToggle n m)

/-- LAUNCH of entry `e` of region `n` (R71, R133 … R135): nothing where the entry is empty or not due, the region does not
launch, or its traction channel is not in use (R218). -/
def launch (n : Fin 8) (e : Nat) (m : Module) : Module :=
  let w := (m.regionImage n).entry n.val e
  if !m.regionRuns n || clusterMask w.1 == 0 || !m.launchDue n w.1 || (n.val < 2 && !(m.regionImage n).trOn n.val) then m
  else if skipped (m.regions[n]).level w.1 (m.launchPeriod n w.1) then
    updRegion n (fun r => { r with skips := inc32 r.skips }) m
  else startInstance n e w.1 w.2 m

/-! ## Arrivals -/

/-- A sample word reaches the region: key trigger · 512 + 256 · AFE + channel code (R404); instances in flight have it from
now on (R88, R105). -/
def sampleArrives (n : Fin 8) (key : Nat) (w : Word) (m : Module) : Module :=
  updRegion n (fun r => { r with
    samples := (key, w) :: r.samples.filter (fun p => p.1 != key),
    flight := r.flight.map (fun i => { i with arrived := key :: i.arrived.filter (· != key) }) }) m

/-- A request is raised at a collector input for an instance in flight. -/
def request (n : Fin 8) (input : Nat) (e : Nat × Tick) (item : Item) (m : Module) : Module :=
  updRegion n (fun r =>
    if r.flight.any (fun i => i.id == e && !i.quenched) then
      { r with requests := r.requests ++ [{ input := input, entry := e.1, launch := e.2, item := item }] }
    else r) m

/-- The pending request with the lowest input index (R110). -/
def lowest : List Request → Option Request
  | [] => none
  | q :: qs => match lowest qs with
    | some p => if q.input ≤ p.input then some q else some p
    | none => some q

/-- The collector takes the request of the lowest input: the arrival gets this tick as its acceptance tick (R111). -/
def accept (n : Fin 8) (m : Module) : Module :=
  match lowest (m.regions[n]).requests with
  | none => m
  | some q =>
    updRegion n (fun r => { r with
      requests := r.requests.erase q,
      flight := updFlight q.id (fun i => { i with accepted := i.accepted ++ [(q.item, m.time.count)] }) r.flight }) m

/-! ## The outcome of an instance -/

/-- The exponent of the transform (R143). -/
def exponentK (n period : Nat) : Int := 2 * (((period + n) % 5 : Nat) - 2 : Int)

/-- The words of a pass in time: accepted before the applicable commit instant (R111). -/
def Instance.delivered (i : Instance) (second : Bool) : List Deliver :=
  i.accepted.filterMap (fun a => match a.1 with
    | .word d => if d.second == second && a.2.toNat < i.commit.toNat then some d else none
    | _ => none)

/-- The key of a pass in time: branch or miss code 0x1F, with its tick (R105). -/
def Instance.key (i : Instance) (second : Bool) : Option (Nat × Tick) :=
  i.accepted.findSome? (fun a => match a.1 with
    | .key s k => if s == second && a.2.toNat < i.commit.toNat then some (k, a.2) else none
    | _ => none)

/-- The lane-complete signal of the lane of a branch of a pass, in time. -/
def Instance.laneDone (i : Instance) (second : Bool) (branch : Nat) : Bool :=
  i.accepted.any (fun a => match a.1 with
    | .lane s l => s == second && l == branch && a.2.toNat < i.commit.toNat
    | _ => false)

/-- The miss code (R105). -/
def missCode : Nat := 0x1F

/-- The passes of an instance. -/
def Instance.passes (i : Instance) : List Bool := if isRedundant i.word0 then [false, true] else [false]

/-- An undeferred run-ahead instance. -/
def Instance.aheadNow (i : Instance) : Bool := isRunAhead i.word0 && !i.deferred

/-- The output words an instance declares. -/
def Instance.outputCount (i : Instance) : Nat := ((libDecl (libraryEntry i.word1)).map (·.outputs)).getD 0

/-- The lane of a branch of a pass that an instance holds. -/
def Region.laneFor (r : Region) (i : Instance) (second : Bool) (branch : Nat) : Option Lane :=
  r.lanes.find? (fun l => l.id == i.id && l.second == second && l.branch == branch && l.freeFrom.isNone)

/-- What an instance brings to its commit instant: whether a unit still waits for it (R32), and for an undeferred run-ahead
instance the candidate words of the lanes its keys name (R35, R106); the words of the other lanes are dropped (R109). -/
def gather (r : Region) (i : Instance) : Instance :=
  if !i.aheadNow then { i with waiting := r.stillWaits i }
  else
    { i with waiting := r.stillWaits i, accepted := i.accepted.filter (fun a => match a.1 with | .word _ => false | _ => true) ++
        i.passes.flatMap (fun s => match i.key s with
          | none => []
          | some (k, t) => if !i.laneDone s k then [] else
              (((r.laneFor i s k).map (·.candidates)).getD []).map (fun d => (.word { d with second := s }, t))) }

/-- A pass has brought every output word and every staged write that its entry declares, so that the instance can commit as a
whole (R112, R114). DEDUCED, log entry 95. -/
def Instance.whole (i : Instance) (second : Bool) : Bool :=
  (List.range i.outputCount).all (fun p => (i.delivered second).any (fun d => !d.staged && d.place == p)) &&
  (declOf (libraryEntry i.word1)).staged.all (fun w => (i.delivered second).any (fun d => d.staged && d.place == w.1))

/-- An instance is late (R32, R88, R112, R114): a read still waits, a key of a pass, the chosen lane's signal, an output word,
a staged write or a sample word that the declaration names is missing. -/
def Instance.late (samples : List Nat) (i : Instance) : Bool :=
  i.waiting || samples.any (fun k => !i.arrived.contains k) ||
  i.passes.any (fun s =>
    if i.aheadNow then
      match i.key s with
      | none => true
      | some (k, _) => k != missCode && (!i.laneDone s k || !i.whole s)
    else !i.whole s)

/-- Every key misses (R106). -/
def Instance.missAll (i : Instance) : Bool :=
  i.aheadNow && i.passes.all (fun s => (i.key s).any (fun k => k.1 == missCode))

/-- A word of one pass has no equal in the other after the inverse transform, with the class its entry declares (R145,
R155), or the keys differ (R113 row 6); a RANGE flag of either pass or an uncorrectable word makes every word differ
(R150, R606). -/
def Instance.mismatch (n : Nat) (i : Instance) : Bool :=
  i.invalid ||
  (isRedundant i.word0 &&
   (i.range || i.range2 ||
    (i.aheadNow && (i.key false).map (·.1) != (i.key true).map (·.1)) ||
    (let k := exponentK n i.period
     let a := i.delivered false
     let b := i.delivered true
     let same (p q : Deliver) : Bool := p.staged == q.staged && p.place == q.place
     let cls (d : Deliver) : WClass := (declClass (libraryEntry i.word1) d.staged d.place).getD .x
     a.any (fun p => !b.any (fun q => same p q && inverse k (cls q) q.value == p.value)) ||
     b.any (fun q => !a.any (fun p => same p q)))))

/-- The outcomes of R113. -/
inductive Outcome where
  | notLaunched | quench | violation | late | deferred | mismatch | clean
deriving DecidableEq, Repr

/-- The first row of R113 that holds. -/
def Instance.outcome (n : Nat) (samples : List Nat) (i : Instance) : Outcome :=
  if i.notLaunched then .notLaunched
  else if i.quenched then .quench
  else if i.blocked then .violation
  else if i.late samples then .late
  else if i.missAll then .deferred
  else if i.mismatch n then .mismatch
  else .clean

/-- The outcome is a fallback that counts and rolls back (R121, R123). -/
def Outcome.isFallback : Outcome → Bool
  | .notLaunched | .violation | .late | .mismatch => true
  | _ => false

/-! ## Slack (R126 … R128) -/

/-- The ticks from an acceptance to the commit instant, at most 0xFFFE. -/
def slackTo (c t : Tick) : Nat := Nat.min 0xFFFE (c.toNat - t.toNat)

/-- The slack of an instance in time: from the latest of the arrivals that count (R126). -/
def Instance.slack (i : Instance) : Nat :=
  (i.accepted.filterMap (fun a => match a.1 with
    | .word d => if !i.aheadNow && !d.staged then some (slackTo i.commit a.2) else none
    | .lane _ _ => if i.aheadNow then some (slackTo i.commit a.2) else none
    | .key _ _ => none)).foldl Nat.min 0xFFFE

/-- The resolve slack of an undeferred run-ahead instance whose keys were in time (R127). -/
def Instance.resolveSlack (i : Instance) : Option Nat :=
  if i.aheadNow && i.passes.all (fun s => (i.key s).isSome) then
    some (i.passes.foldl (fun a s => Nat.min a (((i.key s).map (fun k => slackTo i.commit k.2)).getD 0xFE)) 0xFE)
  else none

/-- The record after an instance that is late or in time, with the region's slack margin and the entry's resolve margin. -/
def EntryRec.note (v : EntryRec) (late : Bool) (slack : Nat) (resolve : Option Nat) (margin rmargin : Nat) : EntryRec :=
  let s := if late then 0 else slack
  let v1 := { v with
    minSlack := if v.minSlack = 0xFFFF then s else Nat.min v.minSlack s, lastSlack := s,
    late := if late then satAdd 255 v.late 1 else v.late,
    saturated := v.saturated || (late && 254 ≤ v.late),
    alarm := v.alarm || s < margin }
  match resolve with
  | none => v1
  | some k => { v1 with
      minResolve := if v.minResolve = 0xFF then k else Nat.min v.minResolve k, lastResolve := k,
      resolveAlarm := v.resolveAlarm || k < rmargin }

/-- The slack of an instance is recorded, 0 where it is late whatever its outcome, with the alarm fault when an alarm bit
rises (R126, R128). -/
def noteSlack (n : Fin 8) (samples : List Nat) (i : Instance) (m : Module) : Module :=
  if i.quenched ∨ i.notLaunched then m
  else
    let old := (m.regions[n]).slackRec i.entry
    let new := old.note (i.late samples) i.slack i.resolveSlack ((m.imageOf n i).num (P.slackMargin + n.val))
      (marginOf (libraryEntry i.word1))
    let m1 := updRegion n (fun r => r.updRec i.entry (fun _ => new)) m
    if (new.alarm && !old.alarm) || (new.resolveAlarm && !old.resolveAlarm) then
      raise F.fabricSlackAlarm (fabricDetail n.val 0 i.entry) false m1
    else m1

/-! ## Fallback and rollback -/

/-- The passes of an instance that set RANGE (R173). -/
def Instance.ranges (i : Instance) : Nat := flag i.range + flag (i.range2 && isRedundant i.word0)

/-- The counts of an outcome (R123, R125, R139, R173). A quench counts when the rollback quenches the instance. -/
def countOutcome (n : Fin 8) (i : Instance) (o : Outcome) (m : Module) : Module :=
  let m1 := updRegion n (fun r =>
    let r1 := match o with
      | .late => { r with lates := inc32 r.lates }
      | .mismatch => { r with mismatches := inc32 r.mismatches }
      | .deferred => { r with misses := inc32 r.misses }
      | _ => r
    let r2 := if o.isFallback then { r1 with fallbacks := inc32 r1.fallbacks, window := r1.window + 1 } else r1
    let r3 := if o = .notLaunched ∨ o = .deferred then r2 else { r2 with ranges := satAdd 0xFFFFFFFF r2.ranges i.ranges }
    if o.isFallback then r3.updRec i.entry (fun v => { v with consec := satAdd 31 v.consec 1 })
    else if o = .clean then r3.updRec i.entry (fun v => { v with consec := 0 })
    else r3) m
  let m2 := if o = .violation then
    raise F.fabricAccessViolation (fabricDetail n.val 0 i.entry) false m1 else m1
  let m3 := if o.isFallback && (m.imageOf n i).num (P.fallbackLimit + n.val) ≤ ((m2.regions[n]).slackRec i.entry).consec then
    raise F.fabricFallbackLimit (fabricDetail n.val 0 i.entry) true m2 else m2
  if o = .clean then endCond F.fabricFallbackLimit (fabricDetail n.val 0 i.entry) m3 else m3

/-- Units abandon some instances and become idle, their requests are withdrawn, their lanes freed from the
next tick on (R99, R109). -/
def Region.release (r : Region) (es : List (Nat × Tick)) (now : Nat) : Region :=
  { r with
    units := r.units.filter (fun x => !es.contains x.id),
    requests := r.requests.filter (fun q => !es.contains q.id),
    lanes := r.lanes.map (fun l => if es.contains l.id && l.freeFrom.isNone then
      { l with freeFrom := some (now + 1) } else l) }

/-- An instance a rollback at an instant quenches: launched before it, to commit after it (R121 step 2). -/
def Instance.inFlightAt (i : Instance) (now : Nat) : Bool := decide (i.launch.toNat < now) && decide (now < i.commit.toNat)

/-- The rollback a fallback starts (R121): every other instance in flight is quenched and counted (R99, R139), the carried
state reloaded where the shadow is valid (R122). The quench is counted here, not at the instance's own commit. DESIGN
CHOICE, log entry 64. -/
def rollback (n : Fin 8) (m : Module) : Module :=
  let now := m.time.count.toNat
  let m1 := updRegion n (fun r =>
    let hit := r.flight.filter (fun i => i.inFlightAt now && !i.quenched)
    let r1 := (r.release (hit.map (·.id)) now)
    let r2 := { r1 with
      flight := r.flight.map (fun i => if i.inFlightAt now then { i with quenched := true } else i),
      quenches := satAdd 0xFFFFFFFF r.quenches hit.length }
    if r2.checkpointValid then reload r2 else r2) m
  if !(m.regions[n]).checkpointValid then m1
  else
    let bad := m.memory.bad.filter (fun p => p.1 != 16 + 16 * n.val || carriedWords / 2 ≤ p.2)
    restoreCarried n m.checkpoints { m1 with memory := { m1.memory with bad := bad } }

/-- The staged writes of a clean commit, copied into the shadow where they fall into the carried state (R115); a rebuild
of an invalid shadow starts (R122). Passes that run read them at once. DESIGN CHOICE, log entry 77. -/
def applyStaged (n : Fin 8) (i : Instance) (m : Module) : Module :=
  updRegion n (fun r =>
    let ws := (i.delivered false).filter (fun d => d.staged && d.place < regionWords)
    let mem := ws.foldl (fun mm d => memWrite d.place d.value mm) r.memory
    { r with memory := mem, shadow := if r.checkpointValid then carriedPart mem else r.shadow,
             rebuilding := r.rebuilding || !r.checkpointValid }) m

/-- The output words of a clean commit are the entry's committed ones (R118). -/
def keepOutputs (n : Fin 8) (i : Instance) (m : Module) : Module :=
  updRegion n (fun r => r.updRec i.entry (fun v => { v with
    outputs := ((i.delivered false).filter (fun d => !d.staged)).map (fun d => (d.place, d.value)) })) m

/-- The counting windows in progress end and the counts restart (R125, R168, R205, R283, R354, R608). DEDUCED, log
entry 59. -/
def windowsEnd (m : Module) : Module :=
  { m with
    regions := m.regions.map (fun r => { r with window := 0, windowRaised := false }),
    lockstep := { m.lockstep with window := 0, windowRaised := false },
    memory := { m.memory with scrubbers := m.memory.scrubbers.map (fun s => { s with window := 0, windowRaised := false }) },
    traction := m.traction.map (fun t => { t with missWindow := 0, missRaised := false }),
    feedback := m.feedback.map (fun f => { f with window := 0, windowRaised := false }),
    islands := m.islands.map (fun i => { i with window := 0, windowRaised := false }) }

/-- COUNT_WINDOW_END: at a count divisible by 400,000,000 a window begins; after a step of the count it keeps the events
counted since the step (R482). -/
def windowBegin (m : Module) : Module :=
  if m.time.count.toNat % 400000000 != 0 then m
  else if m.time.carryWindow then { m with time := { m.time with carryWindow := false } }
  else windowsEnd m

/-- A window count over its limit raises its fault once per window and region (R125). -/
def checkRate (n : Fin 8) (m : Module) : Module :=
  let r := m.regions[n]
  if m.rnum n P.fallbackRateLimit < r.window && !r.windowRaised then
    raise F.fabricFallbackRate (fabricDetail n.val 0 0) false (updRegion n (fun r => { r with windowRaised := true }) m)
  else m

/-- A unit not idle 16 ticks after a quench: its cluster is failed (R100); unit u lies in cluster u / 4 (R27). -/
def unitStuck (n : Fin 8) (u : Fin 16) (m : Module) : Module :=
  raise F.fabricUnitStuck (fabricDetail n.val u.val 0) false
    (updRegion n (fun r => { r with stuck := r.stuck ||| 2 ^ (u.val / 4) }) m)

/-! ## READ_SLACK (R130 … R132) -/

/-- READ_SLACK, with CLEAR as the word has it. -/
def readSlackV (h : Hdr) (ws : List Word) (m : Module) : Verdict :=
  let w := ws.getD 0 0
  let n : Fin 8 := ⟨bits w 18 16, by
    have : bits w 18 16 < 2 ^ (18 + 1 - 16) := Nat.mod_lt _ (by decide)
    exact this⟩
  let cnt := bits w 15 10
  let first := bits w 8 0
  unlessFails (firstFail
    [failIf (ws.length != 1) .badLength,
     failIf (h.timed || bits w 31 21 != 0 || bit w 19 || bit w 9 || cnt == 0) .reservedEncoding,
     checkRelayed 0x77 h m,
     failIf (512 < first + cnt || 30 < cnt) .outOfRange,
     failIf (!m.dieRuns (regionDie n)) .domainStopped])
    (let idx := (List.range cnt).map (first + ·)
     let data := idx.flatMap (fun e =>
       if clusterMask ((m.regionImage n).entry n.val e).1 = 0 then EntryRec.init.words false
       else ((m.regions[n]).slackRec e).words (isRunAhead ((m.regionImage n).entry n.val e).1))
     let m1 := if bit w 20 then
         updRegion n (fun r => { r with records := r.records.map (fun p =>
           if idx.contains p.1 then (p.1, p.2.cleared) else p) }) m
       else m
     .done data m1)

end Sys2Proof.Machine
end

