-- ==== Sys2Proof/Machine/Traction.lean ====
section
/-!
DEFINITION. The torque control of a traction channel: the estimator (R178 … R186), the comparators and the switching table
(R187 … R192), the decision with its prediction (R196 … R203, R679), the measurement latch (R202), the reference path
(R206 … R209, R228 … R234), the start (R235 … R238), the plausibility model (R219), the safe pattern (R249 … R251).
Binary32 formulas are evaluated operation by operation in the order in which the rules write them.
-/

namespace Sys2Proof.Machine

open F32 (add sub mul div sqrt lt le fmin fmax clamp negate)

/-! ## Constants -/

def fTwoPi : Word := 0x40C90FDB
def fPi : Word := 0x40490FDB
def fHalfPi : Word := 0x3FC90FDB
def fSqrt3 : Word := 0x3FDDB3D7
def fOneAndHalf : Word := 0x3FC00000
def fSixty : Word := 0x42700000
def fOne : Word := 0x3F800000
def fTwo : Word := 0x40000000
def fThree : Word := 0x40400000

/-- Ticks as seconds. DEDUCED, log entry 9. -/
def secs (t : Nat) : Word := div (F32.ofNat t) (F32.ofNat 400000000)

/-- A vector of the stationary or the rotor frame. -/
structure Vec2 where
  x : Word
  y : Word
deriving DecidableEq, Repr

def Vec2.add (a b : Vec2) : Vec2 := ⟨F32.add a.x b.x, F32.add a.y b.y⟩
def Vec2.sub (a b : Vec2) : Vec2 := ⟨F32.sub a.x b.x, F32.sub a.y b.y⟩
def Vec2.scale (k : Word) (a : Vec2) : Vec2 := ⟨F32.mul k a.x, F32.mul k a.y⟩
def Vec2.mag (a : Vec2) : Word := sqrt (F32.add (mul a.x a.x) (mul a.y a.y))

/-- Rotation from the rotor frame at angle θ into the stationary frame, and back (R180). -/
def toStator (th : Word) (d : Vec2) : Vec2 :=
  ⟨sub (mul (Config.cos th) d.x) (mul (Config.sin th) d.y), F32.add (mul (Config.sin th) d.x) (mul (Config.cos th) d.y)⟩
def toRotor (th : Word) (a : Vec2) : Vec2 :=
  ⟨F32.add (mul (Config.cos th) a.x) (mul (Config.sin th) a.y), sub (mul (Config.cos th) a.y) (mul (Config.sin th) a.x)⟩

/-! ## Vectors (R179) -/

/-- The high sides of a vector, bit 0 U, bit 1 V, bit 2 W (R179). -/
def legsOf (v : Nat) : Nat :=
  match v with
  | 1 => 1 | 2 => 3 | 3 => 2 | 4 => 6 | 5 => 4 | 6 => 5 | 7 => 7 | _ => 0

/-- The sign of a value as a binary32 word. DESIGN CHOICE, log entry 67. -/
def signWord (w : Word) : Word := if F32.key w < 0 then negate fOne else if F32.key w = 0 then 0 else fOne

/-- The level a leg takes while neither of its switches is on: DC− with a positive current, DC+ with a negative one; with
none it has no level of its own. DESIGN CHOICE, log entry 67. -/
def freeLevel (i : Word) : Option Word := if F32.key i < 0 then some fOne else if F32.key i = 0 then none else some 0

/-- The switching functions of the legs over an interval of which the dead time takes `share`: a leg that changes state
stands at its free level for that long (R179). -/
def legLevels (new old : Nat) (i : List Word) (share : Word) : List Word :=
  (List.range 3).map (fun k =>
    let s : Word := if (legsOf new).testBit k then fOne else 0
    if (legsOf new).testBit k != (legsOf old).testBit k then
      match freeLevel (i.getD k 0) with
      | some l => add s (mul (sub l s) share)
      | none => s
    else s)

/-- The stationary-frame voltage of leg levels (R179). -/
def voltage (vdc : Word) (s : List Word) : Vec2 :=
  let u := s.getD 0 0
  let v := s.getD 1 0
  let w := s.getD 2 0
  ⟨mul (div vdc fThree) (sub (sub (mul fTwo u) v) w), mul (div vdc fSqrt3) (sub v w)⟩

/-- The stationary-frame currents (R178). -/
def alphaBeta (u v w : Word) : Vec2 := ⟨div (sub (sub (mul fTwo u) v) w) fThree, div (sub v w) fSqrt3⟩

/-! ## Motor constants of a channel -/

structure Motor where
  rs : Word
  ld : Word
  lq : Word
  psi : Word
  p : Word
  /-- forward is θe decreasing (R221) -/
  reversed : Bool
deriving DecidableEq, Repr

/-- The constants of a channel's motor as region `n` has them (R48, R180, R221). -/
def Module.motorOf (m : Module) (n : Fin 8) (c : Fin 2) : Motor :=
  let par (id : Nat) : Word := m.rpar n (id + 0x1000 * c.val)
  { rs := par P.trRs, ld := par P.trLd, lq := par P.trLq, psi := par P.trPsiPm,
    p := F32.ofNat (par P.trPolePairs).toNat, reversed := par P.trForwardDir == 1 }

/-- The constants a channel's own region runs. -/
def Module.motor (m : Module) (c : Fin 2) : Motor := m.motorOf ⟨c.val, by omega⟩ c

/-- A quantity of the θe-increasing convention in the convention of R19, or back. -/
def Motor.signed (k : Motor) (w : Word) : Word := if k.reversed then negate w else w

/-- Mechanical rpm from electrical rad/s, and back (R180). -/
def Motor.rpm (k : Motor) (w : Word) : Word := div (mul w fSixty) (mul fTwoPi k.p)
def Motor.elec (k : Motor) (n : Word) : Word := div (mul (mul fTwoPi k.p) n) fSixty

/-- The current-model flux in the stationary frame (R180, R181). -/
def Motor.currentFlux (k : Motor) (th : Word) (i : Vec2) : Vec2 :=
  let d := toRotor th i
  toStator th ⟨add (mul k.ld d.x) k.psi, mul k.lq d.y⟩

/-- The inductance matrix applied to a current difference (R199). DEDUCED, log entry 28. -/
def Motor.applyM (k : Motor) (th : Word) (e : Vec2) : Vec2 :=
  if k.ld = k.lq then ⟨mul k.ld e.x, mul k.ld e.y⟩ else
  let c := Config.cos th
  let s := Config.sin th
  let off := mul (mul (sub k.ld k.lq) s) c
  ⟨add (mul (add (mul k.ld (mul c c)) (mul k.lq (mul s s))) e.x) (mul off e.y),
   add (mul off e.x) (mul (add (mul k.ld (mul s s)) (mul k.lq (mul c c))) e.y)⟩

/-- The torque of a flux and a current (R184). -/
def Motor.torque (k : Motor) (f i : Vec2) : Word :=
  mul (mul fOneAndHalf k.p) (sub (mul f.x i.y) (mul f.y i.x))

/-! ## Blending (R183, R185) -/

/-- The position of the channel is taken from the sensorless model: not valid and permitted (R185). -/
def Module.sensorless (m : Module) (c : Fin 2) : Bool :=
  !(m.traction[c]).sample.posOk && m.rpar ⟨c.val, by omega⟩ (P.fbSensorlessPermit + 0x40 * c.val) == 1

/-- The weight of the voltage model at speed n (R183); 1 in the period in which the position becomes valid again (R185). -/
def Module.weight (m : Module) (c : Fin 2) (n : Word) : Word :=
  if m.sensorless c || (m.traction[c]).carried.sensorless then fOne else
  let r := m.tpar c P.trRatedSpeed
  let lo := mul (m.tpar c P.trBlendLow) r
  let a := F32.abs n
  if le a lo then 0
  else if le (mul (m.tpar c P.trBlendHigh) r) a then fOne
  else div (sub a lo) (mul (sub (m.tpar c P.trBlendHigh) (m.tpar c P.trBlendLow)) r)

/-- The blended flux (R183). -/
def blend (w : Word) (i v : Vec2) : Vec2 := (Vec2.scale (sub fOne w) i).add (Vec2.scale w v)

/-! ## Comparators and table (R187 … R192) -/

/-- The flux comparator (R187). -/
def fluxRequest (band e : Word) (prev : Bool) : Bool :=
  let h := div band fTwo
  if lt h e then true else if lt e (negate h) then false else prev

/-- The torque comparator (R188). -/
def torqueRequest (h e : Word) (prev : Int) : Int :=
  if prev = 1 then (if lt e (negate h) then -1 else if le e 0 then 0 else 1)
  else if prev = -1 then (if lt h e then 1 else if le 0 e then 0 else -1)
  else (if lt h e then 1 else if lt e (negate h) then -1 else 0)

/-- The sector of a flux, `predicted` at zero flux (R190). -/
def sectorOf (f : Vec2) (predicted : Nat) : Nat :=
  let g1 := mul fTwo f.x
  let g2 := sub (mul fSqrt3 f.y) f.x
  let g3 := sub (negate (mul fSqrt3 f.y)) f.x
  let c := 4 * flag (le 0 g1) + 2 * flag (le 0 g2) + flag (le 0 g3)
  match c with
  | 4 => 1 | 6 => 2 | 2 => 3 | 3 => 4 | 1 => 5 | 5 => 6 | _ => predicted

/-- N + k modulo 6 in 1 … 6. -/
def turn (n k : Nat) : Nat := (n + k - 1) % 6 + 1

/-- The zero vector with the fewest leg changes from the vector in force (R192). -/
def zeroVector (inForce : Nat) : Nat :=
  if inForce = 0 ∨ inForce = 1 ∨ inForce = 3 ∨ inForce = 5 then 0 else 7

/-- The switching table (R191). -/
def tableVector (sector : Nat) (phi : Bool) (tau : Int) (inForce : Nat) : Nat :=
  if tau = 0 then zeroVector inForce
  else if phi then (if tau = 1 then turn sector 1 else turn sector 5)
  else (if tau = 1 then turn sector 2 else turn sector 4)

/-- The fields of a branch number: sector offset, torque request, flux request (R196). -/
def branchOf (b predicted : Nat) : Nat × Int × Bool :=
  let s := b / 6
  (if s = 0 then predicted else if s = 1 then turn predicted 1 else turn predicted 5,
   ((b / 2 % 3 : Nat) : Int) - 1, b % 2 == 1)

/-! ## The open output and the vector in force (R192, R215) -/

/-- The estimated line back-EMF peak √3·|ωe|·|ψ|. -/
def emfPeak (w psi : Word) : Word := mul (mul fSqrt3 (F32.abs w)) psi

/-- The open output with its hysteresis (R215). -/
def openOutput (held : Bool) (emf vdc : Word) : Bool :=
  if held then le (mul 0x3F59999A vdc) emf else lt (mul 0x3F733333 vdc) emf

/-- The vector in force of a channel at a decision (R192): the last committed one, V0 after an open output or a fallback,
and under a safe pattern other than PATTERN_ASC_HIGH. -/
def Traction.inForce (t : Traction) : Nat :=
  match t.patternSeen with
  | .ascHigh => 7
  | .none => t.output.getD 0
  | _ => 0

/-- A vector under the pattern the supervisor has written; none: all six switches off (R186). -/
def Traction.under (t : Traction) (v : Option Nat) : Option Nat :=
  match t.patternSeen with
  | .ascHigh => some 7
  | .ascLow => some 0
  | .off => none
  | .none => v

/-! ## Propagation (R180, R182, R186, R197) -/

/-- The estimator state that the propagation carries. -/
structure Est where
  i : Vec2
  psiV : Vec2
  th : Word
  w : Word
deriving DecidableEq, Repr

/-- The angle wrapped into [0, 2π) is left to the sine and cosine; it advances by ωe·h. -/
def advanceAngle (th w : Word) (h : Nat) : Word := add th (mul w (secs h))

/-- The transition matrix of the rotor-frame currents over `h` seconds at electrical speed `w`: the exponential of the
matrix of R180, in closed form. DESIGN CHOICE, log entry 8. -/
def Motor.phi (k : Motor) (w h : Word) (x : Vec2) : Vec2 :=
  let a11 := negate (div k.rs k.ld)
  let a12 := div (mul w k.lq) k.ld
  let a21 := negate (div (mul w k.ld) k.lq)
  let a22 := negate (div k.rs k.lq)
  let mid := div (add a11 a22) fTwo
  let d := div (sub a11 a22) fTwo
  let q := add (mul d d) (mul a12 a21)
  let r := sqrt (F32.abs q)
  let e := Config.exp (mul mid h)
  let up := Config.exp (mul r h)
  let down := Config.exp (negate (mul r h))
  let c := if F32.key q < 0 then Config.cos (mul r h) else if F32.key q = 0 then fOne else div (add up down) fTwo
  let s := if F32.key q < 0 then div (Config.sin (mul r h)) r else if F32.key q = 0 then h
           else div (sub up down) (mul fTwo r)
  Vec2.scale e ⟨add (mul (add c (mul s d)) x.x) (mul (mul s a12) x.y),
                add (mul (mul s a21) x.x) (mul (sub c (mul s d)) x.y)⟩

/-- The rotor-frame currents after `h` seconds of a constant rotor-frame voltage, the exact zero-order hold of R180:
i∞ + Φ·(i − i∞), or the plain integral where the machine has no resistance and stands. -/
def Motor.hold (k : Motor) (w h : Word) (v i : Vec2) : Vec2 :=
  let det := add (mul k.rs k.rs) (mul (mul (mul w w) k.ld) k.lq)
  let vq := sub v.y (mul w k.psi)
  if F32.key det = 0 then ⟨add i.x (mul h (div v.x k.ld)), add i.y (mul h (div vq k.lq))⟩
  else
    let f : Vec2 := ⟨div (add (mul k.rs v.x) (mul (mul w k.lq) vq)) det,
                     div (sub (mul k.rs vq) (mul (mul w k.ld) v.x)) det⟩
    f.add (k.phi w h (i.sub f))

/-- One segment of `h` ticks under a stationary-frame voltage (R197): the exact zero-order hold for the currents, R182 in
one step for ψv with the mean predicted current; `nodrive` omits its voltage-model term (R186). -/
def segment (k : Motor) (tc : Word) (v : Vec2) (nodrive : Bool) (h : Nat) (e : Est) : Est :=
  let hs := secs h
  let mid := add e.th (div (mul e.w hs) fTwo)
  let th' := advanceAngle e.th e.w h
  let i' := toStator th' (k.hold e.w hs (toRotor mid v) (toRotor e.th e.i))
  let mean := Vec2.scale 0x3F000000 (e.i.add i')
  let dv := Vec2.scale hs (v.sub (Vec2.scale k.rs mean))
  let pull := Vec2.scale (div (F32.ofNat h) (mul tc (F32.ofNat 400))) ((k.currentFlux e.th e.i).sub e.psiV)
  { i := i', psiV := (if nodrive then e.psiV else e.psiV.add dv).add pull, th := th', w := e.w }

/-- All six switches off: each phase at its free level (R186), a phase without current at DC−. DESIGN CHOICE, log entry
67. -/
def offLevels (i : List Word) : List Word := i.map (fun x => (freeLevel x).getD 0)

/-- The three currents lie below TR_ZERO_CURRENT (R186). -/
def allZero (z : Word) (i : List Word) : Bool := i.all (fun x => lt (F32.abs x) z)

/-! ## Samples -/

/-- The physical value of a word of code 0 … 35 of an AFE (R403). -/
def physical (img : Image) (afe code : Nat) (w : Word) : Word :=
  let s := F32.ofInt (sext 16 w.toNat)
  let (g, o) := if code < 32 then (P.afeInGain + 0x400 * afe + code, P.afeInOffset + 0x400 * afe + code)
                else (P.afeSdGain + 0x400 * afe + (code - 32), P.afeSdOffset + 0x400 * afe + (code - 32))
  add (mul (img.val g) s) (img.val o)

/-- A word marks its value as not to be trusted: OPEN_WIRE, OVER_RANGE or STALE (R404, R249). -/
def wordSuspect (w : Word) : Bool := bit w 19 || bit w 18 || bit w 16

/-- The word of a code that a region holds, zero before the first. -/
def Region.sampleWord (r : Region) (code : Nat) : Word := ((r.samples.find? (fun p => p.1 == code)).map (·.2)).getD 0

/-- The last word of a channel code, whichever trigger took it; zero before the first. -/
def Region.lastWord (r : Region) (code : Nat) : Word :=
  ((r.samples.find? (fun p => p.1 % 512 == code)).map (·.2)).getD 0

/-- The 32-bit value of two capture words (R265). -/
def capture32 (r : Region) (hi lo : Nat) : Word := word ((r.sampleWord hi).toNat % 2 ^ 16 * 2 ^ 16 + (r.sampleWord lo).toNat % 2 ^ 16)

/-- The VS1 code of a channel's AFE with its AFE (R678). -/
def vs1Code (c : Nat) : Nat := if c = 0 then 1 else 256

/-- The codes of a channel's sample: its three currents, its VS1 word, its port's captured position, status and speed
(R177, R265, R403). -/
def sampleCodes (c : Nat) : List Nat :=
  [32, 33, 34, 48, 49, 51, 52, 53].map (256 * c + ·) ++ [vs1Code c]

/-- The channel's sample formed from the words of its region that the trigger of FB_CAPTURE_TRIGGER has sent (R177, R178,
R265, R678). DEDUCED, log entry 55. -/
def formSample (m : Module) (c : Fin 2) : TrSample :=
  let r := m.regions[(⟨c.val, by omega⟩ : Fin 8)]
  let img := m.regionImage ⟨c.val, by omega⟩
  let b := 512 * img.sampleTrigger c.val + 256 * c.val
  let cur (i : Nat) : Word := physical img c.val (32 + i) (r.sampleWord (b + 32 + i))
  let v := r.sampleWord (512 * img.sampleTrigger c.val + vs1Code c.val)
  let st := r.sampleWord (b + 53)
  { iU := cur 0, iV := cur 1, iW := cur 2,
    vdc := physical img c.val (if c.val = 0 then 1 else 0) v, vdcOk := !wordSuspect v,
    posOk := bit st 15, theta := mul (div (F32.ofNat (capture32 r (b + 48) (b + 49)).toNat) 0x4F800000) fTwoPi,
    speed := div (F32.ofInt (capture32 r (b + 51) (b + 52)).toInt) (F32.ofNat 256), at_ := some m.time.elapsed,
    vdcAt := (m.traction[c]).sample.vdcAt }

/-- The phase voltages of a channel, from the words of its low-side islands (R366): none where one of them is not to be
trusted. -/
def phaseVolts (m : Module) (c : Fin 2) : Option Vec2 :=
  let n : Fin 8 := ⟨c.val, by omega⟩
  let b := 512 * m.rnum n (P.gdPvTrigger + 0x40 * c.val) + 256 * c.val
  let w (k : Nat) : Word := (m.regions[n]).sampleWord (b + 40 + k)
  let v (k : Nat) : Word := div (F32.ofInt (sext 16 (w k).toNat)) (F32.ofNat 16)
  if (List.range 3).any (fun k => wordSuspect (w k)) then none else some (alphaBeta (v 0) (v 1) (v 2))

/-- The difference of two angles, taken into (−π, π]. -/
def angleStep (a b : Word) : Word :=
  let d := sub a b
  sub d (mul fTwoPi (F32.ofInt (F32.toInt (div d fTwoPi))))

/-- A sample of the phase voltages joins the window of a flying start (R236). -/
def EmfWindow.push (now : Nat) (e : Vec2) (w : EmfWindow) : EmfWindow :=
  let a := Config.atan2 e.y e.x
  let first := w.count = 0
  { count := w.count + 1, first := if first then now else w.first, last := now, angle := a,
    turned := if first then 0 else add w.turned (angleStep a w.angle), peak := fmax w.peak (mul fSqrt3 e.mag) }

/-- The three phase-voltage words of a period have arrived: a STARTING loop that observes them takes them into its window
(R236, R366). -/
def notePhases (c : Fin 2) (m : Module) : Module :=
  let t := m.traction[c]
  if t.loop != .starting || !m.sensorless c then m
  else
    match phaseVolts m c with
    | some e => updTraction c (fun t => { t with emf := t.emf.push m.time.elapsed e }) m
    | none => m

/-- A sample word has reached region `n`: a traction region forms its sample anew from a word of its trigger, notes the arrival
of its VS1 word (R249) and takes the phase voltages with the last of their words. -/
def noteSample (n : Fin 8) (key : Nat) (m : Module) : Module :=
  if h : n.val < 2 then
    let c : Fin 2 := ⟨n.val, h⟩
    let t := (m.regionImage n).sampleTrigger n.val
    let m1 := if (sampleCodes n.val).any (fun k => 512 * t + k == key) then
        updTraction c (fun t => { t with sample := formSample m c }) m else m
    let m2 := if key = 512 * t + vs1Code n.val then
        updTraction c (fun t => { t with sample := { t.sample with vdcAt := some m.time.elapsed } }) m1 else m1
    if key = 512 * m.rnum n (P.gdPvTrigger + 0x40 * n.val) + 256 * n.val + 42 then notePhases c m2 else m2
  else m

/-- The sample words an instance takes (R96, R105): those of R678 for the decision entries and the latch of a traction
channel, for any other entry those of its declaration. -/
def Module.samplesOf (m : Module) (n : Fin 8) (i : Instance) : List Nat :=
  let lib := libraryEntry i.word1
  if n.val < 2 && (isDecision lib || lib == 0x043) then
    (sampleCodes n.val).map (512 * (m.imageOf n i).sampleTrigger n.val + ·)
  else (declOf lib).samples

/-! ## The decision (R196 … R203, R679) -/

/-- Leg transitions between two vectors. -/
def legChanges (a b : Nat) : Nat := popcount 3 (legsOf a ^^^ legsOf b)

/-- The reference instant of the latest sample: the last entry tick of the channel's trigger less its latency (R405). -/
def Module.sampleInstant (m : Module) (c : Fin 2) : Nat :=
  let img := m.regionImage ⟨c.val, by omega⟩
  let t := img.sampleTrigger c.val
  let per := img.trig P.afeTrigPeriod c.val t
  let lat := img.trig P.afeTrigLatency c.val t
  let ph := img.trig P.afeTrigPhase c.val t + lat
  let now := m.time.count.toNat
  if per = 0 ∨ now < ph then now - lat else now - (now - ph) % per - lat

/-- The estimator as carried (R197). -/
def Carried.est (s : Carried) : Est :=
  { i := ⟨s.iAlpha, s.iBeta⟩, psiV := ⟨s.psiVAlpha, s.psiVBeta⟩, th := s.theta, w := s.omega }

/-- The estimator propagated under V0 through the periods that the stamp has missed (R203). -/
def catchUp (k : Motor) (tc : Word) (tp missing : Nat) (e : Est) : Est :=
  (List.range missing).foldl (fun e _ => segment k tc ⟨0, 0⟩ false tp e) e

/-- The initial state of a decision whose carried state has no stamp (R679). -/
def initial679 (m : Module) (c : Fin 2) : Est :=
  let s := (m.traction[c]).sample
  let k := m.motor c
  let i := alphaBeta s.iU s.iV s.iW
  let th := if s.posOk then s.theta else 0
  let w := if s.posOk then k.elec s.speed else 0
  { i := i, psiV := k.currentFlux th i, th := th, w := w }

/-- The prelude of a decision or a latch of a period, on what its launch saw (R198, R202, R203): missing periods under V0; the
captured angle, advanced to the coming sample, in place of the predicted one; then the latched correction, its transition over
the period before, its matrix M at the angle that stands. Without a stamp the state is that of R679. -/
def prelude198 (m : Module) (c : Fin 2) (period : Nat) : Est :=
  let s := (m.traction[c]).carried
  let k := m.motor c
  let tp := m.rnum ⟨c.val, by omega⟩ (P.regionPeriod + c.val)
  match s.stamp with
  | none => initial679 m c
  | some q =>
    let e1 := catchUp k (m.tpar c P.trDriftTc) tp (period - 1 - q) s.est
    let e2 := if s.capStamp = some (period - 1) then
        { e1 with th := advanceAngle s.capTheta s.capSpeed tp, w := s.capSpeed }
      else e1
    if s.eStamp = some (period - 1) then
      let d : Vec2 := ⟨s.eAlpha, s.eBeta⟩
      let before := sub e2.th (mul e2.w (secs tp))
      let f := k.phi e1.w (secs tp) (toRotor before d)
      { e2 with i := e2.i.add (toStator e2.th f), psiV := e2.psiV.add (k.applyM e2.th d) }
    else e2

/-- The angles at the ends of the last periods, newest first, with one more, and before it those of `missing` periods in which
nothing was committed: the propagation of R203 advances the angle by `step` in each (R185). DESIGN CHOICE, log entry 68. -/
def pushAngle (a : Word) (missing : Nat) (step : Word) : List Word → List Word
  | [] => [a]
  | p :: ps =>
    let gap := (List.range (Nat.min missing 9)).foldl (fun l _ => angleStep (add (l.headD p) step) 0 :: l) (p :: ps)
    (a :: gap).take 9

/-- The sensorless speed: the change of the unwrapped angle over the last 8 periods by their duration, the unwrapped change
being the sum of the steps from period to period (R185); 0 before nine angles are held. DESIGN CHOICE, log entry 68. -/
def rateOf (angles : List Word) (tp : Nat) : Word :=
  if angles.length < 9 then 0
  else div (((angles.zip (angles.drop 1)).map (fun p => angleStep p.1 p.2)).foldl add 0) (secs (8 * tp))

/-- The result of a decision. -/
structure Decision where
  sector : Nat
  phi : Bool
  tau : Int
  torque : Word
  flux : Word
  est : Est
  predicted : Nat
deriving DecidableEq, Repr

/-- R199 steps 1 … 4 on the channel's sample, from the prelude's estimate. -/
def resolve199 (m : Module) (c : Fin 2) (e : Est) : Decision :=
  let t := m.traction[c]
  let s := t.carried
  let k := m.motor c
  let i := alphaBeta t.sample.iU t.sample.iV t.sample.iW
  let w := m.weight c (k.rpm e.w)
  let fluxHat := blend w (k.currentFlux e.th e.i) e.psiV
  let nHat := sectorOf fluxHat (if s.sector = 0 then 1 else s.sector)
  let psi := fluxHat.add (k.applyM e.th (i.sub e.i))
  let tq := k.torque psi i
  let f := psi.mag
  let fresh := s.stamp.isNone
  { sector := sectorOf psi nHat,
    phi := fluxRequest (m.tpar c P.trFluxBand) (sub t.psiRef f) (if fresh then true else s.phi),
    tau := torqueRequest (m.tpar c P.trTorqueBand) (sub (k.signed t.tref) tq) (if fresh then 0 else s.tau),
    torque := tq, flux := f, est := e, predicted := nHat }

/-- The resolve key of a decision: its branch, or the miss code (R199 step 5). -/
def Decision.key (r : Decision) : Nat :=
  let s : Option Nat := if r.sector = r.predicted then some 0 else if r.sector = turn r.predicted 1 then some 1
    else if r.sector = turn r.predicted 5 then some 2 else none
  match s with
  | some s => 6 * s + 2 * (r.tau + 1).toNat + flag r.phi
  | none => missCode

/-- The resolve key that a pass of a decision entry finds on its view (R199). -/
def decisionKey (c : Fin 2) (period : Nat) (v : Module) : Nat := (resolve199 v c (prelude198 v c period)).key

/-- The output a decision commits: a table vector with the loop closed, else the open output (R191, R215). -/
structure Chosen where
  vector : Nat
  output : Option Nat
  openV0 : Bool
deriving DecidableEq, Repr

/-- The choice of the output from what the launch saw and what the sample or the branch gives (R191, R192, R215). -/
def chooseOutput (t : Traction) (sec : Nat) (phi : Bool) (tau : Int) (emf : Word) : Chosen :=
  if t.atBoundary = .closed then
    let v := tableVector sec phi tau t.inForce
    { vector := v, output := some v, openV0 := false }
  else
    let v0 := openOutput t.openV0 emf t.sample.vdc
    { vector := 0, output := if v0 then some 0 else none, openV0 := v0 }

/-- The phase currents of a vector whose sum is 0, the inverse of R178. -/
def phaseCurrents (i : Vec2) : List Word :=
  let h := mul (div fSqrt3 fTwo) i.y
  [i.x, sub h (div i.x fTwo), sub (negate h) (div i.x fTwo)]

/-- The prediction at the next sample (R197): two segments, under the output in force to the commit instant plus 4, then
under the new one, with the phase currents `cur` and the link voltage `vdc`. -/
def predict (v : Module) (c : Fin 2) (next : Option Nat) (cur : List Word) (vdc : Word) (e : Est) : Est :=
  let t := v.traction[c]
  let n : Fin 8 := ⟨c.val, by omega⟩
  let k := v.motor c
  let tc := v.tpar c P.trDriftTc
  let zero := allZero (v.tpar c P.trZeroCurrent) cur
  let total := (v.regionImage n).trig P.afeTrigPeriod c.val ((v.regionImage n).sampleTrigger c.val)
  let h1 := Nat.min total (v.time.count.toNat + 4 - v.sampleInstant c)
  let was := t.under t.output
  let new := t.under next
  let dead := v.rnum n (P.gdDeadTime + 0x40 * c.val)
  let share := fmin fOne (div (F32.ofNat dead) (F32.ofNat (Nat.max 1 (total - h1))))
  let level (x : Option Nat) (old : Nat) : List Word := match x with
    | some y => legLevels y old cur share
    | none => offLevels cur
  let e1 := segment k tc (voltage vdc (level was (was.getD 0))) (was.isNone && zero) h1 e
  segment k tc (voltage vdc (level new (was.getD (new.getD 0)))) (new.isNone && zero) (total - h1) e1

/-- The leg transitions from one state of the legs to another, none with all six switches off: a leg that goes to or from all
off makes one. DESIGN CHOICE, log entry 87. -/
def legSteps (a b : Option Nat) : Nat :=
  match a, b with
  | some x, some y => legChanges x y
  | none, none => 0
  | _, _ => 3

/-- The transitions of the legs up to the output and the pattern in force now are counted (R225). -/
def Traction.noteLegs (now : Nat) (t : Traction) : Traction :=
  let new := t.under t.output
  let k := legSteps t.legs new
  { t with legs := new, transitions := if k = 0 then t.transitions else (now, k) :: t.transitions }

/-- A clean commit of a decision entry (R197, R201, R204, R215, R226): `v` what its launch saw with the sample it took,
`branch` the run-ahead branch of the keys, none for the full computation. A branch is written before the sample arrives: its
prediction rests on the predicted currents and on the link voltage `vdc` that its launch knew. Without a closed loop the
comparators stand as R189 sets them. -/
def commitDecision (c : Fin 2) (period : Nat) (branch : Option Nat) (vdc : Word) (v m : Module) : Module :=
  let t := v.traction[c]
  let k := v.motor c
  let e0 := prelude198 v c period
  let r := resolve199 v c e0
  let (sec, tau, phi) := match branch with
    | some b => branchOf b r.predicted
    | none => (r.sector, r.tau, r.phi)
  -- R201: the full computation starts from the captured position and speed when they are valid
  let e1 := if branch.isNone && t.sample.posOk then { e0 with th := t.sample.theta, w := k.elec t.sample.speed } else e0
  let i := alphaBeta t.sample.iU t.sample.iV t.sample.iW
  let ch := chooseOutput t sec phi tau (emfPeak e1.w r.flux)
  let e4 := match branch with
    | some _ => predict v c ch.output (phaseCurrents e1.i) vdc e1
    | none => predict v c ch.output [t.sample.iU, t.sample.iV, t.sample.iW] t.sample.vdc e1
  let tp := v.rnum ⟨c.val, by omega⟩ (P.regionPeriod + c.val)
  -- sensorless: the angle of ψv less the load angle of the model, and its rate (R185)
  let psiV := e1.psiV.add (k.applyM e1.th (i.sub e1.i))
  let rot := toRotor e1.th i
  let ang := sub (Config.atan2 psiV.y psiV.x) (Config.atan2 (mul k.lq rot.y) (add (mul k.ld rot.x) k.psi))
  let missing := match t.carried.stamp with
    | some q => period - 1 - q
    | none => 0
  let angles := pushAngle ang missing (mul e0.w (secs tp)) t.carried.angles
  let sl := v.sensorless c
  let w' := if sl then rateOf angles tp else e4.w
  let shown := if !sl && t.sample.posOk then k.elec t.sample.speed else w'
  let th' := if sl then advanceAngle ang w' tp else e4.th
  let closed := t.atBoundary == .closed
  updTraction c (fun x =>
    Traction.noteLegs m.time.count.toNat { x with
      carried := { x.carried with
        stamp := some period, iAlpha := e4.i.x, iBeta := e4.i.y, psiVAlpha := e4.psiV.x, psiVBeta := e4.psiV.y,
        theta := th', omega := w', phi := !closed || phi, tau := if closed then tau else 0, sector := sec, vector := ch.vector,
        angles := angles, sensorless := sl },
      torqueEst := k.signed r.torque, fluxEst := r.flux, speedEst := k.signed (k.rpm shown), openV0 := ch.openV0,
      output := ch.output, position := if t.sample.posOk then 0 else if sl then 1 else 2,
      statSector := if closed then sec else 0, statPhi := closed && phi, statTau := if closed then tau else 0,
      statVector := ch.vector, statBranch := if closed then branch.getD 0x1F else 0x1F }) m

/-- The fallback output of a traction channel: V0 until the next commit of the decision (R118, R204). -/
def fallbackDecision (c : Fin 2) (m : Module) : Module :=
  updTraction c (fun t => Traction.noteLegs m.time.count.toNat { t with statVector := 0, output := some 0 }) m

/-- The electrical power of a channel (R310): 1.5 · (vα·iα + vβ·iβ) with its sample and the vector in force, none with all six
switches off. -/
def Traction.drawn (t : Traction) : Word :=
  match t.output with
  | none => 0
  | some x =>
    let v := voltage t.sample.vdc ((List.range 3).map (fun k => if (legsOf x).testBit k then fOne else 0))
    let i := alphaBeta t.sample.iU t.sample.iV t.sample.iW
    mul fOneAndHalf (add (mul v.x i.x) (mul v.y i.y))

/-- A clean commit of the measurement latch 0x043 (R202): the residual against the prediction the decision of its period
used, the captured position and speed; the power of the channel goes out with it. DEDUCED, log entry 28. -/
def commitLatch (c : Fin 2) (period : Nat) (v m : Module) : Module :=
  let t := v.traction[c]
  let k := v.motor c
  let d := (alphaBeta t.sample.iU t.sample.iV t.sample.iW).sub (prelude198 v c period).i
  updTraction c (fun x => { x with
    residual := d.mag, power := Traction.drawn { x with sample := t.sample },
    carried := { x.carried with
      eAlpha := d.x, eBeta := d.y, eStamp := some period, capTheta := t.sample.theta,
      capSpeed := k.elec t.sample.speed, capStamp := if t.sample.posOk then some period else none } }) m

/-- A clean commit of the statistics 0x044: leg transitions per second per leg over the last 400,000 ticks (R225). -/
def commitStatistics (c : Fin 2) (v m : Module) : Module :=
  let now := v.time.count.toNat
  updTraction c (fun t =>
    let ts := t.transitions.filter (fun p => now < p.1 + 400000)
    { t with transitions := ts,
             switchRate := div (F32.ofNat (1000 * (ts.map (·.2)).sum)) fThree }) m

/-! ## The reference path (R206 … R209, R228 … R234) -/

/-- Linear interpolation of a map of eight points by its first column, clamped at the ends. -/
def interpolate (pts : List (Word × Word)) (x : Word) : Word :=
  match pts with
  | [] => 0
  | [p] => p.2
  | p :: q :: r =>
    if le x p.1 then p.2
    else if le x q.1 then add p.2 (div (mul (sub x p.1) (sub q.2 p.2)) (sub q.1 p.1))
    else interpolate (q :: r) x

/-- The field-weakening map of a channel: id and ψ of points 0 … 7 (R232, R252). -/
def Module.fwMap (m : Module) (c : Fin 2) : List (Word × Word) :=
  (List.range 8).map (fun j => (m.tpar c (P.trFwMapId + j), m.tpar c (P.trFwMapPsi + j)))

/-- The voltage part of the regeneration scale from a DC link voltage, under the settings of region `n` (R246).
DEDUCED, log entry 28. -/
def svolt (m : Module) (n : Fin 8) (hold : Bool) (vdc : Word) : Word :=
  if hold then 0
  else
    let a := m.rpar n P.dclRegenTaperStart
    let b := m.rpar n P.dclOv1
    if le vdc a then fOne else if le b vdc then 0 else div (sub b vdc) (sub b a)

/-- svolt is held at 0 from DCL_OV1 until DCL_OV1 − DCL_OV_HYST (R246). -/
def svoltHeld (m : Module) (n : Fin 8) (hold : Bool) (vdc : Word) : Bool :=
  if hold then le (sub (m.rpar n P.dclOv1) (m.rpar n P.dclOvHyst)) vdc else le (m.rpar n P.dclOv1) vdc

/-- A traction reference update takes svolt of its own sample for sregen: region 2 has committed none since boot, a reset
of CF0 or a switch that adds 0x061, or holds no 0x061 (R246). -/
def Module.ownSregen (m : Module) : Bool := !(m.chopper.sregenValid && (m.regionImage 2).holds 2 0x061)

/-- sregen as a traction reference update uses it (R246). -/
def Module.sregenFor (m : Module) (c : Fin 2) : Word :=
  let t := m.traction[c]
  if m.ownSregen then svolt m ⟨c.val, by omega⟩ (svoltHeld m ⟨c.val, by omega⟩ t.svoltHold t.sample.vdc) t.sample.vdc
  else m.chopper.sregen

/-- sregen in use (R257): while the channels form their own, the smaller of the two. DESIGN CHOICE, log entry 89. -/
def Module.sregenUsed (m : Module) : Word :=
  if m.ownSregen then fmin (m.sregenFor 0) (m.sregenFor 1) else m.chopper.sregen

/-- The steps of field weakening (R232): flux target, id_cmd, trim, margin negative. -/
def fieldWeakening (m : Module) (c : Fin 2) (n ts : Word) : Word × Word × Word × Bool :=
  let t := m.traction[c]
  if m.tpar c P.trFwEnable = 0 then (m.tpar c P.trFluxRef, 0, t.fwTrim, false)
  else
    let w := F32.abs ((m.motor c).elec n)
    let vlim := mul (m.tpar c P.trFwVoltageUse) t.sample.vdc
    let mg := sub vlim (mul (mul fSqrt3 w) t.psiRef)
    let idMin := m.tpar c P.trFwIdMin
    let map := m.fwMap c
    let top := (map.getD 7 (0, 0)).2
    let idff := if F32.key w = 0 then 0 else
      let ff := div vlim (mul fSqrt3 w)
      if lt ff top then interpolate (map.map (fun p => (p.2, p.1))) ff else 0
    let x := if le (add idff t.fwTrim) idMin && lt mg 0 then t.fwTrim
             else clamp (add t.fwTrim (mul (mul (m.tpar c P.trFwKi) mg) ts)) idMin 0
    let idc := clamp (add idff x) idMin 0
    (fmin (m.tpar c P.trFluxRef) (interpolate map idc), idc, x, lt mg 0)

/-- The clamps that running shift moves put on a channel's torque (R394): AX_SHIFT_TORQUE of each. -/
def Module.shiftClamps (m : Module) (c : Fin 2) : List Word :=
  ((List.finRange 4).filter (fun a => (m.actuators[a]).clamp &&
    m.rnum ⟨c.val, by omega⟩ (P.axTorqueLink + 0x40 * a.val) == c.val + 1)).map (fun a =>
    m.rpar ⟨c.val, by omega⟩ (P.axShiftTorque + 0x40 * a.val))

/-- A bound of R228 and R229 with the code of what sets it (R231): factors below 1 first, then the smallest term. -/
def boundOf (terms : List (Nat × Word)) (factors : List (Nat × Word)) : Word × Nat :=
  let least (l : List (Nat × Word)) : Nat × Word :=
    match l with
    | [] => (0, 0)
    | p :: ps => ps.foldl (fun a b => if lt b.2 a.2 then b else a) p
  let t := least terms
  let f := least factors
  (factors.foldl (fun a g => mul a g.2) t.2, if lt f.2 fOne then f.1 else t.1)

/-- The bounds Tpos and Tneg with their codes (R228, R229). -/
def torqueBounds (m : Module) (c : Fin 2) (n idCmd : Word) : (Word × Nat) × (Word × Nat) :=
  let t := m.traction[c]
  let k := m.motor c
  let wf := div (mul fTwoPi (fmax (F32.abs n) (m.tpar c P.trPowerSpeedFloor))) fSixty
  let imax := m.tpar c P.trCurrentMax
  let ti := mul (mul (mul fOneAndHalf k.p) t.psiRef) (sqrt (sub (mul imax imax) (mul idCmd idCmd)))
  let shift : List (Nat × Word) := (m.shiftClamps c).map (fun w => (1, w))
  let fuv := clamp (div (sub t.sample.vdc (m.tpar c P.trVdcLowZero))
    (sub (m.tpar c P.trVdcLowFull) (m.tpar c P.trVdcLowZero))) 0 fOne
  let tap := m.tpar c P.trSpeedTaper
  let ffwd := clamp (div (sub (m.tpar c P.trSpeedLimitFwd) n) tap) 0 fOne
  let frev := clamp (div (add (m.tpar c P.trSpeedLimitRev) n) tap) 0 fOne
  let mot := [(1, m.tpar c P.trTorqueMaxMot)] ++ shift ++ [(2, div (m.tpar c P.trPowerMaxMot) wf), (3, ti)]
  let reg := [(1, m.tpar c P.trTorqueMaxRegen)] ++ shift ++ [(2, div (m.tpar c P.trPowerMaxRegen) wf), (3, ti)]
  let motF (f : Word) := boundOf mot [(5, fuv), (4, f)]
  let regen := boundOf reg [(6, m.sregenFor c)]
  let z := m.tpar c P.trZeroSpeed
  if le z n then (motF ffwd, regen)
  else if le n (negate z) then (regen, motF frev)
  else (motF ffwd, motF frev)

/-- A value moved towards a target by at most a step. -/
def towards (x target step : Word) : Word :=
  if le (F32.abs (sub target x)) step then target else if lt x target then add x step else sub x step

/-- The coefficients b0, b1, b2, a1, a2 of the notch for f0, d, Δf and Ts_ref in ticks (R209): binary64, operation by operation
as the rule writes them, rounded to binary32 at the end; the tangent is the supervisor's. -/
def notch (f0 d width : Word) (ticks : Nat) : Word × Word × Word × Word × Word :=
  let two := F32.nat64 2
  let ts := F32.div64 (F32.nat64 ticks) (F32.nat64 400000000)
  let f := F32.dy f0
  let x := F32.mul64 (F32.mul64 F32.pi64 f) ts
  let tan := Config.tan64 x.m x.e
  let kk := F32.div64 two ts
  let om := F32.mul64 kk (F32.round64 { m := tan.1, e := tan.2 })
  let z := F32.div64 (F32.dy width) (F32.mul64 two f)
  let k2 := F32.mul64 kk kk
  let o2 := F32.mul64 om om
  let p := F32.mul64 (F32.mul64 (F32.mul64 two z) om) kk
  let pd := F32.mul64 (F32.mul64 (F32.mul64 (F32.mul64 two (F32.dy d)) z) om) kk
  let a0 := F32.add64 (F32.add64 k2 p) o2
  let quot (n : F32.Dy) : Word := F32.round (F32.div64 n a0)
  let b1 := quot (F32.mul64 two (F32.sub64 o2 k2))
  (quot (F32.add64 (F32.add64 k2 pd) o2), b1, quot (F32.add64 (F32.sub64 k2 pd) o2), b1,
   quot (F32.add64 (F32.sub64 k2 p) o2))

/-- The setpoint in force: the allocated share or the host's (R211). -/
def Module.torqueTarget (m : Module) (c : Fin 2) : Word :=
  if m.tpar c P.trSetpointSource = 1 then (m.traction[c]).share else m.live.torqueSetpoint[c]

/-- The reference mode: speed only where the host is the source (R207). -/
def Module.inSpeedMode (m : Module) (c : Fin 2) : Bool :=
  m.tpar c P.trSetpointSource = 0 && (m.traction[c]).speedMode

/-- The setpoint direction D (R237). -/
def Module.setDir (m : Module) (c : Fin 2) : Int :=
  let w := if m.inSpeedMode c then m.live.speedSetpoint[c] else m.torqueTarget c
  if F32.key w < 0 then -1 else if F32.key w = 0 then 0 else 1

/-- The loop becomes CLOSED: the references start from the measured values (R208, R233, R189); the open output goes on until the
decisions follow the closed loop (R216). -/
def closeTraction (braking : Bool) (t : Traction) : Traction :=
  { t with loop := .closed, nextLoop := none, tref := t.torqueEst, ramp := t.torqueEst, x1 := t.torqueEst, x2 := t.torqueEst,
           y1 := t.torqueEst, y2 := t.torqueEst, speedRef := t.speedEst, integ := t.torqueEst, psiRef := t.fluxEst,
           fwTrim := 0, fwCount := 0, catch_ := if braking then 2 else 0, startObs := none,
           emf := EmfWindow.zero,
           statSector := 0, carried := { t.carried with phi := true, tau := 0 } }

/-- The end of the braking phase or a change to speed mode: nothing steps (R207, R237). -/
def settle207 (t : Traction) : Traction := { t with integ := t.tref, speedRef := t.speedEst }

/-! ## The start (R235 … R238) -/

/-- What the observation of a flying start finds (R236): the source 0 … 3, n0 in rpm in the convention of R19, θe. -/
structure Observation where
  source : Fin 4
  speed : Word
  theta : Word
deriving DecidableEq, Repr

/-- The phase-voltage result (R236): the speed from the slope of the angle of the line voltages, its angle less a quarter
turn in the direction of rotation. DEDUCED, log entry 28. -/
def phaseVoltage (k : Motor) (w eAngle : Word) : Word × Word :=
  (k.signed (k.rpm w), sub eAngle (mul (signWord w) fHalfPi))

/-- The sources of R236 that one reference update observes: the feedback port, the estimator's short-circuit currents. -/
def observeNow (c : Fin 2) (m : Module) : Option Observation :=
  let t := m.traction[c]
  if t.sample.posOk then some ⟨0, (m.motor c).signed t.sample.speed, t.sample.theta⟩
  else if m.sensorless c && t.openV0 && !allZero (m.tpar c P.trZeroCurrent) [t.sample.iU, t.sample.iV, t.sample.iW] then
    some ⟨1, t.speedEst, t.carried.theta⟩
  else none

/-- The angular speed of the line voltages over the window: the unwrapped change of their angle by its duration (R236).
DEDUCED, log entry 28. -/
def EmfWindow.slope (w : EmfWindow) : Word := if w.last = w.first then 0 else div w.turned (secs (w.last - w.first))

/-- What the phase voltages show (R236): standstill where the back-EMF has stayed below TR_CATCH_MIN_EMF for TR_CATCH_OBSERVE;
else with the all-off open output the speed and the angle, after 16 periods or at the end of TR_CATCH_OBSERVE. -/
def observePhases (c : Fin 2) (m : Module) : Option Observation :=
  let t := m.traction[c]
  let ended := F32.usTicks (m.tpar c P.trCatchObserve) ≤ m.time.elapsed - t.observeAt
  let r := phaseVoltage (m.motor c) t.emf.slope t.emf.angle
  if lt t.emf.peak (m.tpar c P.trCatchMinEmf) then (if ended then some ⟨3, 0, t.carried.theta⟩ else none)
  else if t.openV0 || (t.emf.count < 16 && !ended) then none
  else if lt (F32.abs r.1) (m.tpar c P.trZeroSpeed) then some ⟨3, 0, t.carried.theta⟩
  else some ⟨2, r.1, r.2⟩

/-- The first source of R236 that is available. -/
def observe (c : Fin 2) (m : Module) : Option Observation :=
  match observeNow c m with
  | some o => some o
  | none => if m.sensorless c then observePhases c m else none

/-- What an observation gives, as the channel keeps it until its next reference update. -/
def Observation.kept (o : Observation) : Nat × Word × Word := (o.source.val, o.speed, o.theta)

/-- FLYING_START: a STARTING loop has observed its machine (R236 step 1); the next reference update synchronises, decides
the direction and closes. Without a source it goes on observing. -/
def flyingStart (c : Fin 2) (m : Module) : Module :=
  if (m.traction[c]).loop != .starting then m
  else
    match observe c m with
    | none => m
    | some o => updTraction c (fun t => { t with startObs := some o.kept }) m

/-- The reference update that ends a flying start (R236 steps 2 … 4, R237): synchronised where the source is phase voltages
or standstill, the current model at ψPM too, so without a current, the direction with the setpoint in force, closed. -/
def endStart (c : Fin 2) (o : Nat × Word × Word) (m : Module) : Module :=
  let k := m.motor c
  let d := m.setDir c
  let reverse := (d == 1 && lt o.2.1 0) || (d == -1 && lt 0 o.2.1)
  let brake := reverse && lt (m.tpar c P.trCatchSpeed) (F32.abs o.2.1)
  updTraction c (fun t =>
    let t1 := if 2 ≤ o.1 then { t with
        speedEst := o.2.1, fluxEst := k.psi,
        carried := { t.carried with psiVAlpha := mul k.psi (Config.cos o.2.2), psiVBeta := mul k.psi (Config.sin o.2.2),
                                    iAlpha := 0, iBeta := 0, theta := o.2.2, omega := k.elec (k.signed o.2.1) } } else t
    { closeTraction brake t1 with startDir := reverse, startSource := o.1, startSpeed := o.2.1 }) m

/-- A reference update of a STARTING loop (R236, R238): one update observes, the next closes; a position that has become
valid takes over from the phase voltages; a LOOP_OPEN accepted in the meantime has abandoned the start, a LOOP_CLOSE behind it
begins a new one. -/
def startUpdate (c : Fin 2) (v m : Module) : Module :=
  let t := m.traction[c]
  if (v.traction[c]).loop != .starting || t.loop != .starting || t.nextLoop.isSome then m
  else
    match (v.traction[c]).startObs, observe c v with
    | some o, some n => if n.source.val = 0 && o.1 != 0 then endStart c n.kept m else endStart c o m
    | some o, none => endStart c o m
    | none, some n => updTraction c (fun t => { t with startObs := some n.kept }) m
    | none, none => m

/-- The references of R206 computed by an update, from what its launch saw. -/
structure Reference where
  limPos : Word
  limNeg : Word
  limit : Nat
  fwTrim : Word
  idCmd : Word
  fwCount : Nat
  speedRef : Word
  integ : Word
  ramp : Word
  x1 : Word
  x2 : Word
  y1 : Word
  y2 : Word
  tref : Word
  clampSide : Int
  psiRef : Word
  /-- the torque reference is held at zero for want of a flux (R185) -/
  noFlux : Bool
  /-- the braking phase ends with this update (R237) -/
  ends : Bool
deriving DecidableEq, Repr

/-- The reference path of a period (R206): stages 1 … 3 and 5 in every TR_REF_DIVIDER-th period, stage 4 in each. -/
def referenceOf (c : Fin 2) (period : Nat) (v : Module) : Reference :=
  let k := (v.tpar c P.trRefDivider).toNat
  let update := k != 0 && period % k == 0
  let ts := secs (k * v.rnum ⟨c.val, by omega⟩ (P.regionPeriod + c.val))
  let t0 := v.traction[c]
  let n := t0.speedEst
  -- R237: the braking phase ends
  let stillReverse := match v.setDir c with
    | 1 => lt n 0
    | -1 => lt 0 n
    | _ => false
  let ends := update && t0.catch_ == 2 && (le (F32.abs n) (v.tpar c P.trCatchSpeed) || !stillReverse)
  let t1 := if ends then settle207 { t0 with catch_ := 0 } else t0
  let speed := v.inSpeedMode c
  let (target5, idc, x, neg) := if update then fieldWeakening v c n ts else (t1.psiRef, t1.idCmd, t1.fwTrim, false)
  let (bp, bn) := if update then torqueBounds v c n idc else ((t1.limPos, t1.limit), (t1.limNeg, t1.limit))
  let speedRef := if update && speed then towards t1.speedRef v.live.speedSetpoint[c] (mul (v.tpar c P.trSpeedRamp) ts)
                  else t1.speedRef
  let e := sub speedRef n
  let di := mul (mul (v.tpar c P.trSpeedKi) e) ts
  let deepens := (t1.clampSide == 1 && lt 0 di) || (t1.clampSide == -1 && lt di 0)
  let integ := if update && speed && t1.catch_ != 2 && !deepens then add t1.integ di else t1.integ
  let target := if t1.catch_ = 2 then
      (if lt n 0 then v.tpar c P.trCatchBrakeTorque else negate (v.tpar c P.trCatchBrakeTorque))
    else if speed then add (mul (v.tpar c P.trSpeedKp) e) integ else v.torqueTarget c
  let ramp := if update then towards t1.ramp target (mul (v.tpar c P.trTorqueRamp) ts) else t1.ramp
  let (b0, b1, b2, a1, a2) := notch (v.tpar c P.trNotchFreq) (v.tpar c P.trNotchDepth) (v.tpar c P.trNotchWidth)
    (k * v.rnum ⟨c.val, by omega⟩ (P.regionPeriod + c.val))
  let on := v.tpar c P.trNotchEnable == 1
  let y := if on then sub (sub (add (add (mul b0 ramp) (mul b1 t1.x1)) (mul b2 t1.x2)) (mul a1 t1.y1)) (mul a2 t1.y2)
           else ramp
  let noFlux := v.sensorless c && lt (F32.abs n) (mul (v.tpar c P.trBlendLow) (v.tpar c P.trRatedSpeed))
  let want := if update then y else t1.y1
  let limited := clamp want (negate bn.1) bp.1
  let side : Int := if lt bp.1 want then 1 else if lt want (negate bn.1) then -1 else 0
  { limPos := bp.1, limNeg := bn.1,
    limit := if update then (if side = 1 then bp.2 else if side = -1 then bn.2 else 0) else t1.limit,
    fwTrim := x, idCmd := idc,
    fwCount := if update then (if idc == v.tpar c P.trFwIdMin && neg then t1.fwCount + 1 else 0) else t1.fwCount,
    speedRef := speedRef, integ := integ, ramp := ramp,
    x2 := if update then t1.x1 else t1.x2, x1 := if update then ramp else t1.x1,
    y2 := if update then t1.y1 else t1.y2, y1 := if update then y else t1.y1,
    tref := if noFlux then 0 else limited, clampSide := side,
    psiRef := if update then towards t1.psiRef target5 (mul (v.tpar c P.trFluxRamp) ts) else t1.psiRef,
    noFlux := noFlux, ends := ends }

/-- The bounds and the field weakening a reference update leaves, in every loop state (R228 … R234). -/
def Traction.putBounds (r : Reference) (t : Traction) : Traction :=
  { t with limPos := r.limPos, limNeg := r.limNeg, idCmd := r.idCmd, fwCount := r.fwCount, fwTrim := r.fwTrim }

/-- The references an update of a closed loop leaves (R206). -/
def Traction.putReference (r : Reference) (t : Traction) : Traction :=
  { t with catch_ := if r.ends then 0 else t.catch_, speedRef := r.speedRef, integ := r.integ, ramp := r.ramp, x1 := r.x1,
           x2 := r.x2, y1 := r.y1, y2 := r.y2, tref := r.tref, clampSide := r.clampSide, limit := r.limit,
           psiRef := r.psiRef }

/-- Overspeed at a reference update that saw `v` (R230); its condition is that of the latest evaluation, and a channel not
enabled or below ARMED counts as passing (R676). -/
def checkOverspeed (c : Fin 2) (v m : Module) : Module :=
  let code := F.trOverspeed + 0x1000 * c.val
  if v.enabled (tractionFunc c) && m.driven && lt (v.tpar c P.trOverspeed) (F32.abs (v.traction[c]).speedEst) then
    raise code 0 true m
  else endCond code 0 m

/-- A clean commit of the reference path 0x042 of a period (R206, R185, R234, R236): `v` what its launch saw. -/
def commitReference (c : Fin 2) (period : Nat) (v m : Module) : Module :=
  let r := referenceOf c period v
  let k := (v.tpar c P.trRefDivider).toNat
  let closed := (v.traction[c]).loop == .closed
  let own := v.ownSregen
  let hold := svoltHeld v ⟨c.val, by omega⟩ (v.traction[c]).svoltHold (v.traction[c]).sample.vdc
  let m1 := updTraction c (fun t =>
    let t1 := { t.putBounds r with svoltHold := own && hold }
    if closed && t.loop == .closed then t1.putReference r else t1) m
  let m2 := if k != 0 && period % k == 0 then checkOverspeed c v (startUpdate c v m1) else m1
  let area := 0x1000 * c.val
  let m3 := if 8 ≤ r.fwCount then raise (F.trFwLimit + area) 0 true m2 else endCond (F.trFwLimit + area) 0 m2
  if r.noFlux then raise (F.trNoLowSpeedFlux + area) 0 true m3 else endCond (F.trNoLowSpeedFlux + area) 0 m3

/-- The position of a channel is not valid and sensorless operation is not permitted (R185, R236). -/
def Module.noPosition (m : Module) (c : Fin 2) : Bool := !(m.traction[c]).sample.posOk && !m.sensorless c

/-- The state of a loop with a change taken at a boundary (R214, R216): a close begins observation, or opens the loop where no
position can be had (R236); decisions launched from now on follow the state the loop has here. -/
def takeLoop (c : Fin 2) (m : Module) : Module :=
  let m1 := match (m.traction[c]).nextLoop with
    | none => m
    | some next =>
      let l : LoopState := if next == .starting && m.noPosition c then .open else next
      keepCheckpoint ⟨c.val, by omega⟩ (updTraction c (fun t => { t with
        loop := l, nextLoop := none, catch_ := if l = .starting then 1 else 0, startObs := none, emf := EmfWindow.zero,
        observeAt := if l = .starting then m.time.elapsed else t.observeAt,
        statSector := 0, statPhi := false, statTau := 0, statVector := 0, statBranch := 0x1F,
        tref := if l = .open then 0 else t.tref, idCmd := if l = .open then 0 else t.idCmd,
        clampSide := 0, limit := 0 }) m)
  updTraction c (fun t => { t with atBoundary := t.loop }) m1

/-- R185: position lost without permission opens the loop. -/
def positionLost (c : Fin 2) (m : Module) : Module :=
  if (m.traction[c]).loop != .open && m.noPosition c then
    updTraction c (fun t => { t with nextLoop := some .open }) m
  else m

/-! ## Plausibility and overspeed (R219, R230) -/

def TrCheck.code : TrCheck → Nat
  | .torque => F.trPlausTorque | .current => F.trPlausCurrent | .flux => F.trPlausFlux | .sum => F.trCurrentSum
def TrCheck.idx : TrCheck → Fin 4
  | .torque => 0 | .current => 1 | .flux => 2 | .sum => 3
def TrCheck.dwell : TrCheck → Nat
  | .torque => P.trPlausTorqueDwell | .current => P.trPlausCurrentDwell | .flux => P.trPlausFluxDwell
  | .sum => P.trCurrentSumDwell

/-- The region of the supervision models (R54, R57). -/
def Image.supFin (img : Image) : Fin 8 := if img.supRegion = 7 then 7 else 5

/-- The quantity of a check and its envelope under the settings of the supervision region (R219): `v` what the launch of the
model saw, the current against the prediction of the model's last period. -/
def checkQuantity (c : Fin 2) (k : TrCheck) (v : Module) : Word × Word :=
  let t := v.traction[c]
  let n := v.epochs.active.supFin
  let par (id : Nat) : Word := v.rpar n (id + 0x1000 * c.val)
  let mo := v.motorOf n c
  let s := t.sample
  let i := alphaBeta s.iU s.iV s.iW
  let d := toRotor (if s.posOk then s.theta else t.carried.theta) i
  match k with
  | .torque =>
    let tm := mo.signed (mul (mul fOneAndHalf mo.p)
      (add (mul mo.psi d.y) (mul (mul (sub mo.ld mo.lq) d.x) d.y)))
    (F32.abs (sub t.torqueEst tm), add (par P.trPlausTorqueEnv) (mul (par P.trPlausTorqueRel) (F32.abs tm)))
  | .current => ((i.sub ⟨t.plausAlpha, t.plausBeta⟩).mag, par P.trPlausCurrentEnv)
  | .flux =>
    let fd := add (mul mo.ld d.x) mo.psi
    let fq := mul mo.lq d.y
    (F32.abs (sub t.fluxEst (sqrt (add (mul fd fd) (mul fq fq)))), par P.trPlausFluxEnv)
  | .sum => (F32.abs (add (add s.iU s.iV) s.iW), par P.trCurrentSumEnv)

/-- The current check is suspended under PATTERN_OFF and the all-off open output, and for two model periods after a change of
pattern (R219). -/
def checkSuspended (c : Fin 2) (k : TrCheck) (v m : Module) : Bool :=
  let t := v.traction[c]
  k == .current && ((t.under t.output).isNone || m.time.elapsed < (m.traction[c]).plausUntil)

/-- The dwell of a check in ticks. -/
def plausDwell (c : Fin 2) (k : TrCheck) (m : Module) : Nat :=
  F32.usTicks (m.rpar m.epochs.active.supFin (k.dwell + 0x1000 * c.val))

/-- The fault of a check whose quantity has been outside its envelope for longer than the dwell (R219). -/
def plausFault (c : Fin 2) (k : TrCheck) (m : Module) : Module :=
  if (m.regionImage m.epochs.active.supFin).enables (tractionFunc c) && m.driven &&
      plausDwell c k m < (m.traction[c]).outsideFor[k.idx] then
    raise (k.code + 0x1000 * c.val) 0 true m
  else m

/-- One evaluation of a check of an enabled channel in ARMED or RUN by the model's clean commit: outside the envelope its
dwell advances by a whole period, from the first such evaluation on, and past it the class A fault
is raised; inside, it restarts and the fault's condition ends (R219, R676). DESIGN CHOICE, log entry 79. -/
def plausCheck (c : Fin 2) (k : TrCheck) (v m : Module) : Module :=
  let set (x : Nat) (m : Module) : Module :=
    updTraction c (fun t => { t with outsideFor := Vector.upd t.outsideFor k.idx (fun _ => x) }) m
  let q := checkQuantity c k v
  if !(m.regionImage m.epochs.active.supFin).enables (tractionFunc c) || !m.driven || checkSuspended c k v m || (!F32.isNaN q.1 && le q.1 q.2) then
    endCond (k.code + 0x1000 * c.val) 0 (set 0 m)
  else
    let n := v.epochs.active.supFin
    plausFault c k (set ((m.traction[c]).outsideFor[k.idx] + v.rnum n (P.regionPeriod + n.val)) m)

/-- The model's prediction of the current one period on, under the output actually in force (R219). -/
def plausPredict (c : Fin 2) (v m : Module) : Module :=
  let t := v.traction[c]
  let n := v.epochs.active.supFin
  let s := t.sample
  let mo := v.motorOf n c
  let cur := [s.iU, s.iV, s.iW]
  let i := alphaBeta s.iU s.iV s.iW
  let th := if s.posOk then s.theta else t.carried.theta
  let w := if s.posOk then mo.elec s.speed else t.carried.omega
  let u := voltage s.vdc (match t.under t.output with
    | some x => legLevels x x cur 0
    | none => offLevels cur)
  let e := segment mo (v.rpar n (P.trDriftTc + 0x1000 * c.val)) u false (v.rnum n (P.regionPeriod + n.val))
    { i := i, psiV := ⟨t.carried.psiVAlpha, t.carried.psiVBeta⟩, th := th, w := w }
  updTraction c (fun x => { x with plausAlpha := e.i.x, plausBeta := e.i.y }) m

/-- A clean commit of the traction plausibility models 0x0A0 (R219): the checks of both channels, then the next prediction.
`v` shows what the launch saw on the exchange, with the model's own state. -/
def commitPlausTraction (v m : Module) : Module :=
  let own : Module := { v with traction := Vector.ofFn (fun c => { v.traction[c] with
    plausAlpha := (m.traction[c]).plausAlpha, plausBeta := (m.traction[c]).plausBeta }) }
  let check (c : Fin 2) (m : Module) : Module :=
    plausPredict c own ([TrCheck.torque, .current, .flux, .sum].foldl (fun m k => plausCheck c k own m) m)
  check 1 (check 0 m)

/-! ## The pattern of a traction inverter (R249 … R251) -/

/-- An island is healthy (R249). -/
def Island.healthy (i : Island) : Bool :=
  i.railPosOk && i.railNegOk && i.state != .latched && i.state != .softOff && !i.uvloPos && !i.uvloNeg

/-- The three islands of a side of a channel are healthy: high sides GD00, 02, 04 (06, 08, 10), low sides the odd ones
(R345). -/
def Module.sideHealthy (m : Module) (c : Fin 2) (high : Bool) : Bool :=
  (List.finRange 36).all (fun i =>
    islandFunc i.val != tractionFunc c || i.val % 2 != (if high then 0 else 1) ||
    (m.dies[(⟨10 + i.val, by omega⟩ : Fin 46)].supply == 1 && !m.supply.railsRemoved && (m.islands[i]).healthy))

/-- The speed of a channel is valid: from its port, or from the sensorless model (R249). -/
def Module.speedValid (m : Module) (c : Fin 2) : Bool :=
  (m.feedback[(⟨c.val, by omega⟩ : Fin 6)]).speedValid || m.sensorless c

/-- The back-EMF ratio r (R249). -/
def Module.emfRatioOf (m : Module) (c : Fin 2) : Word :=
  let t := m.traction[c]
  let enter := m.par (P.trAscEnterRatio + 0x1000 * c.val)
  let fresh := match t.sample.vdcAt with
    | some a => m.time.elapsed ≤ a + 20000
    | none => false
  let vdc := if fresh && t.sample.vdcOk then t.sample.vdc else F32.ofNat 450
  let w := (m.motor c).elec t.speedEst
  if !m.speedValid c then enter
  else if lt vdc fOne then (if F32.key w = 0 then 0 else enter)
  else div (mul (mul fSqrt3 (F32.abs w)) (m.par (P.trPsiPm + 0x1000 * c.val))) vdc

/-- R249: the pattern for a channel with its back-EMF ratio. -/
def Module.choosePattern (m : Module) (c : Fin 2) : Pattern :=
  let r := m.emfRatioOf c
  let p := m.patternOf (tractionFunc c)
  let asc := p == .ascLow || p == .ascHigh
  let high := m.num (P.trAscPreferred + 0x1000 * c.val) == 1
  if m.latchedShort (tractionFunc c) then .off
  else if lt r (m.par ((if asc then P.trAscReleaseRatio else P.trAscEnterRatio) + 0x1000 * c.val)) then .off
  else if m.sideHealthy c high then (if high then .ascHigh else .ascLow)
  else if m.sideHealthy c (!high) then (if high then .ascLow else .ascHigh)
  else .off

/-- The pre-selected pattern of a channel is written (R250). -/
def preselect (c : Fin 2) (m : Module) : Module :=
  updTraction c (fun t => { t with preselected := m.choosePattern c, emfRatio := m.emfRatioOf c }) m

/-- Both channels. -/
def preselectAll (m : Module) : Module := preselect 1 (preselect 0 m)

/-- The re-evaluation of a traction pattern in force (R251): PATTERN_OFF set by row 1 stays. -/
def reevaluate (c : Fin 2) (m : Module) : Module :=
  let f := tractionFunc c
  let p := m.patternOf f
  if p == .none then m
  else
    let row1 := m.latchedShort f || (m.traction[c]).offByRow1
    let new : Pattern := if row1 || !m.enHigh then .off else m.choosePattern c
    let m1 := updTraction c (fun t => { t with offByRow1 := row1 }) m
    let by_ := m.faults.patternBy[f.idx]
    let rel := m.faults.releasing[f.idx]
    if new == p then m1
    else
      let m2 := putPattern f new by_.1 by_.2 m1
      { m2 with faults := { m2.faults with releasing := m2.faults.releasing.set f.idx.val rel f.idx.isLt } }

/-- The control period of the supervision region (R219). -/
def Module.modelPeriod (m : Module) : Nat :=
  let n := m.epochs.active.supFin
  m.rnum n (P.regionPeriod + n.val)

/-- The supervisor writes the pattern in force into a traction region (R186), whose legs follow it (R225); a change suspends the
current check for two periods of the model (R219). -/
def writePattern (c : Fin 2) (m : Module) : Module :=
  updTraction c (fun t =>
    let p := m.patternOf (tractionFunc c)
    Traction.noteLegs m.time.count.toNat
      { t with patternSeen := p, plausUntil := if p = t.patternSeen then t.plausUntil else m.time.elapsed + 2 * m.modelPeriod }) m

/-! ## Setpoints (R207, R211 … R213) -/

/-- The checks of a setpoint of a channel (R213, R211, R218): the pattern first. -/
def setpointCheck (c : Fin 2) (m : Module) : Check :=
  firstFail
    [failIf (m.patterned (tractionFunc c)) .safePatternActive,
     failIf (!m.enabled (tractionFunc c) || m.num (P.trSetpointSource + 0x1000 * c.val) == 1) .stateForbids]

/-- A change of the mode by a setpoint in effect (R207); torque at all times while the share is the source. -/
def setMode (c : Fin 2) (speed : Bool) (m : Module) : Module :=
  let s := speed && m.tpar c P.trSetpointSource != 1
  updTraction c (fun t => if s && !t.speedMode then { settle207 t with speedMode := true } else { t with speedMode := s }) m

end Sys2Proof.Machine
end

