-- ==== Sys2Proof/Machine/Compare.lean ====
section
/-!
DEFINITION. The analog side in numbers: the correction of a SAR result (R412), the sinc3 and sinc2 sums of a modulator's
bits (R419, R421), the DAC codes, hysteresis and decisions of the comparators (R422 … R424) and the slope-compensation
ramp of the DI comparators (R426).
-/

namespace Sys2Proof.Machine

/-! ## Exact quotients -/

/-- The integer nearest to n / d, ties to even. -/
def roundDiv (n : Int) (d : Nat) : Int :=
  let q := n.natAbs / d
  let r := n.natAbs % d
  let k := if d < 2 * r ∨ (2 * r = d ∧ q % 2 = 1) then q + 1 else q
  if n < 0 then -(k : Int) else (k : Int)

/-- a / b of two exact values as a quotient of integers with a positive denominator; 0 / 1 where b is 0. -/
def quotient (a b : F32.Dy) : Int × Nat :=
  if b.m = 0 then (0, 1)
  else
    let e := a.e - b.e
    let s : Int := if b.m < 0 then -1 else 1
    (s * a.m * 2 ^ e.toNat, b.m.natAbs * 2 ^ (-e).toNat)

/-- The exact difference of two words. -/
def exactSub (a b : Word) : F32.Dy := F32.addDy (F32.dy a) { F32.dy b with m := -(F32.dy b).m }

/-! ## SAR results (R412) -/

/-- The word of a raw result under a slice's gain and offset, and its OVER_RANGE: clamp(round(g · r + o)), half to even. -/
def corrected (gain offset : Word) (r : BitVec 16) : Int × Bool :=
  let x := F32.addDy (F32.mulDy (F32.dy gain) { m := r.toInt, e := 0 }) (F32.dy offset)
  let q := quotient x { m := 1, e := 0 }
  let s := roundDiv q.1 q.2
  let c : Int := if s < -32768 then -32768 else if 32767 < s then 32767 else s
  (c, decide (r.toInt = -32768) || decide (r.toInt = 32767) || decide (c ≠ s))

/-! ## Sigma-delta sums (R418, R419, R421) -/

/-- Bit `i` of a window of modulator bits as ±1 (R418). -/
def sdBit (w i : Nat) : Int := if w.testBit i then 1 else -1

/-- The weight of bit `k` of a window of 3 · osr − 2 bits in a sinc3 sum. -/
def sinc3Weight (osr k : Nat) : Int :=
  let t (j : Int) : Int := if j < 0 then 0 else (j + 1) * (j + 2) / 2
  t k - 3 * t ((k : Int) - osr) + 3 * t ((k : Int) - 2 * osr)

/-- The sinc3 sum y of a window. -/
def sinc3 (osr w : Nat) : Int := ((List.range (3 * osr - 2)).map (fun k => sinc3Weight osr k * sdBit w k)).sum

/-- The sinc3 word of a window and its OVER_RANGE (R419): y · 2^15 / osr^3, half to even, saturated. -/
def sdWord (osr w : Nat) : Int × Bool :=
  let n := 3 * osr - 2
  let s := roundDiv (sinc3 osr w * 2 ^ 15) (osr ^ 3)
  let ones := popcount n w
  (if 32767 < s then 32767 else s, decide (ones = 0) || decide (ones = n))

/-- The sinc2 sum z of the last 15 bits (R421): weights 1 … 8 … 1. -/
def sinc2 (w : Nat) : Int :=
  ((List.range 15).map (fun k => ((if k < 8 then k + 1 else 15 - k : Nat) : Int) * sdBit w k)).sum

/-! ## Thresholds (R421, R423) -/

/-- Gain and offset of an input, or of sigma-delta input `i` at 32 + i, in an image (R403, R434). -/
def Image.inGain (img : Image) (afe c : Nat) : Word :=
  img.val ((if c < 32 then P.afeInGain + c else P.afeSdGain + (c - 32)) + 0x400 * afe)
def Image.inOffset (img : Image) (afe c : Nat) : Word :=
  img.val ((if c < 32 then P.afeInOffset + c else P.afeSdOffset + (c - 32)) + 0x400 * afe)

/-- 64 LSB of an input: one DAC code (R423). -/
def codeUnit (gain : Word) : F32.Dy := F32.mulDy (F32.dy gain) { m := 64, e := 0 }

/-- A number of codes limited to 10 bits. -/
def clampCode (k : Int) : Nat := if k < 0 then 0 else if 1023 < k then 1023 else k.toNat

/-- The DAC code of a threshold X on an input (R423). A tie is rounded to even. DESIGN CHOICE, log entry 69. -/
def Image.dacCode (img : Image) (afe c : Nat) (x : Word) : Nat :=
  let q := quotient (exactSub x (img.inOffset afe c)) (codeUnit (img.inGain afe c))
  clampCode (512 + roundDiv q.1 q.2)

/-- Hysteresis in a physical unit as codes (R423). -/
def Image.hystCode (img : Image) (afe c : Nat) (h : Word) : Nat :=
  let q := quotient (F32.dy h) (codeUnit (F32.abs (img.inGain afe c)))
  (roundDiv q.1 q.2).toNat

/-- The upper and lower trip level of the detectors of a sigma-delta input (R421). -/
def Image.sdLevels (img : Image) (afe i : Nat) : Int × Int :=
  let g := F32.mulDy (F32.dy (img.inGain afe (32 + i))) { m := 512, e := 0 }
  let o := img.inOffset afe (32 + i)
  let t := img.val (P.afeSdTrip + i + 0x400 * afe)
  let up := quotient (exactSub t o) g
  let dn := quotient (exactSub (F32.negate t) o) g
  (-((-up.1) / up.2), dn.1 / dn.2)

/-- A detector trips, releases on the sum z (R421). -/
def detectorTrips (levels : Int × Int) (z : Int) : Bool := levels.1 ≤ z || z ≤ levels.2
def detectorReleases (levels : Int × Int) (h : Nat) (z : Int) : Bool := levels.2 + h < z && z < levels.1 - h

/-- What a comparator watches (R424): input, whether it trips above its threshold, DAC code and hysteresis in codes. -/
structure Threshold where
  input : Nat
  above : Bool
  code : Nat
  hyst : Nat
deriving DecidableEq, Repr

/-- The threshold of protection comparator `k` of an AFE in an image (R423, R424). -/
def Image.threshold (img : Image) (afe k : Nat) : Threshold :=
  let cur := img.num (P.afeCmpHyst + 0x400 * afe)
  let lim (input id : Nat) (above : Bool) : Threshold :=
    let x := img.val id
    { input := input, above := above, code := img.dacCode afe input (if above then x else F32.negate x), hyst := cur }
  if afe = 0 then
    if k < 2 then
      { input := 1, above := true, code := img.dacCode 0 1 (img.val P.dclOv2),
        hyst := img.hystCode 0 1 (img.val P.dclOvHyst) }
    else lim (3 + (k - 2) / 4) P.cvLegITrip ((k - 2) % 4 < 2)
  else if k < 2 then lim 4 P.cgBusOv true
  else if k < 14 then lim (5 + (k - 2) / 4) P.cgPfcITrip ((k - 2) % 4 < 2)
  else lim 8 P.cgDabITrip (k < 16)

/-- A filtered level lies beyond a threshold: above it, or below it for a comparator that trips low (R422). Levels are in
DAC codes. -/
def Threshold.beyond (t : Threshold) (level : Word) : Bool :=
  if t.above then F32.lt (F32.ofNat t.code) level else F32.lt level (F32.ofNat t.code)

/-- A level lies on the released side of threshold and hysteresis (R422). -/
def Threshold.clear (t : Threshold) (level : Word) : Bool :=
  if t.above then F32.lt level (F32.ofInt ((t.code : Int) - t.hyst)) else F32.lt (F32.ofNat (t.code + t.hyst)) level

/-- The last `n` samples, newest first, all meet a condition (R422). -/
def allLast (n : Nat) (levels : List Word) (p : Word → Bool) : Bool := n ≤ levels.length && (levels.take n).all p

/-! ## The ramp of a DI comparator (R426) -/

/-- RAMP_STEP of a slope in A/s on the input of a leg (R426): a 16-bit value; a larger one is held at 0xFFFF. DESIGN CHOICE,
log entry 69. -/
def Image.rampStep (img : Image) (leg : Nat) (se : Word) : Nat :=
  let q := quotient (F32.mulDy (F32.dy se) { m := 1, e := 16 }) (codeUnit (img.inGain 0 (3 + leg)))
  Nat.min 0xFFFF (roundDiv q.1 (q.2 * 400000000)).toNat

/-- The DAC code `t` ticks after the ramp start from the ipk code: the integer part of the accumulator. -/
def rampCode (code step t : Nat) : Nat := (code * 2 ^ 16 + 2 ^ 15 - t * step) / 2 ^ 16

end Sys2Proof.Machine
end

