-- ==== Sys2Proof/Machine/Converter.lean ====
section
/-!
DEFINITION. The DC link converter with its peak-current legs (R296 … R311, R341), the DC outlet (R315, R316), the brake
chopper (R239 … R248) and the plausibility checks of the converter and the charger (R336).
-/

namespace Sys2Proof.Machine

open F32 (add sub mul div sqrt lt le fmin fmax clamp negate)

/-! ## Compensators (R301) -/

/-- One update of a compensator: 3P3Z from a block of seven coefficients, 2P2Z from one of five, limited to umin … umax;
the histories hold the clamped output. -/
def Comp.step (k : Comp) (three : Bool) (b : Nat → Word) (e lo hi : Word) : Word × Comp :=
  let ff3 := add (add (add (mul (b 0) e) (mul (b 1) k.e1)) (mul (b 2) k.e2)) (mul (b 3) k.e3)
  let ff2 := add (add (mul (b 0) e) (mul (b 1) k.e1)) (mul (b 2) k.e2)
  let u := if three then sub (sub (sub ff3 (mul (b 4) k.u1)) (mul (b 5) k.u2)) (mul (b 6) k.u3)
           else sub (sub ff2 (mul (b 3) k.u1)) (mul (b 4) k.u2)
  let u' := clamp u lo hi
  (u', { e1 := e, e2 := k.e1, e3 := k.e2, u1 := u', u2 := k.u1, u3 := k.u2 })

/-- The histories at a close: errors 0, outputs u0 (R305). -/
def Comp.started (u0 : Word) : Comp := { e1 := 0, e2 := 0, e3 := 0, u1 := u0, u2 := u0, u3 := u0 }

/-- The loops of a block update in this period (R302). -/
def Module.updates (m : Module) (n : Fin 8) (divider period : Nat) : Bool :=
  m.rnum n divider != 0 && period % m.rnum n divider == 0

/-- Sum of binary32 values in order. -/
def fsum (ws : List Word) : Word := ws.foldl add 0

/-! ## Powers on the fabric exchange -/

/-- The electrical power of a traction channel, as it committed it last (R310); none of a channel that is not enabled. -/
def Module.tractionPower (m : Module) (c : Fin 2) : Word :=
  if (m.regionImage ⟨c.val, by omega⟩).trOn c.val then (m.traction[c]).power else 0

/-- The outlet power, capped by DO_POWER_MAX during export (R315). -/
def Module.outletPower (m : Module) : Word :=
  let p := mul m.converter.outletCurrent m.converter.outletVoltage
  if m.converter.outlet = 0 then p else fmin p (m.rpar 2 P.doPowerMax)

/-! ## Loop DC (R305, R308, R310) -/

/-- The battery limits Idis and Ichg with the flags of what clamps (R310 steps 4, 5): current, power, battery taper. -/
def battLimit (m : Module) (imax : Nat) (taperArg vbat : Word) : Word × Bool × Bool :=
  let cur := m.rpar 2 imax
  let pw := div (m.rpar 2 P.cvPowerMax) vbat
  let k := clamp (div taperArg (m.rpar 2 P.cvVbatTaper)) 0 fOne
  (mul (fmin cur pw) k, lt pw cur, lt k fOne)

/-- The effective reference of step 1 (R310, R315). -/
def Module.effectiveVref (m : Module) (vbat : Word) : Word :=
  if m.converter.outlet != 0 then m.rpar 2 P.doVref
  else clamp (fmax m.live.dcVref (add vbat (m.rpar 2 P.cvHeadroom))) (F32.ofNat 450) (F32.ofNat 880)

/-- The feed-forward of step 2 (R310). -/
def Module.feedForward (m : Module) (vbat : Word) : Word :=
  if m.rpar 2 P.cvFfEnable = 1 then
    div (sub (add (add (m.tractionPower 0) (m.tractionPower 1)) m.converter.pdo) m.charger.dabPower) vbat
  else 0

/-- A physical value of AFE0 in region 2: the last word of the channel code, whichever trigger took it. -/
def Module.v2 (m : Module) (code : Nat) : Word := physical (m.regionImage 2) 0 code ((m.regions[2]).lastWord code)

/-- The chopper's and the outlet's current (R315, CH_CURRENT_INPUT). -/
def Module.csCurrent (m : Module) (cs7 : Bool) : Word :=
  if cs7 then physical (m.regionImage 2) 1 35 ((m.regions[2]).lastWord (256 + 35)) else m.v2 35

/-- Threshold and ramp slope of every leg (R308). -/
def peakReference (m : Module) (vbat vdc itot : Word) : Word × Word :=
  let l := m.rpar 2 P.cvInductance
  let tsw := div fOne (m.rpar 2 P.cvPwmFreq)
  let d := clamp (sub fOne (div vbat vdc)) 0 (m.rpar 2 P.cvDutyMax)
  let sn := div vbat l
  let se := mul (m.rpar 2 P.cvSlopeFactor) (div (sub vdc vbat) l)
  let ileg := div itot (F32.ofNat 4)
  (add ileg (mul (mul (add se (div sn fTwo)) d) tsw), se)

/-- The samples a clean commit of 0x060 takes over (R294, R308). -/
def takeDcSamples (m : Module) : Module :=
  let legs := (List.range 4).map (fun j => m.v2 (3 + j))
  { m with converter := { m.converter with
      vbat := m.v2 0, vdc := m.v2 1, ibat := fsum legs, legCurrents := Vector.ofFn (fun j => legs.getD j.val 0),
      outletCurrent := m.csCurrent false, outletVoltage := m.v2 2 } }

/-- CV_STATUS (R341): LEG_TRIP, and DUTY_MAX of an on-time that has ended so within the last control period of region 2. -/
def Module.cvStatusNow (m : Module) : Word :=
  let x := m.converter
  let mode := if x.precharge != 0 then 1 else if !x.closed then 0 else if x.outlet = 0 then 2 else 3
  let recent (l : Leg) : Bool := match l.dutyMaxAt with
    | some t => m.time.elapsed ≤ t + m.rnum 2 (P.regionPeriod + 2)
    | none => false
  pack [(mode, 14), (flag x.closed, 13), (flag x.precharged, 12), (flag x.limitCurrent, 11), (flag x.limitPower, 10),
        (flag x.limitVbat, 9), (flag (x.legs.any recent), 8), (maskOf 4 (fun j => (x.legs.toList.getD j Leg.init).trip), 4),
        (x.outlet, 2)]

/-- The converter's status words follow a clean commit (R340). -/
def showDc (m : Module) : Module := { m with converter := { m.converter with shown := m.cvStatusNow } }

/-- The loop DC of a clean commit of 0x060 (R301 … R310): `v` what its launch saw. -/
def regulateDc (period : Nat) (v m : Module) : Module :=
  let cv := v.converter
  let v1 := takeDcSamples v
  let m1 := takeDcSamples m
  let vbat := v1.converter.vbat
  let vdc := v1.converter.vdc
  let target := v1.effectiveVref vbat
  if !cv.closed then
    { m1 with converter := { m1.converter with itot := 0, vref := target, limitCurrent := false, limitPower := false,
                                               limitVbat := false } }
  else if !v.updates 2 P.dcDivider period then m1
  else
    let ts := secs (v.rnum 2 P.dcDivider * v.rnum 2 (P.regionPeriod + 2))
    let rate := if cv.precharge = 2 then v.rpar 2 P.cvPrechargeRamp else v.rpar 2 P.dcVrefRamp
    let ref := towards cv.vrefRamp target (mul rate ts)
    let iff := v.feedForward vbat
    let dis := battLimit v P.cvIbatDischMax (sub vbat (v.rpar 2 P.cvVbatMin)) vbat
    let chg := battLimit v P.cvIbatChgMax (sub (v.rpar 2 P.cvVbatMax) vbat) vbat
    let (u, comp) := cv.comp.step true (fun i => v.rpar 2 (P.dcB + i)) (sub ref vdc)
      (sub (negate chg.1) iff) (sub dis.1 iff)
    let raw := add u iff
    let itot := clamp raw (negate chg.1) dis.1
    let hi := le dis.1 raw
    let lo := le raw (negate chg.1)
    let by_ := if hi then some dis else if lo then some chg else none
    let pk := peakReference v vbat vdc itot
    { m1 with converter := { m1.converter with
        comp := comp, vrefRamp := ref, vref := target, itot := itot, ipk := pk.1,
        limitCurrent := by_.any (fun b => !b.2.1), limitPower := by_.any (fun b => b.2.1),
        limitVbat := by_.any (fun b => b.2.2),
        outlet := if m1.converter.outlet = 1 && ref == target then 2 else m1.converter.outlet,
        legs := m1.converter.legs.map (fun l => { l with nextIpk := pk.1, nextSlope := pk.2 }) } }

/-- A clean commit of 0x060: loop DC, the outlet power for the next update, the status words (R310, R340). -/
def commitDc (period : Nat) (v m : Module) : Module :=
  let m1 := regulateDc period v m
  showDc { m1 with converter := { m1.converter with pdo := (takeDcSamples v).outletPower } }

/-- A loop change taken at a boundary of region 2 (R298, R305); an opening ends DC export, LOOP_OPEN's as a safe pattern's
(R316). DESIGN CHOICE, log entry 98. -/
def takeDc (m : Module) : Module :=
  match m.converter.nextClosed with
  | none => m
  | some true =>
    let cv := m.converter
    keepCheckpoint 2 { m with converter := { cv with
        closed := true, nextClosed := none,
        comp := Comp.started (sub cv.ibat (((m.seenBy 2).view m).feedForward cv.vbat)),
        vrefRamp := cv.vdc, legs := cv.legs.map Leg.stop } }
  | some false =>
    keepCheckpoint 2 { m with converter := { m.converter with
      closed := false, nextClosed := none, outlet := 0, legs := m.converter.legs.map Leg.stop } }

/-! ## Switching cycles (R306, R309, R425 … R427) -/

/-- The switching period of the converter in ticks. -/
def Module.tsw (m : Module) : Nat := (F32.toInt (div (F32.ofNat 400000000) (m.rpar 2 P.cvPwmFreq))).toNat

/-- The low side of a leg may conduct: the loops are CLOSED, no pattern, the islands enabled. -/
def Module.legDriven (m : Module) : Bool := m.converter.closed && !m.patterned .cv

/-- The ticks since the start of the current cycle of leg `j` (R306). -/
def Module.inCycle (m : Module) (j : Fin 4) : Nat := (m.time.count.toNat + m.tsw - j.val * m.tsw / 4) % m.tsw

/-- CONVERTER_CYCLE_START of leg `j`: low side on, GD_DEAD_TIME later where the high side conducts, the committed threshold
and slope loaded (R306, R309, R350); how the last on-time ended stays on show (R341). A count that is no start of the leg's
cycle changes nothing. -/
def cycleStart (j : Fin 4) (m : Module) : Module :=
  let t := m.tsw
  let dead := m.rnum 2 (P.gdDeadTime + 0x80)
  if t = 0 ∨ m.inCycle j != 0 ∨ !m.legDriven ∨ !m.time.valid then m
  else
    { m with converter := { m.converter with legs := Vector.upd m.converter.legs j (fun l =>
        { l with ipk := l.nextIpk, slope := l.nextSlope, lowOn := true,
                 onSince := m.time.count.toNat + (if l.cycling && !l.lowOn then dead else 0), trip := l.trip && !l.lowOn,
                 cycling := true }) } }

/-- The DI comparator of a leg decides at a count on its last samples, in DAC codes, newest first: each taken AFE_CMP_DIV
ticks before the next, CV_BLANK ticks or more after the low-side gate edge, above the ramp there (R306, R422, R425, R426). -/
def Module.diDecides (m : Module) (j : Fin 4) (levels : List Word) : Bool :=
  let l := m.converter.legs[j]
  let img := m.regionImage 2
  let now := m.time.count.toNat
  let div := img.num P.afeCmpDiv
  let start := l.onSince + 52
  let n := img.num P.afeCmpFilter
  let code := img.dacCode 0 (3 + j.val) l.ipk
  let step := img.rampStep j.val l.slope
  div != 0 && now % div == 0 && n ≤ levels.length &&
  (List.range n).all (fun i => start + img.num P.cvBlank + i * div ≤ now &&
    lt (F32.ofNat (rampCode code step (now - i * div - start))) (levels.getD i 0))

/-- DI_COMPARATOR_TRIP: an event on the trip line of AFE0 (R82); the low side turns off on the next tick (R306 step 3,
R425, R427). -/
def diTrip (j : Fin 4) (levels : List Word) (m : Module) : Module :=
  let l := m.converter.legs[j]
  if !l.lowOn ∨ !m.diDecides j levels then m
  else noteEvent 1 { m with converter := { m.converter with legs := Vector.upd m.converter.legs j (fun l =>
           { l with lowOn := false, trip := true }) } }

/-- DUTY_MAX_END: the on-time ends at CV_DUTY_MAX (R306 step 4). -/
def dutyMaxEnd (j : Fin 4) (m : Module) : Module :=
  let l := m.converter.legs[j]
  if !l.lowOn ∨ m.inCycle j < (F32.toInt (mul (m.rpar 2 P.cvDutyMax) (F32.ofNat m.tsw))).toNat then m
  else { m with converter := { m.converter with legs := Vector.upd m.converter.legs j (fun l =>
           { l with lowOn := false, trip := false, dutyMaxAt := some m.time.elapsed }) } }

/-! ## The outlet (R315, R316) -/

/-- EXPORT_START of form 1 (R315). -/
def exportDcOk (m : Module) : Bool :=
  m.label == .run && !m.inTransition && m.num P.doEnable == 1 && m.supply.hvil && m.converter.closed &&
  le (add m.converter.vbat (m.par P.cvHeadroom)) (m.par P.doVref)

/-- DC export ends: Vref returns through its ramp (R316). -/
def endDcExport (m : Module) : Module := { m with converter := { m.converter with outlet := 0 } }

/-- The condition of a row of R316 holds on the samples of region 2. -/
def outletCond (k : OutletEnd) (m : Module) : Bool :=
  let cv := m.converter
  match k with
  | .hvil => !m.supply.hvil
  | .overload => lt (m.rpar 2 P.doIMax) (F32.abs cv.outletCurrent)
  | .overcurrent => lt (m.rpar 2 P.doITrip) (F32.abs cv.outletCurrent)
  | .voltage => lt (F32.ofNat 20) (F32.abs (sub cv.outletVoltage cv.vdc)) && lt (F32.ofNat 5) cv.outletCurrent
  | .headroom => lt (m.rpar 2 P.doVref) (add cv.vbat (m.rpar 2 P.cvHeadroom))

/-- A clock of a condition: runs while it holds, stops otherwise. -/
def since (now : Nat) (holds : Bool) (s : Option Nat) : Option Nat :=
  if holds then some (s.getD now) else none

/-- A clock has run for a time. DEDUCED, log entry 56. -/
def lasted (now : Nat) (s : Option Nat) (ticks : Nat) : Bool :=
  match s with
  | some t => t + ticks ≤ now
  | none => false

/-- DC_EXPORT_END (R316): the row's fault, the end of export, PATTERN_OFF through the class A fault. -/
def dcExportEnd (k : OutletEnd) (m : Module) : Module :=
  let cv := m.converter
  if cv.outlet = 0 || !outletCond k m then m
  else
    match k with
    | .hvil => raise F.doHvilOpen 0 false (endDcExport m)
    | .overload =>
      if lasted m.time.elapsed cv.overloadSince (F32.usTicks (m.rpar 2 P.doIDwell)) then raise F.doOverload 0 true (endDcExport m) else m
    | .overcurrent => raise F.doOvercurrent 0 true (endDcExport m)
    | .voltage =>
      if lasted m.time.elapsed cv.outletVoltSince 4000000 then raise F.doVoltage 0 true (endDcExport m) else m
    | .headroom =>
      if lasted m.time.elapsed cv.headroomSince 4000000 then raise F.doOverload 0 true (endDcExport m) else m

/-! ## Precharge (R311) -/

/-- The link lies within tolerance of its effective reference with the loops CLOSED; with CV_ENABLE 0, Vdc ≥ 450 V. -/
def Module.withinTol (m : Module) : Bool :=
  let cv := m.converter
  if m.enabled .cv then cv.closed && le (F32.abs (sub cv.vdc cv.vref)) (m.rpar 2 P.cvPrechargeTol)
  else le (F32.ofNat 450) (m.v2 1)

/-- The islands of enabled functions among some are enabled; an island that holds a fault keeps it (R311, R348, R551). -/
def enableIslands (p : Nat → Bool) (m : Module) : Module :=
  { m with islands := Vector.ofFn (fun i =>
      let s := m.islands[i]
      if p i.val && m.enabled (islandFunc i.val) && s.state == .disabled then { s with state := .enabled } else s) }

/-- The faults of the outlet whose condition has ended (R316, R676). -/
def endOutletConds (m : Module) : Module :=
  let off (code : Nat) (k : OutletEnd) (m : Module) : Module := if outletCond k m then m else endCond code 0 m
  let ovl := if outletCond .overload m || outletCond .headroom m then m else endCond F.doOverload 0 m
  off F.doVoltage .voltage (off F.doOvercurrent .overcurrent ovl)

/-- A clean commit of 0x062: step 1 of precharge ends, the clocks of precharge and of the outlet run (R311, R316): `v` what
its launch saw. -/
def commitSupervision (v m : Module) : Module :=
  let cv := v.converter
  let now := m.time.elapsed
  let ready := m.converter.precharge == 1 && cv.precharge == 1 && (m.regionImage 2).on P.cvEnable &&
    le (v.rpar 2 P.cvVbatMin) cv.vbat && le cv.vbat (v.rpar 2 P.cvVbatMax) &&
    le (sub cv.vbat (v.rpar 2 P.cvPrechargeTol)) cv.vdc && !m.patterned .cv
  let m1 := { m with converter := { m.converter with
    precharge := if ready then 2 else m.converter.precharge,
    nextClosed := if ready then some true else m.converter.nextClosed,
    withinSince := since now (cv.precharge != 0 && v.withinTol) m.converter.withinSince,
    overloadSince := since now (cv.outlet != 0 && outletCond .overload v) m.converter.overloadSince,
    outletVoltSince := since now (cv.outlet != 0 && outletCond .voltage v) m.converter.outletVoltSince,
    headroomSince := since now (cv.outlet != 0 && outletCond .headroom v) m.converter.headroomSince } }
  showDc <| endOutletConds (if ready then enableIslands (fun i => 12 ≤ i && i < 20) m1 else m1)

/-! ## The brake chopper (R239 … R248) -/

/-- A switch carries a mark (R242, R676): its fault's mark stands until ACK_FAULTS clears it. -/
def Module.openMark (m : Module) (k : Nat) : Bool := if k = 0 then m.chopper.switch0 != 0 else m.chopper.switch1 != 0

/-- The chopper is failed (R243), by its own checks or by a latched fault of one of its islands (R364). -/
def Module.chopperFailed (m : Module) : Bool :=
  (m.openMark 0 && m.openMark 1) || (m.islands[34]).reported || (m.islands[35]).reported

/-- The chopper may switch (R239). -/
def Module.chopperRuns (m : Module) : Bool := m.driven && m.enabled .ch && m.dieRuns 7

/-- The chopper period in ticks (R240). -/
def Module.tch (m : Module) : Nat := (F32.toInt (div (F32.ofNat 400000000) (m.rpar 2 P.chPwmFreq))).toNat

/-- The DCL_OV2 comparator shows a resolved trip (R245, R248). -/
def Module.ov2Tripped (m : Module) : Bool :=
  let k := (m.afe[0]).comparators
  (if k[0].active then k[0] else k[1]).decision == 2

/-- The backstop runs the chopper: the converter holds a pattern or the comparator shows a resolved trip (R245). -/
def Module.backstop (m : Module) : Bool := m.chopperRuns && (m.patterned .cv || m.ov2Tripped)

/-- The duty of the current chopper period; 0 where none runs (R239, R240, R259). -/
def Module.chopperDuty (m : Module) : Word :=
  if m.chopperRuns && !m.backstop && (m.regionImage 2).holds 2 0x061 && m.time.valid &&
      m.time.elapsed < m.chopper.startedAt + m.tch then m.chopper.dutyNow else 0

/-- The open check of an on-time that has ended: three in a row mark the switch (R242, R243). The second mark raises both faults,
that of the switch and that of the chopper. DESIGN CHOICE, log entry 81. -/
def openCheck (duty : Word) (sw : Nat) (vdc : Word) (current : Option Word) (m : Module) : Module :=
  let ch := m.chopper
  let onTicks := (F32.toInt (mul duty (F32.ofNat m.tch))).toNat
  match current with
  | none => m
  | some i =>
    if onTicks < 8000 then m
    else
      let low := lt i (div (mul (m.rpar 2 P.chOpenRatio) vdc) (m.rpar 2 P.chResistance))
      let n0 := if sw = 0 then (if low then ch.openCount0 + 1 else 0) else ch.openCount0
      let n1 := if sw = 1 then (if low then ch.openCount1 + 1 else 0) else ch.openCount1
      let new0 := 3 ≤ n0 && ch.switch0 == 0
      let new1 := 3 ≤ n1 && ch.switch1 == 0
      let m1 := { m with chopper := { ch with
        openCount0 := n0, openCount1 := n1,
        switch0 := if new0 then 1 else ch.switch0, switch1 := if new1 then 1 else ch.switch1,
        failed := ch.failed || ((new0 || ch.switch0 == 1) && (new1 || ch.switch1 == 1)) } }
      let m2 := if new0 then raise F.chSwitchOpen 0 false m1 else m1
      let m3 := if new1 then raise F.chSwitchOpen 1 false m2 else m2
      if m3.chopper.failed && !ch.failed then raise F.chFailedOpen 0 false m3 else m3

/-- The resistor model of an ended chopper period (R241 step 2). -/
def resistorModel (duty vdc : Word) (m : Module) : Module :=
  let p := div (mul duty (mul vdc vdc)) (m.rpar 2 P.chResistance)
  let tau := div (m.rpar 2 P.chResTau) (F32.ofNat 1000000)
  let pbar := add m.chopper.resPower (div (mul (sub p m.chopper.resPower) (secs m.tch)) tau)
  { m with chopper := { m.chopper with resPower := pbar } }

/-- The ended chopper periods that have not been modelled and checked are (R241, R242). -/
def takeEnded (m : Module) : Module :=
  m.chopper.ended.foldl (fun m x => openCheck x.1 x.2.1 x.2.2.1 x.2.2.2 (resistorModel x.1 x.2.2.1 m))
    { m with chopper := { m.chopper with ended := [] } }

/-- A clean commit of 0x061: resistor model and switch checks, duty, resistor cap, schop, sregen (R241, R242, R246 …
R248): `v` what its launch saw. -/
def commitChopper (v m : Module) : Module :=
  let m0 := takeEnded m
  let vdc := v.v2 1
  let dmax := v.rpar 2 P.chDutyMax
  let d0 := mul dmax (clamp (div (sub vdc (v.rpar 2 P.chVStart)) (sub (v.rpar 2 P.chVFull) (v.rpar 2 P.chVStart))) 0 fOne)
  let cap := le (v.rpar 2 P.chResPowerCont) m0.chopper.resPower
  let d1 := if cap then fmin d0 (div (mul (v.rpar 2 P.chResPowerCont) (v.rpar 2 P.chResistance)) (mul vdc vdc)) else d0
  let d2 := if m0.openMark 0 != m0.openMark 1 then fmin d1 (div dmax fTwo) else d1
  let d := if m0.chopperFailed then 0 else d2
  let step := mul (v.rpar 2 P.chFaultRegenRamp) (secs (v.rnum 2 (P.regionPeriod + 2)))
  let on := v.rpar 2 P.chEnable == 1
  let schop := if !on then fOne
    else if m0.chopperFailed then fmax 0 (sub v.chopper.schop step) else fmin fOne (add v.chopper.schop step)
  let hold := svoltHeld v 2 v.chopper.svoltHold vdc
  let m1 := { m0 with chopper := { m0.chopper with
    duty := if on then d else 0, resCap := cap, schop := schop, svoltHold := hold, vdc := vdc,
    sregen := fmin (svolt v 2 hold vdc) schop, sregenValid := true } }
  let m2 := if cap && on then raise F.chResLimit 0 true m1 else endCond F.chResLimit 0 m1
  let low (a b : Nat) : Bool := lt vdc (sub (v.rpar 2 a) (v.rpar 2 b))
  let m3 := if low P.dclOv1 P.dclOvHyst then endCond F.dclOv1 0 m2 else m2
  if low P.dclOv2 P.dclOvHyst then endCond F.dclOv2 0 m3 else m3

/-- CHOPPER_PERIOD at a count divisible by Tch: the next period begins with the committed duty on its switch, with none where
the chopper may not switch (R239), and the ended one is left to region 2, which models the resistor in every period (R240 …
R242). `vdc` is the mean of the ended period, `current` the mean current of its on-time. -/
def chopperPeriod (vdc : Word) (current : Option Word) (m : Module) : Module :=
  let t := m.tch
  if t = 0 ∨ m.time.count.toNat % t != 0 ∨ !(m.regionImage 2).holds 2 0x061 ∨ !m.time.valid then m
  else
    let even := m.time.count.toNat / t % 2
    let sw := if m.openMark 0 then 1 else if m.openMark 1 then 0 else even
    let ch := m.chopper
    { m with chopper := { ch with
        startedAt := m.time.elapsed,
        ended := ch.ended ++ [(ch.dutyNow, ch.switchNow, vdc, current)],
        dutyNow := if !m.chopperRuns || m.chopperFailed || m.backstop || m.patterned .ch then 0 else ch.duty,
        switchNow := sw } }

/-- The chopper current exceeds CH_SHORT_CURRENT while both switches are commanded off (R242). -/
def Module.shortSeen (m : Module) : Bool :=
  m.chopperRuns && !(m.islands[34]).placed && !(m.islands[35]).placed &&
    lt (m.rpar 2 P.chShortCurrent) (F32.abs (m.csCurrent (m.rpar 2 P.chCurrentInput == 1)))

/-- A sample word of AFE code `code` has reached region 2 (R242, R247, R248): one of the chopper current is a new evaluation of
the short check, one of VS1 may end the conditions of DCL_OV1 and DCL_OV2. -/
def noteLink (code : Nat) (m : Module) : Module :=
  let input := if m.rpar 2 P.chCurrentInput = 1 then 256 + 35 else 35
  let low (a : Nat) : Bool := lt (m.v2 1) (sub (m.rpar 2 a) (m.rpar 2 P.dclOvHyst))
  let m1 := if code = input then
      (if m.shortSeen then setCond F.chSwitchShort (fun _ => true) true else setCond F.chSwitchShort (fun _ => true) false)
        { m with chopper := { m.chopper with shortSince := since m.time.elapsed m.shortSeen m.chopper.shortSince } }
    else m
  if code = 1 then
    let m2 := if low P.dclOv1 then endCond F.dclOv1 0 m1 else m1
    if low P.dclOv2 then endCond F.dclOv2 0 m2 else m2
  else m1

/-- CH_SWITCH_SHORT: the excess has lasted CH_SHORT_DWELL; both switches failed, the class A fault with detail 7 (R242,
R243). -/
def chopperShort (m : Module) : Module :=
  let due := match m.chopper.shortSince with
    | some t => t + F32.usTicks (m.rpar 2 P.chShortDwell) ≤ m.time.elapsed
    | none => false
  if !m.shortSeen || !due || m.hasFault F.chSwitchShort then m
  else raise F.chSwitchShort 7 true { m with chopper := { m.chopper with
         switch0 := 2, switch1 := 2, failed := true, duty := 0, dutyNow := 0 } }

/-- DCL_OV1 (R247): a VS1 sample of region 2 has reached the threshold; regeneration falls through svolt (R246). -/
def dclOv1 (m : Module) : Module :=
  if le (m.rpar 2 P.dclOv1) (m.v2 1) then raise F.dclOv1 0 true m else m

/-- DCL_OV2 (R248, R300): seen by a VS1 sample of region 2 or by the comparator, the class A fault with its patterns. -/
def dclOv2 (m : Module) : Module :=
  if le (m.rpar 2 P.dclOv2) (m.v2 1) || m.ov2Tripped then raise F.dclOv2 0 true m else m

/-- CHOPPER_BACKSTOP: the GDC runs the chopper from the DCL_OV2 comparator while the converter holds a pattern and while
the comparator shows a resolved trip (R245): the on-time in progress ends there. -/
def chopperBackstop (m : Module) : Module :=
  if m.backstop then { m with chopper := { m.chopper with dutyNow := 0 } } else m

/-- ACK_FAULTS has cleared a chopper fault: its marks go and the checks start again (R676). -/
def clearChopperMarks (m : Module) : Module :=
  let short := m.hasFault F.chSwitchShort
  let fail := m.hasFault F.chFailedOpen
  let keep (k : Nat) (s : Nat) : Nat :=
    if s = 2 then (if short then 2 else 0)
    else if s = 1 then (if fail || isActive m.faults.active F.chSwitchOpen k then 1 else 0) else 0
  let s0 := keep 0 m.chopper.switch0
  let s1 := keep 1 m.chopper.switch1
  { m with chopper := { m.chopper with
      switch0 := s0, switch1 := s1, failed := s0 != 0 && s1 != 0,
      openCount0 := if s0 = 0 then 0 else m.chopper.openCount0,
      openCount1 := if s1 = 0 then 0 else m.chopper.openCount1 } }

end Sys2Proof.Machine
end

