-- ==== Sys2Proof/Machine/Charger.lean ====
section
/-!
DEFINITION. The charger and AC export (R317 … R335): pilot and proximity, the source, the charge state machine with its
safety timer and hand-over, the loops PF, PV and DB, the commands that start and end a session.
-/

namespace Sys2Proof.Machine

open F32 (add sub mul div sqrt lt le fmin fmax clamp negate)

/-- The charger with `f` applied. -/
def updCharger (f : Charger → Charger) (m : Module) : Module := { m with charger := f m.charger }

/-- A decimal as the nearest binary32 word (R674). -/
def dec (n : Int) (d : Nat) : Word := F32.ofRat n d

/-- lo ≤ x ≤ hi. -/
def between (lo x hi : Word) : Bool := le lo x && le x hi

/-! ## Pilot and proximity (R322 … R325) -/

/-- The class of a pilot measurement (R322): 0 A … 5 F, 6 invalid. -/
def pilotClass (p : PilotLine) : Nat :=
  let volt (a b : Int) : Bool := between (F32.ofInt a) p.positive (F32.ofInt b)
  if p.pwm && (!between (F32.ofInt 980) p.freq (F32.ofInt 1020) || !between (F32.ofInt (-13)) p.negative (F32.ofInt (-11)))
  then 6
  else if volt 11 13 then 0 else if volt 8 10 then 1 else if volt 5 7 then 2 else if volt 2 4 then 3
  else if volt (-1) 1 && !p.pwm then 4
  else if volt (-13) (-11) && !p.pwm then 5 else 6

/-- The pilot current in A (R323); none: charging not permitted. -/
def pilotCurrent (d : Word) : Option Word :=
  if lt d (dec 8 100) then none
  else if lt d (dec 10 100) then some (F32.ofNat 6)
  else if le d (dec 85 100) then some (mul fSixty d)
  else if le d (dec 96 100) then some (mul (sub (mul (F32.ofNat 100) d) (F32.ofNat 64)) (dec 5 2))
  else if le d (dec 97 100) then some (F32.ofNat 80)
  else none

/-- The class of a proximity resistance (R324): 0 no cable, 1 … 4 ratings, 5 invalid. -/
def proximityClass (r : Word) : Nat :=
  let ohm (a b : Nat) : Bool := between (F32.ofNat a) r (F32.ofNat b)
  if lt (F32.ofNat 4500) r then 0 else if ohm 1100 2460 then 1 else if ohm 400 936 then 2
  else if ohm 164 308 then 3 else if ohm 80 140 then 4 else 5

/-- The cable rating in A (R324). -/
def cableCurrent (p : Nat) : Word :=
  F32.ofNat (match p with | 1 => 13 | 2 => 20 | 3 => 32 | 4 => 63 | _ => 0)

/-- A classification takes effect after three equal ones in a row. -/
def threeInRow (seen : Nat × Nat) (k : Nat) : Nat × Nat := if seen.1 = k then (k, Nat.min 3 (seen.2 + 1)) else (k, 1)

/-- The allowed AC current (R325). -/
def Module.iac (m : Module) : Word :=
  fmin (fmin ((pilotCurrent m.charger.pilotDuty).getD 0) (cableCurrent m.charger.proximity)) (m.rpar 3 P.cgAcIMax)

/-- The available power (R325). -/
def Module.pavail (m : Module) : Word :=
  fmin (m.rpar 3 P.cgPowerMax) (mul (mul fSqrt3 m.charger.vll) m.iac)

/-! ## The source (R326) -/

/-- The nominal frequency of an enum (R339). -/
def nominal (w : Word) : Word := F32.ofNat (if w = 0 then 50 else 60)

/-- The root mean square of samples; 0 of none. DESIGN CHOICE, log entry 90. -/
def rms (ws : List Word) : Word :=
  if ws.isEmpty then 0 else sqrt (div (fsum (ws.map (fun w => mul w w))) (F32.ofNat ws.length))

/-- The rms line voltages over the AC samples held (R326). -/
def Charger.lineRms (c : Charger) (k : Fin 3) : Word := rms (c.acHist.map (fun s => s.lines[k]))

/-- The phase voltages from the line voltages (R317). -/
def phasesOf (l : Vector Word 3) : List Word :=
  [div (sub l[0] l[2]) fThree, div (sub l[1] l[0]) fThree, div (sub l[2] l[1]) fThree]

/-- The apparent power: the sum over the phases of rms voltage times rms current. DESIGN CHOICE, log entry 90. -/
def Charger.apparent (c : Charger) : Word :=
  fsum ((List.finRange 3).map (fun k =>
    mul (rms (c.acHist.map (fun s => (phasesOf s.lines).getD k.val 0))) (rms (c.acHist.map (fun s => s.amps[k])))))

/-- A line voltage differs from its formed value by more than 15 %, in rms, while a voltage is formed (R335). DESIGN CHOICE,
log entry 90. -/
def Charger.deviates (c : Charger) : Bool :=
  (c.state == 7 || c.state == 8) && F32.key c.exportV != 0 &&
  (List.finRange 3).any (fun k =>
    lt (mul (dec 15 100) (rms (c.acHist.map (fun s => s.formed[k])))) (rms (c.acHist.map (fun s => sub s.lines[k] s.formed[k]))))

/-- The AC condition of R326 on the samples held: every line voltage, and the frequency of the phase-locked loop. -/
def Charger.acCondition (c : Charger) (v : Module) : Bool :=
  (List.finRange 3).all (fun k => between (v.rpar 3 P.cgAcVMin) (c.lineRms k) (v.rpar 3 P.cgAcVMax)) &&
  le (F32.abs (sub c.gridFreq (nominal (v.rpar 3 P.cgGridFreq)))) (v.rpar 3 P.cgFreqTol)

/-- The source condition at a sample; `ac` whether the AC condition counts (with S2 closed). -/
def Module.sourceOk (m : Module) : Bool :=
  let c := m.charger
  (c.pilot == 1 || c.pilot == 2) && (pilotCurrent c.pilotDuty).isSome && (1 ≤ c.proximity && c.proximity ≤ 4) &&
  (!c.s2 || c.acOk)

/-- The clocks of the source condition. -/
def noteSource (m : Module) : Module :=
  let ok := m.sourceOk
  updCharger (fun c => { c with
    failSince := since m.time.elapsed (!ok) c.failSince, presentSince := since m.time.elapsed ok c.presentSince,
    source := if ok then true else c.source, acAllowed := m.iac }) m

/-! ## Session ends -/

/-- PFC and DAB go off, S2 opens, a state is entered. -/
def enterState (s : Nat) (m : Module) : Module :=
  updCharger (fun c => { c with state := s, entered := m.time.elapsed }) m

/-- IDLE: everything off at the next boundary, the timer stopped (R298). -/
def toIdle (m : Module) : Module :=
  enterState 0 (updCharger (fun c => { chargerOff (endCharge c) with phase := c.phase, derated := false, exportV := 0 }) m)

/-- WAIT_SOURCE from a running session: S2 opens, DAB off at the next boundary (R298). -/
def toWait (m : Module) : Module :=
  enterState 1 (updCharger (fun c => { chargerOff c with s2 := false, handStep := 0, failSince := none }) m)

/-- A hand-over starts (R331); `atOnce`: Pref to 0 at once. -/
def startHandover (atOnce ending : Bool) (m : Module) : Module :=
  enterState 6 (updCharger (fun c => { c with
    handStep := 1, handAt := m.time.elapsed, pref := if atOnce then 0 else c.pref, ending := c.ending || ending }) m)

/-- The end of a session by stop, timer or fault, according to its state (R330, R333). DEDUCED, log entry 58. -/
def stopSession (m : Module) : Module :=
  match m.charger.state with
  | 0 => m
  | 4 | 5 => startHandover false true m
  | 6 => updCharger (fun c => { c with ending := true }) m
  | 1 | 2 | 3 => toIdle m
  | _ => m

/-- The end of AC export through EXPORT_STOP (R335): the ramp starts at the formed voltage of the moment. -/
def stopExport (m : Module) : Module :=
  if m.charger.state = 7 ∨ m.charger.state = 8 then
    enterState 9 (updCharger (fun c => { c with exportFrom := c.exportV, exportStep := 0 }) m)
  else m

/-- The source is lost (R326, R333). -/
def loseSource (m : Module) : Module :=
  let c := m.charger
  let fell := c.pfClosed && lt c.busVoltage (sub (m.rpar 3 P.cgBusVref) (F32.ofNat 150))
  if !c.heard || !(fell || lasted m.time.elapsed c.failSince 8000000) then m
  else
    let m1 := updCharger (fun c => { c with source := false, presentSince := none }) m
    if c.state = 4 ∨ c.state = 5 then
      let m2 := if c.s2 && !c.acOk then raise F.cgAcLost 0 false m1 else m1
      let m3 := if 4 ≤ c.pilot then raise F.cgPilotError 0 true m2 else m2
      let m4 := if c.proximity = 5 then raise F.cgProximityInvalid 0 true m3 else m3
      startHandover fell (c.proximity == 5) m4
    else if c.state = 2 ∨ c.state = 3 then
      if c.proximity = 5 then toIdle (raise F.cgProximityInvalid 0 true m1) else toWait m1
    else m1

/-- CG_STATUS (R342). -/
def Charger.status (x : Charger) : Word :=
  pack [(x.state, 20), (x.pilot, 17), (x.proximity, 14), (flag x.s2, 13), (flag x.digital, 12), (flag x.timerHalf, 11),
        (flag x.derated, 10), (x.phase, 8), (flag x.source, 7), (flag x.session, 6)]

/-- The words of 0x073 follow its clean commit, and what that commit found (R340). -/
def showCh (m : Module) : Module :=
  updCharger (fun c => { c with shown := c.status, shownTimer := c.timerW, shownRef := c.pref }) m

/-- SOURCE_LOST (R326, R333): found on the samples of an instance of 0x073 that committed clean, part of the region state it
leaves (R38, R39). -/
def sourceLost (m : Module) : Module := keepCheckpoint 3 (if m.charger.heard then showCh (loseSource m) else m)

/-- The mean of the pilot periods held. -/
def meanDuty (ds : List Word) : Word := if ds.isEmpty then 0 else div (fsum ds) (F32.ofNat ds.length)

/-- PILOT_CLASSIFY (R322, R323): D is the mean of the last four pilot periods; a constant pilot counts as 1.0. What it finds
takes effect with the next clean commit of 0x073 (R38). -/
def pilotClassify (p : PilotLine) (m : Module) : Module :=
  let k := pilotClass p
  let ds := if p.pwm then (p.duties ++ m.charger.pilotDuties).take 4 else []
  let d := if p.pwm then meanDuty ds else fOne
  updCharger (fun c =>
    let s := threeInRow c.pilotSeen k
    { c with pilotSeen := s, pilotIn := if s.2 = 3 then k else c.pilotIn, dutyIn := d, pilotDuties := ds,
             digitalIn := between (dec 3 100) d (dec 7 100) }) m

/-- PROXIMITY_CLASSIFY (R324); what it finds takes effect with the next clean commit of 0x073 (R38). -/
def proximityClassify (r : Word) (m : Module) : Module :=
  let k := proximityClass r
  updCharger (fun c =>
    let s := threeInRow c.proximitySeen k
    { c with proximitySeen := s, proximityIn := if s.2 = 3 then k else c.proximityIn }) m

/-- Pilot and proximity as the commit takes them over: what they end (R333, R335). -/
def pilotEnds (m : Module) : Module :=
  let m1 := if m.charger.pilot < 4 then endCond F.cgPilotError 0 m else m
  let m2 := if m1.charger.proximity = 5 then m1 else endCond F.cgProximityInvalid 0 m1
  let exporting := m2.charger.state = 7 ∨ m2.charger.state = 8
  let m3 := if exporting ∧ m2.charger.pilot ≠ 0 then
      stopExport (raise F.cgPilotError 0 (decide (4 ≤ m2.charger.pilot)) m2) else m2
  if m3.charger.proximity == 5 && m3.charger.session then stopSession (raise F.cgProximityInvalid 0 true m3) else m3

/-! ## The charge state machine (R328 … R331) -/

/-- A class A or class B charger fault is active (R327, R333). -/
def Module.chargerFault (m : Module) : Bool :=
  m.faults.active.any (fun f => f.code / 0x1000 == 5 && classOf f.code != .c)

/-- One millisecond of the safety timer (R330); with its expiry, which happens once in a session (R344), a completion is not
recorded (R333). -/
def timerTick (m : Module) : Module :=
  let c := m.charger
  if !c.session then m
  else
    let full := le (mul 0x3F000000 m.live.cgISet) c.ichg
    let limit := F32.usTicks (m.rpar 3 P.cgTimerLimit)
    let w := c.timerW + (if full then 1000 else 500)
    let der := c.derated || (!full && (c.state == 4 || c.state == 5))
    let m1 := updCharger (fun c => { c with timerW := w, timerHalf := !full, derated := der }) m
    if 400 * c.timerW < limit && limit ≤ 400 * w then
      raise (if der then F.cgTimerExpiredDerated else F.cgTimerExpired) 0 false
        (updCharger (fun c => { c with phase := if c.phase = 3 then 2 else c.phase }) (stopSession m1))
    else m1

/-- A DAB running backwards with PV closed (R328 state 2, R334): PV and DB close at the next boundary (R298). -/
def busStart (m : Module) : Module := updCharger (fun c => { c with closePv := true, closeDb := true }) m

/-- The target and the power reference of RAMP and CHARGING (R329). -/
def chargeLaw (m : Module) : Module :=
  let v := (m.seenBy 3).view m
  let c := m.charger
  let vbat := c.vbat
  let ms : Word := dec 1 1000
  let cvNow := c.phase == 2 || le m.live.cgVSet vbat
  let it := if cvNow then
      clamp (add c.target (mul (mul (m.rpar 3 P.cgCvKi) (sub m.live.cgVSet vbat)) ms)) 0 m.live.cgISet
    else towards c.target m.live.cgISet (mul (m.rpar 3 P.cgChargeRamp) ms)
  let e := sub it c.ichg
  let pload := add (add (v.tractionPower 0) (v.tractionPower 1)) v.converter.pdo
  let pav := m.pavail
  let raw := add (add pload (mul (m.rpar 3 P.cgCiKp) e)) c.integ
  let dj := mul (mul (m.rpar 3 P.cgCiKi) e) ms
  let deepens := (le pav raw && lt 0 dj) || (le raw 0 && lt dj 0)
  let j := if deepens then c.integ else add c.integ dj
  let reached := it == m.live.cgISet || cvNow
  let s := if c.state = 4 ∧ reached then 5 else c.state
  updCharger (fun c => { c with
    target := it, integ := j, pref := clamp raw 0 pav, state := s, phase := if s = 5 ∧ cvNow then 2 else 1,
    endSince := since m.time.elapsed (s == 5 && cvNow && lt c.ichg (m.rpar 3 P.cgEndCurrent)) c.endSince }) m

/-- One millisecond of a hand-over (R331, R332): at the end of step 1 PFC and DAB go off at the next boundary of region 3, where
the rest of it follows: `endHandover`. -/
def handoverTick (m : Module) : Module :=
  let c := m.charger
  let pref := towards c.pref 0 (mul (m.rpar 3 P.cgHandoverRamp) (dec 1 1000))
  let done := le (F32.abs c.dabPower) (F32.ofNat 500) || lasted m.time.elapsed (some c.handAt) 8000000
  if c.handStep = 2 then m
  else if done then updCharger (fun c => { chargerOff c with pref := 0, handStep := 2 }) m
  else updCharger (fun c => { c with pref := pref }) m

/-- Steps 3 and 4 of a hand-over, once PFC and DAB are off (R331): S2 opens, the state is left. -/
def endHandover (m : Module) : Module :=
  if m.charger.state != 6 || m.charger.handStep != 2 then m
  else if m.charger.ending then
    enterState 0 (updCharger (fun c => { endCharge c with phase := c.phase, derated := false, exportV := 0 }) m)
  else enterState 1 (updCharger (fun c => { c with s2 := false, handStep := 0, failSince := none }) m)

/-- AC export ends at once, the charger in PATTERN_OFF, also with CG_ENABLE 0 (R335). -/
def exportOff (m : Module) : Module :=
  let m1 := raise F.exAcExternalSource 0 false m
  if m1.charger.state = 0 then m1 else putPattern .cg .off F.exAcExternalSource 0 m1

/-- The checks of AC export in a millisecond (R335). -/
def exportTick (m : Module) : Module :=
  let now := m.time.elapsed
  let c := m.charger
  if lasted now c.deviationSince 8000000 then exportOff m
  else if lasted now c.limitSince 400000000 || lasted now c.apparentSince 4000000000 then
    stopExport (raise F.exAcOverload 0 false m)
  else m

/-- The formed voltage of AC export in a millisecond: 100 ms up from 0, 20 ms down from where it stands (R334, R335). PF closes
with the start of the ramp. -/
def exportRamp (m : Module) : Module :=
  let top := div (m.rpar 3 P.exAcVoltage) fSqrt3
  let c := m.charger
  let k := c.exportStep + 1
  match c.state with
  | 7 =>
    if c.exportStep != 0 || le (F32.abs (sub c.busVoltage (m.rpar 3 P.cgBusVref))) (F32.ofNat 10) then
      updCharger (fun c => { c with
        exportV := if 100 ≤ k then top else mul top (dec k 100), exportStep := k,
        closePf := c.closePf || !c.pfClosed, state := if 100 ≤ k then 8 else 7 }) m
    else m
  | 9 =>
    let v := if 20 ≤ k then 0 else mul c.exportFrom (dec (20 - k) 20)
    if F32.key v = 0 then toIdle m else updCharger (fun c => { c with exportV := v, exportStep := k }) m
  | _ => m

/-- The state machine's own transitions in a millisecond (R328, R333). DEDUCED, log entry 58. At the entry to RAMP PV, which
stays closed and gives its output to the PFC, starts from the measured AC power. DESIGN CHOICE, log entry 98. -/
def stateTick (m : Module) : Module :=
  let c := m.charger
  let now := m.time.elapsed
  let fault := c.session && m.chargerFault
  if fault && c.state != 0 && c.state != 6 then stopSession m
  else
    match c.state with
    | 1 =>
      if m.sourceOk then enterState 2 (busStart m)
      else if lasted now (some c.entered) (F32.usTicks (m.rpar 3 P.cgSourceWait)) then raise F.cgSourceTimeout 0 false (toIdle m) else m
    | 2 =>
      if le (F32.abs (sub c.busVoltage (m.rpar 3 P.cgBusVref))) (F32.ofNat 10) then
        enterState 3 (updCharger (fun c => { c with s2 := true, presentSince := none }) m)
      else if lasted now (some c.entered) 200000000 then raise F.cgBusPrechargeFail 0 false (toIdle m) else m
    | 3 =>
      if lasted now c.presentSince 800000000 then
        enterState 4 (updCharger (fun c => { c with
          closePf := true, target := c.ichg, integ := 0, phase := 1, pv := Comp.started c.acPower }) m)
      else m
    | 4 | 5 =>
      let m1 := chargeLaw m
      if lasted now m1.charger.endSince (F32.usTicks (m.rpar 3 P.cgEndDwell)) then
        startHandover false true (updCharger (fun c => { c with phase := 3 }) m1)
      else m1
    | 6 => handoverTick (if fault then stopSession m else m)
    | _ => m

/-- CH_STATE_EVALUATION: the evaluation an instance of 0x073 has committed, once per millisecond, part of the region state it
leaves (R38, R39, R328); none is due, nothing happens. DEDUCED, log entry 58. -/
def chEvaluate (m : Module) : Module :=
  if !m.charger.evalDue then m else
  let m2 := timerTick (updCharger (fun c => { c with evalDue := false }) m)
  let m3 := if m2.charger.state = 7 ∨ m2.charger.state = 8 then exportTick m2 else m2
  keepCheckpoint 3 (showCh (exportRamp (stateTick m3)))

/-- The period of region 3 contains a count divisible by 400,000 (R328). -/
def evaluationPeriod (v : Module) (period : Nat) : Bool :=
  let p := v.rnum 3 (P.regionPeriod + 3)
  let a := v.rnum 3 (P.regionPhase + 3) + period * p
  decide ((a + 399999) / 400000 * 400000 < a + p)

/-- A fallback of 0x073: no source decision and no evaluation (R38). -/
def fallbackCh (m : Module) : Module := updCharger (fun c => { c with heard := false }) m

/-! ## Loops of region 3 (R318 … R321) -/

/-- A physical value of AFE1 in a region: the last word of the channel code. -/
def Module.vr (m : Module) (n : Fin 8) (code : Nat) : Word :=
  physical (m.regionImage n) 1 code ((m.regions[n]).lastWord (256 + code))

/-- The line voltages of a region's samples (R317). -/
def Module.lineVolts (m : Module) (n : Fin 8) : Vector Word 3 := #v[m.vr n 1, m.vr n 2, m.vr n 3]

/-- The phase voltages from the line voltages of a region's samples (R317). -/
def Module.phaseVolts (m : Module) (n : Fin 8) : List Word := phasesOf (m.lineVolts n)

/-- PV's output in force: power from the grid while charging, the DAB's reference otherwise. -/
def Module.pvOut (m : Module) : Word := m.charger.pv.u1

/-- The PFC takes power: RAMP, CHARGING, HANDOVER. -/
def Charger.pulls (c : Charger) : Bool := c.state == 4 || c.state == 5 || c.state == 6

/-- The power reference of the phase currents: ix,ref = G · vx with G = Ppv / (3 · Vph²) (R319). -/
def Module.conductance (m : Module) : Word :=
  let vph := div m.charger.vll fSqrt3
  div m.pvOut (mul fThree (mul vph vph))

/-- AC is being formed: EXPORT_START … EXPORT_STOP (R334). -/
def Charger.forms (c : Charger) : Bool := c.state == 7 || c.state == 8 || c.state == 9

/-- The angle θf in rad (R334). -/
def Charger.formAngle (c : Charger) : Word := mul fTwoPi (F32.ofRat c.formPhase 400000000)

/-- The formed voltage of phase `x` (R334): √2 · Vph · cos(θf − x · 2π/3). -/
def Charger.formed (c : Charger) (x : Nat) : Word :=
  mul (mul (sqrt fTwo) c.exportV) (Config.cos (sub c.formAngle (div (mul (F32.ofNat x) fTwoPi) fThree)))

/-- The formed line voltages, between the phases the lines VS2 … VS4 are between (R317, R335). -/
def Charger.formedLines (c : Charger) : Vector Word 3 :=
  #v[sub (c.formed 0) (c.formed 1), sub (c.formed 1) (c.formed 2), sub (c.formed 2) (c.formed 0)]

/-- The nominal frequency in force: of export while AC is formed, of the grid otherwise (R326, R334). -/
def Module.nominalHz (m : Module) : Nat :=
  if m.rnum 3 (if m.charger.forms then P.exAcFreq else P.cgGridFreq) = 0 then 50 else 60

/-- The AC side on the samples of an instance. -/
def acSample (now : Nat) (v : Module) : AcSample :=
  { at_ := now, lines := v.lineVolts 3, amps := #v[v.vr 3 5, v.vr 3 6, v.vr 3 7],
    formed := if v.charger.forms then v.charger.formedLines else Vector.replicate 3 0 }

/-- The samples of the AC side over the last nominal period decide on the AC condition and start and stop the clocks of
R334 and R335. DESIGN CHOICE, log entry 90. -/
def noteAc (now : Nat) (v : Module) (c : Charger) : Charger :=
  let s := acSample now v
  let c1 := { c with acHist := s :: c.acHist.filter (fun x => now < x.at_ + 400000000 / v.nominalHz) }
  let r := (List.finRange 3).map c1.lineRms
  { c1 with
    acOk := c1.acCondition v, vll := div (fsum r) fThree,
    quietSince := since now (r.all (fun x => lt x (F32.ofNat 50))) c1.quietSince,
    apparentSince := since now ((c1.state == 7 || c1.state == 8) && lt (v.rpar 3 P.exAcSMax) c1.apparent) c1.apparentSince,
    deviationSince := since now c1.deviates c1.deviationSince }

/-- A clean commit of 0x073 (R326, R328, R340): it takes over pilot and proximity as its launch saw them, its samples decide on
the source, its evaluation is due where it has one. -/
def commitCh (period : Nat) (v m : Module) : Module :=
  let x := v.charger
  showCh <| noteSource (pilotEnds (updCharger (fun c =>
    { noteAc m.time.elapsed v c with
      pilot := x.pilotIn, pilotDuty := x.dutyIn, digital := x.digitalIn, proximity := x.proximityIn,
      heard := true, evalDue := c.evalDue || evaluationPeriod v period }) m))

/-- The current above which PF limits a phase in export (R334). -/
def Module.exportLimit (m : Module) : Word := mul (mul (sqrt fTwo) fOneAndHalf) (m.rpar 3 P.exAcIMax)

/-- The part of a current beyond a limit, with its sign (R334). -/
def excess (lim i : Word) : Word :=
  if lt lim (F32.abs i) then mul (signWord i) (sub (F32.abs i) lim) else 0

/-- A clean commit of 0x070: the PF loops and the PFC duties (R318, R319, R334): `v` what its launch saw. -/
def commitPf (period : Nat) (v m : Module) : Module :=
  let c := v.charger
  let form := c.forms
  let now := m.time.elapsed
  let ix := (List.range 3).map (fun x => v.vr 3 (5 + x))
  let volts := v.phaseVolts 3
  let vbus := v.vr 3 4
  let lim := v.exportLimit
  let limiting := form && ix.any (fun i => lt lim (F32.abs i))
  let m1 := updCharger (fun x => { x with
    busVoltage := vbus, acPower := fsum ((volts.zip ix).map (fun p => mul p.1 p.2)),
    limiting := limiting, limitSince := since now limiting x.limitSince }) m
  if !c.pfClosed || !v.updates 3 P.pfDivider period then m1
  else
    let g := v.conductance
    let vx := if form then (List.range 3).map c.formed else volts
    let half := div (v.rpar 3 P.cgBusVref) fTwo
    let error (x : Nat) : Word :=
      if form then negate (excess lim (ix.getD x 0)) else sub (mul g (volts.getD x 0)) (ix.getD x 0)
    let steps := (List.finRange 3).map (fun x =>
      (c.pf[x]).step false (fun i => v.rpar 3 (P.pfB + i)) (error x.val) (negate half) half)
    let vcm := div (negate (add (vx.foldl fmax (vx.getD 0 0)) (vx.foldl fmin (vx.getD 0 0)))) fTwo
    updCharger (fun c => { c with
      pf := Vector.ofFn (fun x => (steps.getD x.val (0, Comp.zero)).2),
      pfDuty := Vector.ofFn (fun x =>
        clamp (add 0x3F000000 (div (sub (add (vx.getD x.val 0) vcm) (steps.getD x.val (0, Comp.zero)).1) vbus))
          (dec 2 100) (dec 98 100)) }) m1

/-- A = n · Vbus · Vdc / (2π · f · Llk) (R321) under the settings of region `n`. -/
def Module.dabGain (m : Module) (n : Fin 8) (vbus vdc : Word) : Word :=
  div (mul (mul (m.rpar n P.cgDabTurns) vbus) vdc) (mul (mul fTwoPi (m.rpar n P.cgDabFreq)) (m.rpar n P.cgDabLlk))

/-- A clean commit of 0x071: loop DB and the phase shift (R321): `v` what its launch saw. The measured battery charge current
is the converter's (R329); with DB open no shift is placed. -/
def commitDb (period : Nat) (v m : Module) : Module :=
  let c := v.charger
  let vdc := v.vr 3 0
  let pdab := mul vdc (v.vr 3 9)
  let m1 := updCharger (fun c => { c with
    dabPower := pdab, ichg := negate v.converter.ibat, vbat := v.converter.vbat }) m
  if !c.dbClosed then updCharger (fun c => { c with dabPhi := 0, shownPhi := 0 }) m1
  else if !v.updates 3 P.dbDivider period then m1
  else
    let pref := if c.pulls then c.pref else v.pvOut
    let a := v.dabGain 3 c.busVoltage vdc
    let root := sqrt (fmax 0 (sub fOne (div (mul (F32.ofNat 4) (F32.abs pref)) (mul fPi a))))
    let ff := mul (mul (signWord pref) fHalfPi) (sub fOne root)
    let top := v.rpar 3 P.cgDabPhiMax
    let (u, db) := c.db.step false (fun i => v.rpar 3 (P.dbB + i)) (sub pref pdab) (negate top) top
    let phi := clamp (add ff u) (negate top) top
    updCharger (fun c => { c with db := db, dabPhi := phi, shownPhi := phi }) m1

/-- One step of the phase-locked loop over `t` seconds: the error is the quadrature component of the voltage vector in the
frame of the tracked angle, as a part of its length (R317). DESIGN CHOICE, log entry 70. -/
def Charger.track (x y t hz : Word) (c : Charger) : Charger :=
  let size := sqrt (add (mul x x) (mul y y))
  let q := sub (mul y (Config.cos c.gridAngle)) (mul x (Config.sin c.gridAngle))
  let e := if F32.key size = 0 then 0 else div q size
  let integ := add c.gridInteg (mul (mul Config.pllKi e) t)
  let w := add (mul fTwoPi hz) (add (mul Config.pllKp e) integ)
  let a := add c.gridAngle (mul w t)
  { c with gridAngle := if le fTwoPi a then sub a fTwoPi else if lt a 0 then add a fTwoPi else a,
           gridInteg := integ, gridFreq := div w fTwoPi }

/-- A clean commit of 0x072: the phase-locked loop and loop PV (R303, R317, R319): `v` what its launch saw. -/
def commitPv (period : Nat) (v m : Module) : Module :=
  let c := v.charger
  let vx := v.phaseVolts 3
  let ab := alphaBeta (vx.getD 0 0) (vx.getD 1 0) (vx.getD 2 0)
  let m1 := updCharger (Charger.track ab.x ab.y (secs (v.rnum 3 (P.regionPeriod + 3))) (nominal (v.rpar 3 P.cgGridFreq))) m
  if !c.pvClosed || !v.updates 3 P.pvDivider period then m1
  else
    let ts := secs (v.rnum 3 P.pvDivider * v.rnum 3 (P.regionPeriod + 3))
    let ref := towards c.busRef (v.rpar 3 P.cgBusVref) (mul (v.rpar 3 P.cgBusRamp) ts)
    let (lo, hi) := if c.pulls then (0, v.rpar 3 P.cgPowerMax)
                    else (negate (mul (dec 11 10) (v.rpar 3 P.exAcSMax)), 0)
    let (_, pv) := c.pv.step true (fun i => v.rpar 3 (P.pvB + i)) (sub ref c.busVoltage) lo hi
    updCharger (fun c => { c with pv := pv, busRef := ref }) m1

/-- The loop changes of region 3 at its boundary (R298, R305, R333): off first, then what closes with its histories set. -/
def Charger.takeLoops (c : Charger) : Charger :=
  let c1 := if c.offNext then
      { openCharger c with dabPhi := 0, closePf := c.closePf, closePv := c.closePv, closeDb := c.closeDb } else c
  let c2 := if c1.closePf then { c1 with closePf := false, pfClosed := true, pf := Vector.replicate 3 Comp.zero } else c1
  let c3 := if c2.closePv then
      { c2 with closePv := false, pvClosed := true, pv := Comp.started c2.dabPower, busRef := c2.busVoltage } else c2
  if c3.closeDb then { c3 with closeDb := false, dbClosed := true, db := Comp.started 0 } else c3

/-- A boundary of region 3: pending loop changes, and θf advances over the period while AC is formed (R298, R334). -/
def takeCharger (m : Module) : Module :=
  let c := m.charger
  let turn := m.nominalHz * m.rnum 3 (P.regionPeriod + 3)
  let m1 := if c.forms then updCharger (fun c => { c with formPhase := (c.formPhase + turn) % 400000000 }) m else m
  if c.offNext || c.closePf || c.closePv || c.closeDb then
    keepCheckpoint 3 (endHandover (updCharger Charger.takeLoops m1))
  else m1

/-! ## Commands (R297, R315, R316, R327, R333 … R335) -/

/-- R550's stop of opcodes 0x40 … 0x6F while RUN is being left (R551). -/
def Module.leavingRun (m : Module) : Bool := m.label == .run && m.inTransition

/-- Charger or converter pattern. -/
def chargePattern (m : Module) : Bool := m.patterned .cg || m.patterned .cv

/-- CHARGE_START (R327). -/
def chargeStart (h : Hdr) (ws : List Word) (m : Module) : Verdict :=
  let i := ws.getD 0 0
  let v := ws.getD 1 0
  unlessFails (firstFail
    [prelude 0x60 h ws (· == 2) .never true m,
     failIf (F32.nonFinite i || !lt 0 i || lt (m.par P.cvIbatChgMax) i) .outOfRange 0,
     failIf (F32.nonFinite v || !between (m.par P.cvVbatMin) v (m.par P.cvVbatMax)) .outOfRange 1,
     failIf (chargePattern m) .safePatternActive,
     checkAdmitted m,
     failIf (m.charger.state != 0) .busy,
     failIf (m.leavingRun || m.label != .run || m.num P.cgEnable != 1 || !m.converter.closed || m.chargerFault) .stateForbids])
    (.done [] (keepCheckpoint 3 (enterState 1 (updCharger (fun c => { c with
      session := true, ending := false, timerW := 0, timerHalf := false, derated := false, phase := 0, integ := 0,
      pref := 0, endSince := none, failSince := none, presentSince := none })
      { m with live := { m.live with cgISet := i, cgVSet := v } }))))

/-- CHARGE_STOP (R333). -/
def chargeStop (h : Hdr) (ws : List Word) (m : Module) : Verdict :=
  unlessFails (prelude 0x61 h ws (· == 0) .never true m) (.done [] (stopSession m))

/-- EXPORT_START with form 0 (R334). -/
def exportStartAc (h : Hdr) (ws : List Word) (m : Module) : Verdict :=
  unlessFails (firstFail
    [prelude 0x62 h ws (· == 1) .never (ws.getD 0 0 == 0) m,
     failIf (chargePattern m) .safePatternActive,
     checkAdmitted m,
     failIf (m.charger.state != 0) .busy,
     failIf (m.leavingRun || m.label != .run || m.num P.exAcEnable != 1 || !m.converter.closed || m.charger.pilot != 0 ||
       !lasted m.time.elapsed m.charger.quietSince 400000000) .stateForbids])
    (.done [] (enterState 7 (busStart (updCharger (fun c => { c with
      exportV := 0, exportStep := 0, formPhase := 0, limitSince := none, apparentSince := none, deviationSince := none }) m))))

/-- EXPORT_START with form 1 (R315). -/
def exportStartDc (h : Hdr) (ws : List Word) (m : Module) : Verdict :=
  unlessFails (firstFail
    [prelude 0x62 h ws (· == 1) .never (ws.getD 0 0 == 1) m,
     failIf (m.patterned .cv) .safePatternActive,
     checkAdmitted m,
     failIf (!exportDcOk m) .stateForbids])
    (.done [] { m with converter := { m.converter with
      outlet := if m.converter.outlet = 0 then 1 else m.converter.outlet } })

/-- EXPORT_STOP with form 0 (R335). -/
def exportStopAc (h : Hdr) (ws : List Word) (m : Module) : Verdict :=
  unlessFails (prelude 0x63 h ws (· == 1) .never (ws.getD 0 0 == 0) m) (.done [] (stopExport m))

/-- EXPORT_STOP with form 1 (R316). -/
def exportStopDc (h : Hdr) (ws : List Word) (m : Module) : Verdict :=
  unlessFails (prelude 0x63 h ws (· == 1) .never (ws.getD 0 0 == 1) m) (.done [] (endDcExport m))

/-! ## Plausibility of converter and charger (R336) -/

def CvCheck.code : CvCheck → Nat
  | .current => F.cvPlausCurrent | .leg _ => F.cvPlausLeg | .pfc _ => F.cgPlausPfc | .dab => F.cgPlausDab
def CvCheck.detail : CvCheck → Nat
  | .leg j => j.val | .pfc x => x.val | _ => 0
def CvCheck.dwell : CvCheck → Nat
  | .current => P.cvPlausCurrentDwell | .leg _ => P.cvPlausLegDwell | .pfc _ => P.cgPlausPfcDwell | .dab => P.cgPlausDabDwell
def CvCheck.env : CvCheck → Nat
  | .current => P.cvPlausCurrentEnv | .leg _ => P.cvPlausLegEnv | .pfc _ => P.cgPlausPfcEnv | .dab => P.cgPlausDabEnv
/-- Whether the check belongs to the converter, and its clock among those of its function. -/
def CvCheck.conv : CvCheck → Bool
  | .current | .leg _ => true | _ => false
def CvCheck.idx : CvCheck → Fin 5
  | .current => 0 | .leg j => ⟨j.val + 1, by omega⟩ | .pfc x => ⟨x.val, by omega⟩ | .dab => 3

/-- The quantity of a check, and whether it is evaluated, on what a launch of region `n` saw (R336). -/
def CvCheck.quantity (k : CvCheck) (n : Fin 8) (v : Module) : Bool × Word :=
  let s := fsum v.converter.legCurrents.toList
  let c := v.charger
  match k with
  | .current => (v.converter.closed, F32.abs (sub s v.converter.itot))
  | .leg j => (true, F32.abs (sub v.converter.legCurrents[j] (div s (F32.ofNat 4))))
  | .pfc x =>
    (c.pfClosed && !c.limiting,
     F32.abs (sub (v.vr n (5 + x.val)) (mul v.conductance ((v.phaseVolts n).getD x.val 0))))
  | .dab =>
    let a := v.dabGain n c.busVoltage (v.vr n 0)
    (c.dbClosed, F32.abs (sub c.dabPower (mul (mul a c.dabPhi) (sub fOne (div (F32.abs c.dabPhi) fPi)))))

/-- The ticks for which a check has been outside its envelope. -/
def CvCheck.outside (k : CvCheck) (m : Module) : Nat :=
  if k.conv then m.converter.plausFor[k.idx] else m.charger.plausFor[k.idx]

/-- The ticks of a check changed. -/
def CvCheck.setOutside (k : CvCheck) (x : Nat) (m : Module) : Module :=
  if k.conv then { m with converter := { m.converter with plausFor := Vector.upd m.converter.plausFor k.idx (fun _ => x) } }
  else updCharger (fun c => { c with plausFor := Vector.upd c.plausFor k.idx (fun _ => x) }) m

/-- The fault of a check whose quantity has been outside its envelope for longer than the dwell (R219, R336). -/
def cvFault (k : CvCheck) (m : Module) : Module :=
  if (m.regionImage m.epochs.active.supFin).enables (if k.conv then .cv else .cg) && m.driven &&
      F32.usTicks (m.rpar m.epochs.active.supFin k.dwell) < k.outside m then
    raise k.code k.detail true m
  else m

/-- One evaluation of a check of an enabled function in ARMED or RUN by the model's clean commit: outside the envelope its
dwell advances by a period, and past it the class A fault is raised; inside, it restarts and the fault's condition ends
(R219, R336, R676). -/
def cvCheck (k : CvCheck) (v m : Module) : Module :=
  let n := v.epochs.active.supFin
  let q := k.quantity n v
  if !(m.regionImage n).enables (if k.conv then .cv else .cg) || !m.driven || !q.1 ||
      (!F32.isNaN q.2 && le q.2 (v.rpar n k.env)) then
    setCond k.code (fun d => d == k.detail) false (k.setOutside 0 m)
  else cvFault k (k.setOutside (k.outside m + v.rnum n (P.regionPeriod + n.val)) m)

/-- The checks of 0x0A1. -/
def CvCheck.all : List CvCheck :=
  [.current] ++ (List.finRange 4).map .leg ++ (List.finRange 3).map .pfc ++ [.dab]

/-- A clean commit of the converter and charger plausibility models 0x0A1 (R336). -/
def commitPlausConverter (v m : Module) : Module := CvCheck.all.foldl (fun m k => cvCheck k v m) m

end Sys2Proof.Machine
end

