-- ==== Sys2Proof/Machine/Gate.lean ====
section
/-!
DEFINITION. The gate islands and the GDC: frames and link loss (R353, R354), rails (R359, R360), desaturation, hard short
and the soft turn-off (R361 … R363), latched faults and their clearing by EN (R357, R364, R677), self-test (R367 … R369)
and GATE_DIAG (R370 … R373).
-/

namespace Sys2Proof.Machine

open F32 (add sub mul div lt le)

/-- The island is supplied: its die, and the rails not removed (R347, R582). -/
def Module.islandSupplied (m : Module) (i : Fin 36) : Bool :=
  m.dies[(⟨10 + i.val, by omega⟩ : Fin 46)].supply == 1 && !m.supply.railsRemoved

/-- The fault code of a cause (R377, R379). -/
def causeFault (c : Nat) : Nat := 0x7000 + c

/-- The island holds a latched fault. -/
def Island.held (i : Island) : Bool := i.state == .latched || i.state == .softOff

/-- The island ignores its link: a desaturation or hard-short fault stands, its soft turn-off begun or over (R363). -/
def Island.ignoresLink (i : Island) : Bool := i.held && (i.cause == 1 || i.cause == 2)

/-- A fault latches on an island: output off, the soft turn-off for causes 1 and 2 (R359, R361 … R363); an island of a
disabled function latches nothing (R348), one that holds a fault latches a further cause beside it (R354, R367). -/
def latch (i : Fin 36) (cause : Nat) (soft : Bool) (m : Module) : Module :=
  let s := m.islands[i]
  if m.unused i then m
  else if s.held then
    if s.cause = cause ∨ s.also.testBit cause then m
    else updIsland i (fun s => { s with
      also := s.also ||| 2 ^ cause, alsoAt := m.time.elapsed,
      alsoReported := if s.alsoReported.testBit cause then s.alsoReported - 2 ^ cause else s.alsoReported }) m
  else updIsland i (fun s => { s with
    state := if soft then .softOff else .latched, cause := cause, condition := true, also := 0, alsoReported := 0,
    output := false, latchedAt := m.time.elapsed, stage := if soft then 1 else 0, stageAt := m.time.elapsed,
    reported := false }) m

/-- The condition of a latched cause is present: the soft turn-off of a trip, the undervoltage, the loss of the link, the last
self-test failed (R357, R359, R363, R367, R676). -/
def Island.presentOf (s : Island) (cause : Nat) : Bool :=
  match cause with
  | 1 | 2 => s.state == .softOff
  | 3 => s.uvloPos
  | 4 => s.uvloNeg
  | 5 => s.linkDown || s.statusDown
  | 6 => s.selftest == 2
  | _ => false
def Island.present (s : Island) : Bool := s.presentOf s.cause

/-- The causes latched beside the one CAUSE shows. -/
def Island.others (s : Island) : List Nat := setBits 7 s.also

/-- The GDC learns of the latched faults (R364): each is raised with the island as detail. -/
def reportIsland (i : Fin 36) (m : Module) : Module :=
  let s := m.islands[i]
  let m1 := if s.cause = 0 ∨ s.reported then m
    else raise (causeFault s.cause) i.val s.condition (updIsland i (fun s => { s with reported := true }) m)
  (s.others.filter (fun c => !s.alsoReported.testBit c)).foldl
    (fun m c => raise (causeFault c) i.val (s.presentOf c) m)
    (updIsland i (fun s => { s with alsoReported := s.also }) m1)

/-- The conditions of an island's latched faults follow their causes. -/
def followCond (i : Fin 36) (m : Module) : Module :=
  let s := m.islands[i]
  let m1 := if s.cause = 0 ∨ s.present = s.condition then m
    else setCond (causeFault s.cause) (· == i.val) s.present (updIsland i (fun s => { s with condition := s.present }) m)
  s.others.foldl (fun m c => setCond (causeFault c) (· == i.val) (s.presentOf c) m) m1

/-- A test holds an island's output off: its own self-test, GATE_DIAG of its inverter (R367, R371). -/
def Module.testHolds (m : Module) (i : Fin 36) : Bool :=
  (m.gate.test == 1 && m.gate.testIsland == i.val) || (m.gate.test == 2 && i.val / 6 == m.gate.diagChannel)

/-- The output of an island: the level its last edge brought to the gate, while nothing holds it off (R348, R353, R355,
R363). A GDC that does not run turns nothing off (R24). -/
def Module.gateOn (m : Module) (i : Fin 36) (s : Island) : Bool :=
  s.gateLevel && s.state == .enabled && !s.frameOff && !s.waits && (m.enHigh || !m.dieRuns 7) && m.islandSupplied i &&
    !m.testHolds i

/-- The island's output follows what drives it. The tick of the last turn-on is that of the gate's last edge where that lies after
`since`, else the present one (R361, R362). -/
def followGate (since : Nat) (i : Fin 36) (m : Module) : Module :=
  updIsland i (fun s =>
    let out := m.gateOn i s
    { s with output := out,
             onAt := if !out then s.onAt else if since < s.gateAt then s.gateAt
                     else if s.output then s.onAt else m.time.elapsed }) m

/-- A frame of an island's link fails its check: counted, more than 100 in a window raise the class C fault (R353, R354). -/
def countLinkError (i : Fin 36) (m : Module) : Module :=
  let w := (m.islands[i]).window + 1
  let m1 := updIsland i (fun s => { s with linkErrors := satAdd 255 s.linkErrors 1, window := w }) m
  if 100 < w && !(m.islands[i]).windowRaised && !m.unused i then
    raise F.gdLinkErrorRate i.val false (updIsland i (fun s => { s with windowRaised := true }) m1)
  else m1

/-- ISLAND_FRAME (R353): a good frame carries and restores the commanded state, a bad one turns the output off and is counted;
from its soft turn-off on an island ignores every frame until the fault is cleared (R363). -/
def islandFrame (i : Fin 36) (good : Bool) (m : Module) : Module :=
  let s := m.islands[i]
  if !m.islandSupplied i || !m.dieRuns 7 || s.ignoresLink then m
  else if good then
    followCond i (followGate m.time.elapsed i (updIsland i (fun s => { s with
      frameOff := false, waits := false, linkDown := false, goodFrameAt := m.time.elapsed }) m))
  else countLinkError i (updIsland i (fun s => { s with frameOff := s.frameOff || s.output, output := false }) m)

/-- ISLAND_STATUS_FRAME (R353, R364): a good frame reports a latched fault, one that fails its check is counted. -/
def islandStatusFrame (i : Fin 36) (good : Bool) (m : Module) : Module :=
  if !m.islandSupplied i || !m.dieRuns 7 then m
  else if !good then countLinkError i m
  else
    let m1 := followCond i (updIsland i (fun s => { s with goodStatusAt := m.time.elapsed, statusDown := false }) m)
    if (m.islands[i]).held then reportIsland i m1 else m1

/-- GD_LINK_LOST (R354): 1,200 ticks without a good frame at an island, which latches the fault whatever silenced the GDC but a
commanded reset; or (with `atGdc`) without a good status frame at a GDC that runs, which treats the island as latched. An
island that ignores its link (R363) detects no loss of it, one of a disabled function only shows it (R348, R366). DEDUCED, log
entry 91. -/
def linkLost (i : Fin 36) (atGdc : Bool) (m : Module) : Module :=
  let s := m.islands[i]
  if m.supply.railsRemoved then m
  else if atGdc then
    if m.dies[(⟨10 + i.val, by omega⟩ : Fin 46)].supply = 0 ∨ !m.dieRuns 7 ∨ m.time.elapsed < s.goodStatusAt + 1200 then m
    else reportIsland i (followCond i (latch i 5 false (updIsland i (fun s => { s with statusDown := true }) m)))
  else if !m.islandSupplied i || s.waits || s.ignoresLink || m.time.elapsed < s.goodFrameAt + 1200 then m
  else followCond i (latch i 5 false (updIsland i (fun s => { s with output := false, linkDown := true }) m))

/-! ## Rails (R359, R360) -/

/-- A rail changes its tolerance; both in tolerance once (R360). -/
def setRail (i : Fin 36) (pos ok : Bool) (m : Module) : Module :=
  updIsland i (fun s =>
    let s1 := if pos then { s with railPosOk := ok, uvloPos := !ok } else { s with railNegOk := ok, uvloNeg := !ok }
    { s1 with railsSeen := s1.railsSeen || (s1.railPosOk && s1.railNegOk) }) m

/-- GD_UVLO (R359): latched only once both rails have been in tolerance since entry to READY (R360). -/
def uvlo (i : Fin 36) (pos : Bool) (m : Module) : Module :=
  if !m.islandSupplied i || (!pos && !m.negMonitored i) then m
  else
    let m1 := updIsland i (fun s => { s with output := false }) (setRail i pos false m)
    followCond i (if (m.islands[i]).railsSeen then latch i (if pos then 3 else 4) false m1 else m1)

/-- UVLO_RECOVERY (R359): the condition ends; at the ramp of READY the rail has come into tolerance. -/
def uvloRecovery (i : Fin 36) (pos : Bool) (m : Module) : Module :=
  if !m.islandSupplied i then m else followCond i (setRail i pos true m)

/-- ISLAND_RAIL_TIMEOUT: a rail not in tolerance 20 ms after the rails began to ramp latches its fault (R360, R551). -/
def railTimeout (i : Fin 36) (m : Module) : Module :=
  let s := m.islands[i]
  if !m.islandSupplied i || m.time.elapsed < m.supply.rampAt + 8000000 || s.railsSeen then m
  else if !s.railPosOk then followCond i (latch i 3 false m)
  else if !s.railNegOk && m.negMonitored i then followCond i (latch i 4 false m) else m

/-! ## Desaturation, hard short, soft turn-off (R361 … R363) -/

/-- GD_DESAT: the excess has lasted 40 ticks of an evaluation that begins GD_DESAT_BLANK ticks after the turn-on and needs
the output on (R361). -/
def desat (i : Fin 36) (m : Module) : Module :=
  let s := m.islands[i]
  if !s.output || m.time.elapsed < s.onAt + (m.gpar i P.gdDesatBlank).toNat + 40 then m else latch i 1 true m

/-- GD_HARD_SHORT: never blanked, the excess has lasted 8 ticks of the output on (R362); on one tick with a
desaturation, the hard short is the cause. -/
def hardShort (i : Fin 36) (m : Module) : Module :=
  let s := m.islands[i]
  if s.output && s.onAt + 8 ≤ m.time.elapsed then latch i 2 true m
  else if s.state == .softOff && s.cause == 1 && s.latchedAt == m.time.elapsed then
    updIsland i (fun s => { s with cause := 2 }) m
  else m

/-- The shortest length of a stage of the soft turn-off; stage 3 ends when the gate is below 2 V, within 200 ticks (R363). -/
def stageTicks (m : Module) (i : Fin 36) (stage : Nat) : Nat :=
  if stage = 1 then (m.gpar i P.gdStoT1).toNat else if stage = 2 then (m.gpar i P.gdStoT2).toNat else 0

/-- SOFT_TURN_OFF_STAGE: a stage ends after its time; after stage 3 the island reads latched (R363). -/
def softStage (i : Fin 36) (m : Module) : Module :=
  let s := m.islands[i]
  if s.state != .softOff || m.time.elapsed < s.stageAt + stageTicks m i s.stage then m
  else if s.stage < 3 then updIsland i (fun s => { s with stage := s.stage + 1, stageAt := m.time.elapsed }) m
  else followCond i (updIsland i (fun s => { s with state := .latched, stage := 0 }) m)

/-! ## EN (R355, R357) -/

/-- Every island output and LGD gate output goes off by a normal turn-off; a soft turn-off completes (R355, R365). -/
def outputsOff (m : Module) : Module :=
  { m with islands := m.islands.map (fun s => if s.state == .softOff then s else { s with output := false }) }

/-- A valid low of EN: outputs off, PATTERN_OFF on every function, GD_EN_OFF in ARMED and RUN (R355, R592). -/
def enFall (m : Module) : Module :=
  let m1 := { m with supply := { m.supply with en := false, enFellAt := m.time.elapsed - 80 } }
  if !m.atLeastReady || !m.dieRuns 7 then m1
  else
    let m2 := outputsOff m1
    let m3 := if m.driven then raise F.gdEnOff 0 true m2 else m2
    Func.all.foldl (fun m f => setPattern f .off (if m.driven then F.gdEnOff else 0) 0 m) m3

/-- The state an island takes when its latched fault is cleared or its function is enabled. -/
def Module.freeState (m : Module) (i : Fin 36) : IslandState :=
  if m.driven && !m.unused i then .enabled else .disabled

/-- The island once some of its latched causes are cleared: the rest stays latched, the first of it as CAUSE. -/
def Island.released (free : IslandState) (main : Bool) (left : List Nat) (now : Nat) (s : Island) : Island :=
  let mask (cs : List Nat) : Nat := cs.foldl (fun n c => n + 2 ^ c) 0
  if !main then { s with also := mask left }
  else
    match left with
    | c :: cs => { s with cause := c, condition := s.presentOf c, reported := s.alsoReported.testBit c, latchedAt := s.alsoAt,
                          also := mask cs }
    | [] => { s with state := free, cause := 0, reported := false, contradicted := 0, also := 0,
                     goodFrameAt := if s.ignoresLink then now else s.goodFrameAt }

/-- An island's latched faults that have no condition any more are cleared by a rising EN (R357); one that ignored its link listens
to it from now on (R363). -/
def clearIsland (low : Nat) (m : Module) (i : Fin 36) : Module :=
  let s := m.islands[i]
  let main := !s.condition && s.latchedAt < low
  let gone := s.others.filter (fun c => !s.presentOf c && s.alsoAt < low)
  if s.state != .latched then m
  else
    ((if main then [s.cause] else []) ++ gone).foldl (fun m c =>
      match m.faults.active.find? (fun f => f.code == causeFault c && f.detail == i.val) with
      | some f => clearFault f m
      | none => m)
      (updIsland i (Island.released (m.freeState i) main (s.others.filter (fun c => !gone.contains c)) m.time.elapsed) m)

/-- EN_RISE (R357): a low that the GDC has seen for at least 4,000 ticks clears the eligible islands; it releases no
pattern. EN reads high once the level has held for 80 ticks (R355). -/
def enRise (m : Module) : Module :=
  if m.supply.en then m
  else
    let low := Nat.max m.supply.enFellAt m.gate.enSeenAt
    let m1 := { m with supply := { m.supply with en := true, enRoseAt := m.time.elapsed } }
    if m.time.elapsed < low + 4000 || !m.atLeastReady || !m.dieRuns 7 then m1
    else (List.finRange 36).foldl (clearIsland low) m1

/-! ## Island self-test (R367 … R369) -/

/-- The all-off open output of an OPEN loop is in force: no pattern drives the inverter (R215, R369). -/
def Module.allOff (m : Module) (c : Fin 2) : Bool :=
  (m.traction[c]).loop == .open && (m.traction[c]).output.isNone && m.patternOf (tractionFunc c) == .none

/-- The island's output is held off for R369. -/
def Module.heldOff (m : Module) (i : Fin 36) : Bool :=
  let f := islandFunc i.val
  !m.enHigh || (m.islands[i]).state == .latched || m.patternOf f == .off || m.unused i ||
  (match f with
   | .ta => m.allOff 0
   | .tb => m.allOff 1
   | .cv => !m.converter.closed
   | .cg => !m.charger.pfClosed && !m.charger.pvClosed && !m.charger.dbClosed
   | .ch => m.chopperFailed || !m.enabled .ch
   | .ax _ => false)

/-- The GDC is busy with a test, or one is on its way to it (R86). -/
def Module.gateBusy (m : Module) : Bool :=
  m.gate.test != 0 || m.interp.waiting.any (fun w => w.heldUntil.isSome &&
    (w.opcode == 0x78 || (w.opcode == 0x71 && 10 ≤ w.target && w.target < 46)))

/-- The supervisor's writes for an island self-test are applied (R86, R367): the island holds its output off. -/
def startIslandTest (i : Fin 36) (m : Module) : Module :=
  updIsland i (fun s => { s with output := false })
    { m with gate := { m.gate with test := 1, testIsland := i.val, testAt := m.time.elapsed } }

/-- SELFTEST naming an island (R86, R369, R538). -/
def selftestIsland (h : Hdr) (i : Fin 36) (m : Module) : Verdict :=
  unlessFails (firstFail
    [failIf h.timed .reservedEncoding,
     failIf (h.relayed && !((h.transport == .cn2 || h.transport == .cn3) && h.fromHead)) .reservedEncoding,
     failIf (!m.atLeastReady) .stateForbids,
     failIf m.gateBusy .busy,
     failIf (m.driven && !m.heldOff i) .selftestTargetActive,
     failIf (!m.dieRuns 7) .domainStopped])
    (.waits (holdWrites 4 (waitingFor 0x71 h 1 (10 + i.val) m) m))

/-- The findings of an island self-test (R368), true for fail. -/
def selftestWord (desat hard pos neg sto : Bool) : Word :=
  pack [(flag (desat || hard || pos || neg || sto), 7), (flag desat, 4), (flag hard, 3), (flag pos, 2), (flag neg, 1),
        (flag sto, 0)]

/-- ISLAND_SELFTEST_DONE (R367): a failure latches, and is reported in the island's next status frame (R364). -/
def islandSelftestDone (desat hard pos neg sto : Bool) (m : Module) : Module :=
  if m.gate.test != 1 then m
  else
    let i : Fin 36 := ⟨m.gate.testIsland % 36, Nat.mod_lt _ (by decide)⟩
    let neg' := neg && m.negMonitored i
    let bad := desat || hard || pos || neg' || sto
    let m1 := crossWords 5 1 (resolveWaiting [0x71] (· == 10 + i.val) 0 0 [selftestWord desat hard pos neg' sto]
      { m with gate := { m.gate with test := 0 } })
    let m2 := updIsland i (fun s => { s with selftest := if bad then 2 else 1 }) m1
    followCond i (if bad then latch i 6 false m2 else m2)

/-! ## GATE_DIAG (R370 … R373) -/

/-- The VS1 sample a GATE_DIAG of an inverter takes (R371). -/
def Module.diagVdc (m : Module) (channel : Nat) : Word :=
  if channel = 0 then (m.traction[0]).sample.vdc else (m.traction[1]).sample.vdc

/-- The supervisor's writes for a GATE_DIAG are applied (R86, R371). -/
def startGateDiag (channel : Nat) (m : Module) : Module :=
  { m with gate := { m.gate with test := 2, diagChannel := channel, diagStep := 0, diagVdc := m.diagVdc channel,
                                 diagReadings := [], testAt := m.time.elapsed } }

/-- GATE_DIAG's checks (R86, R370, R371). -/
def gateDiag (h : Hdr) (ws : List Word) (m : Module) : Verdict :=
  let w := ws.getD 0 0
  unlessFails (firstFail
    [failIf (ws.length != 1) .badLength,
     failIf (h.timed || bits w 31 1 != 0) .reservedEncoding,
     checkRelayed 0x78 h m,
     failIf (m.label != .ready || lt (F32.ofNat 60) (m.diagVdc w.toNat)) .stateForbids,
     failIf m.gateBusy .busy,
     failIf (!m.dieRuns 7) .domainStopped])
    (.waits (holdWrites 4 (waitingFor 0x78 h 1 w.toNat m) m))

/-- A reading of phase `y` in step `k` (0 the common step, 1 … 3 steps U, V, W). -/
def reading (rs : List (List Word)) (k y : Nat) : Word := (rs.getD k []).getD y 0

/-- Word 0 of the reply (R372, R373). -/
def diagWord (rs : List (List Word)) (vdc : Word) : Word :=
  let half := dec 1 2
  let most := dec 8 10
  let tested := le (F32.ofNat 24) vdc && le vdc (F32.ofNat 60)
  let v (x : Nat) : Word := reading rs (x + 1) x
  let plus (x : Nat) : Bool := tested && le (mul most vdc) (reading rs 0 x)
  let rail (x : Nat) : Bool := lt (v x) half
  let sees (x y : Nat) : Bool := le half (v x) && le (mul most (v x)) (reading rs (x + 1) y)
  let conn (x y : Nat) : Bool := sees x y || sees y x
  let isOpen (x : Nat) : Bool := !conn x ((x + 1) % 3) && !conn x ((x + 2) % 3) && !plus x && !rail x
  pack [(flag tested, 15), (flag (plus 0), 14), (flag (plus 1), 13), (flag (plus 2), 12), (flag (rail 0), 11),
        (flag (rail 1), 10), (flag (rail 2), 9), (flag (isOpen 0), 8), (flag (isOpen 1), 7), (flag (isOpen 2), 6),
        (flag (conn 0 1), 5), (flag (conn 1 2), 4), (flag (conn 2 0), 3)]

/-- GATE_DIAG_STEP: a step of 5 ms ends with the readings of the three phase nodes; the last one ends the test (R371). -/
def gateDiagStep (u v w : Word) (m : Module) : Module :=
  let g := m.gate
  if g.test != 2 || m.time.elapsed < g.testAt + 2000000 then m
  else
    let rs := g.diagReadings ++ [[u, v, w]]
    if g.diagStep < 3 then
      { m with gate := { g with diagReadings := rs, diagStep := g.diagStep + 1, testAt := m.time.elapsed } }
    else
      crossWords 5 1 (resolveWaiting [0x78] (fun _ => true) 0 0
        [diagWord rs g.diagVdc, reading rs 1 0, reading rs 2 1, reading rs 3 2, g.diagVdc]
        { m with gate := { g with test := 0, diagReadings := rs } })

/-! ## Pattern verification (R582) -/

/-- The side of an island's switch in a pattern of its function: required off, required on, or not checked. -/
def patternWants (p : Pattern) (i : Nat) : Option Bool :=
  match p with
  | .none => none
  | .off => some false
  | .ascLow => some (i % 2 == 1)
  | .ascHigh => some (i % 2 == 0)

/-- What the patterns in force ask of an island: nothing of a chopper switch that the backstop drives (R579, R582). -/
def Module.wantedBy (m : Module) (i : Fin 36) : Option Bool :=
  if islandFunc i.val == .ch && m.backstop then none else patternWants (m.patternOf (islandFunc i.val)) i.val

/-- PATTERN_VERIFY on the status frame of island `i` that shows its output: two frames in a row against the pattern raise
PATTERN_VERIFY_FAIL and remove the rails (R582); an unhealthy island is not checked. -/
def patternVerify (i : Fin 36) (on : Bool) (m : Module) : Module :=
  let s := m.islands[i]
  match m.wantedBy i with
  | none => updIsland i (fun s => { s with contradicted := 0 }) m
  | some want =>
    if !s.healthy || !m.islandSupplied i || !m.driven || on == want then updIsland i (fun s => { s with contradicted := 0 }) m
    else if s.contradicted = 0 then updIsland i (fun s => { s with contradicted := 1 }) m
    else
      raise F.patternVerifyFail i.val true (updIsland i (fun s => { s with contradicted := 2 })
        { m with
          supply := { m.supply with railsRemoved := true },
          islands := m.islands.map (fun s => { (Island.unpowered s) with
            state := if s.held then .latched else .disabled }) })

end Sys2Proof.Machine
end

