-- ==== Sys2Proof/Machine/Edges.lean ====
section
/-!
DEFINITION. The GDC timing generator: what the commits, patterns and carriers ask of the two switches of a leg (R318, R320,
R345), the placement of their edges with dead time, interlock and shortest pulse (R349 … R352), and the edges on their way
to the gate. DEDUCED, log entry 71.
-/

namespace Sys2Proof.Machine

open F32 (mul div)

/-- The ticks from the placement of an edge to its receipt by the island, and to the output edge at the gate: 130 ns
(R349). DEDUCED, log entry 71. -/
def linkTicks : Nat := 16
def gateTicks : Nat := 52

/-- What a source asks of the two switches of a leg while nothing else changes. -/
inductive Ask where
  /-- levels of the high and the low switch -/
  | hold (high low : Bool)
  /-- the high switch on from a clock up to another -/
  | pulse (start stop : Nat)
  /-- the high switch on from `rise` to `fall` of every period that begins at `origin`, the low switch on for the rest -/
  | cycle (period rise fall origin : Nat)
  /-- as `cycle` for the high switch alone, or for the low switch alone; its partner stays off -/
  | single (high : Bool) (period rise fall origin : Nat)
deriving DecidableEq, Repr

/-- The place of a clock in a carrier period. -/
def phaseOf (period origin t : Nat) : Nat := if period = 0 then 0 else (t + period - origin % period) % period

/-- The high switch of a carrier is asked on at a clock. -/
def cycleOn (p r f o t : Nat) : Bool :=
  let x := phaseOf p o t
  if r ≤ f then r ≤ x && x < f else r ≤ x || x < f

/-- The levels asked for at a clock. -/
def Ask.at (k : Ask) (t : Nat) : Bool × Bool :=
  match k with
  | .hold h l => (h, l)
  | .pulse a b => (a ≤ t && t < b, false)
  | .cycle p r f o => (cycleOn p r f o t, !cycleOn p r f o t)
  | .single true p r f o => (cycleOn p r f o t, false)
  | .single false p r f o => (false, !cycleOn p r f o t)

/-- The first clock after `t` at which what is asked changes. -/
def Ask.next (k : Ask) (t : Nat) : Option Nat :=
  match k with
  | .hold _ _ => none
  | .pulse a b => if t < a then some a else if t < b then some b else none
  | .cycle p r f o | .single _ p r f o =>
    if p = 0 then none
    else
      let x := phaseOf p o t
      let ahead (y : Nat) : Nat := if x < y then y - x else y + p - x
      some (t + Nat.min (ahead r) (ahead f))

/-- A pulse or a carrier whose on-time or off-time, as the dead time leaves it, is shorter than GD_MIN_PULSE: both its edges are
known, so it is omitted (R350, R352). A switch whose on-time is omitted stays off, and its partner follows alone. -/
def Ask.trim (dead min : Nat) (k : Ask) : Ask :=
  match k with
  | .cycle p r f o =>
    let on := if r ≤ f then f - r else p - (r - f)
    if on < min || on = 0 then .hold false true
    else if p - on < min || on = p then .hold true false
    else if on < min + dead then .single false p r f o
    else if p - on < min + dead then .single true p r f o
    else .cycle p r f o
  | .pulse a b => if b - a < min then .hold false false else .pulse a b
  | .hold h l => .hold h l
  | .single h p r f o => .single h p r f o

/-! ## The sources (R345) -/

/-- The clock at which the count is 0, for carriers that run on the count. -/
def Module.origin (m : Module) (period : Nat) : Nat :=
  if period = 0 then 0 else (m.time.elapsed + (period - m.time.count.toNat % period)) % period

/-- A pattern asks for every switch off, or one side on. -/
def patternAsk (p : Pattern) : Option Ask :=
  match p with
  | .none => none
  | .off => some (.hold false false)
  | .ascLow => some (.hold false true)
  | .ascHigh => some (.hold true false)

/-- A leg of a traction inverter: the committed vector, or all off (R117, R179). -/
def tractionAsk (c : Fin 2) (leg : Nat) (m : Module) : Ask :=
  match patternAsk (m.patternOf (tractionFunc c)) with
  | some k => k
  | none => match (m.traction[c]).output with
    | none => .hold false false
    | some v => .hold ((legsOf v).testBit leg) (!(legsOf v).testBit leg)

/-- A leg of the DC link converter (R306). -/
def converterAsk (j : Fin 4) (m : Module) : Ask :=
  let l := m.converter.legs[j]
  if !m.legDriven then .hold false false
  else if l.lowOn then .hold false true else .hold l.cycling false

/-- A PFC leg: the carriers peak at counts divisible by the period, the high switch is on for the duty centred on the valley
(R318). -/
def pfcAsk (x : Fin 3) (m : Module) : Ask :=
  if !m.charger.pfClosed || m.patterned .cg then .hold false false
  else
    let t := (F32.toInt (div (F32.ofNat 400000000) (m.rpar 3 P.cgPfcFreq))).toNat
    let half := (F32.toInt (mul (m.charger.pfDuty[x]) (F32.ofNat (t / 2)))).toNat
    .cycle t (t / 2 - half) (t / 2 + half) (m.origin t)

/-- A DAB leg (R320): leg 0, 1 of the primary, 2, 3 of the secondary; 50 % duty, the legs of a bridge in antiphase, the
primary cycle beginning at counts divisible by the period, the secondary lagging by φ · Tdab / (2π), to the nearest tick, a half
to even. DESIGN CHOICE, log entry 80. -/
def dabAsk (x : Fin 4) (m : Module) : Ask :=
  if !m.charger.dbClosed || m.patterned .cg then .hold false false
  else
    let t := (F32.toInt (div (F32.ofNat 400000000) (m.rpar 3 P.cgDabFreq))).toNat
    let shift := F32.toInt (div (mul m.charger.dabPhi (F32.ofNat t)) fTwoPi)
    let lag : Nat := if x.val < 2 then 0 else (shift % (t : Int)).toNat
    let start := (lag + (if x.val % 2 = 1 then t / 2 else 0)) % t
    .cycle t start ((start + t / 2) % t) (m.origin t)

/-- A switch of the brake chopper (R240, R245, R579): by the backstop while it acts, off under a pattern, else for its on-time from the start of the
chopper period, d · Tch to the nearest tick, a half to even. DESIGN CHOICE, log entry 80. -/
def chopperAsk (k : Nat) (m : Module) : Ask :=
  let ch := m.chopper
  let island : Fin 36 := if k = 0 then 34 else 35
  if !m.chopperRuns then .hold false false
  else if m.backstop then .hold (m.ov2Tripped && !m.openMark k && !(m.islands[island]).reported) false
  else if m.patterned .ch then .hold false false
  else if ch.switchNow = k then
    .pulse ch.startedAt (ch.startedAt + (F32.toInt (mul ch.dutyNow (F32.ofNat m.tch))).toNat)
  else .hold false false

/-- A leg of the module: high island, low island, or one switch alone. -/
structure LegOf where
  high : Fin 36
  low : Option (Fin 36)
deriving DecidableEq, Repr

/-- What is asked of a leg. -/
def LegOf.ask (g : LegOf) (m : Module) : Ask :=
  let i := g.high.val
  if i < 6 then tractionAsk 0 (i / 2) m
  else if i < 12 then tractionAsk 1 ((i - 6) / 2) m
  else if i < 20 then converterAsk ⟨(i - 12) / 2 % 4, Nat.mod_lt _ (by decide)⟩ m
  else if i < 26 then pfcAsk ⟨(i - 20) / 2 % 3, Nat.mod_lt _ (by decide)⟩ m
  else if i < 34 then dabAsk ⟨(i - 26) / 2 % 4, Nat.mod_lt _ (by decide)⟩ m
  else chopperAsk (i - 34) m

/-- The legs of the module (R345, R346). -/
def allLegs : List LegOf :=
  (List.finRange 17).map (fun k => { high := ⟨2 * k.val, by omega⟩, low := some ⟨2 * k.val + 1, by omega⟩ }) ++
  [{ high := 34, low := none }, { high := 35, low := none }]

/-! ## Placement (R349 … R352) -/

/-- A turn-off is placed: never delayed (R350). -/
def Island.placeOff (t : Nat) (pattern : Bool) (s : Island) : Island :=
  if s.placed then
    { s with placed := false, edges := s.edges ++ [(t, false)], offAt := t, offByPattern := pattern, askedAt := none }
  else { s with askedAt := none }

/-- A request for an island from a clock on (R350). -/
def Island.request (t : Nat) (pattern on : Bool) (s : Island) : Island :=
  if !on then s.placeOff t pattern else if s.placed then s else { s with askedAt := some (s.askedAt.getD t) }

/-- The earliest tick of a turn-on asked for: GD_DEAD_TIME after the partner's turn-off (R351), GD_MIN_PULSE after the
island's own (R352). -/
def Island.earliest (s : Island) (dead min : Nat) (partner : Island) : Option Nat :=
  if partner.placed then none
  else s.askedAt.map (fun a => Nat.max a (Nat.max (if partner.offAt = 0 then 0 else partner.offAt + dead)
    (if s.offAt = 0 || s.offByPattern then 0 else s.offAt + min)))

/-- A turn-on is placed where its tick lies before an end. -/
def Island.placeOn (s : Island) (dead min end_ : Nat) (partner : Island) : Island :=
  match s.earliest dead min partner with
  | some e => if e < end_ then { s with placed := true, askedAt := none, edges := s.edges ++ [(e, true)] } else s
  | none => s

/-- The request as it is served: both switches asked for at once is a change to the partner of the one that is on, nothing
where neither is on (R351). -/
def serve (hi lo : Island) (h l : Bool) : Bool × Bool × Bool :=
  if h && l then
    if hi.served then (hi.placed || hi.askedAt.isSome, lo.placed || lo.askedAt.isSome, true)
    else (lo.placed, hi.placed, true)
  else (h, l, false)

/-- The edges of a leg from a clock on and before an end, at most `fuel` changes of what is asked. -/
def placeLeg (dead min : Nat) (pattern : Bool) (k : Ask) : Nat → Nat → Nat → Island × Island → Island × Island
  | 0, _, _, x => x
  | fuel + 1, t, end_, (hi, lo) =>
    let a := k.at t
    let r := serve hi lo (a.1 && hi.state == .enabled) (a.2 && lo.state == .enabled)
    let hi1 := { hi.request t pattern r.1 with served := r.2.2 }
    let lo1 := lo.request t pattern r.2.1
    let stop := match k.next t with
      | some u => Nat.min u end_
      | none => end_
    let hi2 := hi1.placeOn dead min stop lo1
    let lo2 := lo1.placeOn dead min stop hi2
    if stop < end_ then placeLeg dead min pattern k fuel stop end_ (hi2, lo2) else (hi2, lo2)

/-- Where the walk over a gap of time begins: a long one is walked from three carrier periods before its end. -/
def Ask.from_ (k : Ask) (start end_ : Nat) : Nat :=
  match k with
  | .cycle p _ _ _ | .single _ p _ _ _ => Nat.max start (end_ - 3 * p)
  | _ => start

/-- The edges that have reached the island and the gate by a clock, with the clock at which the gate's level rose (R349). -/
def Island.deliver (now : Nat) (s : Island) : Island :=
  let last (d : Nat) : Option (Nat × Bool) := (s.edges.filter (fun e => e.1 + d ≤ now)).getLast?
  { s with commanded := ((last linkTicks).map (·.2)).getD s.gateLevel,
           gateLevel := ((last gateTicks).map (·.2)).getD s.gateLevel,
           gateAt := match last gateTicks with
             | some e => if e.2 then e.1 + gateTicks else s.gateAt
             | none => s.gateAt,
           edges := s.edges.filter (fun e => now < e.1 + gateTicks) }

/-- The clock from which a change of what is asked counts: the turn-off a DI comparator has tripped is placed on the next
tick (R427). -/
def LegOf.startAt (g : LegOf) (m : Module) : Nat :=
  let i := g.high.val
  if h : 12 ≤ i ∧ i < 20 then
    let l := m.converter.legs[(i - 12) / 2]
    if l.trip && !l.lowOn then m.time.elapsed + 1 else m.time.elapsed
  else m.time.elapsed

/-- The edges of a leg that the GDC places over a gap of time (R349 … R352): a switch that is not enabled is asked for
nothing. -/
def placeEdges (dt : Nat) (m : Module) (g : LegOf) (hi lo : Island) : Island × Island :=
  let dead := (m.gpar g.high P.gdDeadTime).toNat
  let min := (m.gpar g.high P.gdMinPulse).toNat
  let runs := hi.state == .enabled || lo.state == .enabled
  let k := if runs then (g.ask m).trim dead min else .hold false false
  let start := g.startAt m
  let end_ := m.time.elapsed + dt + 1
  let pattern := m.patterned (islandFunc g.high.val)
  let x := placeLeg dead min pattern k 10 start end_ (hi, lo)
  if k.from_ start end_ = start then x else placeLeg dead min pattern k 10 (k.from_ start end_) end_ x

/-- A leg over a gap of time: what the GDC places while it runs, and the edges that arrive. -/
def runLeg (dt : Nat) (m : Module) (g : LegOf) : Module :=
  let hi := m.islands[g.high]
  let lo := match g.low with
    | some i => m.islands[i]
    | none => Island.init
  let live (s : Island) : Bool := s.state == .enabled || s.placed || !s.edges.isEmpty
  if !live hi && !live lo then m
  else
    let runs := m.dieRuns 7
    let y := if runs then placeEdges dt m g hi lo else (hi, lo)
    let now := m.time.elapsed + dt
    let own (s r : Island) : Island :=
      if s.state == .enabled || !runs then r.deliver now else (r.placeOff now false).deliver now
    let m1 := updIsland g.high (fun s => own s y.1) m
    match g.low with
    | some i => updIsland i (fun s => own s y.2) m1
    | none => m1

/-- The gates over a gap of time. -/
def runGates (dt : Nat) (m : Module) : Module := allLegs.foldl (runLeg dt) m

/-- Every output follows what drives it after a gap of `dt`. -/
def followGates (dt : Nat) (m : Module) : Module :=
  if m.islands.toList.any (fun s => s.output || s.gateLevel) then
    (List.finRange 36).foldl (fun m i => followGate (m.time.elapsed - dt) i m) m
  else m

end Sys2Proof.Machine
end

