-- ==== Sys2Proof/Machine/Feedback.lean ====
section
/-!
DEFINITION. The feedback ports: quadrature and Hall decoding (R269 … R275), SSI (R276 … R278), speed (R279, R280), validity
(R262, R281), the capture words (R265 … R268), the regenerated output (R287).
-/

namespace Sys2Proof.Machine

/-- Counts of a revolution (R269) and the pole pairs of a port (R261). -/
def Module.fcounts (m : Module) (p : Fin 6) : Nat := 4 * m.fnum p P.fbAbzLines
def Module.fpoles (m : Module) (p : Fin 6) : Nat :=
  if p.val = 0 then m.rnum 0 P.trPolePairs else if p.val = 1 then m.rnum 1 (P.trPolePairs + 0x1000) else 1

/-- The fault of a port is active. -/
def Module.portFault (m : Module) (code : Nat) (p : Fin 6) : Bool := isActive m.faults.active code p.val

/-- Some fault of what the source uses holds the position of a port invalid: until it is cleared (R281). -/
def Module.portBlocked (m : Module) (p : Fin 6) : Bool :=
  (m.portFault F.fbIndexDeviation p && m.usesAbz p) || (m.portFault F.fbSsiError p && m.usesSsi p) ||
  (m.portFault F.fbSsiMismatch p && m.fsource p == 4) || (m.portFault F.fbHallInvalid p && m.usesHall p) ||
  [0, 1, 3, 4].any (fun l => m.feedback[p].lost.testBit l && m.lineUsed p l)

/-- An error of a port: the count and the rate (R283, R284). -/
def portError (p : Fin 6) (m : Module) : Module :=
  let f := m.feedback[p]
  let m1 := updFeedback p (fun f => { f with
    errors := inc32 f.errors, overflow := f.overflow || f.errors == 0xFFFFFFFE, window := f.window + 1 }) m
  if m.fnum p P.fbErrorRateLimit < f.window + 1 && !f.windowRaised then
    raisePort F.fbErrorRate p false (updFeedback p (fun f => { f with windowRaised := true }) m1)
  else m1

/-- A counted edge joins the run, or begins a new one at a reversal (R279, R280). -/
def runEdge (now : Nat) (at_ : Int) (down : Bool) (f : Feedback) : Feedback :=
  let e : Edge := { at_ := now, count := at_ }
  { f with edges := if f.decreasing == down then (e :: f.edges).take 64 else [e], decreasing := down, stood := false,
           edgesSinceCapture := satAdd 255 f.edgesSinceCapture 1 }

/-- A quadrature count up or down in the θe sense: FB_DIRECTION turns the count itself (R269). DESIGN CHOICE, log entry 85.
The first count of an unacquired port shows as acquiring. DESIGN CHOICE, log entry 82. -/
def quadEdge (p : Fin 6) (down : Bool) (m : Module) : Module :=
  let c := m.fcounts p
  updFeedback p (fun f =>
    let f1 := if down then
        (if f.count = 0 then { f with count := c - 1, revolutions := f.revolutions - 1, turns := f.turns - 1 }
         else { f with count := f.count - 1 })
      else if f.count + 1 ≥ c then { f with count := 0, revolutions := f.revolutions + 1, turns := f.turns + 1 }
      else { f with count := f.count + 1 }
    let passed := if down then f.passed - 1 else f.passed + 1
    let f2 := runEdge m.time.count.toNat passed down { f1 with passed := passed }
    { f2 with acquire := if f2.acquire = 0 then 1 else f2.acquire }) m

/-- The sector position of a Hall state in the θe-increasing order 1, 3, 2, 6, 4, 5 (R272). -/
def hallPosition (s : Nat) : Option Nat :=
  match s with
  | 1 => some 0 | 3 => some 1 | 2 => some 2 | 6 => some 3 | 4 => some 4 | 5 => some 5 | _ => none

/-- The angle word of k sixths of a turn, in half sixths. -/
def sixths (k2 : Nat) : Nat := k2 * 2 ^ 32 / 12

/-- An offset in rad as an angle word. -/
def offsetWord (w : Word) : Nat := (F32.toInt (F32.mul (F32.div w 0x40C90FDB) 0x4F800000)).toNat % 2 ^ 32

/-- The signed difference of two angle words. -/
def angleDiff (a b : Nat) : Int := sext 32 (a + 2 ^ 32 - b % 2 ^ 32)

/-- The turn an angle word enters on its way from another: a change of more than half a turn is a wrap (R278). -/
def wrapCarry (a b : Nat) : Int := if a + 2 ^ 31 < b then -1 else if b + 2 ^ 31 < a then 1 else 0

/-- The unwrapped change from an angle word to another (R278). -/
def unwrapped (a b : Nat) : Int := (b : Int) - a + 2 ^ 32 * wrapCarry a b

/-- The angle of a Hall port set by an edge or a jump, its turns with it. -/
def Feedback.turnTo (now a : Nat) (f : Feedback) : Feedback :=
  { f with angle := word a, angleAt := now, turns := f.turns + wrapCarry f.angle.toNat a }

/-- A counted Hall edge into position `k` (R272 … R275); with source 2 only until the Hall start, whose edge counts in neither
EDGES nor DIRECTION (R268). DESIGN CHOICE, log entry 99. -/
def hallEdge (p : Fin 6) (state k : Nat) (down : Bool) (m : Module) : Module :=
  let edge := (offsetWord (m.fpar p P.fbHallOffset) + sixths (2 * k + (if down then 2 else 0))) % 2 ^ 32
  let blocked := m.portBlocked p
  let c := m.fcounts p
  let now := m.time.count.toNat
  updFeedback p (fun f =>
    let acc := if down then f.accumulator - 1 else f.accumulator + 1
    let f1 := { f with hall := state, accumulator := acc }
    if m.fsource p = 2 then
      if blocked then f1
      else
        -- the count whose electrical angle is the edge's: count 0 stands at FB_ANGLE_OFFSET (R288)
        let at_ := (edge + 2 ^ 32 - offsetWord (m.fpar p P.fbAngleOffset)) % 2 ^ 32
        { f1 with hallStarted := true, posValid := true, acquire := 2, speedValid := true,
                  count := at_ * c / (2 ^ 32 * Nat.max 1 (m.fpoles p)) % Nat.max 1 c }
    else
      let f2 := runEdge now acc down (f1.turnTo now edge)
      let jump := match f.afterJump with
        | none => none
        | some n => if f.decreasing == down then (if 1 ≤ n then none else some (n + 1)) else some 1
      { f2 with afterJump := jump, posValid := !blocked, acquire := if blocked then f.acquire else 2,
                speedValid := !blocked && jump.isNone }) m

/-- The sector position of a port's Hall state (R272): with FB_DIRECTION 1 the positions run backwards, the state of position
`k` standing at 5 − k. DESIGN CHOICE, log entry 86. -/
def Module.sector (m : Module) (p : Fin 6) (s : Nat) : Option Nat :=
  (hallPosition s).map (fun k => if m.fnum p P.fbDirection == 1 then 5 - k else k)

/-- A change of the Hall state (R273, R275). -/
def hallChange (p : Fin 6) (s : Nat) (m : Module) : Module :=
  let f := m.feedback[p]
  match hallPosition s with
  | none =>
    portError p (updFeedback p (fun f => { f with invalidSince := some (f.invalidSince.getD m.time.elapsed) }) m)
  | some k =>
    let m1 := endCond F.fbHallInvalid p.val (updFeedback p (fun f => { f with invalidSince := none }) m)
    match hallPosition f.hall with
    | none => updFeedback p (fun f => { f with hall := s }) m1
    | some k0 =>
      let step := (k + 6 - k0) % 6
      let rev := m.fnum p P.fbDirection == 1
      let at_ := (m.sector p s).getD 0
      if step = 0 then m1
      else if m.fsource p = 2 && f.hallStarted then updFeedback p (fun f => { f with hall := s }) m1
      else if step = 1 ∨ step = 5 then hallEdge p s at_ ((step == 5) != rev) m1
      else
        portError p (updFeedback p (fun f =>
          let f1 := { f with hall := s, overRange := true }
          if m.fsource p = 5 then
            { f1.turnTo m.time.count.toNat ((offsetWord (m.fpar p P.fbHallOffset) + sixths (2 * at_ + 1)) % 2 ^ 32) with
              afterJump := some 0, edges := [], speedValid := false }
          else f1) m1)

/-- The decoders run: the GDC is supplied and out of reset (R262). -/
def Module.decodes (m : Module) : Bool := m.dieRuns 7

/-- The Hall lines of a port stand at a state that no Hall decoder counts: the next change is judged from it (R262, R273). -/
def Feedback.hallStands (now s : Nat) (f : Feedback) : Feedback :=
  let legal := (hallPosition s).isSome
  { f with hallNow := s, hall := if legal then s else f.hall,
           invalidSince := if legal then none else some (f.invalidSince.getD now) }

/-- FB_EDGE (R269, R273): a transition of the lines of a port whose new level has held for `held` ticks; the filter passes it
from FB_FILTER ticks on. The sampled Hall state follows with every source (R268), and the lines stand where they are while
no decoder runs. -/
def fbEdge (p : Fin 6) (e : PortEdge) (held : Nat) (m : Module) : Module :=
  if decide (held < m.fnum p P.fbFilter) then m
  else if !m.decodes then
    match e with
    | .hall s => updFeedback p (Feedback.hallStands m.time.elapsed s.val) m
    | _ => m
  else
    let rev := m.fnum p P.fbDirection == 1
    match e with
    | .up => if m.usesAbz p then quadEdge p rev m else m
    | .down => if m.usesAbz p then quadEdge p (!rev) m else m
    | .illegal => if m.usesAbz p then portError p (updFeedback p (fun f => { f with overRange := true }) m) else m
    | .hall s =>
      if m.usesHall p then hallChange p s.val (updFeedback p (fun f => { f with hallNow := s.val }) m)
      else updFeedback p (Feedback.hallStands m.time.elapsed s.val) m

/-- The deviation at the index, wrapped into −C/2 < d ≤ C/2 (R270). -/
def indexDeviation (c count pos : Nat) : Int :=
  let d := ((count + c - pos % c) % c : Nat)
  if 2 * d ≤ c then (d : Int) else (d : Int) - c

/-- An index: Z has risen, with A and B as given (R270). A correction carries the turns of the decoded angle with it (R287). The
condition of FB_INDEX_DEVIATION, as that of FB_SSI_MISMATCH, has gone with the comparison that raised it (R281). DESIGN
CHOICE, log entry 98. -/
def takeIndex (p : Fin 6) (aHigh bHigh : Bool) (m : Module) : Module :=
  let f := m.feedback[p]
  let c := m.fcounts p
  let pos := m.fnum p P.fbIndexPos
  if c = 0 || (m.fnum p P.fbIndexGate == 1 && !(aHigh && bHigh)) || f.lost.testBit 2 || f.indexBlocked then m
  else
    let d := indexDeviation c f.count pos
    let carry : Int := if (pos : Int) + d ≥ c then 1 else if (pos : Int) + d < 0 then -1 else 0
    if f.acquire != 2 && m.fsource p == 1 then
      if m.portBlocked p then m
      else updFeedback p (fun f => { f with
        count := pos, turns := f.turns - carry, posValid := true, acquire := 2, indexSeen := true, speedValid := true }) m
    else if !f.posValid then m
    else if m.fsource p = 2 && !f.indexSeen then
      updFeedback p (fun f => { f with count := pos, turns := f.turns - carry, indexDev := d, indexSeen := true }) m
    else if d.natAbs ≤ m.fnum p P.fbIndexTolerance then
      updFeedback p (fun f => { f with
        count := pos, revolutions := f.revolutions - carry, turns := f.turns - carry, indexDev := d, indexSeen := true,
        overflow := f.overflow || (d != 0 && f.corrections == 0xFFFFFFFE),
        corrections := if d = 0 then f.corrections else inc32 f.corrections }) m
    else
      raisePort F.fbIndexDeviation p false
        (updFeedback p (fun f => { f with indexDev := d, posValid := false, indexBlocked := true }) m)

/-- FB_INDEX (R270): Z has risen and held for `held` ticks (R269). It acts on this tick, behind the tick's counted edges
(R285): `settlePort`. -/
def fbIndex (p : Fin 6) (aHigh bHigh : Bool) (held : Nat) (m : Module) : Module :=
  if !m.decodes || !m.usesAbz p || decide (held < m.fnum p P.fbFilter) then m
  else updFeedback p (fun f => { f with indexPending := some (aHigh, bHigh) }) m

/-- FB_HALL_INVALID (R273, R281). -/
def fbHallInvalid (p : Fin 6) (m : Module) : Module :=
  if !m.usesHall p || !lasted m.time.elapsed m.feedback[p].invalidSince (F32.usTicks (m.fpar p P.fbHallInvalidDwell)) then m
  else
    raisePort F.fbHallInvalid p true
      (if m.fsource p = 5 then updFeedback p (fun f => { f with posValid := false, speedValid := false }) m else m)

/-! ## Speed and angle (R266, R274, R278, R279) -/

/-- The speed in counts per tick at a capture (R279). -/
def Feedback.rate (f : Feedback) (window standstill now : Nat) : Rat :=
  match f.edges with
  | [] => 0
  | e1 :: _ =>
    match (f.edges.filter (fun e => e1.at_ ≤ e.at_ + window)).reverse with
    | [] => 0
    | e0 :: _ =>
      let dt := e1.at_ - e0.at_
      let dc := e1.count - e0.count
      if dt = 0 ∨ dc = 0 then 0
      else
        let v := mkRat dc dt
        let idle := now - e1.at_
        if standstill ≤ idle then 0
        else if dt < idle * dc.natAbs then (if dc < 0 then mkRat (-1) idle else mkRat 1 idle)
        else v

/-- The rate of a port now; after FB_STANDSTILL_TIMEOUT it is 0. -/
def Module.portRate (m : Module) (p : Fin 6) : Rat :=
  if (m.feedback[p]).stood then 0 else (m.feedback[p]).rate (m.fnum p P.fbSpeedWindow) (F32.usTicks (m.fpar p P.fbStandstillTimeout)) m.time.count.toNat

/-- The speed of a port in rpm, θe increasing positive (R278, R279): mechanical at FB0 and FB1, electrical at FB2 … FB5. -/
def Module.portRpm (m : Module) (p : Fin 6) : Rat :=
  let v := m.portRate p
  let src := m.fsource p
  if src = 0 ∨ !(m.feedback[p]).speedValid then 0
  else if src = 3 then mkRat (m.feedback[p]).ssiSpeed.toInt 256
  else if src = 5 then v * 4000000000 / (Nat.max 1 (m.fpoles p) : Rat)
  else v * 24000000000 / (Nat.max 1 (m.fcounts p) : Rat)

/-- The speed word of FB0 and FB1 in units of 2^−8 rpm (R266). -/
def Module.speedWord (m : Module) (p : Fin 6) : Word := i32Word (roundRat (m.portRpm p * 256))

/-- How far the decoded angle has gone since its last word or edge, in units of the angle word (R274, R278). -/
def Module.angleAdvance (m : Module) (p : Fin 6) : Int :=
  let f := m.feedback[p]
  let gone := m.time.count.toNat - f.angleAt
  if m.fsource p = 3 then f.ssiSpeed.toInt * (m.fpoles p : Int) * (gone : Int) * 2 ^ 32 / (256 * 60 * 400000000)
  else if m.fsource p = 5 then
    -- Hall edges are sixths of a turn; the angle never passes the next edge
    let adv := roundRat (m.portRate p * (gone : Rat) * (2 ^ 32 : Nat) / 6)
    let lim : Int := sixths 2
    if adv > lim then lim else if adv < -lim then -lim else adv
  else 0

/-- The electrical angle word of FB0 and FB1 (R266, R274, R278); a count that falls between two words is rounded down.
DESIGN CHOICE, log entry 84. -/
def Module.angleWord (m : Module) (p : Fin 6) : Word :=
  let f := m.feedback[p]
  let src := m.fsource p
  if src = 1 ∨ src = 2 ∨ src = 4 then
    let c := Nat.max 1 (m.fcounts p)
    word (f.count * m.fpoles p % c * 2 ^ 32 / c + offsetWord (m.fpar p P.fbAngleOffset))
  else if src = 3 ∨ src = 5 then word (f.angle.toNat + (m.angleAdvance p % 2 ^ 32).toNat)
  else 0

/-! ## SSI (R276 … R278) -/

/-- Gray to binary of an `n`-bit value. -/
def grayToBinary (n v : Nat) : Nat := (List.range n).foldl (fun a k => a ^^^ (v >>> (k + 1))) v

/-- The single-turn position of a received word (R276). -/
def Module.ssiPosition (m : Module) (p : Fin 6) (w : Word) : Nat :=
  let sh := m.fnum p P.fbSsiShift
  let n := m.fnum p P.fbSsiBits - sh
  let v := w.toNat / 2 ^ sh % 2 ^ n
  (if m.fnum p P.fbSsiCode = 1 then grayToBinary n v else v) % 2 ^ m.fnum p P.fbSsiTurnBits

/-- A tolerance in rad as angle word units. -/
def tolWord (w : Word) : Nat := offsetWord w

/-- A single-turn angle latched at `tick` within FB_SSI_TOLERANCE, which is electrical, of the prediction (R277, R288); after
FB_SSI_ERROR the comparison starts afresh. DESIGN CHOICE, log entry 72. -/
def Module.ssiPlausible (m : Module) (p : Fin 6) (tick pos : Nat) : Bool :=
  let f := m.feedback[p]
  match f.ssiAt with
  | none => true
  | some t =>
    let frac := pos * 2 ^ 32 / 2 ^ m.fnum p P.fbSsiTurnBits
    let rate := (m.speedWord p).toInt * ((tick - t : Nat) : Int) * 2 ^ 32 / (256 * 60 * 400000000)
    (angleDiff frac ((f.ssiAngle.toNat + (rate % 2 ^ 32).toNat) % 2 ^ 32)).natAbs * m.fpoles p ≤
      tolWord (m.fpar p P.fbSsiTolerance)

/-- The trail of valid words with a new one: back to the newest at least the window older (R278). -/
def trimTrail (window now : Nat) : List (Nat × Int) → List (Nat × Int)
  | [] => []
  | w :: ws => if w.1 + window ≤ now then [w] else w :: trimTrail window now ws

/-- The speed word of a trail: the change over the newest pair of words at least the window apart (R278). -/
def trailSpeed (window : Nat) (now : Nat × Int) (trail : List (Nat × Int)) : Option Word :=
  (trail.find? (fun w => w.1 + window ≤ now.1)).map (fun w =>
    i32Word (roundRat (mkRat ((now.2 - w.2) * 60 * 400000000 * 256) (2 ^ 32 * (now.1 - w.1)))))

/-- The ticks from the latch of a frame to the clock edge that follows its last bit: the bits one clock apart, the first one
clock after the latch (R276, R277). DEDUCED, log entry 97. -/
def Module.ssiTicks (m : Module) (p : Fin 6) : Nat := (m.fnum p P.fbSsiBits + 1) * m.fnum p P.fbSsiClockDiv

/-- SSI_FRAME at a latch tick, with the word the encoder sends; `lineBad` when the data line is wrong at the request or after
the last bit (R276, R277). The frame meets the count behind the index of its tick (R285): `settlePort`. -/
def ssiFrame (p : Fin 6) (w : Word) (lineBad : Bool) (m : Module) : Module :=
  let iv := m.fnum p P.fbSsiInterval
  if !m.decodes || !m.usesSsi p || iv = 0 || m.time.count.toNat % iv != 0 then m
  else updFeedback p (fun f => { f with ssiPending := some (w, lineBad) }) m

/-- A valid word of source 4 meets the count of its latch tick (R278): the first one sets the count there, a half rounded up
(DESIGN CHOICE, log entry 98), a later one is compared with it. -/
def useSsi (p : Fin 6) (s : SsiFrame) (frac : Nat) (m : Module) : Module :=
  let f := m.feedback[p]
  let c := Nat.max 1 (m.fcounts p)
  if !f.ssiStarted then
    if m.portBlocked p then m
    else
      let at_ : Int := ((frac * c + 2 ^ 31) / 2 ^ 32 % c : Nat) + (f.passed - s.passed)
      updFeedback p (fun f => { f with
        count := (at_ % c).toNat, revolutions := f.revolutions + at_ / c, turns := f.turns + at_ / c,
        posValid := true, acquire := 2, ssiStarted := true, speedValid := true }) m
  else
    let abz := s.count * m.fpoles p % c * 2 ^ 32 / c
    if tolWord (m.fpar p P.fbSsiTolerance) < (angleDiff (frac * m.fpoles p) abz).natAbs then
      raisePort F.fbSsiMismatch p false (updFeedback p (fun f => { f with posValid := false }) m)
    else m

/-- An invalid word (R277): three in a row raise FB_SSI_ERROR, after which the angle and its speed begin afresh. -/
def ssiInvalid (p : Fin 6) (m : Module) : Module :=
  let n := m.feedback[p].ssiBad + 1
  let m1 := portError p (updFeedback p (fun f => { f with ssiBad := n }) m)
  if n = 3 then
    raisePort F.fbSsiError p true (updFeedback p (fun f => { f with
      posValid := false, speedValid := if m.fsource p = 3 then false else f.speedValid, ssiAt := none, ssiTrail := [],
      ssiSpeed := 0, ssiStarted := false }) m1)
  else m1

/-- A valid word of source 3 (R278): the angle of its latch tick, the speed, the revolutions. -/
def ssiAngleWord (p : Fin 6) (s : SsiFrame) (frac : Nat) (m : Module) : Module :=
  let f := m.feedback[p]
  let was := f.ssiAngle.toNat
  let wrap := if f.ssiAt.isSome then wrapCarry was frac else 0
  let window := m.fnum p P.fbSpeedWindow
  let here : Nat × Int := (s.tick, (f.ssiTrail.head?.map (fun w => w.2 + unwrapped was frac)).getD frac)
  let blocked := m.portBlocked p
  updFeedback p (fun f => { f with
    ssiSpeed := (trailSpeed window here f.ssiTrail).getD f.ssiSpeed,
    ssiTrail := here :: trimTrail window s.tick f.ssiTrail,
    revolutions := f.revolutions + wrap, turns := f.turns + wrap,
    angle := word (frac * m.fpoles p + offsetWord (m.fpar p P.fbAngleOffset)), angleAt := s.tick,
    posValid := !blocked, speedValid := !blocked, acquire := if blocked then f.acquire else 2 }) m

/-- The last bit of a frame has been read: the word is processed (R276 … R278). A word read while the line is reported broken
is an invalid one; FB_DIRECTION leaves an SSI position as it is (R277, R288). DESIGN CHOICE, log entry 98. -/
def ssiRead (p : Fin 6) (s : SsiFrame) (m : Module) : Module :=
  let err := m.fnum p P.fbSsiErrorBit
  let pos := m.ssiPosition p s.word
  let bad := s.lineBad || (err < 32 && bit s.word err) || !m.ssiPlausible p s.tick pos ||
    m.feedback[p].broken.testBit 4
  let m0 := updFeedback p (fun f => { f with ssiWord := s.word, ssiReading := none }) m
  if bad then ssiInvalid p m0
  else
    let frac := pos * 2 ^ 32 / 2 ^ m.fnum p P.fbSsiTurnBits
    let m1 := endCond F.fbSsiError p.val m0
    let m2 := if m.fsource p = 3 then ssiAngleWord p s frac m1 else useSsi p s frac m1
    updFeedback p (fun f => { f with ssiBad := 0, ssiFresh := true, ssiAngle := word frac, ssiAt := some s.tick }) m2

/-- The frames whose last bit has been read by now are processed. -/
def readFrames (m : Module) : Module :=
  if !m.decodes then m
  else (List.finRange 6).foldl (fun m p =>
    match m.feedback[p].ssiReading with
    | some s => if s.readyAt ≤ m.time.elapsed then ssiRead p s m else m
    | none => m) m

/-- The clocks at which the frames being read end. -/
def Module.frameClocks (m : Module) : List Nat :=
  m.feedback.toList.filterMap (fun f => f.ssiReading.map (·.readyAt))

/-- The tick of a port ends: its index acts on the count behind the tick's edges, then an SSI frame of the tick takes the
count (R285). -/
def settlePort (p : Fin 6) (m : Module) : Module :=
  let m1 := match m.feedback[p].indexPending with
    | some (a, b) => takeIndex p a b (updFeedback p (fun f => { f with indexPending := none }) m)
    | none => m
  match m1.feedback[p].ssiPending with
  | some (w, bad) =>
    updFeedback p (fun f => { f with
      ssiPending := none,
      ssiReading := some { word := w, lineBad := bad, tick := m1.time.count.toNat, count := f.count, passed := f.passed,
                           readyAt := m1.time.elapsed + m1.ssiTicks p } }) m1
  | none => m1

/-- Something of a port waits for the end of its tick. -/
def Feedback.waits (f : Feedback) : Bool := f.indexPending.isSome || f.ssiPending.isSome

/-- The Hall speed of FB2 … FB5: i16, electrical rpm, saturating (R265), and whether it saturated. -/
def Module.hallSpeed (m : Module) (p : Fin 6) : Int × Bool :=
  let v := roundRat (m.portRate p * 4000000000)
  if v > 32767 then (32767, true) else if v < -32767 then (-32767, true) else (v, false)

/-- The capture status word (R268). -/
def Module.captureStatus (m : Module) (p : Fin 6) : Nat :=
  let f := m.feedback[p]
  let on := m.fsource p != 0
  let top := flag (on && f.posValid) * 2 ^ 15 + flag (on && f.speedValid) * 2 ^ 14 + f.hallNow % 8 * 2 ^ 11
  let mid := if p.val < 2 then flag f.indexSeen * 2 ^ 10 + flag f.ssiFresh * 2 ^ 9 + flag f.decreasing * 2 ^ 8 else 0
  top + mid + f.edgesSinceCapture % 256

/-- The flags of a port's capture words (R267): open-wire, over-range, stale. -/
def Module.captureFlags (m : Module) (p : Fin 6) : Nat :=
  let f := m.feedback[p]
  let stale := m.usesSsi p && (match f.ssiAt with
    | none => true
    | some t => 2 * m.fnum p P.fbSsiInterval < m.time.count.toNat - t)
  flag (m.lineBroken p) * 2 ^ 3 + flag (f.overRange || (2 ≤ p.val && (m.hallSpeed p).2)) * 2 ^ 2 + flag stale

/-- The words of a captured port: code and 16 bits of data (R265), in ascending code. -/
def Module.captureWords (m : Module) (p : Fin 6) : List (Nat × Nat) :=
  let f := m.feedback[p]
  if p.val < 2 then
    let a := (m.angleWord p).toNat
    let s := (m.speedWord p).toNat
    [(48, a / 2 ^ 16), (49, a % 2 ^ 16), (50, (f.revolutions % 2 ^ 16).toNat), (51, s / 2 ^ 16), (52, s % 2 ^ 16),
     (53, m.captureStatus p)]
  else
    let b := if p.val % 2 = 0 then 56 else 60
    let acc := (f.accumulator % 2 ^ 32).toNat
    [(b, acc / 2 ^ 16), (b + 1, acc % 2 ^ 16), (b + 2, ((m.hallSpeed p).1 % 2 ^ 16).toNat), (b + 3, m.captureStatus p)]

/-- The capture takes the words and begins a new interval (R264, R268, R290); none while the count is invalid (R66). -/
def capture (p : Fin 6) (m : Module) : Module :=
  if !m.time.valid then m else
  let a := m.angleWord p
  let v := m.portRpm p
  let st := m.captureStatus p
  updFeedback p (fun f => { f with
    capAngle := a, capSpeed := F32.ofRat v.num v.den, capStatus := st, capEdges := f.edgesSinceCapture,
    capOver := f.overRange, capFresh := f.ssiFresh, edgesSinceCapture := 0, overRange := false, ssiFresh := false }) m

/-- FB_STANDSTILL_TIMEOUT: no edge for the time, the speed is 0 until the next one (R279). -/
def fbStandstill (p : Fin 6) (m : Module) : Module :=
  match (m.feedback[p]).edges with
  | [] => m
  | e :: _ =>
    if m.time.count.toNat < e.at_ + F32.usTicks (m.fpar p P.fbStandstillTimeout) then m
    else updFeedback p (fun f => { f with stood := true }) m

/-! ## Line breaks (R281, R630) -/

/-- A line breaks; one the source uses is reported, once the decoder runs (R262, R281). -/
def lineBreak (p : Fin 6) (l : Fin 5) (m : Module) : Module :=
  let src := m.fsource p
  let m1 := updFeedback p (fun f => { f with broken := f.broken ||| 2 ^ l.val }) m
  if !m.lineUsed p l.val || !m.decodes then m1 else raisePort F.fbLineBreak p true (updFeedback p (breakLine src l.val) m1)

/-- A break ends; the fault's condition ends with the last one of a used line (R281). -/
def lineRestored (p : Fin 6) (l : Fin 5) (m : Module) : Module :=
  let m1 := updFeedback p (fun f => { f with
    broken := if f.broken.testBit l.val then f.broken - 2 ^ l.val else f.broken }) m
  if m1.lineBroken p then m1 else endCond F.fbLineBreak p.val m1

/-- ACK_FAULTS has cleared a fault of a port: it acquires anew where R281 says so (R271); after a break of a line other than
A and B its source goes on. -/
def portCleared (code : Nat) (p : Fin 6) (m : Module) : Module :=
  if code = F.fbIndexDeviation ∨ code = F.fbSsiMismatch then updFeedback p unacquire m
  else if code = F.fbLineBreak then
    updFeedback p (fun f => { (if f.lost % 4 = 0 then f else unacquire f) with lost := 0 }) m
  else m

/-! ## The regenerated output (R286, R287) -/

/-- The port of an EP output. -/
def epPort (p : Fin 2) : Fin 6 := ⟨p.val, by omega⟩

/-- The unwrapped mechanical position of a port in units of 2^−32 revolutions: the decoded electrical angle at this tick
divided by the pole pairs (R286, R287). -/
def Module.mechanical (m : Module) (p : Fin 6) : Int :=
  let f := m.feedback[p]
  let pp : Int := Nat.max 1 (m.fpoles p)
  let c : Int := Nat.max 1 (m.fcounts p)
  let off : Int := offsetWord (m.fpar p P.fbAngleOffset)
  let electrical : Int :=
    if m.fsource p = 3 then (f.turns * 2 ^ 32 + f.ssiAngle.toNat) * pp + off + m.angleAdvance p
    else if m.fsource p = 5 then f.turns * 2 ^ 32 + f.angle.toNat + m.angleAdvance p
    else (f.turns * c + f.count) * pp * 2 ^ 32 / c + off
  electrical / pp

/-- The count the regenerated output follows: EP_LINES lines, four counts each. -/
def Module.epTarget (m : Module) (p : Fin 6) : Int := m.mechanical p * (4 * m.fnum p P.epLines : Int) / 2 ^ 32

/-- Regenerated mode at a port with a valid position and the GDC running; otherwise the outputs are off or hold (R286,
R287). -/
def Module.epRuns (m : Module) (p : Fin 6) : Bool := (m.feedback[p]).posValid && m.decodes && m.fnum p P.epMode == 2

/-- The emitted count as it meets the decoded angle: where the port has begun anew, the nearest of the counts that stand for
the levels the outputs hold; where the EP port has changed, the count of the angle itself (R286, R287). DESIGN CHOICE, log
entry 107. -/
def Module.epMeets (m : Module) (q : Fin 6) : Int :=
  let f := m.feedback[q]
  let rev : Int := 4 * Nat.max 1 (m.fnum q P.epLines)
  if f.epStart = 0 then f.epCount
  else if f.epStart = 1 then f.epCount + (2 * (m.epTarget q - f.epCount) + rev) / (2 * rev) * rev
  else m.epTarget q

/-- The edges that leave over a gap of `dt` ticks up to now, at least EP_MIN_EDGE ticks apart (R286). -/
def followEp (dt : Nat) (p : Fin 2) (m0 : Module) : Module :=
  let q := epPort p
  if !m0.epRuns q then m0
  else
    let m := updFeedback q (fun f => { f with epCount := m0.epMeets q, epStart := 0 }) m0
    let f := m.feedback[q]
    let gap := Nat.max 1 (m.fnum q P.epMinEdge)
    let d := m.epTarget q - f.epCount
    let from_ := Nat.max f.epAt (m.time.elapsed - (dt + gap))
    let room := (m.time.elapsed - from_) / gap
    let n := Nat.min d.natAbs room
    if n = 0 then m
    else updFeedback q (fun f => { f with
      epCount := if d < 0 then f.epCount - n else f.epCount + n,
      epAt := if n = room then from_ + n * gap else m.time.elapsed }) m

/-- The levels of A, B and Z of a regenerated output (R286): Z is high for one count at EP_INDEX_POS, A at the counts 1 and 2
of each line and B at 2 and 3. DESIGN CHOICE, log entry 83. -/
def Module.epLevels (m : Module) (p : Fin 2) : Bool × Bool × Bool :=
  let q := epPort p
  let n := m.feedback[q].epCount
  let k := (n % 4).toNat
  (k == 1 || k == 2, k == 2 || k == 3, n % (4 * Nat.max 1 (m.fnum q P.epLines) : Int) == (m.fnum q P.epIndexPos : Int))

/-- What an EP output drives while the lines A, B and Z of its port stand at `lines`; none is high impedance (R286). -/
def Module.epOutput (m : Module) (p : Fin 2) (lines : Bool × Bool × Bool) : Option (Bool × Bool × Bool) :=
  let mode := m.fnum (epPort p) P.epMode
  if !m.decodes || mode == 0 then none else if mode == 1 then some lines else some (m.epLevels p)

/-- The regenerated outputs hold their last levels: the position is invalid (R287). -/
def Module.epHeld (m : Module) (p : Fin 6) : Bool :=
  m.decodes && m.fnum p P.epMode == 2 && !(m.feedback[p]).posValid

/-- FB_EP_OVERRUN: the regenerated output lags by more than 16 counts; it catches up edge by edge (R287). -/
def epOverrun (p : Fin 2) (m : Module) : Module :=
  let q := epPort p
  if !m.epRuns q || m.feedback[q].epStart != 0 || (m.epTarget q - m.feedback[q].epCount).natAbs ≤ 16 || isActive m.faults.active F.fbEpOverrun p.val then m
  else raisePort F.fbEpOverrun q false m

end Sys2Proof.Machine
end

