-- ==== Sys2Proof/Machine/Actuators.lean ====
section
/-!
DEFINITION. The gearbox actuators: commutation, duty and bootstrap refresh (R380 … R385), the shunts (R386, R387), position
and homing (R388 … R390), the loop (R391), moves and the park lock (R392 … R395).
-/

namespace Sys2Proof.Machine

open F32 (add sub mul div lt le fmin negate)

/-- A parameter of actuator `a`, as the region that serves the actuators has it. -/
def Module.apar (m : Module) (a : Fin 4) (id : Nat) : Word := m.rpar (m.epochs.active.regionOf (.ax a)) (id + 0x40 * a.val)
def Module.anum (m : Module) (a : Fin 4) (id : Nat) : Nat := (m.apar a id).toNat
def Module.aus (m : Module) (a : Fin 4) (id : Nat) : Nat := F32.usTicks (m.apar a id)

/-- Tax of an actuator in ticks (R381). -/
def Module.atax (m : Module) (a : Fin 4) : Nat :=
  (F32.toInt (div (F32.ofNat 400000000) (m.apar a P.axPwmFreq))).toNat

/-- The feedback port of an actuator (R380). -/
def axPort (a : Fin 4) : Fin 6 := ⟨2 + a.val, by omega⟩

/-- The actuator of a feedback port. -/
def portActuator (p : Fin 6) : Option (Fin 4) := if h : 2 ≤ p.val then some ⟨p.val - 2, by omega⟩ else none

/-- The Hall edge accumulator of an actuator (R265, R388). -/
def Module.hallCount (m : Module) (a : Fin 4) : Int := m.feedback[axPort a].accumulator

/-- The position P of an actuator (R388). -/
def Module.axPosition (m : Module) (a : Fin 4) : Int := i32 (m.apar a P.axHomePos) + m.hallCount a - m.actuators[a].h0

/-- The position of gear `g` (R393); none where it is unassigned. -/
def Module.gearPos (m : Module) (a : Fin 4) (g : Nat) : Option Int :=
  let w := m.apar a (P.axGearPos + g)
  if w = 0x7FFFFFFF then none else some (i32 w)

/-! ## Commutation (R382) -/

/-- The PWM leg, the low leg and the float leg of a sector position for u ≥ 0: 0 U, 1 V, 2 W (R382). -/
def commutation (k : Nat) : Nat × Nat × Nat :=
  match k % 6 with
  | 0 => (0, 1, 2) | 1 => (0, 2, 1) | 2 => (1, 2, 0) | 3 => (1, 0, 2) | 4 => (2, 0, 1) | _ => (2, 1, 0)

/-- The bridge of an actuator is driven: loop CLOSED or homing, no pattern, EN high, the LGD and the GDC running (R380, R391,
R396). -/
def Module.bridgeOn (m : Module) (a : Fin 4) : Bool :=
  let x := m.actuators[a]
  (x.closed || x.move == 3) && !m.patterned (.ax a) && m.enHigh && m.dieRuns 8 && m.dieRuns 7 && m.enabled (.ax a)

/-- The legs of a bridge for a sector position and a demand: 0 off or floating, 1 PWM, 2 low (R382). -/
def bridgeLegs (sector : Option Nat) (shift : Nat) (u : Word) : Vector Nat 3 :=
  match sector with
  | none => Vector.replicate 3 0
  | some k =>
    let (p, l, _) := commutation (k + shift)
    let (p, l) := if F32.key u < 0 then (l, p) else (p, l)
    Vector.ofFn (fun i => if i.val = p then 1 else if i.val = l then 2 else 0)

/-- The legs an actuator's bridge has now. -/
def Module.legsNow (m : Module) (a : Fin 4) : Vector Nat 3 :=
  if m.bridgeOn a then
    bridgeLegs (m.sector (axPort a) m.feedback[axPort a].hallNow) (m.anum a P.axCommShift) m.actuators[a].uNow
  else Vector.replicate 3 0

/-- The outputs of the LGD go off. -/
def lgdOff (m : Module) : Module :=
  { m with actuators := m.actuators.map (fun x => { x with
      legs := Vector.replicate 3 0, legsAt := Vector.replicate 3 m.time.elapsed, kept := Vector.replicate 3 0,
      refreshing := Vector.replicate 3 false, refreshNext := Vector.replicate 3 false }) }

/-! ## Carrier valley (R383, R384, R386, R387) -/

/-- The count is a carrier valley of the actuator (R381). -/
def Module.atValley (m : Module) (a : Fin 4) : Bool :=
  let t := m.atax a
  t != 0 && (m.time.count.toNat + t * 4 - a.val * (t / 4)) % t == 0

/-- The duty min(|u| / Vax, 1) (R383), its quotient a free value where the supply sample is not above 0. DESIGN CHOICE, log
entry 8. -/
def dutyOf (u vax : Word) : Word :=
  fmin (if F32.key vax ≤ 0 then Config.dutyWithoutSupply u vax else div (F32.abs u) vax) fOne

/-- K: the periods after which a refresh is forced (R384). -/
def Module.refreshK (m : Module) (a : Fin 4) : Nat := m.aus a P.axRefreshInterval / m.atax a

/-- The ticks since the last carrier valley of an actuator (R381). -/
def Module.sinceValley (m : Module) (a : Fin 4) : Nat :=
  let t := m.atax a
  (m.time.count.toNat + t * 4 - a.val * (t / 4)) % t

/-- The ticks of a carrier period in which the high side of the PWM leg is on (R383). -/
def Module.highTicks (m : Module) (a : Fin 4) : Nat := (F32.toInt (mul m.actuators[a].duty (F32.ofNat (m.atax a)))).toNat

/-- The place in a carrier period, counted from its valley, at which the high side of the PWM leg turns on (R383). -/
def Module.highFrom (m : Module) (a : Fin 4) : Nat := m.atax a / 2 - m.highTicks a / 2

/-- What a leg's role asks of its high and low gate at a place of the carrier period: the PWM leg complementary with
AX_DEAD_TIME between its edges, the low leg on its low side, the float leg off (R382, R383). -/
def Module.roleGates (m : Module) (a : Fin 4) (i : Fin 3) (s : Nat) : Bool × Bool :=
  let x := m.actuators[a]
  let dead := m.anum a P.axDeadTime
  let from_ := m.highFrom a
  let to_ := from_ + m.highTicks a
  if x.legs[i] = 1 then (from_ ≤ s && s < to_, s < from_ - dead || to_ + dead ≤ s) else (false, x.legs[i] = 2)

/-- A leg's gates at a place of the carrier period and a clock (R382 … R385): around a valley that has one, the forced refresh
pulse; after a change of the leg's state only the gate that was on stays on, a turn-on follows by AX_DEAD_TIME; a leg whose
bootstrap supply is low keeps its high side off. -/
def Module.gatesAt (m : Module) (a : Fin 4) (i : Fin 3) (s clock : Nat) : Bool × Bool :=
  let x := m.actuators[a]
  let left := m.atax a - s
  let dead := m.anum a P.axDeadTime
  let pulse := m.anum a P.axRefreshPulse
  let tail := pulse - pulse / 2
  let first := s < left
  let forced := if first then x.refreshing[i] else x.refreshNext[i]
  let near := if first then s < tail + dead else left ≤ pulse / 2 + dead
  let low := if first then s < tail else left ≤ pulse / 2
  let own := m.roleGates a i s
  let g : Bool × Bool := if forced && near then (false, low || own.2) else own
  let settled := x.legsAt[i] + dead ≤ clock
  if !m.bridgeOn a then (false, false)
  else (g.1 && (settled || x.kept[i] = 1) && !x.bootLow.testBit i.val, g.2 && (settled || x.kept[i] = 2))

/-- High and low gate of a leg now. -/
def Module.legGates (m : Module) (a : Fin 4) (i : Fin 3) : Bool × Bool := m.gatesAt a i (m.sinceValley a) m.time.elapsed

/-- The gate of a leg that was on up to the present tick: 0 none, 1 high, 2 low. -/
def Module.gateBefore (m : Module) (a : Fin 4) (i : Fin 3) : Nat :=
  let s := m.sinceValley a
  let now := m.time.elapsed
  let g := if m.actuators[a].valleyAt = now then m.gatesAt a i s now
           else if s = 0 then m.gatesAt a i (m.atax a - 1) (now - 1) else m.gatesAt a i (s - 1) (now - 1)
  if g.1 then 1 else if g.2 then 2 else 0

/-- The parts of a carrier period in which a leg's role has its low side on (R382, R383). -/
def Module.lowSpans (m : Module) (a : Fin 4) (i : Fin 3) : List (Nat × Nat) :=
  let x := m.actuators[a]
  let t := m.atax a
  let dead := m.anum a P.axDeadTime
  let from_ := m.highFrom a
  if x.legs[i] = 2 then [(0, t)]
  else if x.legs[i] = 1 then [(0, from_ - dead), (from_ + m.highTicks a + dead, t)]
  else []

/-- The run a low side is in now, and the longest of the carrier period, from the spans of clocks in which it was on since
`seen`: one that begins there goes on with the run it was in (R384). -/
def lowRuns (seen now : Nat) (spans : List (Nat × Nat)) (run : Option Nat) (best : Nat) : Option Nat × Nat :=
  spans.foldl (fun r p =>
    let start := if p.1 = seen then run.getD seen else p.1
    if p.2 ≤ p.1 then r else (if p.2 = now then some start else none, Nat.max r.2 (p.2 - start))) (none, best)

/-- The low sides of a bridge are followed up to now. -/
def followLow (a : Fin 4) (m : Module) : Module :=
  let now := m.time.elapsed
  let t := m.atax a
  let s := m.sinceValley a
  let begin_ := if s = 0 then now - t else now - s
  let runs (i : Fin 3) : Option Nat × Nat :=
    let x := m.actuators[a]
    let free := if x.kept[i] = 2 then 0 else x.legsAt[i] + m.anum a P.axDeadTime
    let lo := Nat.max begin_ (Nat.max x.lowSeen free)
    let spans := (m.lowSpans a i).map (fun p => (Nat.max (begin_ + p.1) lo, Nat.min (begin_ + p.2) now))
    lowRuns x.lowSeen now (if m.bridgeOn a then spans else []) x.lowFrom[i] x.lowBest[i]
  if now ≤ (m.actuators[a]).lowSeen then m
  else updActuator a (fun x => { x with
    lowSeen := now, lowFrom := Vector.ofFn (fun i => (runs i).1), lowBest := Vector.ofFn (fun i => (runs i).2) }) m

/-- HALL_COMMUTATION: the bridge takes the sector of the present Hall state; a leg whose state stays goes on (R382). -/
def commutate (a : Fin 4) (m0 : Module) : Module :=
  let m := followLow a m0
  let now := m.time.elapsed
  let ls := m.legsNow a
  updActuator a (fun x =>
    let changes (i : Fin 3) : Bool := x.legs[i] != ls[i]
    { x with legs := ls,
             kept := Vector.ofFn (fun i => if changes i && x.legsAt[i] != now then m.gateBefore a i else x.kept[i]),
             legsAt := Vector.ofFn (fun i => if changes i then now else x.legsAt[i]) }) m

/-- The refresh of the legs at a valley, each by itself: the periods without one, and whether a pulse is forced in it around the
next valley (R384). DEDUCED, log entry 36. -/
def Module.refreshStep (m : Module) (a : Fin 4) : Vector Nat 3 × Vector Bool 3 :=
  let x := m.actuators[a]
  let k := m.refreshK a
  let count (i : Fin 3) : Nat := if m.anum a P.axRefreshPulse ≤ x.lowBest[i] then 0 else x.sinceRefresh[i] + 1
  let forced (i : Fin 3) : Bool := k ≤ count i && count i != 0
  (Vector.ofFn (fun i => if forced i then 0 else count i), Vector.ofFn forced)

/-- The sample of a leg at a valley is valid: its low side has been on for 40 ticks, or it is the low leg (R386). -/
def Module.legValid (m : Module) (a : Fin 4) (i : Fin 3) : Bool :=
  let x := m.actuators[a]
  let now := m.time.elapsed
  let held : Bool := match x.lowFrom[i] with
    | some t => t + 40 ≤ now
    | none => false
  let pulsed : Bool := x.refreshNext[i] && 80 ≤ m.anum a P.axRefreshPulse &&
    (x.kept[i] = 2 || x.legsAt[i] + m.anum a P.axDeadTime + 40 ≤ now)
  x.legs[i] = 2 || held || pulsed

/-- The bridge current: the sample of the low leg (R386). DEDUCED, log entry 36. -/
def bridgeCurrent (legs : Vector Nat 3) (i : Vector Word 3) : Word :=
  ((List.finRange 3).find? (fun k => legs[k] == 2)).elim 0 (fun k => i[k])

/-- A valley passes: the demand and its duty take effect, the forced pulses move up (R383, R384); a leg whose gate changes with
the duty turns on AX_DEAD_TIME later. -/
def turnValley (a : Fin 4) (counts : Vector Nat 3) (next : Vector Bool 3) (vax : Word) (m : Module) : Module :=
  let now := m.time.elapsed
  let before := Vector.ofFn (fun i : Fin 3 => m.gateBefore a i)
  let m1 := commutate a (updActuator a (fun x => { x with
    supply := vax, refreshing := x.refreshNext, refreshNext := next, sinceRefresh := counts, uNow := x.u,
    duty := dutyOf x.u vax, valleyAt := now, lowBest := Vector.replicate 3 0 }) m)
  let stays (i : Fin 3) : Bool :=
    let g := m1.roleGates a i 0
    (m1.actuators[a]).legs[i] == (m.actuators[a]).legs[i] && ((m1.actuators[a]).refreshing[i] ||
      (if g.1 then 1 else if g.2 then 2 else 0) == before[i])
  updActuator a (fun x => { x with
    legsAt := Vector.ofFn (fun i => if stays i then x.legsAt[i] else now),
    kept := Vector.ofFn (fun i => if stays i then x.kept[i] else before[i]) }) m1

/-- ACTUATOR_CARRIER_VALLEY with the three shunt currents in A and the supply in V (R383 … R387); with the bridge off the check
of R387 passes (R676). -/
def carrierValley (a : Fin 4) (iu iv iw vax : Word) (m0 : Module) : Module :=
  if !m0.atValley a || !m0.dieRuns 7 || !m0.time.valid then m0
  else if !m0.bridgeOn a then
    endCond F.axOvercurrent a.val (updActuator a (fun x => { x with
      uNow := x.u, duty := 0, current := 0, supply := vax, refreshing := Vector.replicate 3 false,
      refreshNext := Vector.replicate 3 false, legs := Vector.replicate 3 0, sinceRefresh := Vector.replicate 3 0,
      valleyAt := m0.time.elapsed, lowSeen := m0.time.elapsed, lowFrom := Vector.replicate 3 none,
      lowBest := Vector.replicate 3 0 }) m0)
  else
    let m := followLow a m0
    let x := m.actuators[a]
    let (counts, next) := m.refreshStep a
    let is : Vector Word 3 := #v[iu, iv, iw]
    let legal := (hallPosition m.feedback[axPort a].hallNow).isSome
    let trip := legal && (List.finRange 3).any (fun i => m.legValid a i && lt (m.apar a P.axITrip) (F32.abs is[i]))
    let m1 := turnValley a counts next vax
      (updActuator a (fun x => { x with current := if legal then bridgeCurrent x.legs is else x.current }) m)
    if trip then raise F.axOvercurrent a.val true m1
    else if (List.finRange 3).any (fun i => x.legs[i] == 2) then endCond F.axOvercurrent a.val m1 else m1

/-! ## Bootstrap supplies (R385) -/

/-- AX_BOOT_UVLO of a leg (R385): its high side is off while the condition lasts. -/
def bootUvlo (a : Fin 4) (leg : Fin 3) (m : Module) : Module :=
  if !m.dieRuns 8 then m
  else raise F.axBootUvlo a.val true (updActuator a (fun x => { x with bootLow := x.bootLow ||| 2 ^ leg.val }) m)

/-- BOOT_UVLO_RELEASE of a leg (R385, R400). -/
def bootRelease (a : Fin 4) (leg : Fin 3) (m : Module) : Module :=
  let m1 := updActuator a (fun x => { x with
    bootLow := if x.bootLow.testBit leg.val then x.bootLow - 2 ^ leg.val else x.bootLow }) m
  if (m1.actuators[a]).bootLow = 0 then endCond F.axBootUvlo a.val m1 else m1

/-! ## Position lost (R389) -/

/-- A condition of R389 is present on the actuator's port. -/
def Module.axLost (m : Module) (a : Fin 4) : Bool :=
  let p := axPort a
  m.enabled (.ax a) &&
  (m.portFault F.fbHallInvalid p || m.portFault F.fbLineBreak p || m.feedback[p].afterJump.isSome)

/-- AX_POSITION_LOST (R389): homed is cleared, the loop opens, the fault is raised. -/
def axPositionLost (a : Fin 4) (m : Module) : Module :=
  if !m.axLost a then m
  else raise F.axPositionLost a.val false (updActuator a (fun x => { abandonAx x with homed := false }) m)

/-- A cause of R389 appears at an event of a port: the condition of FB_HALL_INVALID, a break of a line in use, a Hall jump. -/
def lossAppears (p : Fin 6) (before m : Module) : Bool :=
  let stands (m : Module) : Bool :=
    m.faults.active.any (fun f => f.code == F.fbHallInvalid && f.detail == p.val && f.cond)
  let was := before.feedback[p]
  let f := m.feedback[p]
  (stands m && !stands before) ||
  (List.range 5).any (fun l => f.broken.testBit l && !was.broken.testBit l && m.lineUsed p l) ||
  (f.afterJump == some 0 && was.hall != f.hall)

/-- What an event at a feedback port does to the actuator that uses it: the position is lost whenever a cause of it appears.
DEDUCED, log entry 36. -/
def axAfterPort (p : Fin 6) (before m : Module) : Module :=
  match portActuator p with
  | some a => if lossAppears p before m then axPositionLost a m else m
  | none => m

/-- The clock of the last counted edge while homing (R390). -/
def noteHallEdge (p : Fin 6) (before m : Module) : Module :=
  match portActuator p with
  | some a =>
    if before.feedback[p].accumulator != m.feedback[p].accumulator then
      updActuator a (fun x => if x.move = 3 then { x with stepAt := m.time.elapsed } else x) m
    else m
  | none => m

/-! ## Homing (R388, R390) -/

/-- The supply of the dies of READY: no actuator is homed (R388). -/
def axSupplied (m : Module) : Module :=
  { m with actuators := m.actuators.map (fun x => { abandonAx x with homed := false, h0 := 0 }) }

/-- A cause of R389 is there now: a line in use reports a break, the Hall lines stand at 0 or 7 beyond the dwell. -/
def Module.axBlocked (m : Module) (a : Fin 4) : Bool :=
  m.lineBroken (axPort a) ||
  m.faults.active.any (fun f => f.code == F.fbHallInvalid && f.detail == (axPort a).val && f.cond)

/-- Entry to READY: mode 0 homes with H0 = 0 unless a cause of R389 is there (R388, R389). DEDUCED, log entry 36. -/
def axEnterReady (m : Module) : Module :=
  (List.finRange 4).foldl (fun m a =>
    if m.num (P.axHomeMode + 0x40 * a.val) == 0 && !m.axBlocked a then
      updActuator a (fun x => { x with homed := true, h0 := 0 }) m
    else m) m

/-- The region that serves the actuators (R54, R55). -/
def Module.axHome (m : Module) : Fin 8 := m.epochs.active.regionOf (.ax 0)

/-- What entry 0x081 finds takes effect: its region runs and its last commit was clean (R38, R118). DEDUCED, log entry 100. -/
def Module.movesRun (m : Module) (a : Fin 4) : Bool := m.actuators[a].clean && m.regionRuns m.axHome

/-- A result of entry 0x081, kept in the checkpoint of its region (R38, R39). -/
def moveResult (m : Module) : Module := keepCheckpoint m.axHome m

/-- HOMING_STALL (R390 step 2): no counted edge for AX_STALL_TIME; the loop then closes at the next boundary. -/
def homingStall (a : Fin 4) (m : Module) : Module :=
  let x := m.actuators[a]
  if !m.movesRun a || x.move != 3 || m.time.elapsed < x.stepAt + m.aus a P.axStallTime then m
  else moveResult (updActuator a (fun x => { x with
    h0 := m.hallCount a, homed := true, move := 0, u := 0, nextClosed := some true }) m)

/-! ## Timeouts and completion (R390, R394) -/

/-- A move stopped where it stands (R394 step 4): the reference stops at P, the loop holds, the gear is unknown. -/
def stopMove (a : Fin 4) (m : Module) : Module :=
  raise F.axMoveTimeout a.val false (updActuator a (fun x => { x with
    move := 0, gear := 15, settleSince := none, ref := F32.ofInt (m.axPosition a) }) m)

/-- AX_MOVE_TIMEOUT: of the torque wait, the move or the homing (R390 step 3, R394 steps 1, 4). -/
def axMoveTimeout (a : Fin 4) (m : Module) : Module :=
  let x := m.actuators[a]
  if !m.movesRun a then m
  else if x.move = 1 && x.moveAt + m.aus a P.axTorqueWait ≤ m.time.elapsed then
    moveResult (raise F.axMoveTimeout a.val false (updActuator a (fun x => { x with move := 0 }) m))
  else if x.move = 2 && x.stepAt + m.aus a P.axMoveTimeout ≤ m.time.elapsed then moveResult (stopMove a m)
  else if x.move = 3 && x.moveAt + m.aus a P.axMoveTimeout ≤ m.time.elapsed then
    moveResult (raise F.axMoveTimeout a.val false (updActuator a abandonAx m))
  else m

/-- MOVE_COMPLETE (R394 step 3). -/
def moveComplete (a : Fin 4) (m : Module) : Module :=
  let x := m.actuators[a]
  if m.movesRun a && x.move = 2 && lasted m.time.elapsed x.settleSince (m.aus a P.axSettle) then
    moveResult (updActuator a (fun x => { x with move := 0, gear := x.moveGear, clamp := false, settleSince := none }) m)
  else m

/-! ## The fabric entries (R391, R394) -/

/-- The channel an actuator is linked to (R394). -/
def Module.linked (m : Module) (a : Fin 4) : Option (Fin 2) :=
  match m.anum a P.axTorqueLink with
  | 1 => some 0 | 2 => some 1 | _ => none

/-- The park lock is to be engaged and its channel turns too fast (R393). -/
def Module.tooFastToPark (m : Module) (a : Fin 4) (gear : Nat) : Bool :=
  m.anum a P.axRole == 1 && gear == 1 &&
  (match m.linked a with
   | some c => lt (m.apar a P.axParkSpeedMax) (F32.abs m.traction[c].speedEst)
   | none => false)

/-- A clean commit of 0x080 for one actuator: the compensator (R391): `v` what its launch saw. -/
def axLoop (period : Nat) (v m : Module) (a : Fin 4) : Module :=
  let x := v.actuators[a]
  let d := v.anum a P.axDivider
  if !x.closed || !m.actuators[a].closed || d = 0 || period % d != 0 then m
  else
    let lim := v.apar a P.axVMax
    let (u, comp) := x.comp.step false (fun i => v.apar a (P.axB + i)) (sub x.ref (F32.ofInt (v.axPosition a)))
      (negate lim) lim
    updActuator a (fun x => { x with u := u, comp := comp }) m

/-- A clean commit of 0x080. -/
def commitAxLoops (period : Nat) (v m : Module) : Module := (List.finRange 4).foldl (axLoop period v) m

/-- A clean commit of 0x081 for one actuator: the steps of a move or a homing run (R390, R394): `v` what its launch saw. The
reference ramps for the time since the last ramp, at most a control period of the region, however many entries 0x081 it
holds (R398). DEDUCED, log entry 100. -/
def axMove (v m : Module) (a : Fin 4) : Module :=
  let x := v.actuators[a]
  let n := v.epochs.active.regionOf (.ax a)
  let ramped (y : Actuator) : Nat :=
    Nat.min (m.time.elapsed - Nat.max y.rampAt y.stepAt) (v.rnum n (P.regionPeriod + n.val))
  if x.move = 1 then
    let est := match v.linked a with
      | some c => F32.abs v.traction[c].torqueEst
      | none => 0
    if le est (v.apar a P.axShiftTorque) then
      updActuator a (fun x => { x with move := 2, stepAt := m.time.elapsed, ref := F32.ofInt (m.axPosition a) }) m
    else m
  else if x.move = 2 then
    if v.tooFastToPark a x.moveGear then stopMove a m
    else
      let target := (v.gearPos a x.moveGear).getD (v.axPosition a)
      let ok := (v.axPosition a - target).natAbs ≤ v.anum a P.axPosTol
      updActuator a (fun y => { y with
        ref := towards y.ref (F32.ofInt target) (mul (v.apar a P.axSpeedMax) (secs (ramped y))),
        rampAt := m.time.elapsed, settleSince := since m.time.elapsed ok y.settleSince }) m
  else if x.move = 3 then updActuator a (fun x => { x with u := v.apar a P.axHomeVoltage }) m
  else m

/-- A clean commit of 0x081: of the actuators whose step has not changed since the launch. -/
def commitAxMoves (v m : Module) : Module :=
  (List.finRange 4).foldl (fun m a => if (v.actuators[a]).move = (m.actuators[a]).move then axMove v m a else m)
    { m with actuators := m.actuators.map (fun x => { x with clean := true }) }

/-- A fallback of 0x081: what it found no longer takes effect (R38). -/
def fallbackAxMoves (m : Module) : Module := { m with actuators := m.actuators.map (fun x => { x with clean := false }) }

/-! ## Boundaries of the actuators' region -/

/-- The start of an accepted move (R394 step 1, step 2 without a link). -/
def startMove (a : Fin 4) (gear : Nat) (m : Module) : Module :=
  let link := (m.linked a).isSome
  moveResult <| updActuator a (fun x => { x with
    move := if link then 1 else 2, moveGear := gear, moveAt := m.time.elapsed, stepAt := m.time.elapsed,
    settleSince := none, clamp := x.clamp || link, nextMove := none, ref := F32.ofInt (m.axPosition a) }) m

/-- A loop change of an actuator taken at a boundary (R305, R390, R396). -/
def takeAxLoop (a : Fin 4) (m : Module) : Module :=
  let x := m.actuators[a]
  match x.nextClosed with
  | some true =>
    if x.homed then
      updActuator a (fun x => { x with closed := true, nextClosed := none, comp := Comp.zero, u := 0,
                                       ref := F32.ofInt (m.axPosition a) }) m
    else if m.anum a P.axHomeMode = 1 then
      updActuator a (fun x => { x with move := 3, nextClosed := none, moveAt := m.time.elapsed,
                                       stepAt := m.time.elapsed }) m
    else updActuator a (fun x => { x with nextClosed := none }) m
  | some false => updActuator a abandonAx m
  | none => m

/-- A timed move taken at a boundary (R393). -/
def takeAxMove (a : Fin 4) (m : Module) : Module :=
  match m.actuators[a].nextMove with
  | some g => startMove a g m
  | none => m

/-- What the actuators take at a boundary of their region. -/
def takeActuators (m : Module) : Module :=
  let changes := m.actuators.toList.any (fun x => x.nextClosed.isSome || x.nextMove.isSome)
  let m1 := (List.finRange 4).foldl (fun m a => takeAxMove a (takeAxLoop a m)) m
  if changes then keepCheckpoint (m.epochs.active.regionOf (.ax 0)) m1 else m1

/-! ## SHIFT_REQUEST and PARK_LOCK (R392, R393) -/

/-- The actuator and the target of a parameter word (R392). -/
def moveActuator (w : Word) : Fin 4 := ⟨bits w 4 3, by
  have : bits w 4 3 < 2 ^ (4 + 1 - 3) := Nat.mod_lt _ (by decide)
  exact this⟩
def moveTarget (w : Word) : Nat := bits w 2 0

/-- The state-dependent rows of R393. -/
def moveChecks (park : Bool) (w : Word) (m : Module) : Check :=
  let a := moveActuator w
  let g := moveTarget w
  let x := m.actuators[a]
  firstFail
    [failIf (m.gearPos a g).isNone .outOfRange,
     failIf (m.patterned (.ax a)) .safePatternActive,
     checkAdmitted m,
     failIf (x.move != 0 || x.nextMove.isSome) .busy,
     failIf (m.leavingRun || !m.driven || !m.enabled (.ax a) || !x.closed || !x.homed ||
       m.anum a P.axRole != (if park then 1 else 0) || (park && m.tooFastToPark a g)) .stateForbids]

/-- The opcode of a move. -/
def moveOpcode (park : Bool) : Nat := if park then 0x49 else 0x48

/-- SHIFT_REQUEST and PARK_LOCK (R392 … R394). -/
def moveRequest (park : Bool) (h : Hdr) (ws : List Word) (m : Module) : Verdict :=
  let op := moveOpcode park
  let w := (ownWords h ws).getD 0 0
  unlessFails (firstFail
    [checkLockstep op m,
     checkLength h ws (· == 1),
     checkEncoding h .optional (bits w 31 5 == 0 && (!park || moveTarget w ≤ 1)),
     checkRelayed op h m,
     moveChecks park w m,
     checkInstant h ws m])
    (nowOrTimed op h ws m (startMove (moveActuator w) (moveTarget w)))

/-- LOOP_CLOSE of an actuator's loop: the status of R390. -/
def axCloseCheck (a : Fin 4) (m : Module) : Option Status :=
  if m.patterned (.ax a) then some .safePatternActive
  else if !m.driven || !m.enabled (.ax a) then some .stateForbids
  else none

end Sys2Proof.Machine
end

