-- ==== Sys2Proof/Machine/Afe.lean ====
section
/-!
DEFINITION. The analog front ends: triggers and the result queue (R404 … R411), the sample ring into the fabric, slices and
calibration (R412 … R416), open-wire detection (R417), sigma-delta inputs and detectors (R418 … R421), comparators
(R422 … R430), twin tests (R431, R432).
-/

namespace Sys2Proof.Machine

open F32 (div lt)

/-- The die of an AFE: AFE0 is die 4, AFE1 die 5. -/
def afeDie (a : Fin 2) : Fin 46 := if a.val = 0 then 4 else 5

/-- An AFE works: supplied and out of reset. -/
def Module.afeRuns (m : Module) (a : Fin 2) : Bool := m.dieRuns (afeDie a)

/-- A parameter of an AFE in the ACTIVE epoch. -/
def Module.fpa (m : Module) (a : Fin 2) (id : Nat) : Nat := m.num (id + 0x400 * a.val)

/-- A detail of the AFE (R439). -/
def afeDetail (a : Fin 2) (x : Nat) : Nat := a.val * 2 ^ 15 + x

/-! ## Triggers (R405 … R407) -/

/-- OWNER and SD_MASK, DEST of a control word (R407). -/
def ctrlOwner (w : Nat) : Fin 8 := ⟨w / 2 ^ 6 % 8, Nat.mod_lt _ (by decide)⟩
def ctrlDest (w : Nat) : Nat := w / 2 ^ 4 % 4
def ctrlMask (w : Nat) : Nat := w % 2 ^ 4

/-- The image a trigger runs: that of its OWNER region (R433). -/
def Module.trigImage (m : Module) (a : Fin 2) (t : Nat) : Image :=
  m.regionImage (ctrlOwner (m.epochs.active.trig P.afeTrigCtrl a.val t))

/-- Trigger `t` fires at this count (R405). -/
def Module.trigDue (m : Module) (a : Fin 2) (t : Nat) : Bool :=
  let img := m.trigImage a t
  let p := img.trig P.afeTrigPeriod a.val t
  let ph := img.trig P.afeTrigPhase a.val t
  let now := m.time.count.toNat
  m.time.valid && p != 0 && ph ≤ now && (now - ph) % p == 0

/-- A queue word without its sample's own flags: code, trigger, the flags OPEN_WIRE, OVER_RANGE, SPARE_ORIGIN, STALE and
the sample (R404). -/
def queueWord (code t : Nat) (open_ beyond spare stale : Bool) (s : Nat) : Word :=
  pack [(code, 26), (t, 20), (flag open_, 19), (flag beyond, 18), (flag spare, 17), (flag stale, 16), (s % 2 ^ 16, 0)]

/-- The words of a feedback capture in the queue (R265). -/
def Module.captureEntries (m : Module) (t : Nat) (p : Fin 6) : List Word :=
  (m.captureWords p).map (fun c => pack [(c.1, 26), (t, 20), (m.captureFlags p, 16), (c.2, 0)])

/-- The AFE of a feedback port (R264). -/
def portAfe (p : Fin 6) : Fin 2 := if p.val = 1 ∨ 4 ≤ p.val then 1 else 0

/-- The ports captured by a trigger of an AFE, in the order of their codes (R264, R265). -/
def Module.capturedPorts (m : Module) (a : Fin 2) (t : Nat) : List (Fin 6) :=
  (List.finRange 6).filter (fun p => portAfe p == a && m.dieRuns 7 && m.fnum p P.fbCaptureTrigger == t)

/-- A trigger fired on this tick has captured the port. -/
def Module.capturedNow (m : Module) (p : Fin 6) : Bool :=
  (m.afe[portAfe p]).fired.any (fun x => x.at_ == m.time.count && x.trigger == m.fnum p P.fbCaptureTrigger)

/-- The words of a trigger with a port's words replaced, code for code. -/
def replaceWords (new ws : List Word) : List Word :=
  ws.map (fun w => (new.find? (fun n => bits n 31 26 == bits w 31 26)).getD w)

/-- A port captured on this tick is captured as it now stands. -/
def recapture (p : Fin 6) (m : Module) : Module :=
  let new := m.captureEntries (m.fnum p P.fbCaptureTrigger) p
  capture p (updAfe (portAfe p) (fun f => { f with fired := f.fired.map (fun x =>
    if x.at_ == m.time.count && x.trigger == m.fnum p P.fbCaptureTrigger then { x with words := replaceWords new x.words }
    else x) }) m)

/-- The ports that an epoch changes at a boundary and a trigger of that tick has captured already are captured as they begin
anew: the capture at the boundary is the first from the unacquired port (R285). -/
def recaptureChanged (n : Fin 8) (old new : Image) (m : Module) : Module :=
  ((List.finRange 6).filter (fun p => new.portRegion p == n && portChanged old new p && m.capturedNow p)).foldl
    (fun m p => recapture p m) m

/-- An event of a port, which a capture of the same tick takes in (R264, R285). -/
def withCapture (p : Fin 6) (f : Module → Module) (m : Module) : Module :=
  if m.capturedNow p then
    recapture p (f (updFeedback p (fun x => { x with
      edgesSinceCapture := x.capEdges, overRange := x.capOver, ssiFresh := x.capFresh }) m))
  else f m

/-- The tick ends at every port: what its edges, its index and its SSI word come to together (R285). -/
def settleTick (m : Module) : Module :=
  (List.finRange 6).foldl (fun m p => if m.feedback[p].waits then withCapture p (settlePort p) m else m) m

/-- OPEN_WIRE of an input's word (R417). -/
def openWireOf (mode level : Nat) (s : Int) : Bool :=
  if mode = 1 ∨ mode = 3 then (level : Int) ≤ s
  else if mode = 2 ∨ mode = 4 then s ≤ -(level : Int)
  else false

/-- The slice that holds a position. -/
def Afe.sliceAt (f : Afe) (pos : Nat) : Option (Fin 20) :=
  (List.finRange 20).find? (fun i => f.slices[i].position == some pos && !f.slices[i].failed)

/-- The positions that convert nothing at a clock, lowest first: a trigger's conversions take them in this order, each for
40 ticks (R405, R408, R413). DESIGN CHOICE, log entry 102. -/
def Afe.freePositions (f : Afe) (now : Nat) : List Nat :=
  (List.finRange 18).filterMap (fun k => if f.busyTo[k] ≤ now then some k.val else none)

/-- The word of the SAR input `c` converted at position `k`, from the raw result `r` of its slice under the slice's own
correction; a position without a slice repeats the input's last word with STALE (R404, R412, R413, R415, R417). -/
def sarWord (m : Module) (a : Fin 2) (t k : Nat) (c : Fin 32) (r : BitVec 16) : Word × Afe → Word × Afe := fun x =>
  let f := x.2
  let mode := m.fpa a (P.afeInOpenwire + c.val)
  match f.sliceAt k with
  | none =>
    let w := f.last[c]
    (queueWord c.val t (bit w 19) (bit w 18) (bit w 17) true (bits w 15 0), f)
  | some i =>
    let sl := f.slices[i]
    let v := corrected sl.gain sl.offset r
    let s := (v.1 % 2 ^ 16).toNat
    let first := sl.rotated && !sl.seen.testBit c.val
    let ow := openWireOf mode (m.fpa a P.afeOwLevel) (sext 16 s)
    let w := queueWord c.val t ow v.2 first false s
    (w,
     { f with last := f.last.set c.val w c.isLt,
              busyTo := Vector.ofFn (fun n => if n.val = k then m.time.elapsed + 40 else f.busyTo[n]),
              slices := Vector.upd f.slices i (fun sl => { sl with seen := sl.seen ||| 2 ^ c.val }) })

/-- The consecutive open-wire words of an input counted, with AFE_OPEN_WIRE (R417). -/
def noteOpenWire (a : Fin 2) (c : Fin 32) (w : Word) (m : Module) : Module :=
  let n := if bit w 19 then m.afe[a].openWire[c] + 1 else 0
  let m1 := updAfe a (fun f => { f with openWire := f.openWire.set c.val n c.isLt }) m
  if n = 0 then endCond F.afeOpenWire (afeDetail a c.val) m1
  else if m.fpa a P.afeOwCount ≤ n then raise F.afeOpenWire (afeDetail a c.val) true m1
  else m1

/-- The SAR words of a trigger, by ascending input, each at its position. DEDUCED, log entry 37. -/
def sarWords (a : Fin 2) (t : Nat) : List (Nat × Fin 32) → List (BitVec 16) → Module → List Word × Module
  | [], _, m => ([], m)
  | (k, c) :: cs, vs, m =>
    let (w, f) := sarWord m a t k c (vs.headD 0) (0, m.afe[a])
    let m1 := noteOpenWire a c w (updAfe a (fun _ => f) m)
    let (ws, m2) := sarWords a t cs (vs.drop 1) m1
    (w :: ws, m2)

/-- The phase-voltage words of a trigger from the voltages in 1/16 V, over range outside −10 V … 1,100 V (R366); they reach the
AFE from the GDC, over the capture link. -/
def Module.voltageWords (m : Module) (a : Fin 2) (t : Nat) (pv : List (BitVec 16)) : List Word :=
  if m.rnum ⟨a.val, by omega⟩ (P.gdPvTrigger + 0x40 * a.val) != t || !m.atLeastReady || !m.dieRuns 7 then []
  else (List.finRange 3).map (fun k =>
    let v := pv.getD k.val 0
    let i : Fin 36 := ⟨6 * a.val + 2 * k.val + 1, by omega⟩
    queueWord (40 + k.val) t (m.islands[i].linkDown || m.islands[i].statusDown) (decide (v.toInt < -160) || decide (17600 < v.toInt)) false false
      v.toNat)

/-- The sinc3 words of a trigger from the windows of modulator bits centred on it (R402, R419, R420). -/
def Module.sdWords (m : Module) (a : Fin 2) (t mask : Nat) (sd : List Nat) : List Word :=
  (indexed (setBits 4 mask)).map (fun p =>
    let v := sdWord ((m.trigImage a t).num (P.afeSdOsr + p.2 + 0x400 * a.val)) (sd.getD p.1 0)
    queueWord (32 + p.2) t (m.afe[a].sdLost.testBit p.2) v.2 false false (v.1 % 2 ^ 16).toNat)

/-- AFE_TRIGGER (R405): the words of trigger `t` in the order of R406, waiting for their entry tick. -/
def fireTrigger (a : Fin 2) (t : Fin 64) (sar pv : List (BitVec 16)) (sd : List Nat) (m : Module) : Module :=
  if !m.afeRuns a || !m.trigDue a t.val then m
  else
    let img := m.trigImage a t.val
    let ctrl := img.trig P.afeTrigCtrl a.val t.val
    let ports := m.capturedPorts a t.val
    let captured := ports.flatMap (m.captureEntries t.val)
    let m1 := ports.foldl (fun m p => capture p m) m
    let ins := (List.finRange 32).filter (fun c => (img.trig P.afeTrigInputs a.val t.val).testBit c.val)
    let free := (m1.afe[a]).freePositions m1.time.elapsed
    let (sarWs, m2) := sarWords a t.val ((indexed ins).map (fun x => (free.getD x.1 18, x.2))) sar m1
    let words := captured ++ m.voltageWords a t.val pv ++ sarWs ++ m2.sdWords a t.val (ctrlMask ctrl) sd
    updAfe a (fun f => { f with fired := f.fired ++
      [{ trigger := t.val, at_ := m.time.count, latency := img.trig P.afeTrigLatency a.val t.val,
         dest := ctrlDest ctrl, words := words }] }) m2

/-! ## The queue (R406, R411) -/

/-- Entries of a result queue. -/
def queueSize : Nat := 1024

/-- A fired trigger's words enter at this count. -/
def Fired.due (f : Fired) (now : Tick) : Bool := now == f.at_ + BitVec.ofNat 64 f.latency

/-- A fired trigger placed among others of ascending trigger index. -/
def placeFired (f : Fired) : List Fired → List Fired
  | [] => [f]
  | g :: gs => if f.trigger ≤ g.trigger then f :: g :: gs else g :: placeFired f gs

/-- Fired triggers by ascending trigger index. -/
def byTrigger (fs : List Fired) : List Fired := fs.foldr placeFired []

/-- QUEUE_ENTRY: the words of every trigger whose entry tick this is (R406); the oldest entries make room (R411). -/
def queueEntry (a : Fin 2) (m : Module) : Module :=
  let f := m.afe[a]
  let due := byTrigger (f.fired.filter (fun x => x.due m.time.count))
  if !m.afeRuns a || due.isEmpty then m
  else
    let new : List QueueEntry := due.flatMap (fun x =>
      x.words.map (fun w => { word := w, cf0 := x.dest % 2 == 1, cf1 := x.dest / 2 % 2 == 1 }))
    let all := f.queue ++ new
    let surplus := all.length - queueSize
    let m1 := updAfe a (fun f => { f with
      queue := all.drop surplus, discarded := satAdd 0xFFFFFFFF f.discarded surplus,
      fired := f.fired.filter (fun x => !x.due m.time.count) }) m
    if surplus = 0 then m1 else raise F.afeQueueDiscard (afeDetail a 0) false m1

/-- An entry a fabric die has still to take. -/
def QueueEntry.pendingFor (e : QueueEntry) (d : Fin 2) : Bool := if d.val = 0 then e.cf0 else e.cf1

/-- The queue with the oldest entry pending for a die taken by it; an entry every die has taken is freed (R411). -/
def takeEntry (d : Fin 2) : List QueueEntry → List QueueEntry
  | [] => []
  | e :: es =>
    if e.pendingFor d then
      let e1 := if d.val = 0 then { e with cf0 := false } else { e with cf1 := false }
      if e1.cf0 || e1.cf1 then e1 :: es else es
    else e :: takeEntry d es

/-- With CV_ENABLE 0 the supervisor watches the link on the VS1 sample during precharge (R311). -/
def watchLink (d : Fin 2) (code : Nat) (m : Module) : Module :=
  if d.val = 0 ∧ code = 1 ∧ m.converter.precharge ≠ 0 ∧ !m.enabled .cv then
    { m with converter := { m.converter with withinSince := since m.time.elapsed m.withinTol m.converter.withinSince } }
  else m

/-- The crossing of an AFE's sample ring to a fabric die (R90). -/
def ringCrossing (a d : Fin 2) : Fin 22 := ⟨6 + 2 * a.val + d.val, by omega⟩

/-- SAMPLE_WORD_ARRIVAL: the oldest word an AFE holds for a fabric die crosses on a free lane into its regions (R79, R88,
R406). -/
def sampleWordArrival (a : Fin 2) (d : Fin 2) (m : Module) : Module :=
  let die : Fin 46 := if d.val = 0 then 2 else 3
  match m.afe[a].queue.find? (fun e => e.pendingFor d) with
  | none => m
  | some e =>
    match sendOn m.time.elapsed 1 (m.crossings[ringCrossing a d]).lanes with
    | none => m
    | some lanes =>
      if !m.afeRuns a || !m.dieRuns die then m
      else
        let m1 := updCrossing (ringCrossing a d) (fun c => { c with lanes := lanes })
          (updAfe a (fun f => { f with queue := takeEntry d f.queue }) m)
        let code := 256 * a.val + bits e.word 31 26
        let key := 512 * bits e.word 25 20 + code
        let m2 := watchLink d code (((List.finRange 8).filter (fun n => regionDie n == die)).foldl
          (fun m n => noteSample n key (sampleArrives n key e.word m)) m1)
        if d.val = 0 then noteLink code m2 else m2

/-! ## Slices (R412 … R416) -/

/-- Healthy slices and healthy spares (R437). -/
def Afe.healthy (f : Afe) : Nat := (f.slices.toList.filter (fun s => !s.failed)).length
def Afe.spares (f : Afe) : Nat := (f.slices.toList.filter (fun s => !s.failed && s.position.isNone)).length

/-- The slice among some with the largest, the smallest calibration time. -/
def Afe.pick (f : Afe) (p : Slice → Bool) (later : Bool) : Option (Fin 20) :=
  ((List.finRange 20).filter (fun i => p f.slices[i])).foldl (fun best i =>
    match best with
    | none => some i
    | some b =>
      let x := f.slices[i].calibratedAt
      let y := f.slices[b].calibratedAt
      if (if later then decide (y < x) else decide (x < y)) then some i else some b) none

/-- The conversions that start at this count, their trigger not yet fired, or within the next 8 ticks (R405, R413). -/
def Module.startsSoon (m : Module) (a : Fin 2) : Nat :=
  ((List.range 64).map (fun t =>
    let img := m.trigImage a t
    let p := img.trig P.afeTrigPeriod a.val t
    let ph := img.trig P.afeTrigPhase a.val t
    let now := m.time.count.toNat
    let wait := if now ≤ ph then ph - now else (p - (now - ph) % p) % p
    let fired := wait == 0 && (m.afe[a]).fired.any (fun x => x.trigger == t && x.at_ == m.time.count)
    if p == 0 || 8 < wait || fired then 0 else popcount 32 (img.trig P.afeTrigInputs a.val t))).sum

/-- A position has had no conversion for 80 ticks and none starts there within the next 8 (R413 step 2). DESIGN CHOICE, log
entry 102. -/
def Module.positionIdle (m : Module) (a : Fin 2) (pos : Fin 18) : Bool :=
  (m.afe[a]).busyTo[pos] + 80 ≤ m.time.elapsed &&
  m.startsSoon a ≤ (((m.afe[a]).freePositions m.time.elapsed).filter (· < pos.val)).length

/-- SLICE_ROTATION (R413): the spare calibrated last takes the position whose slice went longest without; its own slice
becomes a spare and is calibrated. Not while fewer than 19 slices are healthy (R415). -/
def sliceRotation (a : Fin 2) (m : Module) : Module :=
  let f := m.afe[a]
  let due := f.sweep || f.rotatedAt + F32.usTicks (m.par (P.afeRotateInterval + 0x400 * a.val)) ≤ m.time.elapsed
  if !m.afeRuns a || !due || f.healthy < 19 then m
  else
    let want (s : Slice) : Bool := s.position.isSome && !s.failed && (!f.sweep || s.sweepDue)
    match f.pick (fun s => !s.failed && s.position.isNone && !s.calibrating) true, f.pick want false with
    | some i, some o =>
      let pos := f.slices[o].position
      if !m.positionIdle a ⟨pos.getD 0 % 18, Nat.mod_lt _ (by decide)⟩ then m
      else updAfe a (fun f => { f with
        rotatedAt := m.time.elapsed,
        slices := Vector.upd (Vector.upd f.slices o (fun s => { s with position := none, calibrating := true, rotated := false }))
          i (fun s => { s with position := pos, seen := 0, rotated := true }) }) m
    | _, _ => m

/-- Every healthy slice has been calibrated once: the sweep is over (R416). -/
def endSweep (f : Afe) : Afe :=
  if f.sweep && !f.slices.toList.any (fun s => !s.failed && s.sweepDue) then { f with sweep := false } else f

/-- What a calibration measured lets a slice serve: gain within 1 %, offset within 64 LSB, integral nonlinearity within 8 LSB
(R414). -/
def sliceGood (gain offset inl : Word) : Bool :=
  let g := F32.rat gain - 1
  let o := F32.rat offset
  let n := F32.rat inl
  let hundredth : Rat := mkRat 1 100
  !F32.nonFinite gain && !F32.nonFinite offset && !F32.nonFinite inl &&
  decide (-hundredth ≤ g ∧ g ≤ hundredth ∧ -64 ≤ o ∧ o ≤ 64 ∧ -8 ≤ n ∧ n ≤ 8)

/-- SLICE_CALIBRATION_DONE of a spare with the correction measured and its integral nonlinearity (R412, R414, R415). -/
def sliceCalibrated (a : Fin 2) (i : Fin 20) (gain offset inl : Word) (m : Module) : Module :=
  let s := m.afe[a].slices[i]
  let ok := sliceGood gain offset inl
  if !m.afeRuns a || !s.calibrating || s.failed then m
  else if ok then
    updAfe a (fun f => endSweep { f with slices := Vector.upd f.slices i (fun s =>
      { s with calibrating := false, calibratedAt := m.time.elapsed, sweepDue := false, gain := gain, offset := offset }) }) m
  else
    let m1 := updAfe a (fun f => endSweep { f with slices := Vector.upd f.slices i (fun s =>
      { s with calibrating := false, failed := true, sweepDue := false }) }) m
    let h := (m1.afe[a]).healthy
    let code := if h ≤ 17 then F.afeSliceLost else if h = 18 then F.afeNoSpare else F.afeSliceFail
    raise code (afeDetail a i.val) false m1

/-- The supervisor's writes for a CALIBRATE are applied: a sweep begins (R86, R416). -/
def startSweep (a : Fin 2) (m : Module) : Module :=
  updAfe a (fun f => endSweep { f with
    sweep := true,
    slices := f.slices.map (fun s => { s with
      sweepDue := !s.failed && 19 ≤ f.healthy, calibrating := s.calibrating || (!s.failed && s.position.isNone) }) }) m

/-- CALIBRATE (R86, R416). DEDUCED, log entry 35. -/
def calibrate (h : Hdr) (ws : List Word) (m : Module) : Verdict :=
  let w := ws.getD 0 0
  let a : Fin 2 := ⟨w.toNat % 2, Nat.mod_lt _ (by decide)⟩
  unlessFails (firstFail
    [prelude 0x72 h ws (· == 1) .never (bits w 31 1 == 0) m,
     failIf (!m.atLeastReady) .stateForbids,
     failIf (m.afe[a].sweep || m.writesOut (4 + a.val) 0x72) .busy,
     failIf (!m.afeRuns a) .domainStopped])
    (.waits (holdWrites (if a.val = 0 then 0 else 2) (waitingFor 0x72 h 1 (4 + a.val) m) m))

/-! ## Sigma-delta inputs (R420, R421) -/

/-- The image whose thresholds a comparator, a detector of an AFE uses: that of the region of the function served (R433). -/
def Module.cmpImage (m : Module) (a : Fin 2) : Image := m.regionImage (if a.val = 0 then 2 else 3)
def Module.sdImage (m : Module) (a : Fin 2) (i : Nat) : Image := m.regionImage (if 3 ≤ i then 2 else ⟨a.val, by omega⟩)

/-- The detectors of a sigma-delta input are on: AFE_SD_TRIP_i is not 0 (R421, R433). -/
def Module.sdOn (m : Module) (a : Fin 2) (i : Nat) : Bool := (m.sdImage a i).num (P.afeSdTrip + i + 0x400 * a.val) != 0

/-- AFE_SD_LOST: a data bit constant for 64 clock periods; the detector pair reads tripped (R420). -/
def sdLost (a : Fin 2) (i : Fin 4) (m : Module) : Module :=
  if !m.afeRuns a then m
  else
    let m1 := updAfe a (fun f => { f with
      sdLost := f.sdLost ||| 2 ^ i.val,
      detectors := Vector.ofFn (fun k => if k.val / 2 = i.val && m.sdOn a i.val then { f.detectors[k] with decision := 2 }
                                         else f.detectors[k]) }) m
    if (m.sdFuncs a.val i.val).any m.enabled then raise F.afeSdLost (afeDetail a i.val) true m1 else m1

/-- SD_MODULATOR_RECOVERY (R420). -/
def sdRecovered (a : Fin 2) (i : Fin 4) (m : Module) : Module :=
  endCond F.afeSdLost (afeDetail a i.val) (updAfe a (fun f => { f with
    sdLost := if f.sdLost.testBit i.val then f.sdLost - 2 ^ i.val else f.sdLost }) m)

/-- n = 400,000,000 / AFE_SD_CLOCK (R418). -/
def Image.sdDiv (img : Image) (a : Nat) : Nat :=
  (F32.toInt (div (F32.ofNat 400000000) (img.val (P.afeSdClock + 0x400 * a)))).toNat

/-- The ticks between the decisions of a comparator, of a detector of input `i` (R418, R421, R422). -/
def Module.samplePeriod (m : Module) (a : Fin 2) (detector : Bool) (i : Nat) : Nat :=
  if detector then (m.sdImage a i).sdDiv a.val else (m.cmpImage a).num (P.afeCmpDiv + 0x400 * a.val)

/-- The count is a sample tick of a comparator, a modulator edge of a detector (R67, R418, R422). -/
def Module.sampleTick (m : Module) (a : Fin 2) (detector : Bool) (i : Nat) : Bool :=
  let n := m.samplePeriod a detector i
  n != 0 && m.time.count.toNat % n == 0

/-- A member drives the protection path: active, or the tested twin in its ORed window (R431 step 3). -/
def Module.drives (m : Module) (a : Fin 2) (detector : Bool) (k : Nat) (s : Member) : Bool :=
  s.active || m.afe[a].test.any (fun t => t.detector == detector && t.index == k && t.opened)

/-- A detector changed. -/
def updDetector (a : Fin 2) (k : Fin 8) (g : Member → Member) (m : Module) : Module :=
  updAfe a (fun f => { f with detectors := Vector.upd f.detectors k g }) m

/-- A comparator changed. -/
def updComparator (a : Fin 2) (k : Fin 32) (g : Member → Member) (m : Module) : Module :=
  updAfe a (fun f => { f with comparators := Vector.upd f.comparators k g }) m

/-- The sum z of the last 15 bits of a modulator trips, releases the detectors of its input (R421). -/
def Module.sdTrips (m : Module) (a : Fin 2) (i window : Nat) : Bool :=
  m.sampleTick a true i && detectorTrips ((m.sdImage a i).sdLevels a.val i) (sinc2 window)
def Module.sdReleases (m : Module) (a : Fin 2) (i window : Nat) : Bool :=
  m.sampleTick a true i &&
  detectorReleases ((m.sdImage a i).sdLevels a.val i) ((m.sdImage a i).num (P.afeSdHyst + 0x400 * a.val)) (sinc2 window)

/-- A trip of a member that drives the path: the GDC sets the pattern and reports it to the supervisor, which raises the
fault (R430). -/
def reportTrip (f : Nat × Nat) (m : Module) : Module := noteEvent 5 (raise f.1 f.2 true m)

/-- SD_DETECTOR_TRIP on the last 15 bits: the pattern of the function and the fault come from a member that drives the path
(R421, R430), which is reported over crossing 5. -/
def detectorTrip (a : Fin 2) (k : Fin 8) (window : Nat) (m : Module) : Module :=
  let s := m.afe[a].detectors[k]
  let i := k.val / 2
  if !m.afeRuns a || !m.sdOn a i || s.underTest || s.decision = 2 || !m.sdTrips a i window then m
  else
    let m1 := updDetector a k (fun s => { s with decision := 2 }) m
    if m.drives a true k.val s then reportTrip (F.afeSdOvercurrent, afeDetail a i) m1 else m1

/-! ## Protection comparators (R424, R428, R430) -/

/-- The fault of a protection comparator with its detail (R430). -/
def comparatorFault (a : Fin 2) (k : Nat) : Nat × Nat :=
  if a.val = 0 then (if k < 2 then (F.dclOv2, 0) else (F.cvLegOvercurrent, (k - 2) / 4))
  else if k < 2 then (F.cgBusOvervoltage, 0)
  else if k < 14 then (F.cgPfcOvercurrent, (k - 2) / 4)
  else (F.cgDabOvercurrent, 0)

/-- The last samples of a protection comparator, newest first and in DAC codes, make a trip or a release decision at this
count (R422, R423, R424). -/
def Module.cmpDecides (m : Module) (a : Fin 2) (k : Nat) (trip : Bool) (levels : List Word) : Bool :=
  let img := m.cmpImage a
  let t := img.threshold a.val k
  m.sampleTick a false 0 &&
  allLast (img.num (P.afeCmpFilter + 0x400 * a.val)) levels (if trip then t.beyond else t.clear)

/-- PROTECTION_COMPARATOR_TRIP (R422, R428, R430). -/
def comparatorTrip (a : Fin 2) (k : Fin 32) (levels : List Word) (m : Module) : Module :=
  let s := m.afe[a].comparators[k]
  if !m.afeRuns a || cmpRole a.val k.val != 1 || s.underTest || s.decision = 2 || !m.cmpDecides a k.val true levels then m
  else
    let m1 := updComparator a k (fun s => { s with decision := 2 }) m
    if m.drives a false k.val s then reportTrip (comparatorFault a k.val) m1 else m1

/-- Some driving comparator with the same fault still reads tripped. -/
def Module.faultStands (m : Module) (a : Fin 2) (f : Nat × Nat) : Bool :=
  (List.finRange 32).any (fun k => cmpRole a.val k.val == 1 && comparatorFault a k.val == f &&
    m.drives a false k.val m.afe[a].comparators[k] && m.afe[a].comparators[k].decision == 2)

/-- A driving detector of an input still reads tripped. -/
def Module.detectorStands (m : Module) (a : Fin 2) (i : Nat) : Bool :=
  (List.finRange 8).any (fun k => k.val / 2 == i && m.drives a true k.val m.afe[a].detectors[k] &&
    m.afe[a].detectors[k].decision == 2)

/-- The condition of a comparator's, a detector's fault ends with the last driving member that trips. -/
def settleTrip (a : Fin 2) (detector : Bool) (k : Nat) (m : Module) : Module :=
  if detector then
    (if m.detectorStands a (k / 2) then m else endCond F.afeSdOvercurrent (afeDetail a (k / 2)) m)
  else if cmpRole a.val k != 1 || m.faultStands a (comparatorFault a k) then m
  else endCond (comparatorFault a k).1 (comparatorFault a k).2 m

/-- The last samples of a regulation comparator, newest first and in DAC codes, lie below its ramp, its hysteresis being
none: as many as a decision takes, or one where it has made none since its AFE left reset; samples during CV_BLANK
are ignored (R422, R425, R426, R428). -/
def Module.diBelow (m : Module) (j : Nat) (levels : List Word) : Bool :=
  let img := m.regionImage 2
  let l := m.converter.legs.toList.getD j Leg.init
  let now := m.time.count.toNat
  let div := img.num P.afeCmpDiv
  let start := l.onSince + 52
  let first := (m.afe[0].comparators.toList.getD (18 + j) (Member.init false)).decision == 0
  let n := if first then 1 else img.num P.afeCmpFilter
  m.sampleTick 0 false 0 && n ≤ levels.length &&
  (List.range n).all (fun i => start + img.num P.cvBlank + i * div ≤ now &&
    lt (levels.getD i 0) (F32.ofNat (rampCode (img.dacCode 0 (3 + j) l.ipk) (img.rampStep j l.slope) (now - i * div - start))))

/-- COMPARATOR_RELEASE of a comparator (R422). -/
def comparatorRelease (a : Fin 2) (k : Fin 32) (levels : List Word) (m : Module) : Module :=
  let s := m.afe[a].comparators[k]
  let role := cmpRole a.val k.val
  if !m.afeRuns a || role == 0 || s.underTest ||
      !(if role == 2 then m.diBelow (k.val - 18) levels else m.cmpDecides a k.val false levels) then m
  else settleTrip a false k.val (updComparator a k (fun s => { s with decision := 1 }) m)

/-- COMPARATOR_RELEASE of a detector on the last 15 bits (R421); the pair of a lost modulator reads tripped (R420). -/
def detectorRelease (a : Fin 2) (k : Fin 8) (window : Nat) (m : Module) : Module :=
  let s := m.afe[a].detectors[k]
  if !m.afeRuns a || !m.sdOn a (k.val / 2) || s.underTest || (m.afe[a]).sdLost.testBit (k.val / 2) ||
      !m.sdReleases a (k.val / 2) window then m
  else settleTrip a true k.val (updDetector a k (fun s => { s with decision := 1 }) m)

/-- The functions a protection comparator serves (R248, R300). -/
def comparatorFuncs (a : Fin 2) (k : Nat) : List Func :=
  if a.val = 0 then (if k < 2 then [.ta, .tb, .cv, .cg] else [.cv]) else [.cg]

/-- Some protection comparator or detector of an enabled function reads UNRESOLVED or tripped (R429). -/
def Module.protectionBlocks (m : Module) : Bool :=
  (List.finRange 2).any (fun a =>
    (List.finRange 32).any (fun k => cmpRole a.val k.val == 1 && (comparatorFuncs a k.val).any m.enabled &&
      m.afe[a].comparators[k].decision != 1) ||
    (List.finRange 8).any (fun k => m.sdOn a (k.val / 2) && (m.sdFuncs a.val (k.val / 2)).any m.enabled &&
      m.afe[a].detectors[k].decision != 1))

/-! ## Twin tests (R431, R432) -/

/-- The other member of a pair. -/
def twinOf (k : Nat) : Nat := if k % 2 = 0 then k + 1 else k - 1

/-- The member a self-test of comparator `k` tests: the idle one of its pair, or the regulation comparator itself. -/
def Module.idleComparator (m : Module) (a : Fin 2) (k : Fin 32) : Option Nat :=
  match cmpRole a.val k.val with
  | 1 =>
    let i := if m.afe[a].comparators[k].active then twinOf k.val else k.val
    if (m.afe[a].comparators.toList.getD i (Member.init false)).failed then none else some i
  | 2 => if m.label == .ready || !m.enabled .cv then some k.val else none
  | _ => none

/-- The idle detector of an input. -/
def Module.idleDetector (m : Module) (a : Fin 2) (i : Fin 4) : Option Nat :=
  if !m.sdOn a i.val then none
  else
    let k := if (m.afe[a].detectors.toList.getD (2 * i.val) (Member.init false)).active then 2 * i.val + 1 else 2 * i.val
    if (m.afe[a].detectors.toList.getD k (Member.init false)).failed then none else some k

/-- The number a waiting SELFTEST of a pair carries. -/
def twinTarget (a : Fin 2) (detector : Bool) : Nat := 100 + 2 * a.val + flag detector

/-- An AFE tests a member, or the writes for a test are on their way to it (R86). -/
def Module.twinBusy (m : Module) (a : Fin 2) : Bool :=
  m.afe[a].test.isSome ||
  m.interp.waiting.any (fun w => w.heldUntil.isSome && w.opcode == 0x71 && 100 ≤ w.target && (w.target - 100) / 2 == a.val)

/-- What step 2 feeds the member `k`, each with the bit of R432's word it is for: threshold + (hysteresis + 4) codes, the
band, threshold − (hysteresis + 4), turned round for a comparator that trips low; for a detector the same about m⁺ and
m⁻ in sums z (R431, R432). DEDUCED, log entry 35. -/
def Module.testSteps (m : Module) (a : Fin 2) (detector : Bool) (k : Nat) : List (Int × Nat) :=
  if detector then
    let z := (m.sdImage a (k / 2)).sdLevels a.val (k / 2)
    let h : Int := (m.sdImage a (k / 2)).num (P.afeSdHyst + 0x400 * a.val)
    [(z.1 + 2, 2), (z.1 - h, 1), (z.1 - h - 2, 0), (z.2 - 2, 2), (z.2 + h, 1), (z.2 + h + 2, 0)]
  else if cmpRole a.val k = 2 then
    let l := m.converter.legs.toList.getD (k - 18) Leg.init
    let code : Int := (m.regionImage 2).dacCode 0 (3 + (k - 18)) l.ipk
    [(code + 4, 2), (code, 1), (code - 4, 0)]
  else
    let t := (m.cmpImage a).threshold a.val k
    let up : Int := if t.above then 1 else -1
    [(t.code + up * (t.hyst + 4), 2), (t.code, 1), (t.code - up * (t.hyst + 4), 0)]

/-- The supervisor's writes for a test are applied: the member under test is disconnected (R86, R431 step 2). -/
def markTest (a : Fin 2) (detector : Bool) (k : Nat) (m : Module) : Module :=
  updAfe a (fun f => { f with
    test := some { detector := detector, index := k, steps := m.testSteps a detector k, passed := false, at_ := 0,
                   opened := false },
    comparators := if detector then f.comparators else Vector.ofFn (fun i =>
      if i.val = k then { f.comparators[i] with underTest := true } else f.comparators[i]),
    detectors := if detector then Vector.ofFn (fun i =>
      if i.val = k then { f.detectors[i] with underTest := true } else f.detectors[i]) else f.detectors }) m

/-- SELFTEST naming a comparator pair or a detector pair (R431, R538). -/
def selftestTwin (h : Hdr) (a : Fin 2) (detector : Bool) (idle : Option Nat) (m : Module) : Verdict :=
  unlessFails (firstFail
    [failIf h.timed .reservedEncoding,
     failIf (h.relayed && !((h.transport == .cn2 || h.transport == .cn3) && h.fromHead)) .reservedEncoding,
     failIf (!m.atLeastReady) .stateForbids,
     failIf idle.isNone .twinUnavailable,
     failIf (m.twinBusy a) .busy,
     failIf (!m.afeRuns a) .domainStopped])
    (match idle with
     | none => .refuse .twinUnavailable 0
     | some k =>
       .waits (holdWrites (if a.val = 0 then 0 else 2)
         { (waitingFor 0x71 h 1 (twinTarget a detector) m) with key := k } m))

/-- The reply word of R432, the findings true for fail. -/
def twinWord (swapped trip hold release : Bool) : Word :=
  pack [(flag (trip || hold || release), 7), (flag swapped, 6), (flag trip, 2), (flag hold, 1), (flag release, 0)]

/-- A member of a test's pair changed: the tested one by `g`, its twin by `t`. -/
def updPair (k : TwinTest) (g t : Member → Member) (f : Afe) : Afe :=
  let on {n : Nat} (v : Vector Member n) : Vector Member n := Vector.ofFn (fun i =>
    if i.val = k.index then g v[i] else if i.val = twinOf k.index then t v[i] else v[i])
  if k.detector then { f with detectors := on f.detectors } else { f with comparators := on f.comparators }

/-- A step of the test that stands for a bit of R432's word was not read as it must be: tripped at the trip and hold steps,
released at the release steps. -/
def TwinTest.fails (k : TwinTest) (reads : List Bool) (bit : Nat) : Bool :=
  (indexed k.steps).any (fun x => x.2.2 == bit && reads[x.1]? != some (bit != 0))

/-- The ORed window of a test opens 16 samples after the twin is back on its input (R431 step 3): a twin that reads tripped
trips the path. -/
def openWindow (a : Fin 2) (m : Module) : Module :=
  match m.afe[a].test with
  | none => m
  | some k =>
    if !k.passed || k.opened || m.time.elapsed < k.at_ + 16 * m.samplePeriod a k.detector (k.index / 2) then m
    else
      let m1 := updAfe a (fun f => { f with test := some { k with opened := true } }) m
      let s := if k.detector then m.afe[a].detectors.toList.getD k.index (Member.init false)
               else m.afe[a].comparators.toList.getD k.index (Member.init false)
      if s.decision != 2 then m1
      else reportTrip (if k.detector then (F.afeSdOvercurrent, afeDetail a (k.index / 2)) else comparatorFault a k.index) m1

/-- The clocks at which an ORed window opens. -/
def Module.windowClocks (m : Module) : List Nat :=
  (List.finRange 2).filterMap (fun a => m.afe[a].test.bind (fun k =>
    if k.passed && !k.opened then some (k.at_ + 16 * m.samplePeriod a k.detector (k.index / 2)) else none))

/-- TWIN_TEST_DONE with what the member read at the steps of the test, true for tripped (R431): a failure ends the test; a
pass returns the twin to its input, released as the last step left it, and 32 samples later, after the ORed window,
the roles are exchanged; a regulation comparator has no roles to exchange. DEDUCED, log entry 35. -/
def twinTestDone (a : Fin 2) (reads : List Bool) (m : Module) : Module :=
  match m.afe[a].test with
  | none => m
  | some k =>
    let answerWith (w : Word) (m : Module) : Module :=
      crossWords (if a.val = 0 then 1 else 3) 1 (resolveWaiting [0x71] (· == twinTarget a k.detector) 0 0 [w] m)
    let lone := !k.detector && cmpRole a.val k.index == 2
    if !m.afeRuns a then m
    else if k.passed then
      if m.time.elapsed < k.at_ + 32 * m.samplePeriod a k.detector (k.index / 2) then m
      else
        let now := m.drivenTime
        answerWith (twinWord true false false false) (endCond F.twinTestOverdue
          (afeDetail a (if k.detector then k.index / 2 else k.index / 2 * 2)) (settleTrip a k.detector k.index (updAfe a (fun f =>
          { updPair k (fun s => { s with active := true, passedAt := now })
              (fun s => { s with active := false, passedAt := now }) f with test := none }) m)))
    else if k.fails reads 2 || k.fails reads 1 || k.fails reads 0 then
      answerWith (twinWord false (k.fails reads 2) (k.fails reads 1) (k.fails reads 0))
        (raise F.afeTwinFail (afeDetail a (if k.detector then k.index / 2 else k.index)) false (updAfe a (fun f => { updPair k (fun s => { s with failed := true, underTest := false }) id f with test := none }) m))
    else if lone then
      answerWith (twinWord false false false false)
        (updAfe a (fun f => { updPair k (fun s => { s with underTest := false, decision := 1 }) id f with test := none }) m)
    else
      updAfe a (fun f => { updPair k (fun s => { s with underTest := false, decision := 1 }) id f with
        test := some { k with passed := true, at_ := m.time.elapsed } }) m

/-- TWIN_TEST_OVERDUE of a pair (R596): its last passing self-test is older than the interval. DEDUCED, log entry
37. -/
def twinOverdue (a : Fin 2) (detector : Bool) (pair : Nat) (m : Module) : Module :=
  let limit := m.us P.safetyTwinTestInterval
  let s := if detector then m.afe[a].detectors.toList.getD (2 * pair) (Member.init false)
           else m.afe[a].comparators.toList.getD (2 * pair) (Member.init false)
  let used := if detector then m.sdOn a pair && (m.sdFuncs a.val pair).any m.enabled
              else cmpRole a.val (2 * pair) == 1 && (comparatorFuncs a (2 * pair)).any m.enabled
  if limit = 0 || !used || m.drivenTime ≤ s.passedAt + limit then m
  else raise F.twinTestOverdue (afeDetail a (if detector then pair else 2 * pair)) true m

/-- The decision a regulation comparator shows (R428). -/
def Module.regulationOf (m : Module) (j : Fin 4) : Nat := (m.afe[0].comparators[(⟨18 + j.val, by omega⟩ : Fin 32)]).decision

/-- A regulation comparator's decision (R425, R428). -/
def regulationDecision (j : Fin 4) (d : Nat) (m : Module) : Module :=
  updComparator 0 ⟨18 + j.val, by omega⟩ (fun s => { s with decision := d }) m

end Sys2Proof.Machine
end

