-- ==== Sys2Proof/Machine/Commit.lean ====
section
/-!
DEFINITION. What a commit instant does (R106, R113 … R118, R204, R205, R615), the deferred evaluation, and what takes effect
at a control-period boundary of a region (R20, R44, R134, R216, R298, R566, R583).
-/

namespace Sys2Proof.Machine

/-! ## Commit -/

/-- The window of misses of a traction channel (R205). -/
def countMiss (c : Fin 2) (m : Module) : Module :=
  let t := m.traction[c]
  let m1 := updTraction c (fun t => { t with missWindow := t.missWindow + 1 }) m
  if (m.tpar c P.trMissRateLimit).toNat < t.missWindow + 1 && !t.missRaised then
    raise (F.trMissRate + 0x1000 * c.val) 0 false (updTraction c (fun t => { t with missRaised := true }) m1)
  else m1

/-- The channel of a traction region. -/
def channelOf (n : Fin 8) : Option (Fin 2) := if h : n.val < 2 then some ⟨n.val, h⟩ else none

/-- A die of THERM_SCAN_MASK in an image that is supplied. -/
def Module.inScan (m : Module) (img : Image) (d : Fin 46) : Bool :=
  m.dies[d].supply != 0 &&
  (if d.val < 32 then (img.num P.thermScanMaskLow).testBit d.val else (img.num P.thermScanMaskHigh).testBit (d.val - 32))

/-- The same under the ACTIVE epoch. -/
def Module.scanned (m : Module) (d : Fin 46) : Bool := m.inScan m.epochs.active d

/-- A clean commit of 0x0F0 under the settings its region runs: the request for the next die of the scan (R48, R615). -/
def commitScan (img : Image) (period : Nat) (m : Module) : Module :=
  let div := img.num P.thermScanDivider
  if div = 0 ∨ period % div != 0 then m
  else
    let order := (List.range 46).map (fun k => (⟨(m.memory.lastScan + 1 + k) % 46, Nat.mod_lt _ (by decide)⟩ : Fin 46))
    match order.find? (m.inScan img) with
    | none => m
    | some d => { m with memory := { m.memory with lastScan := d.val, scanRequest := some d.val } }

/-- The output words of a host-class entry land in HOST_OUT, each where its entry declares it (R58). DESIGN CHOICE, log
entry 12. -/
def commitHost (i : Instance) (m : Module) : Module :=
  let places := (declOf (libraryEntry i.word1)).placement
  ((i.delivered false).filter (fun d => !d.staged)).foldl (fun m d =>
    match places[d.place]? with
    | some h => { m with hostOut := Vector.ofFn (fun k => if k.val = h then d.value else m.hostOut[k]) }
    | none => m) m

/-- What the clean commit of an instance means for the function its entry serves: `v` what its launch saw, with the samples
of its commit instant. DESIGN CHOICE, log entry 26. -/
def commitFunction (n : Fin 8) (i : Instance) (v m : Module) : Module :=
  let lib := libraryEntry i.word1
  if isHostClass lib then commitHost i m
  else if lib = 0x0F0 then commitScan (v.regionImage n) i.period m
  else if lib = 0x0A0 then commitPlausTraction v m
  else if lib = 0x0A1 then commitPlausConverter v m
  else if lib = 0x0B0 then updSys (fun s => { s with rateHeld := false }) m
  else
    match channelOf n with
    | some c =>
      if isDecision lib then
        commitDecision c i.period (if i.aheadNow then (i.key false).map (·.1) else none) (i.seen.traction[c]).sample.vdc v m
      else if lib = 0x042 then commitReference c i.period v m
      else if lib = 0x043 then commitLatch c i.period v m
      else if lib = 0x044 then commitStatistics c v m
      else m
    | none =>
      if lib = 0x060 then commitDc i.period v m
      else if lib = 0x061 then commitChopper v m
      else if lib = 0x062 then commitSupervision v m
      else if lib = 0x070 then commitPf i.period v m
      else if lib = 0x071 then commitDb i.period v m
      else if lib = 0x072 then commitPv i.period v m
      else if lib = 0x073 then commitCh i.period v m
      else if lib = 0x080 then commitAxLoops i.period v m
      else if lib = 0x081 then commitAxMoves v m
      else m

/-- The fallback output of an instance (R118): V0 for a traction channel, which a quench of another entry than the decision,
0x044 too, leaves as it is (R204); no source decision of the charger, no rate correction and the allocation held for the
system entry; every other output is held, and a supervision model gives no verdict. DEDUCED, log entry 88. -/
def fallbackFunction (n : Fin 8) (i : Instance) (m : Module) : Module :=
  let lib := libraryEntry i.word1
  if lib = 0x073 then fallbackCh m
  else if lib = 0x081 then fallbackAxMoves m
  else if lib = 0x0B0 then updSys (fun s => { s with rateHeld := true }) m
  else
    match channelOf n with
    | some c => if isDecision lib || !i.quenched then fallbackDecision c m else m
    | none => m

/-! ## From the commit instant to the landing (R40, R70, R80, R115) -/

/-- The entry commits towards the GDC. -/
def towardsGdc (lib : Nat) : Bool :=
  isDecision lib || lib == 0x060 || lib == 0x061 || lib == 0x070 || lib == 0x071 || lib == 0x080

/-- The crossing of a region's committed words to the GDC: 10 from CF0, 11 from CF1 (R90). -/
def gdcCrossing (n : Fin 8) : Fin 22 := if n.val < 4 then 10 else 11

/-- Output words committed towards the GDC take the lanes of their crossing; towards one that is in reset they are dropped,
one count per word (R79, R88, R94). DEDUCED, log entry 27. -/
def sendCommitted (n : Fin 8) (i : Instance) (m : Module) : Module :=
  let lib := libraryEntry i.word1
  let k := (wordsTo lib .crossing).length
  if !towardsGdc lib then m
  else if m.dieRuns 7 then crossWords (gdcCrossing n) k m
  else updCrossing (gdcCrossing n) (fun c => { c with dropped := satAdd 0xFFFF c.dropped k }) m

/-- A set of structures with other traction samples, and with those that have arrived by now (R105). -/
def Saved.sampling (s : Saved) (xs : Vector TrSample 2) : Saved :=
  { s with traction := Vector.ofFn (fun c => { s.traction[c] with sample := xs[c] }) }
def Saved.sampled (s : Saved) (m : Module) : Saved := s.sampling (m.traction.map (·.sample))

/-- What an instance commits is on its way: it lands 4 ticks after its commit instant (R80). -/
def pushLanding (n : Fin 8) (clean : Bool) (i : Instance) (m : Module) : Module :=
  let lag := m.time.count.toNat - i.commit.toNat
  let l : Landing :=
    { at_ := m.time.elapsed + 4 - lag, region := n, inst := i, clean := clean,
      dropped := towardsGdc (libraryEntry i.word1) && !m.dieRuns 7,
      samples := (m.regions[n]).samples, arrived := m.traction.map (·.sample) }
  { m with landings := m.landings ++ [l] }

/-- The module as an instance saw it: what its launch saw, the samples of its commit instant, the count there, and the
epoch it runs under (R40, R70, R566 step 4). -/
def Landing.view (l : Landing) (m : Module) : Module :=
  let v := l.inst.underEpoch l.region ((l.inst.seen.sampling l.arrived).view m)
  { v with
    time := { m.time with count := l.inst.commit },
    regions := Vector.upd m.regions l.region (fun r => { r with samples := l.samples }) }

/-- An instance of the old epoch past the switch whose entry the new table does not hold (R566 step 4). -/
def Instance.orphan (i : Instance) (n : Fin 8) (m : Module) : Bool :=
  i.oldEpoch && !m.epochs.onOld[n] && !((m.regionImage n).holds n.val (libraryEntry i.word1))

/-- The words a clean commit publishes on the fabric exchange, those its entry declares for it: region · 2^16 + entry · 64 +
output word (R40, R96). -/
def Landing.published (l : Landing) : List (Nat × Word) :=
  let out := wordsTo (libraryEntry l.inst.word1) .exchange
  ((l.inst.delivered false).filter (fun d => !d.staged && out.contains d.place)).map
    (fun d => (l.region.val * 2 ^ 16 + l.inst.entry * 64 + d.place, d.value))

/-- What would have crossed to a GDC in reset is not there: the GDC's side of the outputs stays as it was (R88). -/
def withhold (old new : Module) : Module :=
  { new with
    traction := Vector.ofFn (fun c => { new.traction[c] with output := (old.traction[c]).output }),
    chopper := { new.chopper with duty := old.chopper.duty },
    converter := { new.converter with legs := Vector.ofFn (fun j =>
      { new.converter.legs[j] with nextIpk := (old.converter.legs[j]).nextIpk,
                                   nextSlope := (old.converter.legs[j]).nextSlope }) },
    charger := { new.charger with pfDuty := old.charger.pfDuty, dabPhi := old.charger.dabPhi },
    actuators := Vector.ofFn (fun a => { new.actuators[a] with u := (old.actuators[a]).u, duty := (old.actuators[a]).duty }) }

/-- A landing (R70, R80, R115, R118): the outputs take effect; the carried state of a clean commit with them, in the
checkpoint too; and on the exchange 4 ticks later (R40), the fallback output of a traction channel as well, so that the models
see the output actually in force (R219). -/
def land (l : Landing) (m : Module) : Module :=
  let n := l.region
  let sent (old new : Module) : Module := if l.dropped then withhold old new else new
  let show_ (words : List (Nat × Word)) (m : Module) : Module :=
    { m with publishing := m.publishing ++ [{ from_ := l.at_ + 4, region := n, saved := m.saved, words := words }] }
  if !l.clean then
    let m1 := sent m (fallbackFunction n l.inst m)
    if (channelOf n).isSome then show_ [] m1 else m1
  else
    let m1 := sent m (commitFunction n l.inst (l.view m) m)
    show_ l.published (if l.inst.orphan n m then restoreCarried n m.saved m1 else keepCheckpoint n m1)

/-- The outputs of a region become readable on the exchange (R40). -/
def publish (p : Publication) (m : Module) : Module :=
  { m with published := Saved.take p.region.val (m.regionImage p.region) p.saved m.published,
           exchange := p.words.foldl (fun xs w => putWord w.1 w.2 xs) m.exchange }

/-- What is due at the present clock lands and is published. -/
def settleDue (m : Module) : Module :=
  let now := m.time.elapsed
  let ls := m.landings.filter (fun l => l.at_ ≤ now)
  let m1 := ls.foldl (fun m l => land l m) { m with landings := m.landings.filter (fun l => now < l.at_) }
  let ps := m1.publishing.filter (fun p => p.from_ ≤ now)
  ps.foldl (fun m p => publish p m) { m1 with publishing := m1.publishing.filter (fun p => now < p.from_) }

/-- The clocks at which something lands or is published. -/
def Module.landingClocks (m : Module) : List Nat := m.landings.map (·.at_) ++ m.publishing.map (·.from_)

/-! ## The evaluation of instances (R106, R113 … R116) -/

/-- The instance is evaluated now. -/
def Instance.dueNow (i : Instance) (deferred : Bool) (now : Tick) : Bool :=
  i.deferred == deferred && i.commit.toNat ≤ now.toNat

/-- The full computation of a deferred instance (R106, R107): nothing of it has been accepted, both passes start from the
sample, and it is evaluated at C + DEFER. A RANGE flag that a pass has set while its lanes were computed stays set. DESIGN
CHOICE, log entry 75. -/
def Instance.defer (i : Instance) : Instance :=
  { i with deferred := true, missed := true, lanesOn := false, accepted := [],
           commit := i.commit + BitVec.ofNat 64 (deferOf (libraryEntry i.word1)) }

/-- Staged writes are narrower than the 64-bit words of region memory: one into a word that reads uncorrectable leaves it so,
and counts as an uncorrectable read of the region's scrubber (R604). -/
def narrowWrites (n : Fin 8) (i : Instance) (m : Module) : Module :=
  ((i.delivered false).filter (fun d => d.staged && d.place < regionWords)).foldl (fun m d =>
    if m.memory.bad.contains (16 + 16 * n.val, d.place / 2) then
      updScrubber (if n.val < 4 then 1 else 2) (fun x => { x with
        uncorrected := inc32 x.uncorrected, lastError := pack [(16 + 16 * n.val, 24), (d.place / 2, 1), (1, 0)] }) m
    else m) m

/-- A clean commit (R115): counts and slack, staged writes and the shadow, the outputs on their way. The staged writes of an
orphan are discarded (R566 step 4). -/
def commitClean (n : Fin 8) (i : Instance) (m : Module) : Module :=
  let m1 := countOutcome n i .clean (noteSlack n (m.samplesOf n i) i m)
  let m2 := keepOutputs n i (if i.orphan n m then m1 else applyStaged n i (narrowWrites n i m1))
  pushLanding n true i (sendCommitted n i m2)

/-- A fallback or a quench fallback (R118): counts and slack, the fallback output on its way. -/
def commitFallback (n : Fin 8) (i : Instance) (o : Outcome) (m : Module) : Module :=
  let m1 := countOutcome n i o (noteSlack n (m.samplesOf n i) i m)
  pushLanding n false i (sendCommitted n i m1)

/-- A deferral for a miss (R106, R205). -/
def deferInstance (n : Fin 8) (i : Instance) (m : Module) : Module :=
  let i1 := i.defer
  let m1 := updRegion n (fun r =>
    let r1 := beginUnits i1 (m.rnum n (P.regionPeriod + n.val)) ((m.regionImage n).table n.val)
      { r with requests := r.requests.filter (fun q => q.id != i.id) }
    { r1 with flight := r1.flight ++ [i1] }) (countOutcome n i .deferred m)
  match channelOf n with
  | some c => if isDecision (libraryEntry i.word1) then countMiss c m1 else m1
  | none => m1

/-- The outcome of an instance of region `n` (R113). -/
def Module.outcomeOf (m : Module) (n : Fin 8) (i : Instance) : Outcome := i.outcome n.val (m.samplesOf n i)

/-- One evaluated instance. -/
def settleInstance (n : Fin 8) (i : Instance) (m : Module) : Module :=
  match m.outcomeOf n i with
  | .clean => commitClean n i m
  | .deferred => deferInstance n i m
  | o => commitFallback n i o m

/-- The instances of a region that are due, with what their keys choose (R35, R106). -/
def Module.dueInstances (m : Module) (n : Fin 8) (deferred : Bool) : List Instance :=
  ((m.regions[n]).flight.filter (·.dueNow deferred m.time.count)).map (gather m.regions[n])

/-- The instances of a region that are due are evaluated: clean commits first, then the rest, then one rollback for their
fallbacks (R116, R121); what executed for them is released, but for a deferral (R99, R109). -/
def evaluate (n : Fin 8) (deferred : Bool) (m : Module) : Module :=
  let due := m.dueInstances n deferred
  if !m.regionRuns n || due.isEmpty then m
  else
    let kept := due.filter (fun i => m.outcomeOf n i == .deferred)
    let final := due.filter (fun i => m.outcomeOf n i != .deferred)
    let m0 := updRegion n (fun r => { (r.release (final.map (·.id)) m.time.count.toNat) with
      flight := r.flight.filter (fun i => !i.dueNow deferred m.time.count) }) (tapToggle n m)
    let clean := final.filter (fun i => m.outcomeOf n i == .clean)
    let rest := final.filter (fun i => m.outcomeOf n i != .clean)
    let m1 := clean.foldl (fun m i => settleInstance n i m) m0
    let m2 := (rest ++ kept).foldl (fun m i => settleInstance n i m) m1
    let m3 := if rest.any (fun i => (m.outcomeOf n i).isFallback) then rollback n m2 else m2
    checkRate n m3

/-! ## What the passes do (R95 … R105, R110, R111) -/

/-- The constants of the library an instance sees: the table words of its region in the epoch it runs under (R668). -/
def Module.outsideOf (m : Module) (n : Fin 8) (i : Instance) : Outside :=
  let img := m.imageOf n i
  { constants := fun w => img.val (0x1200 + 448 * n.val + w),
    samples := m.samplesOf n i,
    bad := fun a => m.memory.bad.contains (16 + 16 * n.val, a) }

/-- The moments of the units of a region since the last command: in each, the passes that make a step, by unit and pass;
before them the register bits that disturbances have changed (R27, R34, R95). -/
def runUnits (n : Fin 8) (moments : List (List (Nat × Bool))) (upsets : List (Nat × Nat × Word)) (m : Module) : Module :=
  updRegion n (fun r =>
    moments.foldl (fun r asked => runMoment (m.outsideOf n) (fun i => exponentK n.val i.period) asked r)
      (upsets.foldl (fun r u => upset u.1 u.2.1 u.2.2 r) r)) m

/-- COLLECTOR_ACCEPT: the units have run, and the collector accepts the request of its lowest input (R110, R111). -/
def collectorAccept (n : Fin 8) (moments : List (List (Nat × Bool))) (upsets : List (Nat × Nat × Word)) (m : Module) :
    Module :=
  if !m.regionRuns n then m else accept n (runUnits n moments upsets m)

/-- The candidates of a lane hold every output word and staged write its entry declares (R104). -/
def Lane.complete (l : Lane) (lib : Nat) : Bool :=
  let has (staged : Bool) (p : Nat) : Bool := l.candidates.any (fun d => d.staged == staged && d.place == p)
  (List.range (((libDecl lib).map (·.outputs)).getD 0)).all (has false) && (declOf lib).staged.all (fun s => has true s.1)

/-- LANE_COMPLETE: the lane of a branch of a pass is written; its signal stands at the input of the unit that computed it
(R104). -/
def laneComplete (n : Fin 8) (unit : Fin 16) (e : Nat) (second : Bool) (branch : Nat) (m : Module) : Module :=
  let r := m.regions[n]
  match r.flight.find? (fun i => i.entry == e && !i.quenched && i.lanesOn) with
  | none => m
  | some i =>
    match r.laneFor i second branch with
    | none => m
    | some l =>
      if l.unit == some unit.val && l.complete (libraryEntry i.word1) then
        request n unit.val i.id (.lane second branch) m
      else m

/-- RESOLVE_KEY of a pass whose sample words have arrived (R105): of a decision entry the branch its own words find (R199),
with the bits a disturbance has changed; of a host-class entry what its program finds. DESIGN CHOICE, log entry 51. -/
def resolveKey (n : Fin 8) (unit : Fin 16) (e : Nat) (second : Bool) (key : Fin 32) (m : Module) : Module :=
  match (m.regions[n]).flight.find? (fun i => i.entry == e && !i.quenched && i.lanesOn) with
  | none => m
  | some i =>
    if (m.samplesOf n i).any (fun k => !i.arrived.contains k) then m
    else
      let v := i.underEpoch n ((i.seen.sampled m).view m)
      let k := match channelOf n with
        | some c => if isDecision (libraryEntry i.word1) then (decisionKey c i.period v) ^^^ key.val else key.val
        | none => key.val
      request n unit.val i.id (.key second (k % 32)) m

/-! ## The checkpoint shadow (R122) -/

/-- FABRIC_CHECKPOINT_ERROR (R122 step 1). -/
def checkpointError (n : Fin 8) (m : Module) : Module :=
  if !m.dieRuns (regionDie n) then m
  else raise F.fabricCheckpointError (fabricDetail n.val 0 0) true
    (updRegion n (fun r => { r with checkpointValid := false, rebuilding := false }) m)

/-- CHECKPOINT_REBUILT (R122 step 3): the shadow is region memory again, the checkpoint what the functions hold. -/
def checkpointRebuilt (n : Fin 8) (m : Module) : Module :=
  if !(m.regions[n]).rebuilding then m
  else
    let m1 := updRegion n (fun r => { r with checkpointValid := true, rebuilding := false, shadow := carriedPart r.memory }) m
    endCond F.fabricCheckpointError (fabricDetail n.val 0 0) (keepCheckpoint n m1)

/-! ## Fabric BIST (R137) -/

/-- The held outputs of the functions of region `n` are those before a first clean commit: zero duty, zero phase shift, zero
torque allocation, V0 of a decision (R118, R119); an allocation waits for the next clean commit of 0x0B0; nothing of it is on its way or on the exchange. -/
def zeroOutputs (n : Fin 8) (m : Module) : Module :=
  let m1 := if h : n.val < 2 then
      updTraction ⟨n.val, h⟩ (fun t => { t with output := some 0, statVector := 0 }) m else m
  let m2 := if n.val = 2 then
      { m1 with converter := { m1.converter with
          itot := 0, legs := m1.converter.legs.map (fun l => { l with nextIpk := 0, nextSlope := 0 }) },
                chopper := { m1.chopper with duty := 0 } } else m1
  let m3 := if n.val = 3 then
      { m2 with charger := { m2.charger with pfDuty := Vector.replicate 3 0, dabPhi := 0, heard := false, evalDue := false } }
    else m2
  let m4 := if n.val = (m.regionImage n).axRegion then
      { m3 with actuators := m3.actuators.map (fun a => { a with u := 0, duty := 0, clean := false }) } else m3
  let m4 := if n.val = (m.regionImage n).sysRegion then
      { m4 with traction := m4.traction.map (fun t => { t with share := 0 }), sys := { m4.sys with rateHeld := true } } else m4
  { m4 with
    landings := m4.landings.filter (fun l => l.region != n), publishing := m4.publishing.filter (fun p => p.region != n),
    exchange := m4.exchange.filter (fun x => x.1 / 2 ^ 16 != n.val),
    published := Saved.take n.val (m.regionImage n) m4.saved m4.published }

/-- The carried state of the functions of region `n` at the library's initial values, in the checkpoint too (R605, R679). -/
def initCarried (n : Fin 8) (m : Module) : Module :=
  let m1 := restoreCarried n Saved.init m
  let m2 := if n.val = 2 then { m1 with chopper := { m1.chopper with resPower := m.rpar 2 P.chResPowerCont } } else m1
  { m2 with checkpoints := Saved.take n.val (m.regionImage n) m2.saved m2.checkpoints }

/-- The regions of a fabric die hold the outputs of R119. -/
def zeroRegions (d : Nat) (m : Module) : Module :=
  ((List.finRange 8).filter (regionsOf d)).foldl (fun m n => zeroOutputs n m) m

/-- SELFTEST naming CF0 or CF1 (R137, R538): its launches stop and its functions take the outputs of R119. Outside READY it is
refused with STATE_FORBIDS, before DOMAIN_STOPPED. DESIGN CHOICE, log entry 93. -/
def selftestFabric (h : Hdr) (d : Fin 2) (m : Module) : Verdict :=
  let die : Fin 46 := if d.val = 0 then 2 else 3
  unlessFails (firstFail
    [failIf h.timed .reservedEncoding,
     failIf (h.relayed && !((h.transport == .cn2 || h.transport == .cn3) && h.fromHead)) .reservedEncoding,
     failIf (m.label != .ready) .stateForbids,
     failIf (!m.dieRuns die) .domainStopped,
     failIf ((List.finRange 8).any (fun n => regionDie n == die && (m.regions[n]).held)) .busy])
    (.scheduled [] (zeroRegions d.val (mapRegions d.val (fun r => { r.stop with held := true }) m)))

/-- The shadow of a region is filled with the region: the condition of its checkpoint error ends (R122, R605, R676). -/
def checkpointFilled (n : Fin 8) (m : Module) : Module := endCond F.fabricCheckpointError (fabricDetail n.val 0 0) m

/-- The regions of a fabric die begin anew: memories filled, the library's initial values, waiting for their first boundary
(R44, R119, R605). -/
def restartRegions (d : Nat) (m : Module) : Module :=
  ((List.finRange 8).filter (regionsOf d)).foldl (fun m n => checkpointFilled n (initCarried n m))
    (zeroRegions d (mapRegions d Region.restart m))

/-- A region held by a BIST or a fill waits for its next boundary again (R44, R609). -/
def Region.resume (r : Region) : Region :=
  { r.quiet with held := false, waiting := true, started := false,
                 records := r.records.map (fun p => (p.1, { p.2 with outputs := [] })) }

/-- FABRIC_BIST_DONE with the clusters that failed, four bits per region (R137): the mark of a cluster stands until a BIST of
it passes. DEDUCED, log entry 27. -/
def fabricBistDone (d : Fin 2) (failed : Nat) (m : Module) : Module :=
  let die : Fin 46 := if d.val = 0 then 2 else 3
  let ns := (List.finRange 8).filter (fun n => regionDie n == die)
  if !m.dieRuns die || !ns.all (fun n => (m.regions[n]).held) || m.memory.filling.any (fun b => 16 ≤ b && (b - 16) / 64 == d.val) then m
  else
    let mask (n : Fin 8) : Nat := failed / 2 ^ (4 * (n.val % 4)) % 16
    let m1 := updDie die (fun x => { x with bist := if failed % 2 ^ 16 = 0 then 1 else 2 }) m
    let m2 := ns.foldl (fun m n => updRegion n (fun r => { r.resume with failed := mask n }) m) m1
    ns.foldl (fun m n => if mask n = 0 then m else raise F.fabricBistFail (fabricDetail n.val 0 0) false m) m2

/-! ## The period boundary -/

/-- The region at whose boundary a live-class parameter takes effect (R20). -/
def liveRegion (id : Nat) : Option (Fin 8) :=
  if id = P.trTorqueSetpoint ∨ id = P.trSpeedSetpoint then some 0
  else if id = P.trTorqueSetpoint + 0x1000 ∨ id = P.trSpeedSetpoint + 0x1000 then some 1
  else if id = P.dcVref then some 2
  else if id = P.cgISet ∨ id = P.cgVSet then some 3
  else none

/-- A live-class value in effect; a setpoint selects its mode (R207). -/
def setLive (id : Nat) (w : Word) (m : Module) : Module :=
  let l := m.live
  if id = P.trTorqueSetpoint then setMode 0 false { m with live := { l with torqueSetpoint := l.torqueSetpoint.set 0 w } }
  else if id = P.trTorqueSetpoint + 0x1000 then setMode 1 false { m with live := { l with torqueSetpoint := l.torqueSetpoint.set 1 w } }
  else if id = P.trSpeedSetpoint then setMode 0 true { m with live := { l with speedSetpoint := l.speedSetpoint.set 0 w } }
  else if id = P.trSpeedSetpoint + 0x1000 then setMode 1 true { m with live := { l with speedSetpoint := l.speedSetpoint.set 1 w } }
  else if id = P.dcVref then { m with live := { l with dcVref := w } }
  else if id = P.cgISet then { m with live := { l with cgISet := w } }
  else if id = P.cgVSet then { m with live := { l with cgVSet := w } }
  else m

/-- A live-class write takes effect at a boundary of region `n` now (R20, R526). -/
def LiveWrite.dueAt (w : LiveWrite) (n : Fin 8) (now : Tick) : Bool :=
  liveRegion w.id == some n && (if w.atInstant then decide (w.from_.toNat ≤ now.toNat) else decide (w.from_.toNat < now.toNat))

/-- The live-class writes due at a boundary, in the order of their acceptance. DEDUCED, log entry 19. -/
def takeLive (n : Fin 8) (m : Module) : Module :=
  let due := m.interp.liveWrites.filter (·.dueAt n m.time.count)
  let m1 := { m with interp := { m.interp with liveWrites := m.interp.liveWrites.filter (fun w => !w.dueAt n m.time.count) } }
  if due.isEmpty then m1 else keepCheckpoint n (due.foldl (fun m w => setLive w.id w.value m) m1)

/-- The count lies on a boundary of region `n` under an image (R68). -/
def Image.boundary (img : Image) (n : Fin 8) (now : Tick) : Bool :=
  let p := img.num (P.regionPeriod + n.val)
  p != 0 && now.toNat % p == img.num (P.regionPhase + n.val) % p

/-- The state of a library entry new to a region is the library's initial one (R566 step 3). -/
def freshEntry (n : Fin 8) (lib : Nat) (m : Module) : Module :=
  if h : n.val < 2 then
    updTraction ⟨n.val, h⟩ (fun t =>
      if lib = 0x042 then
        let z := Traction.init
        { t with tref := z.tref, psiRef := z.psiRef, ramp := z.ramp, x1 := z.x1, x2 := z.x2, y1 := z.y1, y2 := z.y2,
                 speedRef := z.speedRef, integ := z.integ, clampSide := z.clampSide, fwTrim := z.fwTrim, idCmd := z.idCmd,
                 fwCount := z.fwCount }
      else if lib = 0x044 then { t with transitions := [], switchRate := 0 } else t) m
  else if lib = 0x060 then { m with converter := Converter.init.restore m.converter }
  else if lib = 0x061 then
    { m with chopper := { m.chopper with resPower := m.rpar 2 P.chResPowerCont, sregenValid := false },
             published := { m.published with chopper := { m.published.chopper with sregenValid := false } },
             checkpoints := { m.checkpoints with chopper := { m.checkpoints.chopper with sregenValid := false } } }
  else if lib = 0x070 then { m with charger := { m.charger with pf := Charger.init.pf } }
  else if lib = 0x071 then { m with charger := { m.charger with db := Charger.init.db } }
  else if lib = 0x072 then
    { m with charger := { m.charger with pv := Charger.init.pv, busRef := Charger.init.busRef,
                                         gridAngle := 0, gridInteg := 0 } }
  else if lib = 0x073 then { m with charger := { m.charger with integ := 0, pref := 0, evalDue := false } }
  else if lib = 0x080 then { m with actuators := m.actuators.map (fun a => { a with comp := Comp.zero }) }
  else if lib = 0x0A0 then { m with traction := m.traction.map (fun t => Traction.init.withModels t) }
  else if lib = 0x0A1 then { m with converter := { m.converter with plausFor := Vector.replicate 5 0 },
                                    charger := { m.charger with plausFor := Vector.replicate 5 0 } }
  else m

/-- What is on its way from a region at its switch lands under the epoch it was launched under (R72). -/
def keepLandings (n : Fin 8) (m : Module) : Module :=
  { m with landings := m.landings.map (fun l => if l.region == n then { l with inst := { l.inst with oldEpoch := true } } else l) }

/-- The switch of a region to the new epoch, on the new epoch's boundaries: fresh region state from the checkpoint, or the
library's initial values where the decision entry changes; instances in flight run on under the old epoch (R72, R129,
R207, R566 steps 2 … 5). DEDUCED, log entry 24. -/
def switchRegion (n : Fin 8) (m : Module) : Module :=
  let due := m.epochs.pending.any (fun p => p.switched && p.instant.toNat ≤ m.time.count.toNat)
  if !m.epochs.onOld[n] || !due || !m.epochs.active.boundary n m.time.count then m
  else
    let old := m.epochs.previous
    let new := m.epochs.active
    let keeps := [0x040, 0x041].all (fun e => old.holds n.val e == new.holds n.val e)
    let valid := (m.regions[n]).checkpointValid
    let m1 := recaptureChanged n old new <| restartPorts n old new <| keepLandings n <| updRegion n (fun r =>
      let mem := if valid then (reload r).memory else r.memory
      { r.clearSlack with memory := mem, shadow := if valid then carriedPart mem else r.shadow,
                          flight := r.flight.map (fun i => { i with oldEpoch := true }) })
      (updEpochs (fun e => { e with onOld := e.onOld.set n.val false n.isLt }) m)
    let m2 := if valid then restoreCarried n m.checkpoints m1 else m1
    let fresh := (new.table n.val).map (fun t => libraryEntry t.2.2) |>.filter (fun e => !old.holds n.val e)
    let m3 := fresh.foldl (fun m e => freshEntry n e m) m2
    let m4 := match channelOf n with
      | some c =>
        let src := P.trSetpointSource + 0x1000 * c.val
        let m4 := if keeps then m3 else updTraction c (fun t => { t with carried := Carried.init }) m3
        if old.num src != new.num src then setMode c false m4 else m4
      | none => m3
    let m5 := keepCheckpoint n m4
    settlePending (followEnables (if n.val = 3 then clampLive m5 else m5))

/-- The pattern releases that wait for a boundary of region `n` (R583). -/
def takeReleases (n : Fin 8) (m : Module) : Module :=
  Func.all.foldl (fun m f =>
    if m.faults.releasing[f.idx] && m.epochs.active.regionOf f == n then releaseNow f m else m) m

/-- Loop changes taken at a boundary of region `n`. -/
def takeLoops (n : Fin 8) (m : Module) : Module :=
  if n.val = 0 then takeLoop 0 (positionLost 0 m)
  else if n.val = 1 then takeLoop 1 (positionLost 1 m)
  else if n.val = 2 then takeDc m
  else if n.val = 3 then takeCharger m
  else if n.val = m.epochs.active.axRegion then takeActuators m
  else m

/-- A region that waits starts; a running one takes the throttle level of its die and a rollback asked for (R44, R134,
R606). -/
def startRegion (n : Fin 8) (m : Module) : Module :=
  let r := m.regions[n]
  let m1 := if r.reloadAt then
      updRegion n (fun r => { r with reloadAt := false }) (rollback n m)
    else m
  if r.held then m1
  else updRegion n (fun r => { r with
    started := r.started || r.waiting, waiting := false, level := m.dies[regionDie n].throttle }) m1

/-- PERIOD_BOUNDARY of region `n` (R68): nothing on a tick that is none, with the count invalid, or while the region's die
does not run but for releases and live-class writes. -/
def periodBoundary (n : Fin 8) (m : Module) : Module :=
  if !m.time.valid then m
  else
    let m1 := switchRegion n m
    if !m1.atBoundary n then m
    else
      let m2 := takeLive n (takeReleases n m1)
      if m.supply.transition.any (fun t => t.source == .ready && t.dest == .standby) then updRegion n Region.stop m2
      else if m.dieRuns (regionDie n) then takeLoops n (startRegion n m2) else m2

end Sys2Proof.Machine
end

