-- ==== Sys2Proof/Machine/Redundancy.lean ====
section
/-!
DEFINITION. The safety pair (R157 … R176): retirement, the delay registers and the comparators, the undo and the replay log,
checkpoints and comparator tests, mismatch and rollback, loss of lockstep, logic BIST, the debug channel.
-/

namespace Sys2Proof.Machine

/-- The safety pair changed. -/
def updLockstep (f : Lockstep → Lockstep) (m : Module) : Module := { m with lockstep := f m.lockstep }

/-- A fault detail of the safety pair (R175): the core that retired last, 7 for a comparator, and the address. -/
def lockstepDetail (core addr : Nat) : Nat := core % 8 * 2 ^ 13 + addr % 2 ^ 13

/-- Lockstep is lost (R166): the comparator requests the safe patterns of all power functions through crossing 4, as the toggle
(R81) that every class A fault puts there; core 0 goes on alone. A module strapped for split mode stays in it: it had no
lockstep to lose (R170). What waits in the delay line is dropped. DESIGN CHOICE, log entry 94. -/
def lockstepLost (detail : Nat) (m : Module) : Module :=
  raise F.supLockstepLost detail true
    (updLockstep (fun l => { l with
      mode := if l.mode = .split then .split else .lost, rollback := false, delay := [] }) m)

/-- What the loss of comparison does beside the patterns of SUP_COMPARE_LOST: a running charge and export end by their
normal stop sequence (R164). -/
def stopForCompareLost (m : Module) : Module :=
  let m1 := if m.charger.session then stopSession m else m
  endDcExport (stopExport m1)

/-- The comparators' marks and faults after tests that `main`, `fallback`, `parity` missed (R164); a checkpoint test that
passes makes an untested comparator healthy (R174). DEDUCED, log entry 54. -/
def noteTests (main fallback parity atCheckpoint : Bool) (m : Module) : Module :=
  let l := m.lockstep
  let mark (missed : Bool) (old : Nat) : Nat := if missed then 2 else if atCheckpoint && old = 0 then 1 else old
  let m1 := updLockstep (fun l => { l with main := mark main l.main, fallback := mark fallback l.fallback }) m
  let m2 := if parity then raise F.supDelayParityFailed (lockstepDetail 7 0) false m1 else m1
  if !(main || fallback) then m2
  else if mark main l.main = 2 && mark fallback l.fallback = 2 then
    stopForCompareLost (raise F.supCompareLost (lockstepDetail 7 0) true m2)
  else if main then raise F.supMainCompareFailed (lockstepDetail 7 0) false m2
  else raise F.supFallbackCompareFailed (lockstepDetail 7 0) false m2

/-- Re-execution has reached the checkpoint (R165 step 4, R168): the event was transient. The detail of
SUP_LOCKSTEP_RETRY_RATE, of which the spec says nothing, is 0. DESIGN CHOICE, log entry 73. -/
def endRollback (m : Module) : Module :=
  let l := m.lockstep
  let m1 := raiseAt l.mismatchTick F.supLockstepTransient l.mismatchDetail false
    (updLockstep (fun l => { l with rollback := false, rollbacks := inc32 l.rollbacks, window := l.window + 1 }) m)
  if m.num P.lockstepRetryRateLimit < l.window + 1 && !l.windowRaised then
    raise F.supLockstepRetryRate 0 false (updLockstep (fun l => { l with windowRaised := true }) m1)
  else m1

/-- The pair runs in lockstep: no debug probe, no BIST, not lost (R157). -/
def Module.paired (m : Module) : Bool :=
  m.lockstep.mode == .lockstep && m.lockstep.bist == 0 && m.label != .off && m.label != .sleep

/-- The parity bit of a byte (R158). -/
def byteParity (b : Byte) : Nat := popcount 8 b.toNat % 2

/-- The bytes of the results of a retirement as a delay register holds them (R158): the register write, the address of the next
instruction, the TCM write and the transaction, each with a byte that says what it is. -/
def retiredBytes (r : Retired) : List Byte :=
  let word (n : Nat) : List Byte := wordBytes (BitVec.ofNat 32 n)
  (match r.write with
   | some p => BitVec.ofNat 8 (0x80 + p.1) :: wordBytes p.2
   | none => List.replicate 5 0) ++
  word r.next ++
  (match r.tcm with
   | some p => BitVec.ofNat 8 (0x80 + flag p.1) :: (word p.2.1 ++ wordBytes p.2.2)
   | none => List.replicate 9 0) ++
  (match r.bus with
   | some t => BitVec.ofNat 8 (0x80 + 0x40 * flag t.own + 0x10 * t.kind.code + t.enables) :: (word t.address ++ wordBytes t.data)
   | none => List.replicate 9 0)

/-- The parity bits of the bytes of a retirement (R158). -/
def retiredParity (r : Retired) : List Nat := (retiredBytes r).map byteParity

/-- Core 0 retires into the delay registers (R157, R158): at most three wait, each with its parity bits; a disturbance changes
the entry, not its parity. -/
def retire0 (r held : Retired) (l : Lockstep) : Lockstep :=
  if 3 ≤ l.delay.length then l else { l with delay := l.delay ++ [{ retired := held, parity := retiredParity r }] }

/-- The words of core 0's state with one more register write. -/
def putReg (w : Option (Nat × Word)) (regs : List (Nat × Word)) : List (Nat × Word) :=
  match w with
  | some p => putWord p.1 p.2 regs
  | none => regs

/-- The words of a TCM with one more write (R157); `code` selects the code TCM. -/
def putTcm (code : Bool) (w : Option (Bool × Nat × Word)) (mem : List (Nat × Word)) : List (Nat × Word) :=
  match w with
  | some p => if p.1 == code then putWord p.2.1 p.2.2 mem else mem
  | none => mem

/-- A word of the shared SRAM; zero before the first write of the cores. -/
def Lockstep.sramWord (l : Lockstep) (a : Nat) : Word := (look a l.sram).getD 0

/-- The prior contents of the words a retirement of core 0 writes, newest first (R162): its TCMs, the shared SRAM. -/
def undoOf (l : Lockstep) (r : Retired) : List (CoreMem × Nat × Word) :=
  (match r.tcm with
   | some p => if p.1 then [(.code, p.2.1, (look p.2.1 l.code0).getD 0)] else [(.data, p.2.1, (look p.2.1 l.tcm0).getD 0)]
   | none => []) ++
  (match r.bus with
   | some t => if t.own && t.kind == .store then [(.sram, t.address, l.sramWord t.address)] else []
   | none => [])

/-- A word with the bytes that the byte enables name taken from another. -/
def mergeBytes (enables : Nat) (old new : Word) : Word :=
  word (((List.range 4).map (fun b => (if enables.testBit b then new else old).toNat / 2 ^ (8 * b) % 256 * 2 ^ (8 * b))).sum)

/-- The shared SRAM after a transaction: a store writes the bytes it enables. -/
def storeSram (t : Transaction) (l : Lockstep) : Lockstep :=
  if t.own && t.kind == .store then
    { l with sram := putWord t.address (mergeBytes t.enables (l.sramWord t.address) t.data) l.sram }
  else l

/-- The data a load returns (R160, R165 step 3): in re-execution that of the replay log, else the word of the shared SRAM, or
what the crossing, the flash interface or the fabric gives. -/
def Lockstep.loaded (l : Lockstep) (r : Retired) : Word :=
  match l.replay[l.replayed]?, r.bus with
  | some e, _ => e.2
  | none, some t => if t.own then l.sramWord t.address else r.answer
  | none, none => r.answer

/-- A retirement with the data that its load returns (R160): the register takes it with the bits that a disturbance of the core
changes, those of the load's `write`. DESIGN CHOICE, log entry 73. -/
def given (data : Word) (r : Retired) : Retired :=
  match r.bus with
  | some t => if t.kind == .store then r else { r with write := r.write.map (fun p => (p.1, data ^^^ p.2)) }
  | none => r

/-- Core 0's transaction is issued (R157, R161), into the replay log with the data it returned (R162). A transaction of the
replay log is passed and not issued again (R165 step 3); a store to the shared SRAM, which the undo log has taken back, writes
its word again. DESIGN CHOICE, log entry 73. -/
def issue (r : Retired) (l : Lockstep) : Lockstep :=
  match r.bus with
  | none => l
  | some t =>
    if l.replayed < l.replay.length then { (storeSram t l) with replayed := l.replayed + 1 }
    else { (storeSram t l) with replay := l.replay ++ [(t, l.loaded r)], replayed := l.replayed + 1 }

/-- A retirement leaves its results in the state of core 0, or of core 1. -/
def results0 (r : Retired) (l : Lockstep) : Lockstep :=
  { l with regs0 := putReg r.write l.regs0, next0 := r.next, code0 := putTcm true r.tcm l.code0,
           tcm0 := putTcm false r.tcm l.tcm0 }
def results1 (r : Retired) (l : Lockstep) : Lockstep :=
  { l with regs1 := putReg r.write l.regs1, next1 := r.next, code1 := putTcm true r.tcm l.code1,
           tcm1 := putTcm false r.tcm l.tcm1 }

/-- A retirement of both cores is matched: its results leave the delay line into the state of both, the data of a load into
both (R157 … R162). -/
def matched (d : DelayReg) (r : Retired) (l : Lockstep) : Lockstep :=
  let data := l.loaded d.retired
  issue d.retired (results1 (given data r) (results0 (given data d.retired) { l with
    undo := undoOf l d.retired ++ l.undo, delay := l.delay.drop 1 }))

/-- The register writes of two retirements differ, in register or value, a load's too, whose data both are given (R159,
R160). -/
def writesDiffer (data : Word) (s r : Retired) : Bool := (given data s).write != (given data r).write

/-- The transactions of two retirements differ (R160). -/
def busDiffers (s r : Retired) : Bool :=
  match s.bus, r.bus with
  | some s, some t => !(s.kind == t.kind && s.address == t.address && s.enables == t.enables && s.own == t.own &&
      (s.kind != .store || s.data == t.data))
  | none, none => false
  | _, _ => true

/-- What the comparators find at a retirement of core 1 (R158 … R161): 0 equal, 1 a mismatch, 2 a parity error. Each compares
while it is not marked failed. -/
def compareRetired (d : DelayReg) (r : Retired) (l : Lockstep) : Nat :=
  if retiredParity d.retired != d.parity then 2
  else if l.main != 2 && (writesDiffer (l.loaded d.retired) d.retired r || d.retired.next != r.next) then 1
  else if l.fallback != 2 && busDiffers d.retired r then 1
  else 0

/-- A transaction that re-execution issues again differs from its entry in the replay log (R165 step 5). -/
def replayDiffers (r : Retired) (l : Lockstep) : Bool :=
  match r.bus, l.replay[l.replayed]? with
  | some t, some e => t != e.1
  | _, _ => false

/-- The words of a memory with the undo log replayed backwards into it (R165 step 2). -/
def undone (k : CoreMem) (undo : List (CoreMem × Nat × Word)) (mem : List (Nat × Word)) : List (Nat × Word) :=
  undo.foldl (fun mem u => if u.1 == k then putWord u.2.1 u.2.2 mem else mem) mem

/-- Both cores reload the latest checkpoint, and the undo log is replayed backwards (R165 steps 1, 2): nothing waits, nothing
of the replay log has been passed again. -/
def reloadCores (l : Lockstep) : Lockstep :=
  let c := l.store.headD { regs := [], next := 0 }
  { l with regs0 := c.regs, regs1 := c.regs, next0 := c.next, next1 := c.next, delay := [], undo := [], replayed := 0,
           code0 := undone .code l.undo l.code0, code1 := undone .code l.undo l.code1,
           tcm0 := undone .data l.undo l.tcm0, tcm1 := undone .data l.undo l.tcm1, sram := undone .sram l.undo l.sram }

/-- A mismatch at an instruction, `parity` a delay-register parity error (R158, R165): a rollback starts, and a second one
before the next checkpoint loses lockstep. After the loss of comparison no comparator reports. -/
def mismatch (core : Fin 2) (addr : Nat) (parity : Bool) (m : Module) : Module :=
  if !m.paired || (m.gating = 2 && !parity) then m
  else
    let d := lockstepDetail core.val addr
    let m1 := updLockstep (fun l => { l with parityErrors := if parity then inc32 l.parityErrors else l.parityErrors }) m
    if m.lockstep.rollback then lockstepLost d m1
    else updLockstep (fun l => { (reloadCores l) with
      rollback := true, mismatchTick := m.time.count, mismatchDetail := d }) m1

/-- An instruction of a core that runs alone, without comparison: its results, the data its load returns, its transaction. -/
def alone (results : Retired → Lockstep → Lockstep) (r : Retired) (l : Lockstep) : Lockstep :=
  let data := match r.bus with
    | some t => if t.own then l.sramWord t.address else r.answer
    | none => r.answer
  let l1 := results (given data r) l
  match r.bus with
  | some t => storeSram t l1
  | none => l1

/-- A retirement of a core. In lockstep core 1 retires an instruction only after core 0 is two ahead (R157), and is compared
there; a released transaction that re-executes otherwise loses lockstep, its detail that of the first mismatch. Core 1 runs
alone while core 0 is tested (R169); else core 0 goes on without comparison where the pair does not run (R166, R169, R170,
R172). The flag says that the pair has matched a retirement. DESIGN CHOICE, log entry 73. -/
def retire (x : Retirement) (p : Bool × Module) : Bool × Module :=
  let m := p.2
  let l := m.lockstep
  match x with
  | .core0 r held =>
    if m.paired then (false, updLockstep (retire0 r held) m)
    else if l.bist = 2 then (false, m)
    else (false, updLockstep (alone results0 r) m)
  | .core1 r =>
    if l.bist = 2 then (false, updLockstep (alone results1 r) m)
    else
      match l.delay with
      | [] => (false, m)
      | d :: _ =>
        if !m.paired || l.delay.length < 3 then (false, m)
        else if compareRetired d r l != 0 then (false, mismatch 1 r.address (compareRetired d r l == 2) m)
        else if l.rollback && replayDiffers d.retired l then (false, lockstepLost l.mismatchDetail m)
        else (true, updLockstep (matched d r) m)

/-- The retirements of a command, up to the mismatch that stops both cores (R165 step 1). -/
def retireAll : List Retirement → Bool × Module → Bool × Module
  | [], p => p
  | x :: xs, p =>
    let q := retire x p
    if q.2.lockstep.rollback != p.2.lockstep.rollback || q.2.lockstep.mode != p.2.lockstep.mode then q else retireAll xs q

/-- A checkpoint is due (R162): a count divisible by 2,000 has passed since the last one, or a log is full. -/
def Module.checkpointDue (m : Module) : Bool :=
  let l := m.lockstep
  l.checkpointAt.toNat / 2000 != m.time.count.toNat / 2000 || 2048 ≤ l.undo.length || 256 ≤ l.replay.length

/-- The general registers of the cores differ (R163 step 4): compared only while the fall-back comparator gates. -/
def Module.registersDiffer (m : Module) : Bool :=
  m.gating == 1 && (List.range 32).any (fun k => look k m.lockstep.regs0 != look k m.lockstep.regs1)

/-- The state of core 0 is saved and both logs are emptied; the store holds two checkpoints (R162, R163 step 5). -/
def saveCheckpoint (m : Module) : Module :=
  updLockstep (fun l => { l with
    store := ({ regs := l.regs0, next := l.next0 } : CoreState) :: l.store.take 1, undo := [], replay := [], replayed := 0,
    checkpointAt := m.time.count }) m

/-- LOCKSTEP_CHECKPOINT with the retirements before it and the tests missed (R162 … R164): at a matched retirement when one
is due. The checkpoint that re-execution reaches ends the rollback once it is complete: registers that differ there are a
second mismatch (R165 step 5). A register mismatch has the detail core 0 and the address of its next instruction. DESIGN
CHOICE, log entry 78. -/
def checkpoint (main fallback parity : Bool) (ran : List Retirement) (m : Module) : Module :=
  let p := retireAll ran (false, m)
  let m1 := p.2
  if !p.1 || !m1.paired || !m1.checkpointDue || (m1.lockstep.rollback && m1.lockstep.replayed < m1.lockstep.replay.length)
  then m1
  else
    let m2 := noteTests main fallback parity true m1
    if m2.registersDiffer then mismatch 0 m2.lockstep.next0 false m2
    else saveCheckpoint (if m2.lockstep.rollback then endRollback m2 else m2)

/-- LOCKSTEP_MISMATCH: the retirements up to a mismatch (R165). -/
def runPair (ran : List Retirement) (m : Module) : Module := (retireAll ran (false, m)).2

/-- SUP_LOCKSTEP_LOST: the retirements of a re-execution that fails (R165 step 5). -/
def retryFailed (ran : List Retirement) (m : Module) : Module := if m.lockstep.rollback then runPair ran m else m

/-! ## Logic BIST (R169) -/

/-- SELFTEST naming SUP (R169): core 1, the comparators and the delay registers first, while core 0 runs alone; what waits in the
delay line is dropped. DESIGN CHOICE, log entry 94. -/
def selftestSup (h : Hdr) (m : Module) : Verdict :=
  unlessFails (firstFail
    [failIf h.timed .reservedEncoding,
     failIf (h.relayed && !((h.transport == .cn2 || h.transport == .cn3) && h.fromHead)) .reservedEncoding,
     failIf (m.label != .ready) .selftestTargetActive,
     failIf (m.lockstep.bist != 0) .busy])
    (.scheduled [] (updLockstep (fun l => { l with bist := 1, bistFailed := false, delay := [] }) m))

/-- The cores resume from the state of the one that ran, copied through the checkpoint store, which holds it as a new
checkpoint (R169 steps 2, 4). -/
def resumePair (now : Tick) (l : Lockstep) : Lockstep :=
  let l1 := if l.bist = 2 then { l with regs0 := l.regs1, next0 := l.next1, code0 := l.code1, tcm0 := l.tcm1 }
            else { l with regs1 := l.regs0, next1 := l.next0, code1 := l.code0, tcm1 := l.tcm0 }
  { l1 with store := ({ regs := l1.regs0, next := l1.next0 } : CoreState) :: l1.store.take 1, delay := [], undo := [],
            replay := [], replayed := 0, checkpointAt := now }

/-- SUP_BIST_DONE: a phase ends (R169). The first tests core 1, the comparators and the delay registers, the second core 0. A
failed comparator raises the fault of a missed injection; a failing core loses lockstep, with detail 0 for want of an
instruction, and ends the test. DESIGN CHOICE, log entry 73. -/
def supBistDone (core main fallback parity : Bool) (m : Module) : Module :=
  let phase := m.lockstep.bist
  if phase = 0 then m
  else
    let more := phase = 1 && !core
    let bad := m.lockstep.bistFailed || core || (phase = 1 && (main || fallback || parity))
    let m1 := updLockstep (fun l => { (resumePair m.time.count l) with bist := if more then 2 else 0, bistFailed := bad }) m
    let m2 := if more then m1 else updDie 0 (fun d => { d with bist := if bad then 2 else 1 }) m1
    let m3 := if phase = 1 then noteTests main fallback parity false m2 else m2
    if core then lockstepLost 0 m3 else m3

/-! ## Debug (R171, R172) -/

/-- DEBUG_ATTACH (R171, R172). What waits in the delay line when comparison ends is dropped, its transactions never
issued. DESIGN CHOICE, log entry 94. -/
def debugAttach (h : Hdr) (ws : List Word) (m : Module) : Verdict :=
  unlessFails (firstFail
    [prelude 0xF0 h ws (· == 0) .never true m,
     failIf m.driven .debugRefusedArmed])
    (.done [] (updLockstep (fun l => { l with
      debug := true, mode := if l.mode = .lockstep then .suspended else l.mode,
      rollback := false, delay := [] }) m))

/-- LOCKSTEP_STATUS (R174). -/
def lockstepStatus (m : Module) : Word :=
  let l := m.lockstep
  pack [(l.mode.code, 10), (l.main, 8), (l.fallback, 6), (m.gating, 4), (flag m.coverage, 3), (flag l.debug, 2)]

end Sys2Proof.Machine
end

