-- ==== Sys2Proof/Machine/Memory.lean ====
section
/-!
DEFINITION. Memory integrity (R602 … R612), die temperatures and throttle levels (R613 … R619, R539), the supply and the
reset of single dies (R43, R44, R89).
-/

namespace Sys2Proof.Machine

open F32 (sub lt le)

/-! ## Blocks (R602) -/

/-- A block index that names a block. -/
def blockValid (b : Nat) : Bool := b ≤ 10 || (16 ≤ b && b ≤ 143 && (b - 16) % 16 != 3)

/-- The region of a fabric block and its k. -/
def blockRegion (b : Nat) : Fin 8 := ⟨(b - 16) / 16 % 8, Nat.mod_lt _ (by decide)⟩
def blockK (b : Nat) : Nat := (b - 16) % 16

/-- The die a block lies on. -/
def blockDie (b : Nat) : Fin 46 :=
  if b ≤ 8 then 0 else if b = 9 then 4 else if b = 10 then 5 else regionDie (blockRegion b)

/-- 64-bit words of a block. -/
def blockWords (b : Nat) : Nat :=
  if b = 0 ∨ b = 2 then 65536 else if b = 1 ∨ b = 3 then 32768 else if b = 4 then 1048576
  else if b ≤ 8 then 2048 else if b ≤ 10 then 512
  else
    let k := blockK b
    if k = 0 then 32768 else if k = 1 then 2048 else if k = 2 then 512 else if k < 8 then 2048
    else if k < 12 then 1024 else 768

/-- The scrubber of a block. -/
def scrubberOf (b : Nat) : Fin 5 :=
  if b ≤ 8 then 0 else if b = 9 then 3 else if b = 10 then 4 else if b < 80 then 1 else 2

/-- The die of a scrubber. -/
def scrubberDie (s : Fin 5) : Fin 46 := if s.val = 0 then 0 else if s.val = 1 then 2 else if s.val = 2 then 3 else if s.val = 3 then 4 else 5

/-- The block after `b` in a scrubber's list; none after the last. -/
def nextBlock (s : Fin 5) (b : Nat) : Option Nat :=
  ((List.range 144).filter (fun c => b < c && blockValid c && scrubberOf c == s)).head?

/-- An area C detail (R606). -/
def blockDetail (b : Nat) : Nat := b * 2 ^ 8

/-! ## Word errors (R603, R606 … R608) -/

/-- The count of a corrected word (R603, R608). -/
def noteCorrected (b addr : Nat) (m : Module) : Module :=
  let s := scrubberOf b
  let x := m.memory.scrubbers[s]
  let m1 := updScrubber s (fun x => { x with
    corrected := inc32 x.corrected, window := x.window + 1, lastError := pack [(b, 24), (addr % 2 ^ 20, 1)] }) m
  if m.num P.memCorrectedRateLimit < x.window + 1 && !x.windowRaised then
    raise F.memCorrectedRate (s.val * 2 ^ 8) false (updScrubber s (fun x => { x with windowRaised := true }) m1)
  else m1

/-- An uncorrectable fabric or AFE word noted; found again within 400,000,000 ticks of the first finding, after a repair, it is a
repeat (R607). -/
def noteRepair (b addr : Nat) (repaired : Bool) (m : Module) : Module :=
  let now := m.time.elapsed
  let old := m.memory.repaired.find? (fun r => r.1 == b && r.2.1 == addr)
  let m1 := { m with memory := { m.memory with repaired :=
    (b, addr, (match old with
      | some r => if now ≤ r.2.2 + 400000000 then r.2.2 else now
      | none => now)) :: m.memory.repaired.filter (fun r => !(r.1 == b && r.2.1 == addr)) } }
  if repaired && old.any (fun r => now ≤ r.2.2 + 400000000) then raise F.memUncorrRepeat (blockDetail b) true m1 else m1

/-- The receive FIFOs of a port: first object and depth (R459, R460, R466). -/
def fifos (p : Fin 4) : List (Nat × Nat) :=
  match p with
  | 0 => [(8, 16), (24, 8), (32, 8)]
  | 1 => [(0, 32)]
  | _ => [(16, 48), (64, 32)]

/-- The frames without the `k`-th of a FIFO, the oldest being the 0th. -/
def dropFrame (fifo : Nat) : Nat → List (Nat × RxFrame) → List (Nat × RxFrame)
  | _, [] => []
  | k, f :: fs =>
    if f.1 != fifo then f :: dropFrame fifo k fs
    else match k with
      | 0 => fs
      | k + 1 => f :: dropFrame fifo k fs

/-- An object of a CAN port held an uncorrectable word (R448): cleared and reloaded, its frame lost; the frames of a FIFO
stand in its objects in the order received. DESIGN CHOICE, log entry 44. -/
def objectEcc (p : Fin 4) (object : Nat) (m : Module) : Module :=
  raise F.busObjectEcc p.val false (updCan p (fun c => { c with
    tx := c.tx.eraseP (fun f => f.object == object),
    sent := c.sent.filter (fun x => x.1 != object),
    rx := match (fifos p).find? (fun x => x.1 ≤ object && object < x.1 + x.2) with
      | some x => dropFrame x.1 (object - x.1) c.rx
      | none => c.rx }) m)

/-- A word that reads uncorrectable until it is written whole again (R603, R604). -/
def markBad (b addr : Nat) (m : Module) : Module :=
  { m with memory := { m.memory with bad := (b, addr) :: m.memory.bad.filter (fun p => !(p.1 == b && p.2 == addr)) } }

/-- The bad words of the blocks that satisfy a condition are written anew. -/
def clearBad (p : Nat → Bool) (m : Module) : Module :=
  { m with memory := { m.memory with bad := m.memory.bad.filter (fun w => !p w.1) } }

/-- The instance of an entry that runs in a region. -/
def Region.running (r : Region) (e : Nat) : Nat × Tick :=
  ((r.flight.find? (fun i => i.entry == e && !i.quenched)).map Instance.id).getD (e, 0)

/-- The scrubber overwrites a word of a cluster's scratch or of a lane's with zero (R606). -/
def zeroScratch (k addr : Nat) (r : Region) : Region :=
  if k < 12 then updCluster (k - 8) (fun c => { c with scratch := c.scratch.filter (fun p => p.1 / 2 != addr) }) r
  else { r with lanes := r.lanes.map (fun l =>
           if l.cluster = k - 12 ∧ l.number = addr / 32 then
             { l with words := l.words.filter (fun p => p.1 / 2 != addr % 32) } else l) }

/-- The handling of an uncorrectable word of a fabric block (R606, R607). -/
def fabricUncorrectable (b addr : Nat) (scrub : Bool) (entry : Nat) (m : Module) : Module :=
  let n := blockRegion b
  let k := blockK b
  if k = 1 then noteRepair b addr (m.regions[n]).checkpointValid (checkpointError n m)
  else
    let m0 := if k < 8 then markBad b addr m else m
    let m1 := if scrub then m0 else updRegion n (fun r => spoil (r.running entry) r) m0
    let m2 :=
      if k = 0 && addr < carriedWords / 2 then
        (if scrub then updRegion n (fun r => { r with reloadAt := true }) m1 else m1)
      else if k = 2 then updRegion n (fun r => { r with affected := addr :: r.affected.filter (· != addr) }) m1
      else if 8 ≤ k && scrub then updRegion n (zeroScratch k addr) m1
      else m1
    noteRepair b addr (!m.memory.bad.contains (b, addr)) (raise F.memUncorrFabric (blockDetail b) false m2)

/-- The handling of an uncorrectable word (R606): `entry` is the launch-table entry whose pass read a fabric word, the
message object of a CAN word, the place in the queue of a queue word. -/
def uncorrectable (b addr : Nat) (scrub : Bool) (entry : Nat) (m : Module) : Module :=
  let s := scrubberOf b
  let m1 := updScrubber s (fun x => { x with
    uncorrected := inc32 x.uncorrected, lastError := pack [(b, 24), (addr % 2 ^ 20, 1), (1, 0)] }) m
  if b = 4 ∨ ((b = 1 ∨ b = 3) ∧ m.lockstep.mode ≠ .lockstep) then
    raise F.memUncorrSup (blockDetail b) true (markBad b addr m1)
  else if b ≤ 3 then
    let m2 := raise F.memUncorrRepaired (blockDetail b) false m1
    if scrub then m2 else mismatch (if b < 2 then 0 else 1) 0 false m2
  else if b ≤ 8 then objectEcc ⟨(b - 5) % 4, Nat.mod_lt _ (by decide)⟩ entry m1
  else if b ≤ 10 then
    noteRepair b addr true (raise F.memUncorrFabric (blockDetail b) false
      (updAfe ⟨(b - 9) % 2, Nat.mod_lt _ (by decide)⟩ (fun f => { f with queue := f.queue.eraseIdx entry }) m1))
  else fabricUncorrectable b addr scrub entry m1

/-- MEMORY_READ_ERROR (R603, R606). -/
def readError (b addr : Nat) (bad scrub : Bool) (entry : Nat) (m : Module) : Module :=
  if !blockValid b || blockWords b ≤ addr || !m.dieRuns (blockDie b) then m
  else if bad then uncorrectable b addr scrub entry m
  else noteCorrected b addr m

/-- WORD_REWRITE: the supervisor has rewritten a word of a fabric block outside the carried state, which is good again; an
entry of a launch table is launched again (R606). -/
def wordRewrite (b addr : Nat) (m : Module) : Module :=
  if !blockValid b || b < 16 then m
  else
    let m1 := { m with memory := { m.memory with bad := m.memory.bad.filter (fun p => !(p.1 == b && p.2 == addr)) } }
    if blockK b = 2 then updRegion (blockRegion b) (fun r => { r with affected := r.affected.filter (· != addr) }) m1 else m1

/-! ## FILL_MEMORY (R609) -/

/-- The blocks FILL_MEMORY fills, and the dies they lie on. -/
def fillBlocks (b : Nat) : List Nat :=
  if b = 0xFF then (List.range 144).filter (fun c => 9 ≤ c && blockValid c) else [b]

/-- FILL_MEMORY (R609). -/
def fillMemory (h : Hdr) (ws : List Word) (m : Module) : Verdict :=
  let w := ws.getD 0 0
  let b := bits w 15 8
  let blocks := fillBlocks b
  let dies := (List.finRange 46).filter (fun d => blocks.any (fun c => blockDie c == d))
  let busy := dies.any (fun d => m.memory.filling.any (fun c => blockDie c == d) ||
    (List.finRange 8).any (fun n => regionDie n == d && (m.regions[n]).held))
  unlessFails (firstFail
    [prelude 0x75 h ws (· == 1) .never
       (bits w 31 16 == 0 && bits w 7 0 == 0 && (b == 0xFF || (9 ≤ b && blockValid b))) m,
     failIf (m.label != .ready) .stateForbids,
     failIf (dies.any (fun d => !m.dieRuns d)) .domainStopped,
     failIf busy .busy])
    (let m1 := { m with memory := { m.memory with filling := m.memory.filling ++ blocks } }
     let stop (d : Nat) (m : Module) : Module :=
       if dies.contains (if d = 0 then 2 else 3) then
         zeroRegions d (mapRegions d (fun r => { r.stop with held := true }) m) else m
     .scheduled [] (stop 1 (stop 0 m1)))

/-- A block filled with zero and loaded as at a start (R605, R609): its words are good again, the condition of a repeat
ends (R607), and with the shadow that of its error (R122). DEDUCED, log entry 27. -/
def filled (b : Nat) (m : Module) : Module :=
  let m1 := endCond F.memUncorrRepeat (blockDetail b) (clearBad (· == b)
    { m with memory := { m.memory with
        filling := m.memory.filling.filter (· != b), repaired := m.memory.repaired.filter (fun r => r.1 != b) } })
  if b = 9 ∨ b = 10 then updAfe (if b = 9 then 0 else 1) (fun f => { f with queue := [] }) m1
  else
    let n := blockRegion b
    let k := blockK b
    if k = 0 then initCarried n (updRegion n (fun r => { r with memory := [], shadow := [] }) m1)
    else if k = 1 then
      checkpointFilled n (keepCheckpoint n
        (updRegion n (fun r => { r with shadow := carriedPart r.memory, checkpointValid := true, rebuilding := false }) m1))
    else if k = 2 then updRegion n (fun r => { r with affected := [] }) m1
    else if 8 ≤ k && k < 12 then updRegion n (updCluster (k - 8) (fun c => { c with scratch := [] })) m1
    else m1

/-- FILL_DONE on a die: its regions restart at their next boundary (R44, R609). -/
def fillDone (d : Fin 46) (m : Module) : Module :=
  let blocks := m.memory.filling.filter (fun b => blockDie b == d)
  if blocks.isEmpty then m
  else
    let m1 := blocks.foldl (fun m b => filled b m) m
    { m1 with regions := Vector.ofFn (fun n => if regionDie n == d then (m1.regions[n]).resume else m1.regions[n]) }

/-! ## Scrubbing (R610 … R612) -/

/-- A lap has taken `lap` ticks (R611). -/
def checkLap (s : Fin 5) (lap : Nat) (completed : Bool) (m : Module) : Module :=
  if m.num (P.memScrubLapLimit + s.val) < lap then raise F.memScrubLap (s.val * 2 ^ 8) true m
  else if completed then endCond F.memScrubLap (s.val * 2 ^ 8) m else m

/-- The scrub tick of a scrubber (R610, R618). -/
def Module.scrubTick (m : Module) (s : Fin 5) : Bool :=
  let div := m.num P.memScrubDiv * (if 1 ≤ m.dies[scrubberDie s].throttle then 2 else 1)
  div != 0 && m.time.count.toNat % div == 0

/-- The place of a scrubber after one read: within the block, in the next block, in a block the lap left out while it was
filled, or a new lap (R610, R620). DESIGN CHOICE, log entry 108. -/
def scrubStep (s : Fin 5) (filling : List Nat) (m : Module) : Module :=
  let x := m.memory.scrubbers[s]
  let held := filling.contains x.block
  let left := if held then x.skipped ++ [x.block] else x.skipped
  if !held && x.address + 1 < blockWords x.block then updScrubber s (fun x => { x with address := x.address + 1 }) m
  else
    match (if x.again then none else nextBlock s x.block), left.find? (fun b => !filling.contains b) with
    | some b, _ => updScrubber s (fun x => { x with block := b, address := 0, skipped := left }) m
    | none, some b =>
      updScrubber s (fun x => { x with block := b, address := 0, skipped := left.filter (· != b), again := true }) m
    | none, none =>
      let lap := m.time.elapsed - x.lapStart
      checkLap s lap true (updScrubber s (fun x => { x with
        block := scrubFirst s.val, address := 0, lap := Nat.min 0xFFFFFFFF lap, laps := inc32 x.laps,
        lapStart := m.time.elapsed, skipped := [], again := false }) m)

/-- SCRUB_TICK of a scrubber in an idle slot (R610). -/
def scrub (s : Fin 5) (m : Module) : Module :=
  if !m.dieRuns (scrubberDie s) || !m.scrubTick s then m else scrubStep s m.memory.filling m

/-- MEM_SCRUB_LAP: the running lap passes its limit (R611). -/
def scrubLap (s : Fin 5) (m : Module) : Module :=
  if !m.dieRuns (scrubberDie s) then m
  else checkLap s (m.time.elapsed - (m.memory.scrubbers[s]).lapStart) false m

/-- The running lap of a scrubber is abandoned and a new one starts at the first block of its list (R612). -/
def restartLap (s : Fin 5) (m : Module) : Module :=
  updScrubber s (fun x => { x with block := scrubFirst s.val, address := 0, lapStart := m.time.elapsed, skipped := [], again := false }) m

/-- SCRUB_CONTROL (R84, R86, R612): the writes into an AFE cross first. -/
def scrubControl (h : Hdr) (ws : List Word) (m : Module) : Verdict :=
  let w := ws.getD 0 0
  let s : Fin 5 := ⟨bits w 15 8 % 5, Nat.mod_lt _ (by decide)⟩
  unlessFails (firstFail
    [prelude 0x76 h ws (· == 1) .never (bits w 31 16 == 0 && bits w 7 1 == 0 && bits w 15 8 ≤ 4) m,
     failIf (m.dies[scrubberDie s].supply == 0 || (3 ≤ s.val && !m.dieRuns (scrubberDie s))) .domainStopped])
    (let data := [word (m.memory.scrubbers[s]).lap]
     if !bit w 0 then .done data m
     else if s.val < 3 then .done data (restartLap s m)
     else .waits (holdWrites (if s.val = 3 then 0 else 2)
       { (waitingFor 0x76 h 1 (scrubberDie s).val m) with words := data } m))

/-! ## Temperature (R613 … R619, R539) -/

/-- The threshold group of a die (R617). -/
def thermGroup (d : Nat) : Nat := if d ≤ 1 then 0 else if d ≤ 3 then 1 else if d ≤ 9 then 2 else 3

/-- The threshold of a level of a die's group, and its hysteresis. -/
def Module.threshold (m : Module) (d level : Nat) : Word := m.par (P.thermT1 + 4 * thermGroup d + (level - 1))
def Module.thermHyst (m : Module) (d : Nat) : Word := m.par (P.thermHyst + 4 * thermGroup d)

/-- The highest level whose threshold, less `h`, is at or below a temperature. -/
def Module.levelAt (m : Module) (d : Nat) (t h : Word) : Nat :=
  if le (sub (m.threshold d 3) h) t then 3 else if le (sub (m.threshold d 2) h) t then 2
  else if le (sub (m.threshold d 1) h) t then 1 else 0

/-- The level after a measurement (R617). -/
def Module.newLevel (m : Module) (d old : Nat) (t : Word) : Nat :=
  let up := m.levelAt d t 0
  if old < up then up else Nat.min old (m.levelAt d t (m.thermHyst d))

/-- The fault of a level. -/
def thermFault (level : Nat) : Nat := if level = 1 then F.thermT1 else if level = 2 then F.thermT2 else F.thermT3

/-- A new throttle level of a die with its faults (R617 … R619). DEDUCED, log entry 29. -/
def setLevel (d : Fin 46) (new : Nat) (m : Module) : Module :=
  let old := m.dies[d].throttle
  let m1 := updDie d (fun x => { x with throttle := new }) m
  let m2 := [1, 2, 3].foldl (fun m l => if old < l && l ≤ new then raise (thermFault l) d.val true m else m) m1
  [1, 2, 3].foldl (fun m l => if new < l then endCond (thermFault l) d.val m else m) m2

/-- A diode is broken (R614). -/
def diodeBroken (v10 v100 : Word) : Bool :=
  let lo := dec 2 10
  let hi := dec 9 10
  let d := F32.abs (sub v100 v10)
  !(le lo v10 && le v10 hi && le lo v100 && le v100 hi) || lt d (dec 3 100) || lt (dec 9 100) d

/-- The temperatures MEASURE_TEMP of all dies returns (R539). -/
def Module.allTemps (m : Module) : List Word :=
  (List.finRange 46).map (fun d => if m.dies[d].supply = 0 then F32.nan else m.dies[d].temp)

/-- Every supplied die has been measured since a clock. -/
def Module.measuredSince (m : Module) (t : Nat) : Bool :=
  (List.finRange 46).all (fun d => m.dies[d].supply == 0 || m.dies[d].measuredAt.any (t ≤ ·))

/-- A MEASURE_TEMP of all dies is answered once every supplied one is measured (R539, R620). -/
def answerAllTemps (m : Module) : Module :=
  { m with interp := { m.interp with waiting := m.interp.waiting.map (fun w =>
      if w.opcode == 0x70 && w.result.isNone && w.target == 0x3F && m.measuredSince w.since then
        { w with result := some (0, 0, m.allTemps) } else w) } }

/-- A waiting MEASURE_TEMP answered as far as its dies are measured (R539, R620). -/
def answerTemps (d : Fin 46) (m : Module) : Module :=
  answerAllTemps { m with interp := { m.interp with waiting := m.interp.waiting.map (fun w =>
      if w.opcode == 0x70 && w.result.isNone && w.target == d.val then { w with result := some (0, 0, [m.dies[d].temp]) }
      else w) } }

/-- A measurement of a die is wanted (R613). -/
def Module.wantsTemp (m : Module) (d : Fin 46) : Bool :=
  m.memory.scanRequest == some d.val ||
  m.interp.waiting.any (fun w => w.opcode == 0x70 && w.result.isNone && (w.target == d.val || w.target == 0x3F))

/-- The crossing of the supervisor's commands to a die (R90). -/
def commandCrossing (d : Nat) : Option (Fin 22) :=
  match d with | 4 => some 0 | 5 => some 2 | 7 => some 4 | _ => none

/-- The crossing of a die's replies to the supervisor (R90). -/
def replyCrossing (d : Nat) : Option (Fin 22) :=
  match d with | 4 => some 1 | 5 => some 3 | 7 => some 5 | _ => none

/-- A die with a clocked domain is in reset or without supply (R84). -/
def Module.clockedStopped (m : Module) (d : Nat) : Bool :=
  (d == 4 && !m.dieRuns 4) || (d == 5 && !m.dieRuns 5) || (d == 7 && !m.dieRuns 7)

/-- The dies with a clocked domain and diodes that a MEASURE_TEMP reaches: the one it names, of all 46 those that are supplied
(R90, R539). -/
def Module.measured (m : Module) (d : Nat) : List (Fin 46) :=
  ([4, 5, 7] : List (Fin 46)).filter (fun k => d == k.val || (d == 0x3F && m.dies[k].supply != 0))

/-- TEMP_MEASUREMENT: the two diode voltages and the temperature they give (R613, R614, R617, R620). A broken diode leaves
the level as it is. DEDUCED, log entry 29. -/
def tempMeasured (d : Fin 46) (v10 v100 t : Word) (m : Module) : Module :=
  if m.dies[d].supply = 0 || m.clockedStopped d.val || !m.wantsTemp d then m
  else
    let broken := diodeBroken v10 v100
    let m1 := updDie d (fun x => { x with
      temp := if broken then F32.ofNat 200 else t, measuredAt := some m.time.elapsed })
      { m with memory := { m.memory with
          scanRequest := if m.memory.scanRequest = some d.val then none else m.memory.scanRequest } }
    let m2 := endCond F.thermStale d.val m1
    let m3 := if broken then raise F.thermSensorBroken d.val true m2
              else setLevel d (m.newLevel d.val m.dies[d].throttle t) (endCond F.thermSensorBroken d.val m2)
    answerTemps d (match replyCrossing d.val with
      | some i => crossWords i 1 m3
      | none => m3)

/-- MEASURE_TEMP (R84, R539): a supplied die with a clocked domain in reset ends it at once, also where all dies are named. -/
def measureTemp (h : Hdr) (ws : List Word) (m : Module) : Verdict :=
  let w := ws.getD 0 0
  let d := bits w 5 0
  unlessFails (firstFail
    [prelude 0x70 h ws (· == 1) .never (bits w 31 6 == 0 && (d ≤ 45 || d == 0x3F)) m,
     failIf ((d ≤ 45 && (m.dies.toList.getD d (Die.init 0)).supply == 0) ||
       (m.measured d).any (fun k => m.clockedStopped k.val)) .domainStopped])
    (.waits ((m.measured d).foldl (fun m k => match commandCrossing k.val with
       | some i => sendCommand i m
       | none => m) (m.withWaiting (waitingFor 0x70 h 1 d m))))

/-- THERM_STALE of a die (R616). -/
def thermStale (d : Fin 46) (m : Module) : Module :=
  let last := Nat.max (m.dies[d].measuredAt.getD 0) m.supply.readyAt
  if !m.atLeastReady || !m.scanned d || m.time.elapsed ≤ last + m.us P.thermStaleLimit then m
  else raise F.thermStale d.val true m

/-! ## Single dies (R23, R43, R44, R89) -/

/-- A fabric die starts anew: memories filled, regions idle and waiting with the outputs of R119; the marks of stuck units and
those of a BIST stay (R44, R100, R137, R605). -/
def freshFabric (d : Nat) (m : Module) : Module :=
  let m1 := restartRegions d m
  let mine (b : Nat) : Bool := 16 ≤ b && blockValid b && (b - 16) / 64 == d
  let m2 := clearBad mine ((List.range 144).foldl (fun m b =>
    if mine b then endCond F.memUncorrRepeat (blockDetail b) m else m) m1)
  if d = 0 then
    { m2 with traction := m2.traction.map (fun t => { t with sample := TrSample.init }),
              chopper := { m2.chopper with sregenValid := false },
              published := { m2.published with chopper := { m2.published.chopper with sregenValid := false } },
              checkpoints := { m2.checkpoints with chopper := { m2.checkpoints.chopper with sregenValid := false } } }
  else m2

/-- An AFE starts anew: preset decisions, empty queue; slice roles and corrections stay (R428, R433). -/
def freshAfe (a : Fin 2) (m : Module) : Module :=
  endCond F.memUncorrRepeat (blockDetail (9 + a.val)) (clearBad (· == 9 + a.val) (updAfe a Afe.preset m))

/-- The GDC starts anew: decoders unacquired, the breaks its decoders find reported, EN observed anew, no test running, no edge
placed and a turn-off on its way to every gate that is on or would come on; its own silence is no loss of the island links
(R262, R281, R354, R355). -/
def freshGdc (m : Module) : Module :=
  let now := m.time.elapsed
  (List.finRange 6).foldl (fun m p => if m.lineBroken p then raisePort F.fbLineBreak p true m else m)
  { m with feedback := Vector.ofFn (fun p =>
             let f := { unacquire m.feedback[p] with epStart := 2 }
             (List.range 5).foldl (fun f l =>
               if f.broken.testBit l && m.lineUsed p l then breakLine (m.fsource p) l f else f) f),
            gate := { GateCtl.init with enSeenAt := now },
           islands := m.islands.map (fun i => { i with
             goodStatusAt := now, placed := false, askedAt := none, served := false,
             edges := if i.gateLevel || !i.edges.isEmpty then i.edges ++ [(now, false)] else [] }) }

/-- A die re-initialised to READY conditions. -/
def freshDie (d : Fin 46) (m : Module) : Module :=
  if d.val = 2 then freshFabric 0 m else if d.val = 3 then freshFabric 1 m
  else if d.val = 4 then freshAfe 0 m else if d.val = 5 then freshAfe 1 m
  else if d.val = 7 then freshGdc m
  else if d.val = 8 then { m with actuators := m.actuators.map (fun x => { x with sinceRefresh := Vector.replicate 3 0 }) }
  else m

/-- The crossings of a die (R90). -/
def crossingsOf (d : Nat) : List Nat :=
  match d with
  | 0 => [0, 1, 2, 3, 4, 5, 12, 13] ++ List.range' 14 8
  | 2 => [6, 8, 10, 14, 15, 16, 17] | 3 => [7, 9, 11, 18, 19, 20, 21] | 4 => [0, 1, 6, 7] | 5 => [2, 3, 8, 9]
  | 7 => [4, 5, 10, 11] | _ => []

/-- A crossing after a paired reset: nothing under way, both sides' event counts 0; DROPPED, OVERFLOW and a stalled access
stay (R85, R89). -/
def Crossing.fresh (i : Nat) (c : Crossing) : Crossing :=
  { Crossing.init i with dropped := c.dropped, overflow := c.overflow, stalled := c.stalled }

/-- The crossings of a die start with nothing under way (R89). -/
def freshCrossings (d : Nat) (m : Module) : Module :=
  { m with crossings := Vector.ofFn (fun i =>
      if (crossingsOf d).contains i.val then Crossing.fresh i.val m.crossings[i] else m.crossings[i]) }

/-- A waiting command has an access into die `d` open: a test the GDC or an AFE runs for it, writes on their way, the measurement
of its temperature or of all. -/
def addresses (d : Nat) (w : Waiting) : Bool :=
  w.result.isNone &&
  (if w.opcode = 0x71 then (if 100 ≤ w.target then (w.target - 100) / 2 + 4 == d else d == 7)
   else if w.opcode = 0x78 then d == 7
   else if w.opcode = 0x72 ∨ w.opcode = 0x76 then w.target == d
   else w.opcode == 0x70 && (w.target == d || (w.target == 0x3F && (d == 4 || d == 5 || d == 7))))

/-- The accesses into a die that stops stall since they began (R85), and none of their writes is applied any more (R86).
DEDUCED, log entry 22. -/
def stallAccesses (d : Nat) (m : Module) : Module :=
  match commandCrossing d, m.interp.waiting.filter (addresses d) with
  | some i, w :: _ =>
    updCrossing i (fun c => { c with stalled := some (c.stalled.getD w.since) })
      { m with interp := { m.interp with waiting := m.interp.waiting.map (fun w =>
          if addresses d w then { w with heldUntil := none } else w) } }
  | _, _ => m

/-- A die goes into reset: what it did stops, and the accesses into it stall (R42, R85): a fabric die holds nothing any more but
the outputs that have landed in the GDC, which stay there until the die starts anew (R23, R24); the GDC places no edge and its
test ends, the LGD's gates go off. The islands, dies of their own, find the silence of the GDC themselves (R354). -/
def holdDie (d : Fin 46) (m : Module) : Module :=
  let m1 := stallAccesses d.val (updDie d (fun x => { x with inReset := true }) (freshCrossings d.val m))
  if d.val = 2 then withhold m1 (zeroRegions 0 (mapRegions 0 Region.stop m1))
  else if d.val = 3 then withhold m1 (zeroRegions 1 (mapRegions 1 Region.stop m1))
  else if d.val = 7 then { m1 with gate := { m1.gate with test := 0 } }
  else if d.val = 8 then lgdOff m1
  else m1

/-- Before a commanded reset the GDC sends every island a reset frame: each holds its output off and waits for frames without a
timeout (R354). -/
def sendResetFrames (d : Fin 46) (m : Module) : Module :=
  if d.val = 7 then
    { m with islands := m.islands.map (fun i => { i with
        output := false, placed := false, edges := [], gateLevel := false, askedAt := none, waits := true }) }
  else m

/-- The release of a die from reset (R44, R89). -/
def releaseDie (d : Fin 46) (m : Module) : Module :=
  freshDie d (freshCrossings d.val (updDie d (fun x => { x with inReset := false }) m))

/-- The marks of stuck units are cleared on a fabric die whose reset is commanded (R100). -/
def unstick (d : Fin 46) (m : Module) : Module :=
  if d.val = 2 ∨ d.val = 3 then mapRegions (d.val - 2) (fun r => { r with stuck := 0 }) m else m

/-- The dies RESET_DIE resets alone (R43). -/
def resettable (d : Nat) : Bool := 2 ≤ d && d ≤ 8 && d != 6

/-- RESET_DIE of a die other than SUP (R43, R542); SUP is a module restart. -/
def resetDieCheck (h : Hdr) (ws : List Word) (m : Module) : Check :=
  let w := ws.getD 0 0
  let d := bits w 5 0
  firstFail
    [prelude 0xF1 h ws (· == 1) .never (bits w 31 6 == 0 && d ≤ 45) m,
     failIf (d != 0 && !resettable d) .illegalTransition,
     failIf (if d = 0 then m.label != .standby && m.label != .ready else m.label != .ready || m.inTransition) .stateForbids,
     failIf ((m.dies.toList.getD d (Die.init 0)).inReset) .busy]

/-- RESET_DIE (R43): the marks of stuck units of a fabric die are cleared (R100); the reply leaves once the die has left reset
(R542). -/
def resetDie (h : Hdr) (ws : List Word) (m : Module) : Verdict :=
  let d : Fin 46 := ⟨(ws.getD 0 0).toNat % 46, Nat.mod_lt _ (by decide)⟩
  unlessFails (resetDieCheck h ws m)
    (.waits (holdDie d (sendResetFrames d ((unstick d m).withWaiting (waitingFor 0xF1 h 1 d.val m)))))

/-- DIE_RESET_RELEASE: a commanded reset ends once the supply is in tolerance (R44, R542). -/
def dieResetRelease (d : Fin 46) (m : Module) : Module :=
  if !m.dies[d].inReset || m.dies[d].supply != 1 then m
  else resolveWaiting [0xF1] (· == d.val) 0 0 [] (releaseDie d m)

/-- DIE_SUPPLY_CHANGE: a supplied die's rail leaves or returns into tolerance (R23, R44): out of it the die is in reset, and
a commanded reset that waits for the supply ends with its return (R43). An island's output goes off. What SUP, FL, PHY and AUX
do at their return is theirs to go on. DESIGN CHOICE, log entry 74. -/
def dieSupply (d : Fin 46) (ok : Bool) (m : Module) : Module :=
  let s := m.dies[d].supply
  if s = 0 then m
  else if ok then
    if s = 1 then m
    else resolveWaiting [0xF1] (· == d.val) 0 0 [] (releaseDie d (updDie d (fun x => { x with supply := 1 }) m))
  else
    let m1 := updDie d (fun x => { x with supply := 2 }) m
    if h : 10 ≤ d.val then
      updIsland ⟨d.val - 10, by omega⟩ Island.unpowered m1
    else holdDie d m1

end Sys2Proof.Machine
end

