-- ==== Sys2Proof/Machine/System.lean ====
section
/-!
DEFINITION. The system on the axle link (R476 … R512): time agreement, the Porch and admission, loss of admission, removal
of nodes, torque allocation, relayed packets and the answers of Tailstocks.
-/

namespace Sys2Proof.Machine

/-! ## Who is heard -/

/-- Node `n` has been heard within SYS_NODE_SILENCE. -/
def Module.heard (m : Module) (n : Fin 16) : Bool :=
  (m.sys.nodes[n]).heardAt.any (fun t => m.time.elapsed ≤ t + m.num P.sysNodeSilence)

/-- A STATUS of node `n` has been heard within SYS_NODE_SILENCE (R488). -/
def Module.statusHeard (m : Module) (n : Fin 16) : Bool :=
  (m.sys.nodes[n]).statusAt.any (fun t => m.time.elapsed ≤ t + m.num P.sysNodeSilence)

/-- SYS_PRESENT_MASK (R510), the module's own node among those present. DEDUCED, log entry 38. -/
def Module.presentMask (m : Module) : Nat :=
  maskOf 16 (fun n => n == m.straps.node.val || (if h : n < 16 then m.heard ⟨n, h⟩ else false))

/-- The node a word names in [3:0]. -/
def nodeOf (w : Word) : Fin 16 := ⟨w.toNat % 16, Nat.mod_lt _ (by decide)⟩

/-- Node `n` is in the admitted set of the Headstock (R503). -/
def Module.inSet (m : Module) (n : Nat) : Bool := m.sys.admittedMask.testBit n

/-- The bit of a node in a mask, cleared. -/
def clearBit (mask n : Nat) : Nat := if mask.testBit n then mask - 2 ^ n else mask

/-! ## Time agreement (R478 … R485) -/

/-- The mean of a list of samples. -/
def mean (xs : List Rat) : Rat := if xs.isEmpty then 0 else xs.foldl (· + ·) 0 / (xs.length : Rat)

/-- The last 8 of a list (R478, R483). -/
def last8 (xs : List Rat) : List Rat := xs.drop (xs.length - 8)

/-- The offset estimate in use: ô, or the wired mean in wired lock (R483, R510). DEDUCED, log entry 105. -/
def Module.offset (m : Module) : Rat :=
  if m.isHead then 0 else if m.sys.timeState = .wiredLock then mean m.sys.wired else mean m.sys.samples

/-- A Tailstock is time-locked (R485). -/
def Module.timeLocked (m : Module) : Bool :=
  m.isHead || m.sys.timeState == .linkLock || m.sys.timeState == .wiredLock

/-- The magnitude of a rational. -/
def ratAbs (q : Rat) : Rat := if q < 0 then -q else q

/-- A value held within bounds. -/
def ratClamp (lo hi q : Rat) : Rat := if q < lo then lo else if hi < q then hi else q

/-- Something is scheduled on the count (R482). -/
def Module.scheduledOnCount (m : Module) : Bool :=
  !m.interp.timed.isEmpty || m.sys.held.any (fun a => m.time.count.toNat ≤ a.instant.toNat) || m.commitPending

/-- After a step the first pair of matching retirements takes a checkpoint (R162, R482 item 3): the last one counts as taken
in another period of 2,000 ticks. -/
def checkpointAfterStep (m : Module) : Module :=
  { m with lockstep := { m.lockstep with checkpointAt := m.time.count + 2000 } }

/-- The count steps at a SYNC (R481, R482). -/
def stepCount (m : Module) : Module :=
  let o := m.offset
  if m.isHead || m.label != .standby || m.sys.admitted || ratAbs o ≤ 10 || m.scheduledOnCount then m
  else
    let m1 := windowsEnd { m with time := { m.time with
      count := m.time.count - BitVec.ofInt 64 (roundRat o), stepped := true, carryWindow := true } }
    checkpointAfterStep (updSys (fun s => { s with samples := [], wired := [], sync := Vector.replicate 2 none }) m1)

/-- The servo adjusts the rate (R481): by a value the manual does not state, within 0.1 ppm per millisecond of the last and
within SYS_SLEW_MAX; not while the region of the system runs and the last commit of its entry was a fallback (R118). DESIGN
CHOICE, log entry 7. -/
def servo (m : Module) : Module :=
  let (w, m1) := takeFree m
  let step : Rat := ((m.time.elapsed - m.sys.rateAt : Nat) : Rat) / 4000000
  let most := F32.rat (m.par P.sysSlewMax)
  let near := ratClamp (m.sys.rate - step) (m.sys.rate + step) (F32.rat w)
  if m.sys.rateHeld && m.regionRuns m.epochs.active.sysFin then m
  else updSys (fun s => { s with rate := ratClamp (-most) most near, rateAt := m.time.elapsed }) m1

/-- Loss of admission with its fault (R491): the Tailstock is back on the Porch; in ARMED and RUN every power function
takes its pattern. -/
def loseAdmission (code detail : Nat) (m : Module) : Module :=
  if m.isHead || !m.sys.admitted then m
  else
    let m1 := raise code detail true (updSys (fun s => { s with admitted := false }) m)
    if m.driven then setPatterns powerFuncs code detail m1 else m1

/-- The time state changes; a lock gained ends the condition of SYS_TIME_LOCK_LOST, one lost costs admission (R485,
R491). -/
def enterTime (s : TimeState) (m : Module) : Module :=
  let m1 := updSys (fun x => { x with timeState := s, lockCount := 0, unlockCount := 0, wiredCount := 0 }) m
  if m1.timeLocked then endCond F.sysTimeLockLost 0 m1 else loseAdmission F.sysTimeLockLost 0 m1

/-- The time state after an offset sample of SYNC number `seq` (R485): each SYNC counts once. DEDUCED, log entry
38. -/
def judgeOffset (seq : Nat) (m : Module) : Module :=
  let o := ratAbs m.offset
  let first := m.sys.countedSeq != seq
  let m1 := updSys (fun s => { s with countedSeq := seq }) m
  match m.sys.timeState with
  | .unlocked => enterTime .slewing m1
  | .slewing =>
    if 10 < o then updSys (fun s => { s with lockCount := 0 }) m1
    else if !first then m1
    else if m.sys.lockCount + 1 = 8 then enterTime .linkLock m1
    else updSys (fun s => { s with lockCount := s.lockCount + 1 }) m1
  | _ =>
    if o ≤ 20 then updSys (fun s => { s with unlockCount := 0 }) m1
    else if !first then m1
    else if m.sys.unlockCount + 1 = 3 then enterTime .slewing m1
    else updSys (fun s => { s with unlockCount := s.unlockCount + 1 }) m1

/-- An offset sample of port `p` (R478): own stamp less the Headstock's less the path delay; none on a port never
measured (R479). -/
def offsetSample (p : Fin 2) (seq : Nat) (rx tx : Tick) (m : Module) : Module :=
  match m.sys.delays[p] with
  | none => m
  | some d =>
    let o : Rat := (((rx.toNat : Int) - (tx.toNat : Int) : Int) : Rat) - d
    servo (judgeOffset seq (updSys (fun s => { s with samples := last8 (s.samples ++ [o]), sampleAt := m.time.elapsed }) m))

/-- A path delay that has come is in use from this SYNC of its port on (R479). -/
def useDelay (p : Fin 2) (s : System) : System :=
  { s with delays := Vector.upd s.delays p (fun d => (s.newDelays[p]).or d),
           newDelays := Vector.upd s.newDelays p (fun _ => none) }

/-- A Tailstock receives SYNC on port `p`, its synchronising edge on a tick: a step that is due happens, otherwise the SYNC
waits with its stamp for its SYNC_FU (R478, R481). -/
def syncArrives (p : Fin 2) (seq : Nat) (rx : Tick) (m : Module) : Module :=
  let m1 := stepCount m
  if m1.time.count != m.time.count then m1
  else updSys (fun s => { useDelay p s with sync := Vector.upd s.sync p (fun _ =>
    some { seq := seq, stamp := m.stampOf rx, at_ := m.time.elapsed }) }) m

/-- A Tailstock receives SYNC_FU on port `p`: a sample when it matches the SYNC and comes within AL_SYNC_PERIOD (R478); the SYNC
waits on for the number it matches. -/
def syncFuArrives (p : Fin 2) (of_ : Nat) (tx : Tick) (m : Module) : Module :=
  match m.sys.sync[p] with
  | none => m
  | some x =>
    if x.seq != of_ then m
    else
      let m1 := updSys (fun s => { s with sync := Vector.upd s.sync p (fun _ => none) }) m
      if m.time.elapsed ≤ x.at_ + m.num P.alSyncPeriod then offsetSample p x.seq x.stamp tx m1 else m1

/-- WIRED_SYNC_EDGE with the edge time in tenths of a tick, an event of the bus domain (R83, R483, R485). SYS_TS_CABLE_DELAY
is subtracted as it stands, not rounded to ticks (R11). DESIGN CHOICE, log entry 101. -/
def wiredEdge (edge : Nat) (m0 : Module) : Module :=
  if m0.isHead || m0.num P.tsMode != 2 || m0.label.code < 2 then m0
  else
    let m := noteEvent 13 m0
    let period := m.num P.alSyncPeriod
    let nearest := (edge + 5 * period) / (10 * period) * period
    let o : Rat := (edge : Rat) / 10 - (nearest : Rat) - F32.rat (m.par P.sysTsCableDelay) / (5 / 2)
    let xs := last8 (m.sys.wired ++ [o])
    let good := decide (ratAbs (mean xs) ≤ 2)
    let m1 := updSys (fun s => { s with wired := xs, missingPulses := 0,
                                        wiredCount := if good then s.wiredCount + 1 else 0 }) m
    match m.sys.timeState with
    | .linkLock => if good && 8 ≤ m.sys.wiredCount + 1 then enterTime .wiredLock m1 else m1
    | .wiredLock => if good then m1 else enterTime .linkLock m1
    | _ => m1

/-- WIRED_SYNC_PULSE_MISSING: after three expected edges in a row the link offset is in use again (R483, R485). -/
def wiredMissing (m : Module) : Module :=
  if m.isHead || m.num P.tsMode != 2 then m
  else
    let m1 := updSys (fun s => { s with wired := [], wiredCount := 0 }) m
    if m.sys.timeState = .wiredLock then enterTime .linkLock m1 else m1

/-- SYNC_HOLDOVER_EXPIRY (R485): the rate stays as it is, the samples too. -/
def syncHoldover (m : Module) : Module :=
  if m.isHead || m.sys.timeState == .unlocked || m.time.elapsed < m.sys.sampleAt + m.us P.sysSyncHoldover then m
  else enterTime .unlocked m

/-- TS is driven high by the module (R483). -/
def Module.tsHigh (m : Module) : Bool := m.num P.tsMode == 3 && m.time.elapsed < m.sys.tsUntil

/-- SYNC_SEND: the Headstock places SYNC on both ports and drives TS high for 100 ticks at a count divisible by AL_SYNC_PERIOD
(R476, R483). SYNC_FU follows each port's stamp (CAN_FRAME_TRANSMITTED). -/
def syncSend (m : Module) : Module :=
  if !m.isHead || m.label.code < 2 || m.time.count.toNat % m.num P.alSyncPeriod != 0 then m
  else
    let m1 := offerAxle 0x010 true [0, 0, 0] none m
    if m.num P.tsMode = 3 then
      emit (.tsPulse 100) (strobe 12 (updSys (fun s => { s with tsUntil := m.time.elapsed + 100 }) m1))
    else m1

/-- The bytes of a tick64 value, lowest first. -/
def tickBytes (t : Tick) : List Byte := (tickWords t).flatMap wordBytes

/-- SYNC_FU on the port whose SYNC has been stamped (R462, R476): it takes the next number of its identifier, the two ports'
frames for one SYNC the same (R461). DESIGN CHOICE, log entry 103. -/
def syncFu (p : Fin 4) (seq : Byte) (stamp : Tick) (m : Module) : Module :=
  if m.axleSilent then m
  else
    let again := m.sys.fuOf == seq.toNat
    let own := if again then (m.seqOf 0x011 + 255) % 256 else m.seqOf 0x011
    let m1 := offer p 0 15 0x011 true ([BitVec.ofNat 8 own, seq, 0, 0] ++ tickBytes stamp) none m
    if again then m1 else updSys (fun s => { s with fuOf := seq.toNat }) (bumpSeq 0x011 m1)

/-! ## Path delay (R479, R480) -/

/-- The packet of a probe: TIME_SYNC without parameter words, relayed, its data asked for; its tag numbers the probe. -/
def probeWords (k : Nat) : List Word :=
  let body : List Word := [pack [(0x82, 24), (k % 256, 16), (2, 4), (1, 1), (1, 0)]]
  body ++ [crc32c body]

/-- A measurement of a list of nodes starts. -/
def startMeasure (ns : List Nat) (m : Module) : Module :=
  if ns.isEmpty then m
  else match m.sys.measurement with
    | none => updSys (fun s => { s with measurement := some { nodes := ns, port := 0, sent := 0, sentAt := 0, stamps := [] } }) m
    | some x => updSys (fun s => { s with measurement := some { x with nodes := x.nodes ++ ns } }) m

/-- The measurement goes on to the next port, the next node, or ends. -/
def Measurement.next (x : Measurement) : Option Measurement :=
  if x.port = 0 then some { x with port := 1, sent := 0, stamps := [] }
  else match x.nodes with
    | _ :: n :: ns => some { nodes := n :: ns, port := 0, sent := 0, sentAt := 0, stamps := [] }
    | _ => none

/-- The delay samples of the complete sets (R479). -/
def Measurement.samples (x : Measurement) : List Rat :=
  x.stamps.filterMap (fun s => match s with
    | (some t1, some t2, some t3, some t4) =>
      some (((((t2.toNat : Int) - t1.toNat) + ((t4.toNat : Int) - t3.toNat) : Int) : Rat) / 2)
    | _ => none)

/-- The path delay of a measurement: none when fewer than half the sets are complete (R479). -/
def Measurement.delay (x : Measurement) (wanted : Nat) : Option Rat :=
  if 2 * x.samples.length < wanted then none else some (mean x.samples)

/-- DELAY_PROBE (R479): a probe leaves no sooner than a millisecond after the last. After the last the mean of the complete sets
leaves for the Tailstock in a form the manual does not give; a port with fewer than half of them fails, which changes
nothing. At a Tailstock a delay waits for the next SYNC. DESIGN CHOICE, log entry 39. -/
def delayProbe (k : ProbeStep) (m : Module) : Module :=
  match k with
  | .send t1 =>
    (match m.sys.measurement with
     | none => m
     | some x =>
       if !m.isHead || m.axleSilent || m.num P.sysDelaySamples + 1 ≤ x.sent ||
           (x.sent != 0 && m.time.elapsed < x.sentAt + 400000) then m
       else
         let node := x.nodes.headD 0
         let bytes := BitVec.ofNat 8 (m.seqOf (0x100 + node)) ::
           (segments 109 110 ((probeWords x.sent).flatMap wordBytes)).headD []
         let p : Fin 4 := if x.port = 0 then 2 else 3
         bumpSeq (0x100 + node) (offer p 0 15 (0x100 + node) false bytes none
           (updSys (fun s => { s with measurement := some { x with
             sent := x.sent + 1, sentAt := m.time.elapsed, stamps := x.stamps ++ [(some (m.stampOf t1), none, none, none)] } }) m)))
  | .finish =>
    (match m.sys.measurement with
     | none => m
     | some x =>
       if x.sent < m.num P.sysDelaySamples + 1 then m
       else
       let m1 := updSys (fun s => { s with measurement := x.next }) m
       match x.delay (m.num P.sysDelaySamples) with
       | some d => emit (.pathDelay (x.nodes.headD 0) (2 + x.port) d) m1
       | none => m1)
  | .delay p d => if m.isHead then m else updSys (fun s => { s with newDelays := Vector.upd s.newDelays p (fun _ => some d) }) m

/-- The reply to probe `k` carries t2(k) and t3(k − 1); t4(k) is the receive stamp of the reply (R479). -/
def probeReply (node k : Nat) (data : List Word) (t4 : Tick) (m : Module) : Module :=
  match m.sys.measurement with
  | none => m
  | some x =>
    if x.nodes.headD 16 != node then m
    else
      let t2 := tickOf (data.getD 0 0) (data.getD 1 0)
      let t3 := tickOf (data.getD 2 0) (data.getD 3 0)
      let st := (List.range x.stamps.length).map (fun i =>
        let s := x.stamps.getD i (none, none, none, none)
        if i = k then (s.1, some t2, s.2.2.1, some t4)
        else if i + 1 = k then (s.1, s.2.1, some t3, s.2.2.2) else s)
      updSys (fun s => { s with measurement := some { x with stamps := st } }) m

/-- TIME_SYNC of the host (R480). -/
def timeSync (h : Hdr) (ws : List Word) (m : Module) : Verdict :=
  let w := ws.getD 0 0
  let n := nodeOf w
  let all := bit w 16
  let nodes := if all then (List.finRange 16).filter (fun k =>
      k != m.straps.node && ((m.sys.nodes[k]).porch || m.inSet k.val)) else [n]
  unlessFails (firstFail
    [prelude 0x82 h ws (· == 1) .never (bits w 31 17 == 0 && bits w 15 4 == 0) m,
     failIf (!all && !m.heard n) .tailstockUnknown n.val,
     failIf m.sys.measurement.isSome .busy])
    (.scheduled [] (startMeasure (nodes.map (·.val)) m))

/-- TIME_SYNC_PROBE: a relayed probe is answered with its receive stamp and the send stamp of the last answer (R479). -/
def timeSyncProbe (h : Hdr) (t2 t3 : Tick) (m : Module) : Verdict :=
  unlessFails (prelude 0x82 h [] (· == 0) .never h.relayed m) (.done (tickWords t2 ++ tickWords t3) m)

/-! ## Admission (R486 … R490) -/

/-- A Tailstock is on the Porch (R486). -/
def Module.onPorch (m : Module) : Bool :=
  !m.isHead && 2 ≤ m.label.code && m.isobus.claimed && m.sys.statusAt.isSome && !m.sys.admitted

/-- Epoch compatibility of a Tailstock (R486). -/
def Module.epochCompat (m : Module) : Bool :=
  m.isHead || (m.sys.headEpoch == some m.epochs.active.number && m.sys.headSetCrc == some m.epochs.active.setCrc)

/-- The failing conditions of R486 as the detail of STATE_FORBIDS (R488). -/
def admitDetail (time epoch hvil conflict : Bool) : Nat :=
  flag (!time) + 2 * flag (!epoch) + 4 * flag (!hvil) + 8 * flag conflict

/-- The conditions of node `n` as the Headstock knows them (R486 … R488). -/
def Module.nodeDetail (m : Module) (n : Fin 16) : Nat :=
  let x := m.sys.nodes[n]
  admitDetail x.timeLocked (x.epoch == m.epochs.active.number && x.setCrc == some m.epochs.active.setCrc) x.hvil
    x.conflict

/-- The Tailstock's own conditions. -/
def Module.ownDetail (m : Module) : Nat :=
  admitDetail m.timeLocked m.epochCompat m.supply.hvil m.sys.nodeConflict

/-- A system-wide commit is pending (R488, R497). -/
def Module.wideCommit (m : Module) : Bool :=
  m.epochs.provisional.isSome || m.epochs.pending.any (·.systemWide)

/-- The rows R488 and R490 share, up to TIME_IN_PAST and the node. -/
def nodeChecks (opcode : Nat) (h : Hdr) (ws : List Word) (m : Module) : Check :=
  let w := (ownWords h ws).getD 0 0
  let n := nodeOf w
  firstFail
    [prelude opcode h ws (· == 1) .optional (bits w 31 4 == 0) m,
     failIf (m.isHead && (n == m.straps.node || !m.statusHeard n)) .tailstockUnknown n.val,
     failIf m.wideCommit .busy]

/-- The packet of a relayed READ_PARAM of SYS_SET_CRC (R487 step 1). -/
def readSetCrc (tag : BitVec 8) : List Word :=
  let body : List Word := [pack [(0x10, 24), (tag.toNat, 16), (1, 8), (2, 4), (1, 1), (1, 0)], 0xE445]
  body ++ [crc32c body]

/-- The packet of a relayed ADMIT_TAILSTOCK or RELEASE_TAILSTOCK with the same instant (R487 step 3, R490). -/
def nodePacket (opcode : Nat) (h : Hdr) (ws : List Word) : List Word :=
  let body : List Word :=
    pack [(opcode, 24), (h.tag.toNat, 16), (ws.length, 8), (2, 4), (flag h.timed, 2), (1, 1)] :: ws
  body ++ [crc32c body]

/-- A Tailstock is admitted: its shares are 0.0 until an allocation names it (R487); one that is already stays as it is
(R488). -/
def becomeAdmitted (m : Module) : Module :=
  if m.sys.admitted then m
  else { updSys (fun s => { s with admitted := true }) m with traction := m.traction.map (fun t => { t with share := 0 }) }

/-- A node enters the admitted set of the Headstock, with shares of 0.0 (R487); one that is in it stays as it is (R488). -/
def enterSet (n : Fin 16) (m : Module) : Module :=
  if m.inSet n.val then m
  else
    updNode n (fun x => { x with shareA := 0, shareB := 0 })
      (updSys (fun s => { s with admittedMask := s.admittedMask + 2 ^ n.val }) m)

/-- The conditions of ADMIT_TAILSTOCK that depend on the state of a Tailstock, checked at its receipt and at I unless it is
admitted already (R487 step 4, R488, R528). -/
def ownAdmitCheck (m : Module) : Check := failIf (!m.sys.admitted && m.ownDetail != 0) .stateForbids m.ownDetail

/-- ADMIT_TAILSTOCK (R487, R488); a timed one needs room among the pending timed commands (R527). DEDUCED, log
entry 20. -/
def admitTailstock (h : Hdr) (ws : List Word) (m : Module) : Verdict :=
  let n := nodeOf ((ownWords h ws).getD 0 0)
  unlessFails (nodeChecks 0x80 h ws m)
    (if m.isHead then
       if m.inSet n.val then .done [] m
       else if (m.sys.nodes[n]).conflict then .refuse .stateForbids (m.nodeDetail n)
       else if h.timed && 32 ≤ m.interp.timed.length then .refuse .busy 0
       else
         .pends (relayTo n.val (readSetCrc h.tag) { m with interp := { m.interp with waiting := m.interp.waiting ++
           [{ opcode := 0x80, hdr := h, count := ws.length, target := n.val, since := m.time.elapsed, result := none,
              words := ws, key := 0x10 * 256 + h.tag.toNat }] } })
     else if m.sys.admitted then .done [] m
     else unlessFails (ownAdmitCheck m) (nowOrTimed 0x80 h ws m becomeAdmitted))

/-- The Headstock's part of a release (R490). -/
def releaseNode (n : Fin 16) (m : Module) : Module :=
  updNode n (fun x => { x with shareA := 0, shareB := 0 })
    (updSys (fun s => { s with
      admittedMask := clearBit s.admittedMask n.val,
      held := s.held.map (fun a => { a with shares := a.shares.map (fun x => if x.1 = n.val then (x.1, 0, 0) else x) })
      }) m)

/-- The release takes effect: at a Tailstock it is back on the Porch without a fault. -/
def takeRelease (n : Fin 16) (m : Module) : Module :=
  if m.isHead then releaseNode n m else updSys (fun s => { s with admitted := false }) m

/-- What R490 adds to R488, checked again at I (R528). -/
def releaseCheck (n : Fin 16) (m : Module) : Check :=
  if m.isHead then
    firstFail [failIf (!m.inSet n.val) .notAdmitted n.val, failIf (3 < (m.sys.nodes[n]).power) .stateForbids]
  else firstFail [failIf (!m.sys.admitted) .notAdmitted, failIf (3 < m.label.code) .stateForbids]

/-- RELEASE_TAILSTOCK (R490); the Headstock relays it so that the node returns to the Porch at the same instant.
DEDUCED, log entry 41. -/
def releaseTailstock (h : Hdr) (ws : List Word) (m : Module) : Verdict :=
  let n := nodeOf ((ownWords h ws).getD 0 0)
  unlessFails (firstFail [nodeChecks 0x81 h ws m, releaseCheck n m])
    (nowOrTimed 0x81 h ws (if m.isHead then relayTo n.val (nodePacket 0x81 h ws) m else m) (takeRelease n))

/-! ## Torque allocation (R498 … R505) -/

/-- The frame data of ALLOC_LO or ALLOC_HI after the sequence number (R463). -/
def allocBytes (high : Bool) (mask : Nat) (a : Allocation) : List Byte :=
  let base := if high then 8 else 0
  [BitVec.ofNat 8 (mask / 2 ^ base), 0, 0] ++ tickBytes a.instant ++
  (List.range 8).flatMap (fun k =>
    match a.shares.find? (fun s => s.1 == base + k) with
    | some s => if mask.testBit (base + k) then wordBytes s.2.1 ++ wordBytes s.2.2 else wordBytes 0 ++ wordBytes 0
    | none => wordBytes 0 ++ wordBytes 0)

/-- ALLOC_LO, ALLOC_HI or both, as admitted nodes require (R462, R500). -/
def sendAllocation (a : Allocation) (m : Module) : Module :=
  let mask := m.sys.admittedMask
  let m1 := if mask % 256 = 0 then m else offerAxle 0x020 true (allocBytes false mask a) (some a.instant) m
  if mask / 256 % 256 = 0 then m1 else offerAxle 0x021 true (allocBytes true mask a) (some a.instant) m1

/-- An allocation among those held, by rising instant (R501). -/
def holdAllocation (a : Allocation) : List Allocation → List Allocation
  | [] => [a]
  | b :: bs => if a.instant.toNat < b.instant.toNat then a :: b :: bs else b :: holdAllocation a bs

/-- The nodes named by NODE_MASK with their shares, −0.0 stored as +0.0 (R16, R498). -/
def allocShares (ws : List Word) : List (Nat × Word × Word) :=
  let ns := setBits 16 (bits (ws.getD 0 0) 15 0)
  (List.range ns.length).map (fun j =>
    (ns.getD j 0, F32.normZero (ws.getD (1 + 2 * j) 0), F32.normZero (ws.getD (2 + 2 * j) 0)))

/-- The first named node that fails a test. -/
def badNode (ns : List Nat) (p : Fin 16 → Bool) : Option Nat :=
  ns.find? (fun n => if h : n < 16 then p ⟨n, h⟩ else false)

/-- The checks of ALLOCATE_TORQUE (R499). -/
def allocChecks (h : Hdr) (ws : List Word) (m : Module) : Check :=
  let own := ws.drop 2
  let w := own.getD 0 0
  let i := (instantOf ws).toNat
  let ns := setBits 16 (bits w 15 0)
  firstFail
    [failIf (!h.timed) .reservedEncoding,
     failIf (ws.length < 3 || ws.length != 3 + 2 * ns.length) .badLength,
     failIf (bits w 31 16 != 0 || bits w 15 0 == 0) .reservedEncoding,
     checkRelayed 0x83 h m,
     failIf (!m.isHead && !m.sys.admitted) .notAdmitted,
     checkLockstep 0x83 m,
     failIf (i < m.time.count.toNat + m.num P.sysAllocLead) .timeInPast,
     failIf (m.sys.lastAccepted.any (fun t => i ≤ t.toNat)) .outOfRange,
     failIf ((own.drop 1).any F32.nonFinite) .outOfRange,
     if m.isHead then (badNode ns (fun n => n != m.straps.node && !m.heard n)).map (fun n => (.tailstockUnknown, n)) else none,
     if m.isHead then (badNode ns (fun n => !m.inSet n.val)).map (fun n => (.notAdmitted, n)) else none]

/-- ALLOCATE_TORQUE (R498 … R500): held for its instant; the Headstock sends the frames. -/
def allocateTorque (h : Hdr) (ws : List Word) (m : Module) : Verdict :=
  let a : Allocation := { instant := instantOf ws, shares := allocShares (ws.drop 2), realloc := false }
  unlessFails (allocChecks h ws m)
    (let m1 := updSys (fun s => { s with held := holdAllocation a s.held, lastAccepted := some a.instant }) m
     .scheduled [] (if m.isHead then sendAllocation a m1 else m1))

/-- An allocation frame reaches an admitted Tailstock (R501); one it holds is an accepted allocation (R499). -/
def allocArrives (high : Bool) (mask : Nat) (instant : Tick) (shares : List (Word × Word)) (m : Module) : Module :=
  let node := m.straps.node.val
  if m.isHead || !m.sys.admitted || (node / 8 == 1) != high || !mask.testBit (node % 8) then m
  else if instant.toNat < m.time.count.toNat then
    raise F.sysAllocLate 0 false (updSys (fun s => { s with lateCount := inc32 s.lateCount }) m)
  else if m.sys.held.any (fun a => instant.toNat ≤ a.instant.toNat) then m
  else
    let s := shares.getD (node % 8) (0, 0)
    let a : Allocation := { instant := instant, shares := [(node, F32.normZero s.1, F32.normZero s.2)], realloc := false }
    updSys (fun x => { x with
      held := holdAllocation a x.held,
      lastAccepted := match x.lastAccepted with
        | some t => if t.toNat < instant.toNat then some instant else some t
        | none => some instant }) m

/-- The shares of an allocation become the setpoints of the channels that take them (R501). -/
def takeShares (a : Word) (b : Word) (m : Module) : Module :=
  { m with traction := Vector.ofFn (fun c =>
      let t := m.traction[c]
      if m.tpar c P.trEnable == 1 && m.tpar c P.trSetpointSource == 1 then
        { t with share := F32.normZero (if c.val = 0 then a else b) } else t) }

/-- ALLOCATION_INSTANT (R501, R502): the first allocation held whose instant has come. Admitted nodes it does not name
take 0.0 (R498). After a fallback of the system's entry the last allocation stays in force until its next clean commit
(R118). It waits while the region that serves it does not run (R38, R137). DEDUCED, log entry 41. -/
def allocationInstant (m : Module) : Module :=
  match m.sys.held with
  | [] => m
  | a :: rest =>
    if m.time.count.toNat < a.instant.toNat || m.sys.rateHeld || !m.regionRuns m.epochs.active.sysFin then m
    else
      let m1 := updSys (fun s => { s with held := rest }) m
      if !m.isAdmitted then m1
      else
        let get := fun n => (a.shares.find? (fun s => s.1 == n)).map (·.2)
        let own := (get m.straps.node.val).getD (0, 0)
        let m2 := updSys (fun s => { s with
          lastAllocTick := a.instant, allocAt := some m.time.elapsed, stale := false,
          nodes := Vector.ofFn (fun n => let x := s.nodes[n]; let v := (get n.val).getD (0, 0)
                                         { x with shareA := v.1, shareB := v.2 }) }) m1
        endCond F.sysAllocStale 0 (takeShares own.1 own.2 m2)

/-- SYS_ALLOC_STALE (R502). -/
def allocStale (m : Module) : Module :=
  match m.sys.allocAt with
  | none => m
  | some t =>
    if !m.isAdmitted || m.sys.stale || m.time.elapsed < t + m.us P.sysAllocTimeout then m
    else raise F.sysAllocStale 0 true (takeShares 0 0 (updSys (fun s => { s with
      stale := true, nodes := s.nodes.map (fun x => { x with shareA := 0, shareB := 0 }) }) m))

/-! ## Removal (R503 … R506) -/

/-- Whether a share has the sign of L; a zero share has none. -/
def sameSign (l s : Word) : Bool := (F32.lt 0 l && F32.lt 0 s) || (F32.lt l 0 && F32.lt s 0)

/-- The shares after the removal of node `n` (R505): the removed shares dropped; in mode 1 the remaining ones of L's sign
scaled by 1 + L / S. DEDUCED, log entry 41. -/
def reworkShares (mode : Nat) (n : Nat) (shares : List (Nat × Word × Word)) : List (Nat × Word × Word) :=
  let gone := (shares.find? (fun s => s.1 == n)).map (·.2)
  let l := match gone with | some g => F32.add g.1 g.2 | none => 0
  let rest := shares.filter (fun s => s.1 != n)
  let sum := (rest.flatMap (fun s => [s.2.1, s.2.2])).foldl (fun a w => if sameSign l w then F32.add a w else a) 0
  if mode = 0 ∨ l = 0 ∨ sum = 0 then rest
  else
    let k := F32.add fOne (F32.div l sum)
    let f := fun w => if sameSign l w then F32.mul k w else w
    rest.map (fun s => (s.1, f s.2.1, f s.2.2))

/-- The shares of the allocation in force of the admitted nodes. -/
def Module.inForceShares (m : Module) : List (Nat × Word × Word) :=
  ((List.finRange 16).filter (fun n => m.inSet n.val)).map (fun n =>
    (n.val, (m.sys.nodes[n]).shareA, (m.sys.nodes[n]).shareB))

/-- The instant of a reallocation (R504). -/
def reallocInstant (cause now : Tick) : Tick :=
  if cause.toNat + 120000 < now.toNat + 40000 then now + 40000 else cause + 120000

/-- The Headstock removes node `n` (R503 … R507): out of the set and of the vote, SYS_NODE_LOST, a reallocation, and the
allocations held for later reworked. A reallocation that holds the same instant already, another node being removed on this
tick, is reworked in its place. DEDUCED, log entry 41. -/
def removeNode (n : Fin 16) (cause : Tick) (m : Module) : Module :=
  if !m.isHead || n == m.straps.node || !m.inSet n.val then m
  else
    let mode := m.num P.sysReallocMode
    let i := reallocInstant cause m.time.count
    let base := match m.sys.held.find? (fun a => a.realloc && a.instant == i) with
      | some a => a.shares
      | none => m.inForceShares
    let re : Allocation := { instant := i, shares := reworkShares mode n.val base, realloc := true }
    let m1 := updSys (fun s => { s with admittedMask := clearBit s.admittedMask n.val }) m
    let m2 := updEpochs (fun e => { e with provisional := e.provisional.map (fun p =>
      { p with asked := clearBit p.asked n.val }) }) m1
    let m3 := raise F.sysNodeLost n.val false m2
    let later := m.sys.held.filter (fun a => i.toNat < a.instant.toNat)
    let reworked := later.map (fun a => { a with shares := reworkShares mode n.val a.shares })
    let keep := m.sys.held.filter (fun a => a.instant.toNat ≤ i.toNat && !(a.realloc && a.instant == i))
    -- a host allocation accepted for the same instant holds it (R507)
    let taken := keep.any (fun a => a.instant == i)
    let m4 := updSys (fun s => { s with
      held := keep ++ (if taken then [] else [re]) ++ reworked,
      lastAccepted := match s.lastAccepted with
        | some t => if t.toNat < i.toNat then some i else some t
        | none => some i,
      nodes := Vector.upd s.nodes n (fun x => { x with admitted := false, shareA := 0, shareB := 0 }) }) m3
    reworked.foldl (fun m a => sendAllocation a m) (if taken then m4 else sendAllocation re m4)

/-- NODE_REMOVAL for silence (R503). -/
def nodeSilent (n : Fin 16) (m : Module) : Module := if m.heard n then m else removeNode n m.time.count m

/-- The Headstock with both ports down removes every admitted Tailstock (R506). -/
def removeAll (m : Module) : Module := (List.finRange 16).foldl (fun m n => removeNode n m.time.count m) m

/-- The cause of a loss of admission is present (R491). -/
def lossPresent (c : LossCause) (m : Module) : Bool :=
  match c with
  | .hvil => !m.supply.hvil
  | .timeLock => !m.timeLocked
  | .epochSplit => m.sys.headEpoch.any (· != m.epochs.active.number)
  | .headLost => (m.sys.headAt.getD 0) + m.num P.sysNodeSilence ≤ m.time.elapsed
  | .linkLost => m.can[2].down && m.can[3].down
  | .conflict => m.sys.nodeConflict

/-- The fault of a cause (R491). -/
def lossFault (c : LossCause) : Nat :=
  match c with
  | .hvil => F.sysHvilOpen | .timeLock => F.sysTimeLockLost | .epochSplit => F.sysEpochSplit
  | .headLost => F.sysHeadLost | .linkLost => F.alLinkLost | .conflict => F.sysNodeConflict

/-- ADMISSION_LOSS (R491); the detail of AL_LINK_LOST is the port that went down last (R475). -/
def admissionLoss (c : LossCause) (m : Module) : Module :=
  if lossPresent c m then loseAdmission (lossFault c) (if c = .linkLost then m.sys.lastDown else 0) m else m

/-- EPOCH_SWITCH's part of R496: at a commit instant the Tailstock compares its number with the Headstock's. -/
def epochCompare (head : Option Word) (m : Module) : Module :=
  match head with
  | none => m
  | some w =>
    let m1 := updSys (fun s => { s with headEpoch := some w }) m
    if w = m.epochs.active.number then endCond F.sysEpochSplit 0 m1 else loseAdmission F.sysEpochSplit 0 m1

/-! ## STATUS, EVENT and what is heard (R461 … R465, R477, R503) -/

/-- LISTEN_PERIOD_END (R477). -/
def listenEnd (m : Module) : Module :=
  if m.sys.listening && m.sys.listenAt + 2 * m.num P.alStatusPeriod ≤ m.time.elapsed then
    updSys (fun s => { s with listening := false }) m
  else m

/-- The data of STATUS after the sequence number (R464). -/
def statusBytes (m : Module) : List Byte :=
  let b1 := pack [(flag m.isHead, 7), (flag m.isAdmitted, 6), (flag m.onPorch, 5), (flag m.timeLocked, 4),
                  (flag m.supply.hvil, 3), (m.label.code, 0)]
  let b2 := pack [(flag (m.patterned .ta), 7), (flag (m.patterned .tb), 6), (flag (m.patterned .cv), 5),
                  (flag (m.patterned .cg), 4), (flag m.coverage, 3)]
  [BitVec.ofNat 8 b1.toNat, BitVec.ofNat 8 b2.toNat, BitVec.ofNat 8 m.highest] ++
  ([m.epochs.active.number, m.epochs.active.crc, m.traction[0].torqueEst, m.traction[1].torqueEst,
    i32Word (roundRat m.offset)] : List Word).flatMap wordBytes

/-- AL_STATUS_PERIOD has passed since the last STATUS (R462). -/
def Module.statusDue (m : Module) : Bool := m.sys.statusAt.all (fun t => t + m.num P.alStatusPeriod ≤ m.time.elapsed)

/-- STATUS_SEND (R462, R464, R477). A conflicting STATUS not heard for SYS_NODE_SILENCE is no conflict any more. -/
def statusSend (m : Module) : Module :=
  if m.axleSilent || m.label.code < 2 || !m.statusDue then m
  else
    let m1 := if m.sys.nodeConflict && !m.heard m.straps.node then
        endCond F.sysNodeConflict 0 (updNode m.straps.node (fun x => { x with conflict := false })
          (updSys (fun s => { s with nodeConflict := false }) m)) else m
    updSys (fun s => { s with statusAt := some m.time.elapsed })
      (offerAxle (0x080 + m.straps.node.val) false (statusBytes m1) none m1)

/-- EVENT_SEND: the causes not yet sent share one frame (R465). -/
def eventSend (m : Module) : Module :=
  if m.axleSilent || m.label.code < 2 || m.sys.causes = 0 then m
  else
    updSys (fun s => { s with causes := 0, causeAt := 0 })
      (offerAxle m.straps.node.val false ([BitVec.ofNat 8 m.sys.causes, 0, 0] ++ tickBytes m.sys.causeAt) none m)

/-- A frame of the Headstock has been heard: silence of it ends. -/
def headHeard (m : Module) : Module :=
  endCond F.sysHeadLost 0 (updSys (fun s => { s with headAt := some m.time.elapsed }) m)

/-- SYNC that the module did not send: at a Headstock a conflict (R477). -/
def foreignSync (m : Module) : Module :=
  if m.sys.listening || m.sys.silenced then
    raise F.sysHeadConflict 0 true (updSys (fun s => { s with silenced := true, headConflict := true }) m)
  else raise F.sysHeadConflict 0 false (updSys (fun s => { s with headConflict := true }) m)

/-- A STATUS with the module's own node index that it did not send (R477). -/
def ownStatus (m : Module) : Module :=
  let m1 := updNode m.straps.node (fun x => { x with conflict := true, heardAt := some m.time.elapsed })
    (updSys (fun s => { s with nodeConflict := true }) m)
  if m.sys.admitted && !m.isHead then loseAdmission F.sysNodeConflict 0 m1 else raise F.sysNodeConflict 0 true m1

/-- STATUS of node `n` (R464, R479, R486, R503); a node is measured when it first enters the Porch. DESIGN
CHOICE, log entry 39. -/
def noteStatus (n : Fin 16) (flags : BitVec 8) (epoch : Word) (setCrc : Option Word) (m : Module) : Module :=
  let f : Nat := flags.toNat
  let before := m.sys.nodes[n]
  let m1 := updNode n (fun x => { x with
    admitted := f.testBit 6, porch := f.testBit 5, timeLocked := f.testBit 4, hvil := f.testBit 3, power := f % 8,
    epoch := epoch, head := f.testBit 7, statusAt := some m.time.elapsed }) m
  if m.isHead then
    let m2 := if f.testBit 5 && !before.measured then
        startMeasure [n.val] (updNode n (fun x => { x with measured := true }) m1) else m1
    if f.testBit 6 then m2 else removeNode n m.time.count m2
  else if f.testBit 7 then
    let m2 := headHeard (updSys (fun s => { s with headEpoch := some epoch,
                                                   headSetCrc := if setCrc.isSome then setCrc else s.headSetCrc }) m1)
    if epoch = m.epochs.active.number then endCond F.sysEpochSplit 0 m2 else m2
  else m1

/-- EVENT of node `n` at the Headstock (R503): bits 0, 1, 2 and 4 remove it. -/
def nodeEvent (n : Fin 16) (causes : Nat) (instant : Tick) (m : Module) : Module :=
  if causes &&& 0x17 = 0 then m else removeNode n instant m

/-- The priority identifier of a payload of node `n` (R462). -/
def payloadId (n : Fin 16) : AxlePayload → Nat
  | .event _ _ => n.val
  | .sync _ => 0x010
  | .syncFu _ _ => 0x011
  | .alloc high _ _ _ => if high then 0x021 else 0x020
  | .status _ _ _ _ _ _ => 0x080 + n.val

/-- A copy of a frame seen within the last millisecond (R461). DEDUCED, log entry 38. -/
def Module.copySeen (m : Module) (ident sender seq : Nat) : Bool :=
  m.sys.copies.any (fun c => c.ident == ident && c.sender == sender && c.seq == seq && m.time.elapsed ≤ c.at_ + 400000)

/-- A first copy is noted; copies older than a millisecond are forgotten. -/
def noteCopy (ident sender seq : Nat) (m : Module) : Module :=
  let young := m.sys.copies.filter (fun c => m.time.elapsed ≤ c.at_ + 400000)
  let new : Copy := { ident := ident, sender := sender, seq := seq, at_ := m.time.elapsed }
  updSys (fun s => { s with copies := young ++ [new] }) m

/-- A frame of node `n` is heard on axle-link port `p` (R466): the port is up unless it is bus-off, the node is there. -/
def hearFrame (p : Fin 2) (n : Fin 16) (m : Module) : Module :=
  let q : Fin 4 := ⟨p.val + 2, by omega⟩
  let m1 := updCan q (fun c => { c with heardAt := some m.time.elapsed, down := c.down && c.isOff }) m
  let m2 := if (m1.can[q]).down then m1
    else endCond F.alPortDown q.val (setCond F.alLinkLost (fun _ => true) false
      (setCond F.alLinkLostHead (fun _ => true) false m1))
  if n == m.straps.node then m2 else updNode n (fun x => { x with heardAt := some m.time.elapsed }) m2

/-- What a module does with an axle-link frame of node `n` (R476 … R507). -/
def axlePayload (p : Fin 2) (n : Fin 16) (seq : Byte) (k : AxlePayload) (m : Module) : Module :=
  match k with
  | .event causes instant => nodeEvent n causes.toNat instant (if (m.sys.nodes[n]).head then headHeard m else m)
  | .sync rx => if m.isHead then foreignSync m else syncArrives p seq.toNat rx (headHeard m)
  | .syncFu of_ tx => if m.isHead then m else syncFuArrives p of_.toNat tx (headHeard m)
  | .alloc high mask instant shares =>
    if m.isHead then m else allocArrives high mask.toNat instant shares (headHeard m)
  | .status flags _ _ epoch _ setCrc =>
    if n == m.straps.node then ownStatus m else noteStatus n flags epoch setCrc m

/-- SYNC and SYNC_FU count on each port (R478); of every other frame the first copy alone is acted on (R461). -/
def perPort : AxlePayload → Bool
  | .sync _ | .syncFu _ _ => true
  | _ => false

/-- AXLE_LINK_FRAME. -/
def axleFrame (p : Fin 2) (n : Fin 16) (seq : Byte) (k : AxlePayload) (m : Module) : Module :=
  if m.label.code < 2 then m
  else
    let m1 := hearFrame p n m
    let id := payloadId n k
    if perPort k then axlePayload p n seq k m1
    else if m1.copySeen id n.val seq.toNat then m1
    else axlePayload p n seq k (noteCopy id n.val seq.toNat m1)

/-- SYNC_RECEIVED: a SYNC and, `gap` ticks after it, now, its SYNC_FU on port `p` (R478). -/
def syncReceived (p : Fin 2) (n : Fin 16) (seq of_ : Byte) (rx tx : Tick) (gap : Nat) (m : Module) : Module :=
  if m.label.code < 2 || m.isHead then m
  else
    let m1 := syncArrives p seq.toNat rx (headHeard (hearFrame p n m))
    if gap ≤ m.num P.alSyncPeriod then syncFuArrives p of_.toNat tx m1 else m1

/-- A port of the axle link goes down (R466): bus-off, or silent for AL_SILENCE after it was heard. DEDUCED, log
entry 40. -/
def portDown (p : Fin 2) (m : Module) : Module :=
  let q : Fin 4 := ⟨p.val + 2, by omega⟩
  let c := m.can[q]
  let silent := c.heardAt.any (fun t => t + m.num P.alSilence ≤ m.time.elapsed)
  if c.down || !(c.isOff || silent) then m
  else
    let m1 := raise F.alPortDown q.val true (updSys (fun s => { s with lastDown := q.val })
      (updCan q (fun c => { c with down := true }) m))
    if m1.can[2].down && m1.can[3].down then
      if !m.isHead && m.sys.admitted then loseAdmission F.alLinkLost q.val m1
      else
        let m2 := raise F.alLinkLostHead q.val true m1
        if m.isHead then removeAll m2 else m2
    else m1

/-! ## Relay (R541) and the answers of Tailstocks -/

/-- The checks of RELAY (R541). -/
def relayChecks (h : Hdr) (ws : List Word) (m : Module) : Check :=
  let w := ws.getD 0 0
  let n := nodeOf w
  let inner := ws.drop 1
  let w0 := inner.getD 0 0
  let op := bits w0 31 24
  firstFail
    [failIf (ws.length < 3) .badLength,
     failIf (bits w 31 4 != 0 || h.timed || (h.relayed && !((h.transport == .cn2 || h.transport == .cn3) && h.fromHead)))
       .reservedEncoding,
     failIf (!m.isHead || m.sys.silenced) .notHeadstock,
     failIf (n == m.straps.node || !m.heard n) .tailstockUnknown n.val,
     failIf (inner.getLast? != some (crc32c inner.dropLast)) .badCrc 1,
     failIf (bits w0 15 8 + 2 != inner.length || bits w0 7 4 != 2) .badLength 1,
     failIf (bit w0 1 || bit w0 3 || op == 0x26 || (0x80 ≤ op && op ≤ 0x8F) || 0xF0 ≤ op) .reservedEncoding 1,
     failIf ((op == 0x21 || op == 0x23) && m.inSet n.val) .stateForbids 1]

/-- RELAY (R541): the inner packet leaves with bit 1 set and a new CRC; its reply is awaited for 50 ms. -/
def relay (h : Hdr) (ws : List Word) (m : Module) : Verdict :=
  let n := nodeOf (ws.getD 0 0)
  let w0 := (ws.getD 1 0) ||| 2
  let body := w0 :: (ws.drop 2).dropLast
  unlessFails (relayChecks h ws m)
    (.waits (relayTo n.val (body ++ [crc32c body]) { m with interp := { m.interp with waiting := m.interp.waiting ++
      [{ opcode := 0x84, hdr := h, count := ws.length, target := n.val, since := m.time.elapsed, result := none,
         key := bits w0 31 16 }] } }))

/-- The first waiting entry that a test takes, replaced. -/
def updWaiting (p : Waiting → Bool) (f : Waiting → Waiting) : List Waiting → List Waiting
  | [] => []
  | w :: ws => if p w then f w :: ws else w :: updWaiting p f ws

/-- The waiting commands with `f` on the first that `p` takes. -/
def touchWaiting (p : Waiting → Bool) (f : Waiting → Waiting) (m : Module) : Module :=
  { m with interp := { m.interp with waiting := updWaiting p f m.interp.waiting } }

/-- An ADMIT_TAILSTOCK that pended is settled: counted as accepted or refused, its reply ready (R487, R529).
DEDUCED, log entry 41. -/
def settleAdmit (p : Waiting → Bool) (status detail : Nat) (m : Module) : Module :=
  let m1 := touchWaiting p (fun w => { w with result := some (status, detail, []) }) m
  if status ≤ 1 then countAccepted m1
  else { m1 with interp := { m1.interp with rejected := inc32 m1.interp.rejected } }

/-- The answer to the relayed READ_PARAM and to the relayed ADMIT_TAILSTOCK (R487 steps 1 … 5); a timed one that finds no
room any more among the pending timed commands is refused with BUSY (R527). DEDUCED, log entry 20. -/
def admitAnswer (x : Waiting) (status detail : Nat) (data : List Word) (m : Module) : Module :=
  let p := fun w : Waiting => w == x
  let n : Fin 16 := ⟨x.target % 16, Nat.mod_lt _ (by decide)⟩
  if x.stage = 0 then
    if status != 0 then settleAdmit p status detail m
    else
      let m1 := updNode n (fun y => { y with setCrc := some (data.getD 0 0) }) m
      let d := m1.nodeDetail n
      if d != 0 then settleAdmit p Status.stateForbids.code d m1
      else relayTo n.val (nodePacket 0x80 x.hdr x.words) (touchWaiting p (fun w => { w with
        stage := 1, since := m.time.elapsed, key := 0x80 * 256 + x.hdr.tag.toNat }) m1)
  else
    if status ≤ 1 && x.hdr.timed && 32 ≤ m.interp.timed.length then settleAdmit p Status.busy.code 0 m
    else
      let m1 := settleAdmit p status detail m
      if 1 < status then m1
      else if x.hdr.timed then placeTimed 0x80 x.hdr x.words m1
      else enterSet n m1

/-- A reply of node `n` in CEROL_FROM at the Headstock: words without the CRC, and the receive stamp of its frame. -/
def replyFrom (n : Fin 16) (words : List Word) (stamp : Tick) (m : Module) : Module :=
  let w0 := words.getD 0 0
  let key := bits w0 31 16
  let status := bits (words.getD 1 0) 31 16
  let detail := bits (words.getD 1 0) 15 0
  let data := words.drop 2
  let op := bits w0 31 24
  let p := fun w : Waiting => w.target == n.val && w.key == key && w.result.isNone && (w.opcode == 0x84 || w.opcode == 0x80)
  match m.interp.waiting.find? p with
  | some x =>
    if x.opcode = 0x84 then touchWaiting p (fun w => { w with result := some (status, detail, data) }) m
    else admitAnswer x status detail data m
  | none =>
    if op = 0x82 then probeReply n.val (bits w0 23 16) data stamp m
    else if op = 0x21 ∨ op = 0x23 then
      updEpochs (fun e => { e with provisional := e.provisional.map (fun q =>
        if q.asked.testBit n.val && q.replies.all (fun r => r.1 != n.val) then
          { q with replies := q.replies ++ [(n.val, status)] } else q) }) m
    else m

/-- TAILSTOCK_REPLY_TIMEOUT for one waiting command (R541, R487). -/
def replyOverdue (m : Module) (w : Waiting) : Bool :=
  w.result.isNone && ((w.opcode == 0x84 && w.since + 20000000 ≤ m.time.elapsed) ||
    (w.opcode == 0x80 && w.since + 4000000 ≤ m.time.elapsed))

/-- TAILSTOCK_REPLY_TIMEOUT: the oldest overdue answer is given up. -/
def replyTimeout (m : Module) : Module :=
  match m.interp.waiting.find? (replyOverdue m) with
  | none => m
  | some x =>
    if x.opcode = 0x84 then
      touchWaiting (replyOverdue m) (fun w => { w with result := some (Status.tailstockUnknown.code, x.target, []) }) m
    else settleAdmit (replyOverdue m) Status.tailstockUnknown.code x.target m

/-- SYS_STATUS (R511). -/
def sysStatus (m : Module) : Word :=
  let admission := if m.isAdmitted then 2 else if m.onPorch then 1 else 0
  let time := if m.isHead then (if m.num P.tsMode = 3 then 3 else 2) else m.sys.timeState.code
  pack [(m.straps.node.val, 12), (flag m.isHead, 11), (admission, 9), (time, 7), (flag m.supply.hvil, 6),
        (flag m.epochCompat, 5), (flag m.wideCommit, 4), (flag m.sys.stale, 3), (flag m.sys.headConflict, 2),
        (flag m.sys.nodeConflict, 1)]

end Sys2Proof.Machine
end

