-- ==== Sys2Proof/Machine/Bus.lean ====
section
/-!
DEFINITION. The CAN ports and the ISOBUS control function (R440 … R466, R470, R474) and the Ethernet links (R469): receive
filters and FIFOs, transmit objects, errors and bus-off, the high-priority buffer, address claim and DM1.
-/

namespace Sys2Proof.Machine

/-- The port is in use and its controller takes part: not off, bus-off, recovering or asleep (R474). -/
def CanPort.active (c : CanPort) : Bool := c.state == 1 || c.state == 2

/-- Error passive above 127 of either counter, else error active (ISO 11898-1, R474). PRESUMED, log entry 42. -/
def CanPort.judge (c : CanPort) : CanPort :=
  if c.active then { c with state := if 127 < c.recErr || 127 < c.tecErr then 2 else 1 } else c

/-- A frame received well lowers the receive error counter (ISO 11898-1). -/
def CanPort.goodReceive (c : CanPort) : CanPort :=
  ({ c with recErr := if 127 < c.recErr then 127 else c.recErr - 1 } : CanPort).judge

/-- An error in a received frame raises the receive error counter by one (ISO 11898-1). PRESUMED, log entry 42. -/
def CanPort.badReceive (c : CanPort) : CanPort := ({ c with recErr := Nat.min 255 (c.recErr + 1) } : CanPort).judge

/-- A frame sent well lowers the transmit error counter (ISO 11898-1). -/
def CanPort.goodSend (c : CanPort) : CanPort := ({ c with tecErr := c.tecErr - 1 } : CanPort).judge

/-! ## Filters (R440, R444) -/

/-- What a filter element asks of an identifier (R444). -/
inductive FilterKind where
  | range (low high : Nat)
  | dual (a b : Nat)
  | mask (code mask : Nat)
deriving DecidableEq, Repr

/-- A filter element: its condition, the identifier length it applies to, its target, a receive object or FIFO by first
object and depth (R444). -/
structure Filter where
  kind : FilterKind
  extended : Bool
  target : Nat × Nat
deriving DecidableEq, Repr

/-- An element matches an identifier (R444). -/
def Filter.accepts (e : Filter) (ident : Nat) (extended : Bool) : Bool :=
  extended == e.extended && (match e.kind with
    | .range low high => low ≤ ident && ident ≤ high
    | .dual a b => ident == a || ident == b
    | .mask code mask => (ident &&& mask) == (code &&& mask))

/-- The settings a port uses for a frame: a frame that began before the last switch completes under the epoch of then
(R470). -/
def Module.portImage (m : Module) (stamp : Tick) : Image :=
  if stamp.toNat < m.epochs.lastSwitch.toNat then m.epochs.previous else m.epochs.active

/-- The filter elements of a port, lowest index first, as its settings, the address held on CN0 and the node index ask for:
the first of its 64, the others matching nothing (R444, R456 … R466). On CN0 an element compares PDU format, the destination
where there is one, and the data page bits, 0. DEDUCED, log entry 109. -/
def Module.filters (m : Module) (p : Fin 4) (img : Image) : List Filter :=
  let own := m.isobus.address
  let pgn (pf ps : Nat) (wide : Bool) (target : Nat × Nat) : Filter :=
    { kind := .mask (pf * 2 ^ 16 + ps * 2 ^ 8) (if wide then 0x03FF0000 else 0x03FFFF00), extended := true, target := target }
  let low (a b : Nat) (target : Nat × Nat) : Filter := { kind := .range a b, extended := false, target := target }
  match p with
  | 0 =>
    [pgn 0xEC own false (8, 16), pgn 0xEB own false (8, 16), pgn 0xC8 own false (8, 16), pgn 0xC7 own false (8, 16),
     pgn 0xEF own false (24, 8), pgn 0xEE 0 true (32, 8), pgn 0xEA own false (32, 8), pgn 0xEA 255 false (32, 8),
     pgn 0xFE 0xD8 false (32, 8)]
  | 1 => [{ kind := .dual (img.num P.cn1ReqId) (img.num P.cn1ReqId), extended := img.on P.cn1Ext, target := (0, 32) }]
  | _ =>
    [low 0x010 0x0FF (16, 48),
     if m.isHead then low 0x180 0x18F (64, 32) else low (0x100 + m.straps.node.val) (0x100 + m.straps.node.val) (64, 32)]

/-- The frame formats a port receives and does not ignore (R440). -/
def heardOn (p : Fin 4) (f : CanFrame) : Bool :=
  match p with
  | 0 => f.format == .classical
  | 1 => f.format != .xl
  | _ => f.format == .xl && !f.sec

/-- The target of a frame on port `p` that began at `stamp`: that of the matching element with the lowest index; none when no
element matches or the format is ignored (R440, R444). -/
def Module.target (m : Module) (p : Fin 4) (f : CanFrame) (stamp : Tick) : Option (Nat × Nat) :=
  if !heardOn p f then none
  else ((m.filters p (m.portImage stamp)).find? (fun e => e.accepts f.ident f.extended)).map (·.target)

/-- The port takes part in a frame that began at `stamp`: it is active, or it was in use then and the frame completes
(R470). -/
def Module.carries (m : Module) (p : Fin 4) (stamp : Tick) : Bool :=
  (m.can[p]).active ||
  ((m.can[p]).state == 0 && stamp.toNat < m.epochs.lastSwitch.toNat && m.epochs.previous.on (P.busEnable + 0x40 * p.val))

/-- The data a receive object holds at most (R443). -/
def objectBytes : Nat := 112

/-- The PDU format and the source address of a 29-bit identifier. -/
def pduFormat (ident : Nat) : Nat := ident / 2 ^ 16 % 256
def pduSource (ident : Nat) : Nat := ident % 256

/-- A byte of a frame as a number, and the little-endian number of several. -/
def byteAt (f : CanFrame) (i : Nat) : Nat := (f.data.getD i 0).toNat
def bytesAt (f : CanFrame) (i k : Nat) : Nat := (List.range k).foldl (fun n j => n + byteAt f (i + j) * 2 ^ (8 * j)) 0

/-! ## Transfers on CN0 (R457), with the rules of ISO 11783-3. PRESUMED, log entry 43 -/

/-- A part of a transfer to the module is cleared to send: all that is left, at most 255 packets. -/
def clearToSend (s : TpSession) (m : Module) : Module :=
  let n := Nat.min 255 (tpPackets s.size + 1 - s.next)
  let s1 := { s with window := s.next + n - 1, offset := s.next - 1, lastAt := m.time.elapsed }
  let m1 := updIsobus (fun x => { x with session := some s1 }) m
  if s.extended then
    offerTp 0xC8 s.peer [21, BitVec.ofNat 8 n, BitVec.ofNat 8 s.next, BitVec.ofNat 8 (s.next / 2 ^ 8),
      BitVec.ofNat 8 (s.next / 2 ^ 16), 0x00, 0xEF, 0x00] m1
  else offerTp 0xEC s.peer [17, BitVec.ofNat 8 n, BitVec.ofNat 8 s.next, 0xFF, 0xFF, 0x00, 0xEF, 0x00] m1

/-- A request to send for PGN 61184 opens a transfer; while another peer's runs it is answered with an abort. -/
def tpRequest (extended : Bool) (peer size : Nat) (m : Module) : Module :=
  if m.isobus.session.any (fun s => s.peer != peer) then
    offerTp (if extended then 0xC8 else 0xEC) peer [255, 1, 0xFF, 0xFF, 0xFF, 0x00, 0xEF, 0x00] m
  else clearToSend { peer := peer, extended := extended, size := size, next := 1, window := 0, offset := 0, data := [],
                     lastAt := m.time.elapsed } m

/-- A data packet of the peer: in order it adds its bytes; the last one is acknowledged and the packet is complete; after
the last of those cleared to send, or out of order, more are asked for. -/
def tpPacket (number : Nat) (bytes : List Byte) (s : TpSession) (m : Module) : Module :=
  if number != s.next then clearToSend s m
  else
    let s1 := { s with next := s.next + 1, data := s.data ++ bytes, lastAt := m.time.elapsed }
    if tpPackets s.size ≤ s.next then
      let done := updIsobus (fun x => { x with session := none, arrived := some (s.peer, s1.data.take s.size) }) m
      if s.extended then
        offerTp 0xC8 s.peer ([23] ++ (List.range 4).map (fun i => BitVec.ofNat 8 (s.size / 2 ^ (8 * i))) ++ [0x00, 0xEF, 0x00]) done
      else
        offerTp 0xEC s.peer [19, BitVec.ofNat 8 s.size, BitVec.ofNat 8 (s.size / 2 ^ 8), BitVec.ofNat 8 (tpPackets s.size), 0xFF,
          0x00, 0xEF, 0x00] done
    else if s.window ≤ s.next then clearToSend s1 m
    else updIsobus (fun x => { x with session := some s1 }) m

/-- A transfer of the module ends, and the next that waits is opened. -/
def nextTp (m : Module) : Module :=
  let m1 := updIsobus (fun x => { x with sending := none, waiting := x.waiting.drop 1 }) m
  match m.isobus.waiting with
  | [] => m1
  | w :: _ => openTp w.1 w.2 m1

/-- The peer clears `n` packets to send from number `first` on. -/
def tpSendFrom (n first : Nat) (x : TpSend) (m : Module) : Module :=
  (List.range (Nat.min n (tpPackets x.bytes.length + 1 - first))).foldl
    (fun m i => offerTp 0xEB x.peer (tpData x.bytes (first + i)) m)
    (updIsobus (fun y => { y with sending := some { x with lastAt := m.time.elapsed } }) m)

/-- A TP or ETP frame to the own address (R457). -/
def tpFrame (f : CanFrame) (m : Module) : Module :=
  let pf := pduFormat f.ident
  let peer := pduSource f.ident
  let control := byteAt f 0
  if pf = 0xEB ∨ pf = 0xC7 then
    match m.isobus.session with
    | some s =>
      if s.peer != peer || s.extended != (pf == 0xC7) then m
      else tpPacket (if s.extended then s.offset + control else s.next / 256 * 256 + control) (f.data.drop 1) s m
    | none => m
  else if bytesAt f 5 3 != 61184 then m
  else if pf = 0xEC ∧ control = 16 then tpRequest false peer (bytesAt f 1 2) m
  else if pf = 0xC8 ∧ control = 20 then tpRequest true peer (bytesAt f 1 4) m
  else if pf = 0xC8 ∧ control = 22 then
    updIsobus (fun x => { x with session := x.session.map (fun s =>
      if s.peer = peer then { s with offset := bytesAt f 2 3, lastAt := m.time.elapsed } else s) }) m
  else
    let m1 := if control = 255 then
        updIsobus (fun x => { x with session := x.session.filter (fun s => s.peer != peer) }) m else m
    match m.isobus.sending with
    | none => m1
    | some x =>
      if x.peer != peer || pf != 0xEC then m1
      else if control = 17 then tpSendFrom (byteAt f 1) (byteAt f 2) x m1
      else if control = 19 ∨ control = 255 then nextTp m1
      else m1

/-! ## The address on CN0 (R456), with the rules of ISO 11783-5. PRESUMED, log entry 43 -/

/-- The NAME in transmission order, and as the number that decides between two claims, the lower winning. -/
def nameBytes (m : Module) : List Byte := wordBytes (m.par P.isNameLow) ++ wordBytes (m.par P.isNameHigh)
def Module.nameNum (m : Module) : Nat := m.num P.isNameHigh * 2 ^ 32 + m.num P.isNameLow

/-- Address claimed, or cannot claim at the null address: priority 6 to all. -/
def offerClaim (m : Module) : Module :=
  offer 0 0 0 (0x18EEFF00 + m.isobus.address) false (nameBytes m) none m

/-- The address is lost: the null address is held, nothing but the cannot-claim message is sent, transfers are aborted and
their replies counted (R456, R470). -/
def loseAddress (m : Module) : Module :=
  let lost := flag m.isobus.sending.isSome + m.isobus.waiting.length
  updCan 0 (fun c => { c with tx := [], txFail := satAdd 0xFFFFFFFF c.txFail lost })
    (updIsobus (fun x => { x with address := 254, claimed := true, session := none, sending := none, waiting := [] }) m)

/-- Address claimed of another control function: it is noted; on the own address the lower NAME keeps it, the module
claiming again or giving it up. A request for the address claimed is answered (R456). -/
def claimFrame (f : CanFrame) (m : Module) : Module :=
  let pf := pduFormat f.ident
  let source := pduSource f.ident
  if pf = 0xEE then
    let name := bytesAt f 0 8
    let m1 := updIsobus (fun x => { x with others := x.others.filter (fun y => y.1 != source && y.2 != name) ++ [(source, name)] }) m
    if !m.isobus.claimed || source != m.isobus.address || source == 254 then m1
    else if m.nameNum < name then offerClaim m1
    else loseAddress m1
  else if pf = 0xEA ∧ bytesAt f 0 3 = 0x00EE00 ∧ m.isobus.claimed then offerClaim m
  else m

/-- The first `k` frames of a FIFO leave it: the firmware has taken them. -/
def takeFrames (fifo : Nat) : Nat → List (Nat × RxFrame) → List (Nat × RxFrame)
  | 0, fs => fs
  | _, [] => []
  | k + 1, f :: fs => if f.1 == fifo then takeFrames fifo k fs else f :: takeFrames fifo (k + 1) fs

/-- The header a received frame is stored with (R443, R450). -/
def headOf (f : CanFrame) (stamp : Tick) : FrameHead :=
  { ident := f.ident, format := f.format, length := f.data.length, extended := f.extended, sec := f.sec,
    stamp := canStamp stamp }

/-- What the firmware does with a frame in a FIFO of CN0: TP and ETP, a packet in one frame, claims (R456, R457). -/
def isobusFrame (fifo : Nat) (f : CanFrame) (m : Module) : Module :=
  if fifo = 8 then tpFrame f m
  else if fifo = 24 then updIsobus (fun x => { x with arrived := some (pduSource f.ident, f.data) }) m
  else claimFrame f m

/-- CAN_FRAME_RECEIVED on port `p`, its synchronising edge on a tick (R443 … R445, R450), after the firmware has taken
`taken` frames of the FIFO it goes to; a frame stored is an interrupt of its controller (R83), one with an error is counted
(R452). Identifiers 0x000 … 0x00F of the axle link belong to HP_BUFFER_FRAME (R449). DESIGN CHOICE, log entry 44. -/
def canReceived (p : Fin 4) (f : CanFrame) (stamp : Tick) (taken : Nat) (m : Module) : Module :=
  if !m.carries p stamp then m
  else if f.damaged then updCan p CanPort.badReceive m
  else
    let m1 := updCan p CanPort.goodReceive m
    let m2 := if 2 ≤ p.val ∧ f.format = .xl ∧ !f.sec then
        let m' := updCan p (fun c => { c with heardAt := some m.time.elapsed, down := false }) m1
        endCond F.alPortDown p.val (setCond F.alLinkLost (fun _ => true) false
          (setCond F.alLinkLostHead (fun _ => true) false m'))
      else m1
    if 2 ≤ p.val ∧ f.format = .xl ∧ f.ident ≤ 0x00F then m2
    else
      match m.target p f stamp with
      | none => m2
      | some (fifo, depth) =>
        if 2 ≤ p.val ∧ objectBytes < f.data.length then updCan p (fun c => { c with tooLong := inc32 c.tooLong }) m2
        else
          let m3 := updCan p (fun c => { c with rx := takeFrames fifo taken c.rx }) m2
          if depth ≤ ((m3.can[p]).rx.filter (fun x => x.1 == fifo)).length then
            raise F.busRxOverrun p.val false (updCan p (fun c => { c with rxOverrun := inc32 c.rxOverrun }) m3)
          else
            let r : RxFrame := { head := headOf f stamp, data := f.data }
            let m4 := noteEvent 13 (updCan p (fun c => { c with rx := c.rx ++ [(fifo, r)] }) m3)
            if p.val = 0 then isobusFrame fifo f m4 else m4

/-- HP_BUFFER_FRAME on axle-link port `p` from node `n`, after the firmware has taken `taken` frames of the four (R449): every
arrival is signalled on the line of its own; data beyond the object's are discarded and counted (R443). -/
def hpFrame (p : Fin 2) (n : Fin 16) (stamp : Tick) (data : List Byte) (taken : Nat) (m : Module) : Module :=
  let q : Fin 4 := ⟨p.val + 2, by omega⟩
  if !m.carries q stamp then m
  else
    let m1 := noteHp (updCan q (fun c => { c.goodReceive with hp := c.hp.drop taken }) (hearFrame p n m))
    if objectBytes < data.length then updCan q (fun c => { c with tooLong := inc32 c.tooLong }) m1
    else if 4 ≤ (m1.can[q]).hp.length then
      raise F.busHpOverrun q.val false (updCan q (fun c => { c with hpOverrun := inc32 c.hpOverrun }) m1)
    else
      let h : FrameHead := { ident := n.val, format := .xl, length := data.length, vcid := n.val, stamp := canStamp stamp }
      updCan q (fun c => { c with hp := c.hp ++ [{ head := h, data := data }] }) m1

/-! ## Sending (R446, R447, R452) -/

/-- Frame `a` is offered before `b`: the lower identifier, then the lower object (R446). -/
def offeredBefore (a b : TxFrame) : Bool :=
  a.head.ident < b.head.ident || (a.head.ident == b.head.ident && a.object ≤ b.object)

/-- The frame a port offers (R446). -/
def offered : List TxFrame → Option TxFrame
  | [] => none
  | f :: fs => match offered fs with
    | none => some f
    | some g => if offeredBefore f g then some f else some g

/-- BUS_OFF (R452, R466, R470): the one-shot objects pending report failed, the others keep their frames; a port of the
axle link is down. -/
def busOffP (p : Fin 4) (m : Module) : Module :=
  if !(m.can[p]).active then m
  else
    let failed := ((m.can[p]).tx.filter (·.oneShot)).length
    let m1 := raise F.busOff p.val false (updCan p (fun c => { c with
      state := 3, tecErr := 256, busOff := inc32 c.busOff, txFail := satAdd 0xFFFFFFFF c.txFail failed,
      tx := c.tx.filter (fun f => !f.oneShot) }) m)
    if h : 2 ≤ p.val then portDown ⟨p.val - 2, by omega⟩ m1 else m1

/-- An error in a frame sent raises the transmit error counter by eight; above 255 the controller goes bus-off (ISO 11898-1).
PRESUMED, log entry 42. -/
def sendError (p : Fin 4) (m : Module) : Module :=
  let m1 := updCan p (fun c => ({ c with tecErr := c.tecErr + 8 } : CanPort).judge) m
  if 255 < (m1.can[p]).tecErr then busOffP p m1 else m1

/-- The header of a frame sent stays in its object with the stamp (R443, R450). -/
def noteSent (object : Nat) (h : FrameHead) (c : CanPort) : CanPort :=
  { c with sent := c.sent.filter (fun x => x.1 != object) ++ [(object, h)] }

/-- CAN_FRAME_TRANSMITTED: the frame offered is sent and stamped, an interrupt (R83, R446, R450); SYNC's stamp brings the port's
SYNC_FU (R476). One that meets an error is counted and stays to be sent again, unless it is one-shot (R446, R452). -/
def canTransmitted (p : Fin 4) (stamp : Tick) (error : Bool) (m : Module) : Module :=
  if !m.carries p stamp then m
  else
    match offered (m.can[p]).tx with
    | none => m
    | some f =>
      if error then (if f.oneShot then m else sendError p m)
      else
        let h := { f.head with stamp := canStamp stamp }
        let m1 := updCan p (fun c => noteSent f.object h { c.goodSend with tx := c.tx.erase f }) m
        let m2 := noteEvent 13 (emit (.frame p.val h f.data) m1)
        if 2 ≤ p.val ∧ f.head.ident = 0x010 then syncFu p (f.data.headD 0) (m.stampOf stamp) m2 else m2

/-- ONE_SHOT_FAIL: the one-shot frame a port offers loses arbitration, or meets an error, and is withdrawn (R447); an
allocation frame is offered once more if enough time is left (R500, R504). -/
def oneShotFail (p : Fin 4) (error : Bool) (m : Module) : Module :=
  match offered (m.can[p]).tx with
  | none => m
  | some f =>
    if !f.oneShot || !(m.can[p]).active then m
    else
      let realloc := f.instant.any (fun i => m.sys.held.any (fun a => a.realloc && a.instant == i))
      let lead := if realloc then 40000 else m.num P.sysAllocLead
      let again := f.instant.any (fun i => 2 * m.time.count.toNat + lead ≤ 2 * i.toNat) && !f.repeated
      let m1 := updCan p (fun c => { c with
        txFail := inc32 c.txFail,
        tx := c.tx.erase f ++ (if again then [{ f with repeated := true }] else []) }) m
      if error then sendError p m1 else m1

/-- BUS_OFF_RECOVERY with the occurrences of 11 recessive bits since the bus-off: from the first the controller recovers, after
128 it takes part again (R452, R474); the port is up unless it is silent. DESIGN CHOICE, log entry 104. -/
def busOffRecovery (p : Fin 4) (seen : Nat) (m : Module) : Module :=
  if !(m.can[p]).isOff || seen = 0 then m
  else if seen < 128 then updCan p (fun c => { c with state := 4 }) m
  else
    let silent := (m.can[p]).heardAt.any (fun t => t + m.num P.alSilence ≤ m.time.elapsed)
    let m1 := updCan p (fun c => { c with state := 1, recErr := 0, tecErr := 0, down := c.down && silent }) m
    if (m1.can[p]).down then m1
    else endCond F.alPortDown p.val (if 2 ≤ p.val then setCond F.alLinkLost (fun _ => true) false
      (setCond F.alLinkLostHead (fun _ => true) false m1) else m1)

/-- A port takes BUS_ENABLE of a new epoch (R470, R471): pending frames are kept, a frame on the bus completes. A port switched
off is no longer bus-off, and down only while it is silent (R466). -/
def takePort (m : Module) (p : Fin 4) : Module :=
  let c := m.can[p]
  if m.num (P.busEnable + 0x40 * p.val) = 0 then
    let silent := c.heardAt.any (fun t => t + m.num P.alSilence ≤ m.time.elapsed)
    let m1 := updCan p (fun c => { c with state := 0, recErr := 0, tecErr := 0, down := c.down && silent }) m
    if !c.down || silent then m1
    else endCond F.alPortDown p.val (setCond F.alLinkLost (fun _ => true) false
      (setCond F.alLinkLostHead (fun _ => true) false m1))
  else if c.state = 0 then updCan p (fun c => { c with state := 1 }) m else m

/-- The ports take BUS_ENABLE of a new epoch. -/
def takeBusEnable (m : Module) : Module := (List.finRange 4).foldl takePort m

/-! ## ISOBUS (R456 … R459) -/

/-- The addresses a claim may end with: the preferred one, or with the self-configurable bit of the NAME one of
128 … 247 (R456, ISO 11783-5). -/
def Module.mayClaim (m : Module) (a : Nat) : Bool :=
  a == m.num P.isAddressBase + m.straps.node.val || (bit (m.par P.isNameHigh) 31 && 128 ≤ a && a ≤ 247)

/-- Another control function with a lower NAME has claimed an address. -/
def Module.takenAddress (m : Module) (a : Nat) : Bool := m.isobus.others.any (fun x => x.1 == a && x.2 < m.nameNum)

/-- ADDRESS_CLAIM: the module claims an address it may have and no lower NAME holds, or, where there is none, none (R456); a
lost address aborts the transfers (R470). PRESUMED, log entry 43. -/
def addressClaim (a : Option (Fin 254)) (m : Module) : Module :=
  if m.label.code < 2 || !(m.can[0]).active then m
  else
    match a with
    | some a =>
      if !m.mayClaim a.val || m.takenAddress a.val then m
      else endCond F.isAddressLost 0
        (offerClaim (updIsobus (fun x => { x with address := a.val, claimed := true }) m))
    | none =>
      if (List.range 254).any (fun a => m.mayClaim a && !m.takenAddress a) then m
      else raise F.isAddressLost 0 true (offerClaim (loseAddress m))

/-- The active faults DM1 lists, oldest first (R458). -/
def Module.dm1Faults (m : Module) : List ActiveFault :=
  m.faults.active.filter (fun f => classOf f.code != .c || m.num P.dm1IncludeC == 1)

/-- The four bytes of a fault in DM1 (R458): SPN, FMI, conversion method 0 and occurrence count. -/
def dm1Entry (m : Module) (code : Nat) : List Byte :=
  let spn := 520192 + code % 0x1000
  [BitVec.ofNat 8 spn, BitVec.ofNat 8 (spn / 2 ^ 8), BitVec.ofNat 8 (spn / 2 ^ 16 % 8 * 32 + code / 0x1000 % 16),
   BitVec.ofNat 8 (Nat.min 126 (m.occurrences code))]

/-- The data of DM1 (R458, R459): lamps, flash codes, the faults or the no-fault entry, padding to eight bytes. -/
def dm1Bytes (m : Module) : List Byte :=
  let fs := m.dm1Faults
  let red := fs.any (fun f => classOf f.code == .a)
  let amber := fs.any (fun f => classOf f.code == .b)
  let lamps : Byte := BitVec.ofNat 8 (0x10 * flag red + 0x04 * flag amber)
  let body := [lamps, 0xFF] ++ (if fs.isEmpty then [0, 0, 0, 0] else fs.flatMap (fun f => dm1Entry m f.code))
  body ++ List.replicate (8 - body.length) 0xFF

/-- DM1 in one frame, or, longer than eight bytes, as a broadcast transfer (ISO 11783-3). PRESUMED, log entry 43. -/
def offerDm1 (bytes : List Byte) (m : Module) : Module :=
  if bytes.length ≤ 8 then offer 0 1 1 (0x18FECA00 + m.isobus.address) false bytes none m
  else
    (List.range (tpPackets bytes.length)).foldl (fun m k => offerTp 0xEB 255 (tpData bytes (k + 1)) m)
      (offerTp 0xEC 255 [32, BitVec.ofNat 8 bytes.length, BitVec.ofNat 8 (bytes.length / 2 ^ 8),
        BitVec.ofNat 8 (tpPackets bytes.length), 0xFF, 0xCA, 0xFE, 0x00] m)

/-- DM1_SEND (R458): once per second, and when the set of active faults changes, changes no closer than 100 ms. -/
def dm1Send (m : Module) : Module :=
  let set := m.faults.active.map (fun f => (f.code, f.detail))
  let due := match m.isobus.dm1At with
    | none => true
    | some t => t + 400000000 ≤ m.time.elapsed || (set != m.isobus.dm1Set && t + 40000000 ≤ m.time.elapsed)
  if m.isobus.address = 254 || m.label.code < 2 || !due then m
  else offerDm1 (dm1Bytes m) (updIsobus (fun x => { x with dm1At := some m.time.elapsed, dm1Set := set }) m)

/-- TP_SESSION_TIMEOUT (R457): a transfer whose peer has been silent for 750 ms, or to whom the module sends for 1,250 ms, is
aborted. PRESUMED, log entry 43. -/
def tpTimeout (m : Module) : Module :=
  let abort (extended : Bool) (peer : Nat) (m : Module) : Module :=
    offerTp (if extended then 0xC8 else 0xEC) peer [255, 3, 0xFF, 0xFF, 0xFF, 0x00, 0xEF, 0x00] m
  let m1 := match m.isobus.session with
    | some s =>
      if m.time.elapsed < s.lastAt + 300000000 then m
      else abort s.extended s.peer (updIsobus (fun x => { x with session := none }) m)
    | none => m
  match m.isobus.sending with
  | some x => if m.time.elapsed < x.lastAt + 500000000 then m1 else nextTp (abort false x.peer m1)
  | none => m1

/-! ## Ethernet links (R469) -/

/-- ET_LINK_DOWN (R469). -/
def etLinkDown (e : Fin 2) (m : Module) : Module :=
  let m1 := updEth e (fun x => { x with linkUp := false, sqi := 0 }) m
  if m.label.code < 2 || m.num (P.etEnable + 0x10 * e.val) = 0 then m1 else raise F.etLinkDown e.val true m1

/-- ET_LINK_UP with the signal quality (R469, R473). -/
def etLinkUp (e : Fin 2) (sqi : Fin 8) (m : Module) : Module :=
  if m.label.code < 2 || m.num (P.etEnable + 0x10 * e.val) = 0 then m
  else endCond F.etLinkDown e.val (updEth e (fun x => { x with linkUp := true, sqi := sqi.val }) m)

/-- BUS_STATUS (R474). -/
def busStatus (p : Fin 4) (m : Module) : Word :=
  let c := m.can[p]
  let full := [c.txFail, c.rxOverrun, c.busOff, c.hpOverrun, c.tooLong].any (· == 0xFFFFFFFF)
  pack [(Nat.min 255 c.recErr, 24), (Nat.min 255 c.tecErr, 16), (c.state, 13), (flag (c.down && 2 ≤ p.val), 12),
        (flag full, 11)]

/-- ET_STATUS (R473). -/
def etStatus (e : Fin 2) (m : Module) : Word :=
  let x := m.eth[e]
  pack [(x.sqi, 3), (m.num (P.etRole + 0x10 * e.val), 2), (flag (m.num (P.etIpAddr + 0x10 * e.val) != 0), 1),
        (flag x.linkUp, 0)]

end Sys2Proof.Machine
end

