-- ==== Sys2Proof/Machine/Power.lean ====
section
/-!
DEFINITION. Power states and start-up (R547 … R555, R43), the supply and the control ports (R634 … R649), the references of
the Spindle (R66), programming of the fault log and of the operating time (R591, R593, R673).
-/

namespace Sys2Proof.Machine

/-- The supply with `f` applied. -/
def updSupply (f : Supply → Supply) (m : Module) : Module := { m with supply := f m.supply }

/-! ## What is programmed into FL -/

/-- The ring after some records: a full one first loses its oldest sector (R591). -/
def fillRing : List LogRec → List LogRec → List LogRec
  | ring, [] => ring
  | ring, r :: rs => fillRing ((if 30720 ≤ ring.length then ring.drop 2048 else ring) ++ [r]) rs

/-- The records of the write buffer are programmed into FL (R593). -/
def programLog (m : Module) : Module :=
  { m with faults := { m.faults with
    ring := fillRing m.faults.ring m.faults.buffer, written := satAdd 0xFFFFFFFF m.faults.written m.faults.buffer.length,
    buffer := [] } }

/-- SVC_OPERATING_TIME is programmed: the whole seconds counted since (R671, R673). -/
def programTime (m : Module) : Module :=
  { m with service := { m.service with
    operatingTime := satAdd 0xFFFFFFFF m.service.operatingTime (m.service.unprogrammed / 400000000),
    unprogrammed := m.service.unprogrammed % 400000000 } }

/-- OPERATING_TIME_PROGRAM: after every 600 s of counted time (R673). -/
def operatingTimeProgram (m : Module) : Module :=
  if m.service.unprogrammed < 240000000000 then m else programTime m

/-! ## Start-up (R553, R554) -/

/-- The straps in use after R648. -/
def strapsInUse (s : Straps) : StrapsInUse :=
  let invalid := flag s.roleInvalid + 2 * flag s.splitInvalid + 4 * s.nodeInvalid.val
  { headstock := s.headstock && invalid == 0, split := s.split || invalid != 0,
    node := ⟨(s.node.val ||| s.nodeInvalid.val) % 16, Nat.mod_lt _ (by decide)⟩, invalid := invalid }

/-- The epochs at boot (R553 step 5, R558, R568): what the role record names, or the factory epoch. -/
def bootEpochs (head : Bool) (b : Boot) (e : Epochs) : Epochs × Bool :=
  let bad := b.activeBad || b.roleBad || !e.roleReadable ||
    (validate head (resetWord P.dcVref) e.flashActive).isSome
  let run := if bad then factoryImage else e.flashActive
  ({ e with active := run, staged := none, cellar := e.flashCellar, stagedBad := false, cellarBad := b.cellarBad,
            activeBad := b.activeBad, previous := run, onOld := Vector.replicate 8 false, pending := none,
            provisional := none, flashPending := false, programmed := false, bootFallback := bad, lastSwitch := 0 },
   bad)

/-- The module at STANDBY after a start (R553, R554) with count `count`. What lies in FL, the supply, the pins and the
model's clock are kept, and on a restart that leaves the PLL alone its reference with the faults of the references (R43);
everything else stands as at boot. DEDUCED, log entry 33. -/
def bootTo (b : Boot) (count : Tick) (wake locked : Bool) (m : Module) : Module :=
  let s := strapsInUse b.straps
  let now := m.time.elapsed
  let (e, bad) := bootEpochs s.headstock b m.epochs
  let img := e.active
  let ch := { Chopper.init with resPower := img.val P.chResPowerCont }
  let m1 : Module :=
    { time :=
        { count := count, elapsed := now, running := true, valid := true,
          ref := if locked then m.time.ref else if img.num P.spindleRefSelect = 1 then .ts else .crystal,
          tsFault := locked && m.time.tsFault, xtalFault := locked && m.time.xtalFault,
          stepped := false, refLossCount := 0, carryWindow := false, retained := 0 },
      supply :=
        { m.supply with
          label := .standby, transition := none, lastFail := 0xFF, holdup := !m.supply.lvinOk, fbLimited := 0,
          svSlow := false, railsRemoved := false, wakeReason := if wake then m.supply.wakeReason else 0,
          wokeAt := if wake then m.supply.wokeAt else none,
          wakeHeld := false, pins := b.straps, readyAt := 0, rampAt := 0 },
      straps := s,
      dies := Vector.ofFn (fun d => Die.init (if standbyDie d.val then 1 else 0)),
      epochs := e, live := Live.init, interp := Interp.init,
      faults :=
        { m.faults with
          active := [], pattern := Vector.replicate 9 .none, patternBy := Vector.replicate 9 (0, 0),
          releasing := Vector.replicate 9 false, buffer := [], lost := 0, erasing := false, verifySuspect := [] },
      regions := Vector.replicate 8 Region.init, hostOut := Vector.replicate 64 0,
      crossings := Vector.ofFn (fun i => Crossing.init i.val), landings := [], exchange := [], publishing := [],
      published := { Saved.init with chopper := ch }, checkpoints := { Saved.init with chopper := ch },
      lockstep := Lockstep.init s.split, memory := Memory.init now,
      service := { m.service with bootCount := inc32 m.service.bootCount, unprogrammed := 0 },
      traction := Vector.replicate 2 Traction.init,
      chopper := ch,
      feedback := Vector.replicate 6 Feedback.init, converter := Converter.init, charger := Charger.init,
      islands := Vector.replicate 36 Island.init, gate := GateCtl.init,
      actuators := Vector.replicate 4 Actuator.init, afe := Vector.ofFn (fun a => Afe.init a.val),
      can := Vector.ofFn (fun p => CanPort.init (if img.num (P.busEnable + 0x40 * p.val) = 1 then 1 else 0)),
      eth := Vector.replicate 2 EthPort.init, isobus := Isobus.init,
      sys := System.init s.headstock s.node.val now, drivenTime := 0, free := m.free, out := m.out }
  let m2 := record 0 0 5 0 0 m1
  if bad then raise F.epochBootInvalid 0 false m2 else m2

/-- A wake from SLEEP: the count resumes from the retained value (R553). -/
def wakeUp (b : Boot) (m : Module) : Module := bootTo b (m.time.retained + BitVec.ofNat 64 b.lock) true false m

/-- START_UP: LVIN comes into tolerance in OFF (R553, R634, R636). -/
def startUp (b : Boot) (lvin : Word) (m : Module) : Module :=
  if m.label != .off then m
  else bootTo b (BitVec.ofNat 64 b.lock) false false
    (updSupply (fun s => { s with lvinOk := true, lvin := lvin, holdup := false }) m)

/-- The port wakes on what its detector sees, as BUS_WAKE selects (R453, R471). -/
def Module.wakesOn (m : Module) (p : Fin 4) (c : WakeCause) : Bool :=
  let num (id : Nat) : Nat := m.num (id + 0x40 * p.val)
  num P.busEnable == 1 && (match c with
    | .level ticks => num P.busWake == 1 && num P.busWakeFilter ≤ ticks
    | .frame f rate =>
      num P.busWake == 2 && f.format == .classical && !f.damaged && rate == num P.busNominalRate &&
      f.extended == (num P.busWakeExt == 1) && (f.ident &&& num P.busWakeMask) == (num P.busWakeId &&& num P.busWakeMask))

/-- BUS_WAKE on port `p` (R453 … R455): from SLEEP to STANDBY, on LVIN only (R636); while SLEEP is being entered it is
held. A wake on the tick that ends a SLEEP belongs to that SLEEP too: it sets its bit and causes no second transition. -/
def busWake (p : Fin 4) (c : WakeCause) (b : Boot) (m : Module) : Module :=
  let entering := m.supply.transition.any (fun t => t.dest == .sleep)
  if !m.wakesOn p c then m
  else
    let mark := updSupply (fun s => { s with wakeReason := s.wakeReason ||| 2 ^ p.val })
    if m.label == .sleep then
      (if m.supply.lvinOk then wakeUp b (updSupply (fun s => { s with wokeAt := some m.time.elapsed }) (mark m)) else m)
    else if m.supply.wokeAt == some m.time.elapsed then mark m
    else if entering then updSupply (fun s => { s with wakeHeld := true }) (mark m)
    else m

/-- The reset of SUP (R43): the log and, as on every way to STANDBY, the operating time programmed (R673), the dies of READY
off, the start from step 3; the count runs on, or is locked anew. DEDUCED, log entry 33. -/
def restartNow (b : Boot) (m : Module) : Module :=
  let m1 := programTime (programLog m)
  let relock := !m.time.valid || m.time.ref == .holdover
  bootTo b (if relock then BitVec.ofNat 64 b.lock else m1.time.count) false (!relock) m1

/-- The frames that came into the transmit objects since a module leave at once: those of the reply to a restart (R43, R542);
on CN0 that is the request to send. DESIGN CHOICE, log entry 44. -/
def sendNew (before m : Module) : Module :=
  (List.finRange 4).foldl (fun m p =>
    ((m.can[p]).tx.drop (before.can[p]).tx.length).foldl (fun m f => emit (.frame p.val f.head f.data) m) m) m

/-- MODULE_RESTART: RESET_DIE naming SUP (R43, R542); the reply leaves first. -/
def moduleRestart (h : Hdr) (b : Boot) (m : Module) : Module :=
  match resetDieCheck h [0] m with
  | some (st, d) => refuse 0xF1 h 1 st d m
  | none => restartNow b (sendNew m (sendReply 0xF1 h 1 0 0 [] (countAccepted m)))

/-! ## OFF (R639) -/

/-- The module without supply: with the store charged the log and the operating time are programmed first (R639, R673). -/
def goOff (m : Module) : Module :=
  let m1 := if m.supply.store && 2 ≤ m.label.code then programTime (programLog m) else m
  let m2 := updSupply (fun s => { s with
    label := .off, transition := none, holdup := false, store := false, lvinOk := false, fbLimited := 0 }) m1
  { m2 with
    time := { m2.time with running := false }, dies := m2.dies.map (fun d => { d with supply := 0, inReset := false }),
    regions := m2.regions.map Region.stop, islands := m2.islands.map (fun i => { i with output := false }),
    can := m2.can.map (fun c => { c with state := 0 }), eth := m2.eth.map (fun e => { e with linkUp := false }) }

/-- LVIN_LOST (R555, R638, R658): with HVAUX in range the module runs on from it, in SLEEP with no one to raise the fault;
only the loss of both brings OFF (R47). -/
def lvinLost (lvin : Word) (m : Module) : Module :=
  if !m.supply.lvinOk then m
  else
    let m1 := updSupply (fun s => { s with lvinOk := false, lvin := lvin }) m
    if m.label == .off || !m.supply.hvauxOk then goOff m1
    else
      let m2 := updSupply (fun s => { s with holdup := true }) m1
      if m.label == .sleep then m2 else raise F.pwrLvinLost 0 true m2

/-- LVIN_RETURN during hold-up (R638). -/
def lvinReturn (lvin : Word) (m : Module) : Module :=
  if !m.supply.holdup then m
  else endCond F.pwrLvinLost 0 (updSupply (fun s => { s with lvinOk := true, lvin := lvin, holdup := false }) m)

/-- HVAUX_LOST (R639, R658): during hold-up the module goes OFF; else the store discharges. -/
def hvauxLost (hvaux : Word) (m : Module) : Module :=
  let m1 := updSupply (fun s => { s with hvauxOk := false, hvaux := hvaux }) m
  if m.supply.holdup then goOff m1 else updSupply (fun s => { s with store := false }) m1

/-- HVAUX_RETURN (R637). -/
def hvauxReturn (hvaux : Word) (m : Module) : Module :=
  updSupply (fun s => { s with hvauxOk := true, hvaux := hvaux }) m

/-- HOLDUP_STORE_CHARGED (R637). -/
def holdupCharged (m : Module) : Module :=
  if m.supply.hvauxOk && m.supply.lvinOk && 2 ≤ m.label.code then updSupply (fun s => { s with store := true }) m else m

/-! ## Transitions (R549 … R551) -/

/-- The state one step from `s` towards `t`. -/
def stepTowards (s t : Power) : Power :=
  if s.code < t.code then (match s with | .standby => .ready | .ready => .armed | .armed => .run | x => x)
  else (match s with | .run => .armed | .armed => .ready | .ready => .standby | .standby => .sleep | x => x)

/-- Every island is disabled; those that hold a fault keep it (R551). -/
def disableIslands (m : Module) : Module :=
  { m with islands := m.islands.map (fun s =>
      { s with output := false, commanded := false, state := if s.state == .enabled then .disabled else s.state }) }

/-- The dies of READY are supplied and leave reset; the regions wait for their first boundary (R551, R44, R605).
DEDUCED, log entry 34. -/
def supplyReady (m : Module) : Module :=
  let now := m.time.elapsed
  let m0 := [2, 3, 4, 5, 7].foldl (fun m d => freshCrossings d m) m
  let m1 := { m0 with
    dies := Vector.ofFn (fun d => let x := m.dies[d]
                                  if standbyDie d.val then x else { x with supply := 1, inReset := false }),
    supply := { m.supply with rampAt := now },
    islands := Vector.ofFn (fun i => let s := m.islands[i]
                                     { (Island.unpowered s) with
      railsSeen := false, commanded := false, frameOff := false, waits := false, linkDown := false, statusDown := false,
      goodFrameAt := now, uvloPos := true, uvloNeg := m.negMonitored i,
      state := if s.state == .enabled then .disabled else (Island.unpowered s).state }),
    memory := { m.memory with scrubbers := Vector.ofFn (fun s => let x := m.memory.scrubbers[s]
                                                              if s.val = 0 then x else { x with lapStart := now }) } }
  (List.finRange 36).foldl (fun m i => followCond i m) <| axSupplied (freshGdc (freshAfe 1 (freshAfe 0 (freshFabric 1 (freshFabric 0 m1)))))

/-- A measurement or a reset of die `d` waits for a result that a die without supply cannot give. -/
def stranded (w : Waiting) : Bool :=
  w.result.isNone && (w.opcode == 0x70 || w.opcode == 0xF1) && w.target < 46 && !standbyDie w.target

/-- The dies supplied for READY are switched off with both sides of their crossings (R42, R551): an access into one of them
stalls (R85), a measurement or a reset of one ends with DOMAIN_STOPPED, a measurement of all goes on without it (R539, R620).
DEDUCED, log entry 22. -/
def unsupplyReady (m0 : Module) : Module :=
  let m := [4, 5, 7].foldl (fun m d => stallAccesses d m) ([2, 3, 4, 5, 7].foldl (fun m d => freshCrossings d m) m0)
  answerAllTemps { m with
    interp := { m.interp with waiting := m.interp.waiting.map (fun w =>
      if stranded w then { w with result := some (Status.domainStopped.code, w.target, []) } else w) },
    dies := Vector.ofFn (fun d => let x := m.dies[d]
                                  if standbyDie d.val then x else { x with supply := 0, inReset := false }),
    regions := m.regions.map Region.stop,
    islands := m.islands.map Island.unpowered,
    supply := { m.supply with fbLimited := 0 },
    gate := { m.gate with test := 0 },
    memory := { m.memory with filling := [] } }

/-- Charge, AC export and DC export end, TA and TB go OPEN (R551, RUN → ARMED). -/
def leaveRun (m : Module) : Module :=
  let m1 := endDcExport (stopExport (if m.charger.session then stopSession m else m))
  { m1 with traction := m1.traction.map (fun t => if t.loop == .open then { t with nextLoop := none }
                                                 else { t with nextLoop := some .open }) }

/-- Loops DC, DI and AX0 … AX3 go OPEN (R551, ARMED → READY). -/
def leaveArmed (m : Module) : Module :=
  { m with
    converter := { m.converter with nextClosed := if m.converter.closed then some false else none },
    actuators := m.actuators.map (fun a =>
      let a1 := if a.move = 0 then a else { abandonAx a with closed := a.closed }
      { a1 with nextClosed := if a1.closed then some false else none }) }

/-- The steps of a leg that happen at its acceptance (R551). -/
def beginLeg (target dest : Power) (m : Module) : Module :=
  let t : Transition := { target := target, source := m.label, dest := dest, stage := 1, started := m.time.elapsed }
  let m1 := updSupply (fun s => { s with transition := some t }) m
  match m.label, dest with
  | .standby, .ready => supplyReady m1
  | .ready, .armed =>
    { m1 with converter := { m1.converter with
        precharge := 1, prechargeAt := m.time.elapsed, withinSince := none, precharged := false } }
  | .run, .armed => leaveRun m1
  | .armed, .ready => leaveArmed m1
  | .standby, .sleep => updSupply (fun s => { s with wakeReason := 0, wakeHeld := false }) m1
  | _, _ => m1

/-- A transition is abandoned: the label stays, what it changed is undone (R551); the converter's loops open at the next boundary
of region 2 (R298). -/
def abandon (detail : Nat) (m : Module) : Module :=
  match m.supply.transition with
  | none => m
  | some t =>
    let m1 := updSupply (fun s => { s with transition := none, lastFail := detail }) m
    let m2 := match t.source, t.dest with
      | .standby, .ready => unsupplyReady m1
      | .ready, .armed =>
        disableIslands { m1 with converter := { m1.converter with
          nextClosed := if m1.converter.closed then some false else none, precharge := 0, precharged := false,
          withinSince := none } }
      | _, _ => m1
    raise F.pwrTransitionFail detail false m2

/-- A loop still closed or closing keeps ARMED (R551). -/
def Module.looseEnds (m : Module) : Bool :=
  m.converter.closed || (List.finRange 4).any (fun a => (m.actuators[a]).closed)

/-- The islands of enabled functions have their rails in tolerance (R551). -/
def Module.railsReady (m : Module) : Bool :=
  (List.finRange 36).all (fun i => !m.enabled (islandFunc i.val) || ((m.islands[i]).railPosOk && (m.islands[i]).railNegOk))

/-- The lowest-numbered die other than the islands that is not in tolerance. -/
def Module.badDie (m : Module) : Option Nat :=
  ((List.finRange 46).find? (fun d => d.val < 10 && (m.dies[d]).supply != 1)).map (·.val)

/-- The dies SLEEP leaves without supply: AUX keeps its standby rail, the PHY its wake detectors (R47, R551). -/
def sleepDies (m : Module) : Vector Die 46 :=
  Vector.ofFn (fun d => if d.val = 6 || d.val = 9 then m.dies[d] else { m.dies[d] with supply := 0, inReset := false })

/-- The label changes at the last step of a leg, at READY with the homing of R388; a multi-step way down goes on (R549,
R551). -/
def finishLeg (t : Transition) (m : Module) : Module :=
  let m1 := updSupply (fun s => { s with label := t.dest, transition := none }) m
  let m2 := if t.source == .run then noteCause 4 m.time.count m1
            else if t.dest == .ready then axEnterReady m1 else m1
  if t.dest == t.target then m2 else beginLeg t.target (stepTowards t.dest t.target) m2

/-- POWER_TRANSITION_PROGRESS (R551): a step of the running transition that is due completes. `b` is what a wake held
during the entry to SLEEP finds. DEDUCED, log entry 45. -/
def powerProgress (b : Boot) (m : Module) : Module :=
  match m.supply.transition with
  | none => m
  | some t =>
    let waited := m.time.elapsed - t.started
    match t.source, t.dest with
    | .standby, .ready =>
      (match m.badDie with
       | some d => if 2000000 ≤ waited then abandon d m else m
       | none =>
         if m.railsReady || 8000000 ≤ waited then
           updSupply (fun s => { s with readyAt := m.time.elapsed }) (finishLeg t m) else m)
    | .ready, .armed =>
      if !m.enHigh then abandon 0xFE m
      else if m.converter.precharged then finishLeg t (enableIslands (fun _ => true) m)
      else m
    | .armed, .run => if m.time.count.toNat % 4000 = 0 then finishLeg t m else m
    | .run, .armed =>
      if m.charger.state = 0 ∧ m.converter.outlet = 0 ∧ m.traction[0].loop = .open ∧ m.traction[1].loop = .open then
        finishLeg t m else m
    | .armed, .ready =>
      if m.looseEnds then m
      else finishLeg t (disableIslands { lgdOff m with converter := { m.converter with precharged := false } })
    | .ready, .standby =>
      if m.regions.any (·.started) && waited < 2000000 then m
      else programTime (finishLeg t (unsupplyReady m))
    | .standby, .sleep =>
      let m1 := programLog m
      let m2 := updSupply (fun s => { s with label := .sleep, transition := none }) { m1 with
        time := { m1.time with retained := m1.time.count, running := false },
        dies := sleepDies m1,
        can := m1.can.map (fun c => { c with state := 5 }), eth := m1.eth.map (fun e => { e with linkUp := false }) }
      if m.supply.wakeHeld then wakeUp b m2 else m2
    | _, _ => m

/-- PRECHARGE_COMPLETE (R311). -/
def prechargeComplete (m : Module) : Module :=
  let cv := m.converter
  if cv.precharge = 0 || (m.enabled .cv && cv.precharge != 2) || !m.withinTol ||
    !lasted m.time.elapsed cv.withinSince 400000 then m
  else
    { updSupply (fun s => { s with transition := s.transition.map (fun t => { t with stage := 2 }) }) m with
      converter := { cv with precharged := true, precharge := 0 } }

/-- CV_PRECHARGE_FAIL (R311): the loops open, the islands are disabled, the transition is abandoned with detail 0xFF. -/
def prechargeFail (m : Module) : Module :=
  let cv := m.converter
  let running := m.supply.transition.any (fun t => t.source == .ready && t.dest == .armed)
  if !running || cv.precharged || m.time.elapsed < cv.prechargeAt + m.us P.cvPrechargeTimeout then m
  else abandon 0xFF (raise F.cvPrechargeFail 0 false m)

/-- PWR_TRANSITION_FAIL by an event of its own: a die out of tolerance (R551). -/
def transitionFail (m : Module) : Module :=
  match m.supply.transition with
  | none => m
  | some t =>
    if t.source == .standby && t.dest == .ready && 2000000 ≤ m.time.elapsed - t.started then
      (match m.badDie with | some d => abandon d m | none => m)
    else if t.source == .ready && t.dest == .armed && !m.enHigh then abandon 0xFE m
    else m

/-- EN_FALL (R355, R551): beside the fall itself, a transition to ARMED is abandoned on that tick. -/
def enFallen (m : Module) : Module :=
  let m1 := enFall m
  if m.supply.transition.any (fun t => t.source == .ready && t.dest == .armed) then abandon 0xFE m1 else m1

/-- The conditions of R358 and R429 for ARMED. -/
def Module.armBlocked (m : Module) : Bool :=
  !m.enHigh || protectionBlocks m ||
  (List.finRange 36).any (fun i => m.enabled (islandFunc i.val) &&
    (!(m.islands[i]).healthy || (m.islands[i]).selftest == 2))

/-- The last row of R550: an enabled channel turns too fast, or nobody knows how fast. -/
def Module.tooFast (m : Module) : Bool :=
  (List.finRange 2).any (fun c => m.enabled (tractionFunc c) &&
    (F32.le (m.tpar c P.trAscEnterRatio) (m.traction[c]).emfRatio || !m.speedValid c))

/-- The result of R549 for a target: none for the current state, or allowed. -/
def legalTarget (s t : Power) : Bool :=
  match s, t with
  | .standby, .sleep | .standby, .ready | .ready, .armed | .armed, .run => true
  | _, _ => 2 ≤ t.code && t.code < s.code

/-- The power state of a target code (R536). -/
def powerOf (n : Nat) : Power :=
  match n with | 1 => .sleep | 2 => .standby | 3 => .ready | 4 => .armed | 5 => .run | _ => .off

/-- SET_POWER_STATE (R536, R549, R550). -/
def setPowerState (h : Hdr) (ws : List Word) (m : Module) : Verdict :=
  let w := ws.getD 0 0
  let t := powerOf (bits w 2 0)
  unlessFails (firstFail
    [failIf (ws.length != 1 || (h.timed && ws.length < 2)) .badLength,
     failIf (h.timed || bits w 31 3 != 0 || t == .off) .reservedEncoding,
     checkRelayed 0x30 h m])
    (if t == m.label then .done [] m
     else unlessFails (firstFail
       [failIf (!legalTarget m.label t) .illegalTransition,
        failIf (m.inTransition || m.commitPending || (t == .sleep && m.epochs.flashPending)) .busy,
        failIf (m.lockstepRequired && (t == .armed || t == .run)) .lockstepRequired,
        failIf (t == .run && !m.isAdmitted) .notAdmitted,
        failIf (t == .armed && m.armBlocked) .stateForbids,
        failIf (m.driven && t.code ≤ 3 && m.tooFast) .stateForbids])
       (.scheduled [] (beginLeg t (stepTowards m.label t) m)))

/-! ## Control ports (R630, R642, R649) -/

/-- HVIL_CHANGE with the filtered return current in mA (R642): an opening ends DC export and costs a Tailstock its
admission. -/
def hvilChange (current : Word) (m : Module) : Module :=
  let closed := F32.le (F32.ofNat 8) current && F32.le current (F32.ofNat 12)
  let open_ := F32.lt current (F32.ofNat 4) || F32.lt (F32.ofNat 15) current
  if m.label.code < 2 then m
  else if closed then endCond F.sysHvilOpen 0 (updSupply (fun s => { s with hvil := true }) m)
  else if open_ && m.supply.hvil then
    loseAdmission F.sysHvilOpen 0 (dcExportEnd .hvil
      (noteCause 0 m.time.count (updSupply (fun s => { s with hvil := false }) m)))
  else m

/-- The lines of a feedback port. -/
def allLines : List (Fin 5) := List.finRange 5

/-- FB_SUPPLY_LIMIT (R630): every line of a limited port reports a break; a modulator without supply is lost. -/
def fbSupplyLimit (s : PortSupply) (m : Module) : Module :=
  if !m.atLeastReady then m
  else match s with
    | .fb p => allLines.foldl (fun m l => lineBreak p l m)
        (updSupply (fun x => { x with fbLimited := x.fbLimited ||| 2 ^ p.val }) m)
    | .cs i => sdLost ⟨i.val / 4, by omega⟩ ⟨i.val % 4, Nat.mod_lt _ (by decide)⟩ m

/-- FB_SUPPLY_RECOVERY (R630). -/
def fbSupplyRecovery (s : PortSupply) (m : Module) : Module :=
  match s with
  | .fb p => allLines.foldl (fun m l => lineRestored p l m)
      (updSupply (fun x => { x with fbLimited := clearBit x.fbLimited p.val }) m)
  | .cs i => sdRecovered ⟨i.val / 4, by omega⟩ ⟨i.val % 4, Nat.mod_lt _ (by decide)⟩ m

/-- SV_RATE_CHANGE (R649). -/
def svRateChange (m : Module) : Module := updSupply (fun s => { s with svSlow := 2 ≤ m.dies[0].throttle }) m

/-! ## References (R66) -/

/-- Time with `f` applied. -/
def updTime (f : Timing → Timing) (m : Module) : Module := { m with time := f m.time }

/-- SPINDLE_TS_REF_LOST (R66): in use, the PLL changes to the crystal, or to holdover when that is faulty too. -/
def tsRefLost (m : Module) : Module :=
  if m.label.code < 2 || m.num P.tsMode != 1 || m.time.tsFault then m
  else
    let m1 := updTime (fun t => { t with tsFault := true, refLossCount := inc32 t.refLossCount }) m
    if m.time.ref != .ts then m1
    else if m.time.xtalFault then
      raise F.spindleRefLost 0 true (updTime (fun t => { t with ref := .holdover }) m1)
    else raise F.spindleTsRefLost 0 true (updTime (fun t => { t with ref := .crystal }) m1)

/-- SPINDLE_REF_LOST (R66): a faulty crystal in use brings holdover. -/
def xtalLost (m : Module) : Module :=
  if m.label.code < 2 || m.time.xtalFault then m
  else
    let m1 := updTime (fun t => { t with xtalFault := true, refLossCount := inc32 t.refLossCount }) m
    if m.time.ref != .crystal then m1
    else raise F.spindleRefLost 0 true (updTime (fun t => { t with ref := .holdover }) m1)

/-- SPINDLE_LOST (R66): the count is invalid until a module restart. -/
def spindleLost (m : Module) : Module :=
  if m.label.code < 2 || !m.time.valid then m
  else raise F.spindleLost 0 true (updTime (fun t => { t with valid := false }) m)

/-- REFERENCE_RECOVERY (R66): a healthy TS input ends the condition, and the PLL does not switch back; a crystal within limits
again is no longer faulty, and the holdover its loss brought goes on. -/
def tsRecovered (crystal : Bool) (m : Module) : Module :=
  if crystal then updTime (fun t => { t with xtalFault := false }) m
  else endCond F.spindleTsRefLost 0 (updTime (fun t => { t with tsFault := false }) m)

/-- The reference a new epoch selects (R65, R66), without a step of the count: back to TS only by a commit; a faulty TS
input gives way to the crystal with its fault, a faulty crystal to holdover with its own. -/
def takeReference (m : Module) : Module :=
  let use_ (r : RefSource) : Module := updTime (fun t => { t with ref := r }) m
  if m.num P.spindleRefSelect = 1 && !m.time.tsFault then use_ .ts
  else if m.time.xtalFault then if m.time.ref == .holdover then m else raise F.spindleRefLost 0 true (use_ .holdover)
  else if m.num P.spindleRefSelect = 1 then raise F.spindleTsRefLost 0 true (use_ .crystal)
  else use_ .crystal

/-! ## Status words -/

/-- PWR_STATUS (R572). -/
def pwrStatus (m : Module) : Word :=
  let target := (m.supply.transition.map (·.target.code)).getD 0
  pack [(m.label.code, 13), (target, 10), (flag m.inTransition, 9), (flag m.supply.holdup, 8), (m.supply.lastFail, 0)]

/-- PORT_STATUS (R656). DEDUCED, log entry 45. -/
def portStatus (m : Module) : Word :=
  pack [(flag m.supply.lvinOk, 11), (flag m.supply.hvauxOk, 10), (flag m.supply.store, 9), (flag m.enHigh, 8),
        (flag m.flt, 7), (flag m.supply.hvil, 6), (m.supply.fbLimited, 0)]

/-- PORT_STRAPS (R657). -/
def portStraps (m : Module) : Word :=
  pack [(m.straps.invalid, 8), (flag m.straps.headstock, 5), (flag m.straps.split, 4), (m.straps.node.val, 0)]

/-- SPINDLE_STATUS (R93). -/
def spindleStatus (m : Module) : Word :=
  pack [(flag m.time.stepped, 7), (m.time.ref.code, 5), (flag m.time.valid, 4),
        (flag (m.time.tsFault && m.num P.tsMode == 1), 3), (flag m.time.xtalFault, 2)]

end Sys2Proof.Machine
end

