-- ==== Sys2Proof/Machine/Flags.lean ====
section
/-!
DEFINITION. The status words of area E and D with their field maps, the service words, and the value every parameter ID
reads (R533, R662, R665).
-/

namespace Sys2Proof.Machine

/-- The entry of a vector at an index that may lie beyond it. -/
def atIndex {α : Type} {n : Nat} (v : Vector α n) (i : Nat) (d : α) : α := v.toList.getD i d

/-- DIE_STATUS (R59): a running die with a crossing to one in reset shows the partner. -/
def dieStatus (d : Nat) (m : Module) : Word :=
  let x := atIndex m.dies d (Die.init 0)
  let stopped (k : Nat) : Bool := (atIndex m.dies k (Die.init 0)).inReset
  let partner := (crossingsOf d).any (fun i => (List.range 10).any (fun k => k != d && (crossingsOf k).contains i && stopped k))
  pack [(x.supply, 10), (if x.inReset then 1 else if partner then 2 else 0, 8), (x.throttle, 6),
        (if d = 0 || d = 2 || d = 3 then x.bist else 0, 4)]

/-- CROSSING_STATUS (R94): a stalled access before a partner in reset before a transfer. -/
def crossingStatus (i : Nat) (m : Module) : Word :=
  let x := atIndex m.crossings i (Crossing.init i)
  let held := (List.range 10).any (fun k => (crossingsOf k).contains i && (atIndex m.dies k (Die.init 0)).inReset)
  pack [(x.dropped, 16), (flag x.overflow, 8), 
        (if x.stalled.isSome then 3 else if held then 2 else flag (x.busy m.time.elapsed), 4)]

/-- REGION_STATUS (R140). -/
def regionStatus (n : Fin 8) (m : Module) : Word :=
  let r := m.regions[n]
  let empty := ((m.regionImage n).table n.val).isEmpty
  let state := if (m.dies[regionDie n]).supply = 0 || empty then 0 else if m.regionRuns n then 1 else 2
  let consec := r.records.foldl (fun a p => Nat.max a p.2.consec) 0
  let full := [r.fallbacks, r.mismatches, r.lates, r.quenches, r.misses, r.skips].any (· == 0xFFFFFFFF)
  pack [(r.stuck ||| r.failed, 12), (state, 10), (flag r.checkpointValid, 9), (Nat.min 31 consec, 4), (flag (2 ≤ r.level), 3),
        (flag full, 2)]

/-- REGION_MIN_SLACK (R139). -/
def regionMinSlack (r : Region) : Nat := r.records.foldl (fun a p => Nat.min a p.2.minSlack) 0xFFFF

/-- TR_STATUS (R226). DESIGN CHOICE, log entry 66. -/
def trStatus (c : Fin 2) (m : Module) : Word :=
  let t := m.traction[c]
  let run := t.loop == .closed
  pack [(t.loop.code, 18), (flag t.speedMode, 17), (flag (t.loop == .open && t.openV0), 16), (t.position, 14),
        (if run then t.statSector else 0, 11), (flag (run && t.statPhi), 10),
        (if run then (t.statTau + 1).toNat else 1, 8), (if run then t.statVector else 0, 5),
        (if run then t.statBranch else 0x1F, 0)]

/-- TR_ENVELOPE_STATUS (R258). -/
def trEnvelope (c : Fin 2) (m : Module) : Word :=
  let t := m.traction[c]
  let pre := match t.preselected with | .ascLow => 1 | .ascHigh => 2 | _ => 0
  pack [(t.limit, 21), (t.catch_, 19), (flag (F32.lt t.idCmd 0), 18), (flag (m.sregenFor c == 0), 17), (pre, 15),
        (flag t.startDir, 14), (t.startSource, 12)]

/-- CH_STATUS (R259). -/
def chStatus (m : Module) : Word :=
  let x := m.chopper
  pack [(x.switch0, 6), (x.switch1, 4), (flag x.resCap, 3), (flag (F32.lt x.schop fOne), 2), (flag m.backstop, 1),
        (flag (F32.lt 0 m.chopperDuty), 0)]

/-- FB_STATUS (R291): the regenerated outputs of EP_MODE 2 are held while the position is not valid (R287). -/
def fbStatus (p : Fin 6) (m : Module) : Word :=
  let f := m.feedback[p]
  pack [(flag (p.val ≤ 1 && m.epHeld p), 7), (flag f.overflow, 6), (flag f.indexSeen, 5), (flag (m.lineBroken p), 4),
        (flag (m.fsource p != 0 && f.posValid), 3), (flag (m.fsource p != 0 && f.speedValid), 2), (f.acquire, 0)]

/-- CV_STATUS as its entries last committed it (R340, R341). -/
def cvStatus (m : Module) : Word := m.converter.shown

/-- CG_STATUS as 0x073 last committed it (R340, R342). -/
def cgStatus (m : Module) : Word := m.charger.shown

/-- GD_ISLAND_STATUS (R377). -/
def islandStatus (i : Fin 36) (m : Module) : Word :=
  let s := m.islands[i]
  pack [(s.state.code, 18), (flag s.output, 17), (flag s.uvloPos, 16), (flag s.uvloNeg, 15), (s.cause, 12),
        (s.selftest, 10), (flag s.condition, 9), (flag (m.unused i), 8), (Nat.min 255 s.linkErrors, 0)]

/-- GD_STATUS (R378). -/
def gdStatus (m : Module) : Word := pack [(flag m.enHigh, 7), (flag m.flt, 6), (m.gate.test, 4)]

/-- AX_STATUS (R399). -/
def axStatus (a : Fin 4) (m : Module) : Word :=
  let x := m.actuators[a]
  pack [(x.gear, 8), (x.move, 6), (flag x.clamp, 5), (flag x.homed, 4), (flag x.closed, 3), (flag (x.refreshing.any id), 2),
        (flag (x.bootLow != 0), 1)]

/-- AFE_STATUS (R437). -/
def afeStatus (a : Fin 2) (m : Module) : Word :=
  let f := m.afe[a]
  pack [(f.healthy, 11), (Nat.min 2 f.spares, 9), (flag f.sweep, 8), (flag (f.discarded != 0), 7)]

/-- A member's status word (R438): its role, itself, its twin if it has one. -/
def memberStatus (role : Nat) (s : Member) (twin : Option Member) : Word :=
  let t := match twin with
    | none => 0
    | some x => if x.failed then 2 else if x.underTest then 3 else 1
  pack [(role, 10), (s.decision, 8), (flag s.active, 7), (t, 5), (flag s.failed, 4)]

/-- AFE_CMP_STATUS (R438); regulation comparators have no twin. -/
def cmpStatus (a : Fin 2) (k : Nat) (m : Module) : Word :=
  let role := cmpRole a.val k
  let cs := m.afe[a].comparators
  memberStatus role (atIndex cs k (Member.init false)) (if role = 1 then cs.toList[twinOf k]? else none)

/-- AFE_SD_STATUS of a sigma-delta input (R438): the member that drives the path, and the other. -/
def sdStatus (a : Fin 2) (i : Nat) (m : Module) : Word :=
  let ds := m.afe[a].detectors
  let first := atIndex ds (2 * i) (Member.init true)
  let second := atIndex ds (2 * i + 1) (Member.init false)
  let (s, t) := if second.active && !first.active then (second, first) else (first, second)
  memberStatus (flag (m.sdOn a i)) s (some t)

/-- FAULT_SUMMARY (R601). -/
def faultSummary (m : Module) : Word :=
  pack [(Nat.min 255 m.faults.active.length, 16), (m.highest, 14), (flag m.flt, 13),
        (flag (isActive m.faults.active F.faultTableFull 0), 12), (flag !m.faults.buffer.isEmpty, 11),
        (flag m.supply.railsRemoved, 10), (flag (m.patterned .ta), 9), (flag (m.patterned .tb), 8),
        (flag (m.patterned .cv), 7), (flag (m.patterned .cg), 6), (flag (m.patterned (.ax 0)), 2),
        (flag (m.patterned (.ax 1)), 3), (flag (m.patterned (.ax 2)), 4), (flag (m.patterned (.ax 3)), 5)]

/-- The words of the record that FLOG_RECORD_SELECT names: zeros when it is in neither FL nor the buffer (R595). -/
def selectedRecord (m : Module) : List Word :=
  match (m.faults.ring ++ m.faults.buffer).find? (fun r => r.seq == m.live.recordSelect.toNat) with
  | some r => r.words
  | none => List.replicate 8 0

/-- The sequence number of the newest record (R600). -/
def newestSeq (m : Module) : Nat :=
  (((m.faults.ring ++ m.faults.buffer).getLast?).map (·.seq)).getD 0

/-- MEM_LAST_ERROR and the counts of scrubber `s` (R622). -/
def scrubWord (s : Nat) (i : Nat) (m : Module) : Word :=
  let x := atIndex m.memory.scrubbers s (Scrubber.init 0 0)
  match i with
  | 0 => word x.corrected | 1 => word x.uncorrected | 2 => x.lastError | 3 => word x.lap | _ => word x.laps

/-- The words of a region in blocks 3 and 4 of area E (R139, R173). -/
def regionWord (base : Nat) (n : Fin 8) (m : Module) : Word :=
  let r := m.regions[n]
  match base with
  | 0 => regionStatus n m | 1 => word r.fallbacks | 2 => word r.mismatches | 3 => word r.lates
  | 4 => word r.quenches | 5 => word r.misses | 6 => word r.skips | _ => word (regionMinSlack r)

/-- The words of a traction channel (R225, R257). -/
def tractionWord (c : Fin 2) (i : Nat) (m : Module) : Word :=
  let t := m.traction[c]
  match i with
  | 0 => trStatus c m | 1 => t.torqueEst | 2 => t.fluxEst | 3 => t.speedEst | 4 => t.tref | 5 => t.psiRef
  | 6 => t.switchRate | 7 => t.residual | 8 => trEnvelope c m | 9 => t.idCmd | 10 => t.limPos | 11 => t.limNeg
  | 12 => t.emfRatio | _ => t.startSpeed

/-- The words of a feedback port (R290). -/
def feedbackWord (p : Fin 6) (i : Nat) (m : Module) : Word :=
  let f := m.feedback[p]
  match i with
  | 0 => fbStatus p m | 1 => f.capAngle | 2 => f.capSpeed
  | 3 => i32Word (if 2 ≤ p.val || m.fsource p = 5 then f.accumulator else f.revolutions) | 4 => i32Word f.indexDev
  | 5 => word f.corrections | 6 => word f.errors | _ => f.ssiWord

/-- The words of the converter and of the charger (R340). -/
def converterWord (i : Nat) (m : Module) : Word :=
  let x := m.converter
  match i with
  | 0 => cvStatus m | 1 => x.vbat | 2 => x.ibat | 3 => x.vref | 4 => x.ipk | _ => x.outletCurrent
def chargerWord (i : Nat) (m : Module) : Word :=
  let x := m.charger
  match i with
  | 0 => cgStatus m | 1 => F32.ofNat x.shownTimer | 2 => x.pilotDuty | 3 => x.acAllowed | 4 => x.acPower | 5 => x.busVoltage
  | 6 => x.shownPhi | _ => x.shownRef

/-- The words of an actuator (R399). -/
def actuatorWord (a : Fin 4) (i : Nat) (m : Module) : Word :=
  let x := m.actuators[a]
  match i with
  | 0 => axStatus a m | 1 => i32Word (m.axPosition a) | 2 => x.current | _ => x.duty

/-- The words of a CAN port and of an Ethernet port (R473). -/
def canWord (p : Fin 4) (i : Nat) (m : Module) : Word :=
  let c := m.can[p]
  match i with
  | 0 => busStatus p m | 1 => word c.txFail | 2 => word c.rxOverrun | 3 => word c.busOff | 4 => word c.hpOverrun
  | _ => word c.tooLong

/-- A time in ticks as binary32 nanoseconds. -/
def nanoseconds (q : Rat) : Word := F32.ofQ (q * (5 / 2))

/-- The words of the system block (R510). -/
def systemWord (i : Nat) (m : Module) : Word :=
  let own := 2 ^ m.straps.node.val
  match i with
  | 0 => sysStatus m
  | 1 => nanoseconds m.offset
  | 2 => F32.ofQ m.sys.rate
  | 3 => nanoseconds (m.sys.delays[0].getD 0)
  | 4 => nanoseconds (m.sys.delays[1].getD 0)
  | 5 => m.epochs.active.setCrc
  | 6 => word (if m.isHead then m.sys.admittedMask else if m.sys.admitted then own else 0)
  | 7 => word m.presentMask
  | _ => word m.sys.lateCount

/-- The words of the interpreter (R545) and of the fault log (R600). -/
def interpWord (i : Nat) (m : Module) : Word :=
  let x := m.interp
  match i with
  | 0 => word x.accepted | 1 => word x.rejected | 2 => word x.undecodable | 3 => word x.segmentDrops
  | 4 => word x.timed.length | _ => word x.timedDropped
def faultWord (i : Nat) (m : Module) : Word :=
  let x := m.faults
  match i with
  | 0 => faultSummary m | 1 => word x.written | 2 => word x.lost | 3 => word ((x.ring.head?.map (·.seq)).getD 0)
  | 4 => word (newestSeq m) | 5 => word (m.occurrences (m.live.countSelect.toNat))
  | _ => (selectedRecord m).getD (i - 8) 0

/-- The service words (R671). -/
def serviceWord (i : Nat) (m : Module) : Word :=
  if i = 8 then word m.service.bootCount else if i = 9 then word m.service.operatingTime
  else Config.factoryWord (0xF000 + i)

/-- The index of an ID within a run as a number below `n`. -/
def fin (n : Nat) (h : 0 < n) (i : Nat) : Fin n := ⟨i % n, Nat.mod_lt _ h⟩

/-- Area E in two halves: blocks 0 … 11. -/
def readStatusLow (id : Nat) (m : Module) : List Word :=
  let e := m.epochs
  let i := id - 0xE000
  if i = 0 then [pwrStatus m] else if i = 1 then [epochStatus m] else if i = 2 then [e.active.number]
  else if i = 3 then [(e.staged.map (·.number)).getD 0] else if i = 4 then [(e.cellar.map (·.number)).getD 0]
  else if i = 5 then [e.active.crc] else if i = 6 then tickWords (pendingTick m)
  else if i = 8 then tickWords e.lastSwitch else if i = 10 then [word e.commitCount]
  else if i < 0x080 then [dieStatus (i - 0x040) m]
  else if i < 0x0C0 then [crossingStatus (i - 0x080) m]
  else if i < 0x100 then [regionWord ((i - 0x0C0) / 8) (fin 8 (by decide) i) m]
  else if i = 0x100 then [lockstepStatus m] else if i = 0x101 then [word m.lockstep.rollbacks]
  else if i = 0x102 then [word m.lockstep.parityErrors] else if i = 0x103 then tickWords m.lockstep.mismatchTick
  else if i < 0x110 then [word (m.regions[fin 8 (by decide) i]).ranges]
  else if i < 0x140 then
    let n := fin 8 (by decide) i
    [if (m.dies[regionDie n]).supply = 0 then 0 else i32Word (exponentK n.val (m.period n))]
  else if i < 0x180 then [tractionWord 0 (i - 0x140) m]
  else if i < 0x1C0 then [tractionWord 1 (i - 0x180) m]
  else if i < 0x240 then [feedbackWord (fin 6 (by decide) ((i - 0x200) / 8)) (i % 8) m]
  else if i < 0x280 then [converterWord (i - 0x240) m]
  else if i < 0x2C0 then [chargerWord (i - 0x280) m]
  else if i = 0x2C0 then [chStatus m] else if i = 0x2C1 then [m.chopper.resPower] else [m.sregenUsed]

/-- Area E, blocks 12 … 23. -/
def readStatusHigh (id : Nat) (m : Module) : List Word :=
  let i := id - 0xE000
  if i < 0x324 then [islandStatus (fin 36 (by decide) (i - 0x300)) m]
  else if i = 0x324 then [gdStatus m]
  else if i < 0x380 then [actuatorWord (fin 4 (by decide) ((i - 0x340) / 8)) (i % 8) m]
  else if i < 0x382 then [afeStatus (fin 2 (by decide) (i - 0x380)) m]
  else if i < 0x38A then [sdStatus (fin 2 (by decide) ((i - 0x382) / 4)) ((i - 0x382) % 4) m]
  else if i < 0x38C then [word (m.afe[fin 2 (by decide) (i - 0x38A)]).discarded]
  else if i < 0x3E0 then [cmpStatus 0 (i - 0x3C0) m]
  else if i < 0x400 then [cmpStatus 1 (i - 0x3E0) m]
  else if i < 0x420 then [canWord (fin 4 (by decide) ((i - 0x400) / 8)) (i % 8) m]
  else if i = 0x420 then [word m.supply.wakeReason] else if i = 0x421 then [word m.isobus.address]
  else if i < 0x440 then
    let k := fin 2 (by decide) ((i - 0x430) / 8)
    [if i % 8 = 0 then etStatus k m else word (m.eth[k]).discards]
  else if i = 0x449 then tickWords m.sys.lastAllocTick
  else if i < 0x480 then [systemWord (i - 0x440) m]
  else if i < 0x4C0 then [interpWord (i - 0x480) m]
  else if i < 0x500 then [faultWord (i - 0x4C0) m]
  else if i < 0x540 then [(atIndex m.dies (i - 0x500) (Die.init 0)).temp]
  else if i < 0x580 then [scrubWord ((i - 0x540) / 8) (i % 8) m]
  else if i = 0x580 then [portStatus m] else if i = 0x581 then [portStraps m]
  else if i = 0x582 then [m.supply.lvin] else if i = 0x583 then [m.supply.hvaux]
  else [m.hostOut[fin 64 (by decide) (i - 0x5C0)]]

/-- The present value of a live-class parameter (R663). -/
def readLive (id : Nat) (m : Module) : Word :=
  let l := m.live
  if id = P.fabricSupplyCf0 then l.fabricSupply0 else if id = P.fabricSupplyCf1 then l.fabricSupply1
  else if id = P.trTorqueSetpoint then l.torqueSetpoint[0]
  else if id = P.trTorqueSetpoint + 0x1000 then l.torqueSetpoint[1]
  else if id = P.trSpeedSetpoint then l.speedSetpoint[0]
  else if id = P.trSpeedSetpoint + 0x1000 then l.speedSetpoint[1]
  else if id = P.dcVref then l.dcVref else if id = P.cgISet then l.cgISet else if id = P.cgVSet then l.cgVSet
  else if id = P.flogRecordSelect then l.recordSelect else if id = P.flogCountSelect then l.countSelect
  else word (flag m.faults.erasing)

/-- The value in effect of a defined ID: two words for a tick64 (R533, R660, R665). -/
def readInEffect (id : Nat) (m : Module) : List Word :=
  if 0xF000 ≤ id then [serviceWord (id - 0xF000) m]
  else if 0xE300 ≤ id then readStatusHigh id m
  else if 0xE000 ≤ id then readStatusLow id m
  else if isLiveClass id then [readLive id m]
  else if id = P.spindleNow then tickWords m.time.count
  else if id = P.spindleStatus then [spindleStatus m]
  else if id = P.refLossCount then [word m.time.refLossCount]
  else [m.epochs.active.read id]

end Sys2Proof.Machine
end

