-- ==== Sys2Proof/Machine/FaultCmds.lean ====
section
/-!
DEFINITION. The commands and events of the fault handling: READ_FAULTS, ACK_FAULTS, the fault log, an event line's
overflow, a stalled access, the fabric supply levels.
-/

namespace Sys2Proof.Machine

/-! ## READ_FAULTS and ACK_FAULTS (R540, R583, R588) -/

/-- The two words of an entry of READ_FAULTS (R540). -/
def faultEntry (m : Module) (f : ActiveFault) : List Word :=
  [pack [(f.code, 16), (f.detail, 0)],
   pack [((classOf f.code).code, 30), (policyOf f.code, 28), (flag (m.condOf f), 27)]]

/-- The faults a READ_FAULTS from a position on returns: at most 30, oldest first (R540). -/
def returnedFaults (first : Nat) (m : Module) : List ActiveFault := (m.faults.active.drop first).take 30

/-- The data words of READ_FAULTS (R540). -/
def faultData (first : Nat) (m : Module) : List Word :=
  let es := returnedFaults first m
  pack [(m.faults.active.length, 16), (es.length, 0)] :: es.flatMap (faultEntry m)

/-- READ_FAULTS (R540, R344): entries it reports whose fault is latched until read and has no condition any more clear; a
reply without data reports none. DEDUCED, log entry 31. -/
def readFaults (h : Hdr) (ws : List Word) (m : Module) : Verdict :=
  let w := ws.getD 0 0
  let es := if h.data then returnedFaults (bits w 7 0) m else []
  unlessFails (prelude 0x73 h ws (· == 1) .never (bits w 31 8 == 0) m)
    (.done (faultData (bits w 7 0) m) (clearFaults (es.filter (m.clearable 2)) m))

/-- The faults an ACK_FAULTS of a code clears (R540, R588); code 0 names every fault. -/
def ackedFaults (code : Nat) (m : Module) : List ActiveFault :=
  m.faults.active.filter (fun f => (code == 0 || f.code == code) && m.clearable 0 f)

/-- What a cleared fault leaves behind goes with it: a port acquires anew (R271). -/
def afterClear (m : Module) (f : ActiveFault) : Module :=
  if f.code / 0x1000 = 9 then (if h : f.detail < 6 then portCleared f.code ⟨f.detail, h⟩ m else m) else m

/-- The DROPPED fields of the crossings and the OVERFLOW of those without an active fault end (R83, R89). DEDUCED,
log entry 31. -/
def clearCrossings (m : Module) : Module :=
  { m with crossings := Vector.ofFn (fun i =>
      { m.crossings[i] with dropped := 0,
                            overflow := m.crossings[i].overflow && isActive m.faults.active F.xingEventOverflow i.val }) }

/-- The effect of an accepted ACK_FAULTS: what may be cleared is, then what may be released is (R583, R676). -/
def acknowledge (code : Nat) (m : Module) : Module :=
  let fs := ackedFaults code m
  let m1 := fs.foldl afterClear (clearFaults fs m)
  let chopper := fs.any (fun f =>
    f.code == F.chSwitchOpen || f.code == F.chFailedOpen || f.code == F.chSwitchShort)
  releaseWhatMay (clearCrossings (if chopper then clearChopperMarks m1 else m1))

/-- ACK_FAULTS (R540, R583). -/
def ackFaults (h : Hdr) (ws : List Word) (m : Module) : Verdict :=
  let w := ws.getD 0 0
  let code := bits w 31 16
  let m' := acknowledge code m
  unlessFails (firstFail
    [prelude 0x74 h ws (· == 1) .never (bits w 15 0 == 0) m,
     failIf (code != 0 && (faultInfo code).isNone) .outOfRange])
    (.done [pack [((ackedFaults code m).length, 16), (m'.faults.active.length, 0)]] m')

/-! ## The fault log (R593 … R595) -/

/-- FLOG_PROGRAM: the write buffer is programmed; a failure keeps the records and is a fault (R593, R597). -/
def flogProgram (ok : Bool) (m : Module) : Module :=
  if m.label.code < 2 || m.faults.buffer.isEmpty then m
  else if ok then endCond F.flogWriteFail 0 (programLog m)
  else raise F.flogWriteFail 0 true m

/-- FLOG_ERASE_DONE: ring and occurrence counts are erased, a KIND 6 record follows (R595). -/
def flogEraseDone (m : Module) : Module :=
  if !m.faults.erasing then m
  else record 0 0 6 0 0 { m with faults := { m.faults with ring := [], counts := [], written := 0, erasing := false } }

/-! ## Crossings (R82 … R89) -/

/-- XING_EVENT_OVERFLOW: the next handshake of an event line of crossing `i` that has overflowed takes the count with its
overflow bit (R82, R83, R449). DESIGN CHOICE, log entry 63. -/
def eventOverflow (i : Fin 22) (m : Module) : Module :=
  let c := m.crossings[i]
  let now := m.time.elapsed
  let ran (l : EventLine) : Bool := l.overflow && l.busy ≤ now
  if m.label.code < 2 || !(ran c.line || ran c.hpLine) then m
  else raise F.xingEventOverflow i.val false (updCrossing i (fun c =>
    { c with overflow := true, line := if ran c.line then c.line.overrun now else c.line,
             hpLine := if ran c.hpLine then c.hpLine.overrun now else c.hpLine }) m)

/-- What a refused access had set in a die is undone: no member of an AFE is under test for it any more (R86). -/
def undoAccess (d : Nat) (m : Module) : Module :=
  let calm (s : Member) : Member := { s with underTest := false }
  let undo (f : Afe) : Afe := { f with test := none, comparators := f.comparators.map calm, detectors := f.detectors.map calm }
  if d = 4 then updAfe 0 undo m else if d = 5 then updAfe 1 undo m else m

/-- A waiting command whose access into die `d` began 4,000 ticks ago (R85). -/
def overdueAccess (d now : Nat) (w : Waiting) : Bool := addresses d w && w.since + 4000 ≤ now

/-- CROSSING_STALL_TIMEOUT: an access into die `d` that stalled ends 4,000 ticks after it began: the command that made it is
refused with DOMAIN_STOPPED, none of its writes applied (R85, R86); a later access stalls on. DEDUCED, log entry 22. -/
def stallTimeout (d : Fin 46) (m : Module) : Module :=
  match commandCrossing d.val with
  | none => m
  | some i =>
    let now := m.time.elapsed
    if !m.crossings[i].stalled.any (fun t => t + 4000 ≤ now) then m
    else
      let k := (m.interp.waiting.filter (overdueAccess d.val now)).length
      let m1 := { m with interp := { m.interp with
        accepted := m.interp.accepted - k, rejected := satAdd 0xFFFFFFFF m.interp.rejected k,
        waiting := m.interp.waiting.map (fun w => if overdueAccess d.val now w then
          { w with heldUntil := none, result := some (Status.domainStopped.code, d.val, []) } else w) } }
      undoAccess d.val <| updCrossing i (fun c => { c with stalled := (m1.interp.waiting.find? (addresses d.val)).map (·.since) }) m1

/-! ## The fabric supply (R45, R136) -/

/-- The level of a fabric die, and whether its supply is changing. -/
def Module.supplyLevel (m : Module) (d : Fin 2) : Word := if d.val = 0 then m.live.fabricSupply0 else m.live.fabricSupply1
def Module.supplyChanging (m : Module) (d : Fin 2) : Bool := if d.val = 0 then m.live.supplyBusy0 else m.live.supplyBusy1

/-- A write of a level starts a change unless it is the level in effect (R136). -/
def setSupply (d : Fin 2) (w : Word) (m : Module) : Module :=
  if w = m.supplyLevel d then m
  else if d.val = 0 then { m with live := { m.live with fabricSupply0 := w, supplyBusy0 := true } }
  else { m with live := { m.live with fabricSupply1 := w, supplyBusy1 := true } }

/-- FABRIC_SUPPLY_CHANGE_DONE (R136). -/
def supplyDone (d : Fin 2) (m : Module) : Module :=
  if d.val = 0 then { m with live := { m.live with supplyBusy0 := false } }
  else { m with live := { m.live with supplyBusy1 := false } }

end Sys2Proof.Machine
end

