-- ==== Sys2Proof/Machine/Operands.lean ====
section
/-!
DEFINITION. Operand forms of the host commands: the words of a request, the parameter words of reads and live writes, the
loop mask, the SELFTEST target.
-/

namespace Sys2Proof.Machine

/-! ## Packets (R513, R514) -/

/-- The words of a request packet. -/
def requestWords (opcode : Nat) (h : Hdr) (ws : List Word) : List Word :=
  let body := word0 opcode h ws.length false :: ws
  body ++ [crc32c body]

/-- What the header of a packet carries (R513). -/
def hdrOf (t : Transport) (sender : Nat) (v : Via) (fromHead : Bool) (w0 : Word) : Hdr :=
  { transport := t, sender := sender, via := v, fromHead := fromHead, tag := BitVec.ofNat 8 (bits w0 23 16),
    timed := bit w0 2, relayed := bit w0 1, data := bit w0 0 }

/-- Every opcode of R531. -/
def opcodes : List Nat :=
  [0x01, 0x02, 0x10, 0x11, 0x12, 0x13, 0x20, 0x21, 0x22, 0x23, 0x24, 0x25, 0x26, 0x30, 0x40, 0x41, 0x42, 0x43, 0x48, 0x49,
   0x60, 0x61, 0x62, 0x63, 0x70, 0x71, 0x72, 0x73, 0x74, 0x75, 0x76, 0x77, 0x78, 0x80, 0x81, 0x82, 0x83, 0x84, 0xF0, 0xF1]

/-- The checks of a decodable packet, in the order of R517. -/
def headerCheck (words : List Word) : Option Status :=
  let w0 := words.getD 0 0
  if words.getLast? != some (crc32c words.dropLast) then some .badCrc
  else if bits w0 15 8 + 2 != words.length then some .badLength
  else if bits w0 7 4 != 2 then some .badVersion
  else if !opcodes.contains (bits w0 31 24) then some .unknownOpcode
  else none

/-- A frame of SV without its delimiters, un-escaped; none where it is undecodable (R522). -/
def unescape : List Byte → Option (List Byte)
  | [] => some []
  | b :: rest =>
    if b = 0xDB then
      match rest with
      | c :: rest' => if c = 0xDC then (unescape rest').map (0xC0 :: ·) else if c = 0xDD then (unescape rest').map (0xDB :: ·)
                      else none
      | [] => none
    else (unescape rest).map (b :: ·)

/-! ## Reading parameters (R533) -/

/-- The words a parameter reads as: two for a tick64, one otherwise; an unknown ID counts as one. -/
def widthOf (id : Nat) : Nat :=
  match rowOf id with
  | some r => if r.kind = .tick64 then 2 else 1
  | none => 1

/-- The number of words a list of IDs reads as. -/
def totalWidth (ids : List Nat) : Nat := (ids.map widthOf).sum

/-- Position of the first ID a slot does not give: unknown, or not epoch-class in STAGED and CELLAR (R533, R409). -/
def unreadable (inEffect : Bool) (ids : List Nat) : Option Nat :=
  (indexed ids).findSome? (fun p =>
    if (rowOf p.2).isNone || !(inEffect || isEpochClass p.2 || (formedTrig p.2).isSome) then some p.1 else none)

/-! ## Loops (R537) -/

/-- The function of loop `l`. -/
def loopFunc (l : Nat) : Func :=
  match l with
  | 0 => .ta | 1 => .tb | 2 => .cv | 3 => .cv | 4 => .cg | 5 => .cg | 6 => .cg | 7 => .cg
  | 8 => .ax 0 | 9 => .ax 1 | 10 => .ax 2 | _ => .ax 3

/-- The loops a mask names, lowest first. -/
def maskLoops (w : Word) : List Nat := setBits loopCount w.toNat

/-- The encoding of a loop mask. -/
def maskOk (w : Word) : Bool := bits w 31 12 == 0 && w != 0

/-! ## SELFTEST (R538) -/

/-- The target of a SELFTEST word. -/
inductive TestTarget where
  | sup | fabric (d : Fin 2) | island (i : Fin 36) | comparator (a : Fin 2) (k : Fin 32) | detector (a : Fin 2) (i : Fin 4)
deriving DecidableEq, Repr

/-- The word that names a target. -/
def TestTarget.word : TestTarget → Word
  | .sup => 0
  | .fabric d => BitVec.ofNat 32 (2 + d.val)
  | .island i => BitVec.ofNat 32 (10 + i.val)
  | .comparator a k => pack [(1, 14), (a.val, 13), (k.val, 0)]
  | .detector a i => pack [(2, 14), (a.val, 13), (i.val, 0)]

/-- The target a word names; none for a reserved bit, kind or index (R538). -/
def testTarget (w : Word) : Option TestTarget :=
  let kind := bits w 15 14
  let afe : Fin 2 := if bit w 13 then 1 else 0
  let idx := bits w 5 0
  if bits w 31 16 != 0 || bits w 12 6 != 0 then none
  else if kind = 0 then
    if bit w 13 then none
    else if idx = 0 then some .sup else if idx = 2 then some (.fabric 0) else if idx = 3 then some (.fabric 1)
    else if h : 10 ≤ idx ∧ idx ≤ 45 then some (.island ⟨idx - 10, by omega⟩) else none
  else if kind = 1 then (if h : idx < 32 then some (.comparator afe ⟨idx, h⟩) else none)
  else if kind = 2 then (if h : idx < 4 then some (.detector afe ⟨idx, h⟩) else none)
  else none

/-! ## The die a request addresses (R87) -/

/-- The die of a SELFTEST target's access. -/
def TestTarget.die : TestTarget → Nat
  | .sup => 0 | .fabric d => 2 + d.val | .island _ => 7 | .comparator a _ => 4 + a.val | .detector a _ => 4 + a.val

/-- The dies a request of an opcode addresses with an access of its own (R84, R87). DEDUCED, log entry 22. -/
def requestDies (opcode : Nat) (ws : List Word) : List Nat :=
  let w := ws.getD 0 0
  match opcode with
  | 0x70 => [bits w 5 0]
  | 0x71 => ((testTarget w).map TestTarget.die).toList
  | 0x72 => [4 + bits w 0 0]
  | 0x75 => (fillBlocks (bits w 15 8)).map (fun b => (blockDie b).val)
  | 0x76 => [if bits w 15 8 = 3 then 4 else if bits w 15 8 = 4 then 5 else bits w 15 8]
  | 0x78 => [7]
  | 0xF1 => [bits w 5 0]
  | _ => []

/-- An access into die `d` is stalled (R85). -/
def Module.stalledDie (m : Module) (d : Nat) : Bool := (commandCrossing d).any (fun i => m.crossings[i].stalled.isSome)

/-- A request waits: behind a rollback, or behind a stalled access into a die it addresses (R87, R167). -/
def Module.holdsRequest (m : Module) (opcode : Nat) (ws : List Word) : Bool :=
  m.lockstep.rollback || (requestDies opcode ws).any m.stalledDie

/-! ## Setpoints (R531) -/

/-- The live-class parameter of a setpoint command: torque 0x40, speed 0x41, of a channel. -/
def setpointId (speed : Bool) (c : Nat) : Nat :=
  (if speed then P.trSpeedSetpoint else P.trTorqueSetpoint) + 0x1000 * c

/-- The channel and mode of a setpoint parameter. -/
def setpointOf (id : Nat) : Option (Fin 2 × Bool) :=
  if id = P.trTorqueSetpoint then some (0, false) else if id = P.trTorqueSetpoint + 0x1000 then some (1, false)
  else if id = P.trSpeedSetpoint then some (0, true) else if id = P.trSpeedSetpoint + 0x1000 then some (1, true)
  else none

end Sys2Proof.Machine
end

