-- ==== Sys2Proof/Machine/Interp.lean ====
section
/-!
DEFINITION. The command interpreter: the commands of its own chapter, the dispatch of every opcode, packets and their
carriers, timed execution, replies that waited.
-/

namespace Sys2Proof.Machine

/-! ## Reading (R532, R533) -/

/-- Data word 0 of GET_STATUS (R532). -/
def statusWord (m : Module) : Word :=
  pack [(m.label.code, 29), (flag m.inTransition, 28), (flag m.isHead, 27), (m.straps.node.val, 23),
        (m.lockstep.mode.code, 21), (flag m.coverage, 20), (m.highest, 18), (flag m.epochs.staged.isSome, 17),
        (flag m.isAdmitted, 16), ((m.patternOf .ta).code, 14), ((m.patternOf .tb).code, 12), ((m.patternOf .cv).code, 10),
        ((m.patternOf .cg).code, 8), (flag (m.patterned (.ax 0)), 4), (flag (m.patterned (.ax 1)), 5),
        (flag (m.patterned (.ax 2)), 6), (flag (m.patterned (.ax 3)), 7), (flag m.enHigh, 3), (flag m.flt, 2),
        (flag m.supply.hvil, 1)]

/-- The data words of GET_STATUS. -/
def statusData (m : Module) : List Word :=
  [statusWord m, m.epochs.active.number, tickLow m.time.count, tickHigh m.time.count, word m.faults.active.length]

/-- GET_STATUS (R532). -/
def getStatus (h : Hdr) (ws : List Word) (m : Module) : Verdict :=
  unlessFails (prelude 0x01 h ws (· == 0) .never true m) (.done (statusData m) m)

/-- ECHO (R531). -/
def echo (h : Hdr) (ws : List Word) (m : Module) : Verdict :=
  unlessFails (prelude 0x02 h ws (· ≤ 61) .never true m) (.done ws m)

/-- READ_PARAM (R533). -/
def readParam (h : Hdr) (ws : List Word) (m : Module) : Verdict :=
  let ids := ws.map (·.toNat)
  let beyond := (indexed ids).find? (fun p => 2 ^ 16 ≤ p.2)
  unlessFails (firstFail
    [checkLength h ws (fun n => 1 ≤ n && n ≤ 61 && totalWidth ids ≤ 61),
     checkEncoding h .never true,
     beyond.map (fun p => (.reservedEncoding, p.1)),
     checkRelayed 0x10 h m,
     (unreadable true ids).map (fun i => (.paramUnknown, i))])
    (.done (ids.flatMap (fun id => readInEffect id m)) m)

/-- The IDs of the run a READ_PARAM_BLOCK word names. -/
def blockIds (w : Word) : List Nat := (List.range (bits w 21 16)).map (bits w 15 0 + ·)

/-- READ_PARAM_BLOCK (R533). DEDUCED, log entry 15. -/
def readParamBlock (h : Hdr) (ws : List Word) (m : Module) : Verdict :=
  let w := ws.getD 0 0
  let slot := bits w 23 22
  let ids := blockIds w
  let image := if slot = 1 then m.epochs.staged else if m.epochs.cellarBad then none else m.epochs.cellar
  unlessFails (firstFail
    [checkLength h ws (fun n => n == 1 && totalWidth ids ≤ 61),
     checkEncoding h .never (bits w 31 24 == 0 && slot != 3 && bits w 21 16 != 0),
     checkRelayed 0x12 h m,
     (unreadable (slot == 0) ids).map (fun i => (.paramUnknown, i)),
     failIf (slot == 1 && image.isNone) .noStagedEpoch,
     failIf (slot == 2 && image.isNone) .epochInvalid])
    (if slot = 0 then .done (ids.flatMap (fun id => readInEffect id m)) m
     else .done (ids.map (fun id => (image.getD m.epochs.active).read id)) m)

/-! ## Live writes (R20, R534, R663, R664) -/

/-- The range of CG_I_SET, the one live range that names a parameter (R664). -/
def liveRange (m : Module) (i : Nat) (p : Word × Word) : Check :=
  failIf (p.1.toNat == P.cgISet && F32.lt (m.par P.cvIbatChgMax) p.2) .outOfRange i

/-- What a live-class parameter refuses by its own rules (R45, R136, R211 … R213, R595). -/
def liveOwn (m : Module) (i : Nat) (p : Word × Word) : Check :=
  let id := p.1.toNat
  let c : Check := match setpointOf id with
    | some (c, _) => setpointCheck c m
    | none =>
      if id = P.fabricSupplyCf0 ∨ id = P.fabricSupplyCf1 then
        firstFail [failIf (m.supplyChanging (if id = P.fabricSupplyCf0 then 0 else 1)) .busy,
                   failIf (m.label != .ready) .stateForbids]
      else if id = P.flogErase ∧ p.2 = 1 then
        firstFail [failIf m.faults.erasing .busy, failIf (m.label != .standby && m.label != .ready) .stateForbids]
      else none
  c.map (fun r => (r.1, i))

/-- The checks of WRITE_LIVE that depend on the module (R530 rows 6 … 10). -/
def liveChecks (ps : List (Word × Word)) (m : Module) : Check :=
  let is := indexed ps
  firstFail (is.map (fun p => pairValue .rwL p.1 p.2) ++ is.map (fun p => liveRange m p.1 p.2) ++
    is.map (fun p => liveOwn m p.1 p.2))

/-- A live-class write accepted: at once, or at the next boundary of the region that uses it; a timed one at its boundary at
or after I (R20, R526, R663). -/
def applyLive (at_ : Option Tick) (m : Module) (p : Word × Word) : Module :=
  let id := p.1.toNat
  let w := storedWord m.epochs.active id p.2
  if id = P.fabricSupplyCf0 then setSupply 0 w m
  else if id = P.fabricSupplyCf1 then setSupply 1 w m
  else if id = P.flogRecordSelect then { m with live := { m.live with recordSelect := w } }
  else if id = P.flogCountSelect then { m with live := { m.live with countSelect := w } }
  else if id = P.flogErase then
    (if w = 1 then { m with faults := { m.faults with erasing := true } } else m)
  else { m with interp := { m.interp with liveWrites := m.interp.liveWrites ++
      [{ id := id, value := w, from_ := at_.getD m.time.count, atInstant := at_.isSome }] } }

/-- Pairs applied in packet order. -/
def applyPairs (at_ : Option Tick) (ps : List (Word × Word)) (m : Module) : Module := ps.foldl (applyLive at_) m

/-- WRITE_LIVE (R534). -/
def writeLive (h : Hdr) (ws : List Word) (m : Module) : Verdict :=
  let ps := pairsOf (ownWords h ws)
  unlessFails (firstFail
    ([checkLength h ws (fun n => 2 ≤ n && n ≤ 60 && n % 2 == 0), checkEncoding h .optional true] ++
     (indexed ps).map (fun p => pairEncoding p.1 p.2) ++
     [checkRelayed 0x13 h m, checkInstant h ws m, liveChecks ps m]))
    (nowOrTimed 0x13 h ws m (applyPairs none ps))

/-! ## Setpoints (R207, R211 … R213, R531) -/

/-- The state-dependent checks of TORQUE_SETPOINT and SPEED_SETPOINT. DEDUCED, log entry 15. -/
def setpointChecks (speed : Bool) (ws : List Word) (m : Module) : Check :=
  let c : Fin 2 := if ws.getD 0 0 = 0 then 0 else 1
  let id := word (setpointId speed c.val)
  firstFail
    [(pairValue .rwL 1 (id, ws.getD 1 0)),
     failIf (m.patterned (tractionFunc c)) .safePatternActive,
     checkAdmitted m,
     failIf m.leavingRun .stateForbids,
     setpointCheck c m]

/-- The opcode of a setpoint command. -/
def setpointOpcode (speed : Bool) : Nat := if speed then 0x41 else 0x40

/-- The pair a setpoint command writes (R531). -/
def setpointPair (speed : Bool) (ws : List Word) : Word × Word :=
  (word (setpointId speed (ws.getD 0 0).toNat), ws.getD 1 0)

/-- TORQUE_SETPOINT and SPEED_SETPOINT act as WRITE_LIVE of the channel's setpoint (R531). -/
def setpoint (speed : Bool) (h : Hdr) (ws : List Word) (m : Module) : Verdict :=
  let op := setpointOpcode speed
  let own := ownWords h ws
  unlessFails (firstFail
    [prelude op h ws (· == 2) .optional (bits (own.getD 0 0) 31 1 == 0) m, setpointChecks speed own m])
    (nowOrTimed op h ws m (applyPairs none [setpointPair speed own]))

/-! ## LOOP_OPEN and LOOP_CLOSE (R214, R296, R297, R390, R537) -/

/-- A loop is opened from the next boundary on; a charger loop named, or DC and DI, ends a charge session or export (R216,
R297, R333, R335). DEDUCED, log entry 21. -/
def openLoop (m : Module) (l : Nat) : Module :=
  let charger (m : Module) : Module :=
    if m.charger.state = 0 then m
    else { m with charger := chargerOff (endCharge m.charger) }
  let converter (m : Module) : Module :=
    { m with converter := { m.converter with nextClosed := if m.converter.closed then some false else none } }
  let traction (c : Fin 2) : Module :=
    updTraction c (fun t => { t with nextLoop := if t.loop == .open then none else some .open }) m
  let actuator (a : Fin 4) : Module :=
    updActuator a (fun x => { x with nextClosed := if x.closed || x.move != 0 then some false else none }) m
  match l with
  | 0 => traction 0 | 1 => traction 1
  | 2 => charger (converter m) | 3 => charger (converter m)
  | 4 => charger m | 5 => charger m | 6 => charger m | 7 => charger m
  | 8 => actuator 0 | 9 => actuator 1 | 10 => actuator 2 | _ => actuator 3

/-- LOOP_OPEN (R537). -/
def loopOpenCmd (h : Hdr) (ws : List Word) (m : Module) : Verdict :=
  let w := ws.getD 0 0
  unlessFails (prelude 0x42 h ws (· == 1) .never (maskOk w) m) (.done [] ((maskLoops w).foldl openLoop m))

/-- An island of the loop's function is being tested, or its test is on its way (R86, R367). -/
def Module.testsFunc (m : Module) (f : Func) : Bool :=
  (m.gate.test == 1 && islandFunc m.gate.testIsland == f) ||
  m.interp.waiting.any (fun w => w.heldUntil.isSome && w.opcode == 0x71 && 10 ≤ w.target && w.target < 46 &&
    islandFunc (w.target - 10) == f)

/-- The power states and enables that allow the closing of a loop (R214, R296, R297, R390). -/
def Module.mayClose (m : Module) (l : Nat) : Bool :=
  if l ≤ 1 then m.label == .run && m.enabled (loopFunc l)
  else if l ≤ 3 then m.driven && m.enabled .cv
  else if l ≤ 7 then false
  else m.driven && m.enabled (loopFunc l)

/-- A transition to a lower state is in progress (R551). DEDUCED, log entry 21. -/
def Module.stepsDown (m : Module) : Bool := m.supply.transition.any (fun t => t.dest.code < t.source.code)

/-- The check of one loop named by LOOP_CLOSE; the detail is its bit (R537). -/
def closeCheck (m : Module) (l : Nat) : Check :=
  let f := loopFunc l
  firstFail
    [failIf (m.patterned f) .safePatternActive l,
     (checkAdmitted m).map (fun r => (r.1, l)),
     failIf (m.testsFunc f || m.loopHeldOpen l || ((l == 2 || l == 3) && (m.loopHeldOpen 2 || m.loopHeldOpen 3))) .busy l,
     failIf (!m.mayClose l || m.stepsDown) .stateForbids l]

/-- A loop is closed from the next boundary on; one that is CLOSED or STARTING stays as it is (R214, R216). -/
def closeLoop (m : Module) (l : Nat) : Module :=
  let traction (c : Fin 2) : Module :=
    updTraction c (fun t => { t with nextLoop := if t.loop == .open || t.nextLoop == some .open then some .starting else t.nextLoop }) m
  let actuator (a : Fin 4) : Module :=
    updActuator a (fun x => { x with nextClosed := if x.closed || x.move = 3 then none else some true }) m
  match l with
  | 0 => traction 0 | 1 => traction 1
  | 2 => { m with converter := { m.converter with nextClosed := if m.converter.closed then none else some true } }
  | 3 => { m with converter := { m.converter with nextClosed := if m.converter.closed then none else some true } }
  | 8 => actuator 0 | 9 => actuator 1 | 10 => actuator 2 | 11 => actuator 3
  | _ => m

/-- LOOP_CLOSE: all named loops or none (R537). -/
def loopCloseCmd (h : Hdr) (ws : List Word) (m : Module) : Verdict :=
  let w := ws.getD 0 0
  unlessFails (firstFail (prelude 0x43 h ws (· == 1) .never (maskOk w) m :: (maskLoops w).map (closeCheck m)))
    (.done [] ((maskLoops w).foldl closeLoop m))

/-! ## Dispatch (R531) -/

/-- SELFTEST by its target (R538). -/
def selftest (h : Hdr) (ws : List Word) (m : Module) : Verdict :=
  unlessFails (firstFail
    [checkLength h ws (· == 1), checkEncoding h .never (testTarget (ws.getD 0 0)).isSome])
    (match testTarget (ws.getD 0 0) with
     | none => .refuse .reservedEncoding 0
     | some .sup => selftestSup h m
     | some (.fabric d) => selftestFabric h d m
     | some (.island i) => selftestIsland h i m
     | some (.comparator a k) => selftestTwin h a false (m.idleComparator a k) m
     | some (.detector a i) => selftestTwin h a true (m.idleDetector a i) m)

/-- CHARGE_START, the STARTs and STOPs of export (R315, R316, R327, R333 … R335). -/
def exportStart (h : Hdr) (ws : List Word) (m : Module) : Verdict :=
  if ws.getD 0 0 = 1 then exportStartDc h ws m else exportStartAc h ws m
def exportStop (h : Hdr) (ws : List Word) (m : Module) : Verdict :=
  if ws.getD 0 0 = 1 then exportStopDc h ws m else exportStopAc h ws m

/-- What the interpreter decides about a request of an opcode of R531. -/
def handle (opcode : Nat) (h : Hdr) (ws : List Word) (s : Stamps) (m : Module) : Verdict :=
  match opcode with
  | 0x01 => getStatus h ws m
  | 0x02 => echo h ws m
  | 0x10 => readParam h ws m
  | 0x11 => stageParam h ws m
  | 0x12 => readParamBlock h ws m
  | 0x13 => writeLive h ws m
  | 0x20 => openStaging h ws m
  | 0x21 => commitOrRevert false h ws m
  | 0x22 => discardStaged h ws m
  | 0x23 => commitOrRevert true h ws m
  | 0x24 => stageLaunch h ws m
  | 0x25 => readLaunch h ws m
  | 0x26 => epochConfirm h ws m
  | 0x30 => setPowerState h ws m
  | 0x40 => setpoint false h ws m
  | 0x41 => setpoint true h ws m
  | 0x42 => loopOpenCmd h ws m
  | 0x43 => loopCloseCmd h ws m
  | 0x48 => moveRequest false h ws m
  | 0x49 => moveRequest true h ws m
  | 0x60 => chargeStart h ws m
  | 0x61 => chargeStop h ws m
  | 0x62 => exportStart h ws m
  | 0x63 => exportStop h ws m
  | 0x70 => measureTemp h ws m
  | 0x71 => selftest h ws m
  | 0x72 => calibrate h ws m
  | 0x73 => readFaults h ws m
  | 0x74 => ackFaults h ws m
  | 0x75 => fillMemory h ws m
  | 0x76 => scrubControl h ws m
  | 0x77 => readSlackV h ws m
  | 0x78 => gateDiag h ws m
  | 0x80 => admitTailstock h ws m
  | 0x81 => releaseTailstock h ws m
  | 0x82 => if h.relayed && ws.isEmpty then timeSyncProbe h (m.stampOf s.rx) (m.stampOf s.tx) m else timeSync h ws m
  | 0x83 => allocateTorque h ws m
  | 0x84 => relay h ws m
  | 0xF0 => debugAttach h ws m
  | 0xF1 => resetDie h ws m
  | _ => .refuse .unknownOpcode 0

/-- What a restart finds: the straps on the pins, the flash areas as they are. DEDUCED, log entry 49. -/
def Module.bootNow (m : Module) : Boot :=
  { straps := m.supply.pins, lock := 0, activeBad := m.epochs.activeBad, cellarBad := m.epochs.cellarBad,
    roleBad := !m.epochs.roleReadable }

/-- RESET_DIE naming SUP: a module restart, which has a course of its own (R43, R542). DEDUCED, log entry 60. -/
def isRestart (opcode : Nat) (h : Hdr) (ws : List Word) (m : Module) : Bool :=
  opcode == 0xF1 && ws == [0] && (resetDieCheck h ws m).isNone

/-- A request is executed (R523). -/
def runCommand (opcode : Nat) (h : Hdr) (ws : List Word) (s : Stamps) (m : Module) : Module :=
  if isRestart opcode h ws m then moduleRestart h m.bootNow m
  else answer opcode h ws.length m (handle opcode h ws s m)

/-! ## Packets (R516 … R524) -/

/-- CMD_UNDECODABLE_COUNT rises (R516). -/
def countUndecodable (m : Module) : Module :=
  { m with interp := { m.interp with undecodable := inc32 m.interp.undecodable } }

/-- A refusal before the opcode is looked at: the reply repeats word 0 as it came (R515, R517, R524). -/
def refuseRaw (t : Transport) (sender : Nat) (v : Via) (w0 : Word) (st : Status) (d : Nat) (m : Module) : Module :=
  let body : List Word := [w0 ||| 8, pack [(st.code, 16), (d, 0)]]
  sendPacket t sender v (body ++ [crc32c body])
    { m with interp := { m.interp with rejected := inc32 m.interp.rejected } }

/-- A decodable packet is taken: header checks, then its command (R517, R523). -/
def takePacket (q : QueuedPacket) (m : Module) : Module :=
  let w0 := q.words.getD 0 0
  match headerCheck q.words with
  | some st => refuseRaw q.transport q.sender q.via w0 st 0 m
  | none =>
    runCommand (bits w0 31 24) (hdrOf q.transport q.sender q.via q.fromHead w0) (q.words.drop 1).dropLast q.stamps m

/-- A packet waits: behind a rollback, or behind a stalled access into a die its command addresses (R87, R167). -/
def Module.holdsPacket (m : Module) (q : QueuedPacket) : Bool :=
  m.lockstep.rollback ||
  ((headerCheck q.words).isNone && m.holdsRequest (bits (q.words.getD 0 0) 31 24) (q.words.drop 1).dropLast)

/-- A packet at the end of the queue. -/
def enqueue (q : QueuedPacket) (m : Module) : Module :=
  { m with interp := { m.interp with queue := m.interp.queue ++ [q] } }

/-- The first `k` packets that waited are taken in the order received, but for those that wait on; a restart drops the rest
(R87, R167, R523, R544). -/
def takeQueue : Nat → Module → Module
  | 0, m => m
  | k + 1, m =>
    match m.interp.queue with
    | [] => m
    | q :: qs =>
      let m1 := { m with interp := { m.interp with queue := qs } }
      takeQueue k (if m1.holdsPacket q then enqueue q m1 else takePacket q m1)

/-- The queue is taken up unless a rollback still runs. DEDUCED, log entry 16. -/
def drainQueue (m : Module) : Module := if m.lockstep.rollback then m else takeQueue m.interp.queue.length m

/-- The interpreter runs: from STANDBY on, with SUP running (R42, R547). -/
def Module.listens (m : Module) : Bool := 2 ≤ m.label.code && m.dieRuns 0

/-- Complete packets that wait on a transport (R524). -/
def Module.waitingOn (m : Module) (t : Transport) : Nat :=
  (m.interp.queue.filter (fun q => q.transport == t)).length

/-- A decodable packet is complete: taken at once, or kept during a rollback or a stall, or answered with BUSY when 16 wait
already (R87, R167, R523, R524). DEDUCED, log entry 16. -/
def arrives (q : QueuedPacket) (m : Module) : Module :=
  if m.holdsPacket q then
    if 16 ≤ m.waitingOn q.transport then refuseRaw q.transport q.sender q.via (q.words.getD 0 0) .busy 0xFFFF m
    else enqueue q m
  else takePacket q m

/-- A packet of words on a transport (R516): too short, too long or with bit 3 set it is not decodable, but for the answer
of a Tailstock at its Headstock. -/
def packetWords (q : QueuedPacket) (m : Module) : Module :=
  let w0 := q.words.getD 0 0
  let link := q.transport == .cn2 || q.transport == .cn3
  if !m.listens then m
  else if q.words.length < 2 || 64 < q.words.length then countUndecodable m
  else if bit w0 3 then
    if m.isHead && link && !q.fromHead then
      (if q.words.getLast? = some (crc32c q.words.dropLast) then
         replyFrom ⟨q.sender % 16, Nat.mod_lt _ (by decide)⟩ q.words.dropLast (m.stampOf q.stamps.rx) m
       else m)
    else countUndecodable m
  else arrives q m

/-- A packet of bytes (R516). -/
def packetBytes (t : Transport) (sender : Nat) (v : Via) (fromHead : Bool) (bytes : List Byte) (s : Stamps) (m : Module) :
    Module :=
  match bytesWords bytes with
  | none => countUndecodable m
  | some ws => packetWords { transport := t, sender := sender, fromHead := fromHead, words := ws, stamps := s, via := v } m

/-- A host command of the table as one request: only from STANDBY on; it waits behind a rollback or a stall (R87, R167,
R547). -/
def hostCommand (opcode : Nat) (h : Hdr) (ws : List Word) (s : Stamps) (m : Module) : Module :=
  if !m.listens then m
  else if m.holdsRequest opcode ws then
    arrives { transport := h.transport, sender := h.sender, fromHead := h.fromHead, words := requestWords opcode h ws,
              stamps := s, via := h.via } m
  else runCommand opcode h ws s m

/-- TRANSPORT_QUEUE_FULL: a packet on a transport that holds 16 already (R524). -/
def queueFull (q : QueuedPacket) (m : Module) : Module :=
  if !m.listens || m.waitingOn q.transport < 16 then m
  else refuseRaw q.transport q.sender q.via (q.words.getD 0 0) .busy 0xFFFF m

/-! ## Segments and carriers (R468, R520 … R522) -/

/-- The reassembly a frame belongs to: one on CN1; one per sender and identifier on the axle link, whose two ports carry
copies (R521). DEDUCED, log entry 17. -/
def sameReassembly (t : Transport) (sender : Nat) (r : Reassembly) : Bool :=
  if t == .cn1 then r.transport == .cn1 else r.transport != .cn1 && r.sender == sender

/-- A reassembly, or a frame without one, is discarded and counted (R516, R521). DEDUCED, log entry 17. -/
def dropSegment (t : Transport) (sender : Nat) (m : Module) : Module :=
  countUndecodable { m with interp := { m.interp with
    segmentDrops := inc32 m.interp.segmentDrops,
    reassemblies := m.interp.reassemblies.filter (fun r => !sameReassembly t sender r) } }

/-- The reassembly after a frame: kept, complete or spoilt (R521). -/
def extend (t : Transport) (sender : Nat) (fromHead last : Bool) (r : Reassembly) (data : List Byte) (s : Stamps)
    (m : Module) : Module :=
  let bytes := r.bytes ++ data
  let m1 := { m with interp := { m.interp with
    reassemblies := m.interp.reassemblies.filter (fun r => !sameReassembly t sender r) } }
  if last then
    if bytes.length < r.total then dropSegment t sender m
    else packetBytes t sender r.via fromHead (bytes.take r.total) s m1
  else if r.total < bytes.length then dropSegment t sender m
  else
    let r' := { r with bytes := bytes, nextSeq := (r.nextSeq + 1) % 16, lastAt := m.time.elapsed }
    { m1 with interp := { m1.interp with reassemblies := m1.interp.reassemblies ++ [r'] } }

/-- A frame breaks the framing of R520: a reserved bit of its control byte is set, or one that is not the last is not
full-length (from the control byte on: 64 bytes of a CAN FD frame, 8 of a classical one on CN1, 111 on the axle link).
DEDUCED, log entry 17. -/
def badFraming (t : Transport) (classical : Bool) (bytes : List Byte) : Bool :=
  let control := (bytes.getD 0 0).toNat
  control.testBit 4 || control.testBit 5 ||
    (!control.testBit 6 && bytes.length != (if t == .cn1 then (if classical then 8 else 64) else 111))

/-- A frame from its control byte on (R520, R521). -/
def takeSegment (t : Transport) (sender : Nat) (v : Via) (fromHead : Bool) (bytes : List Byte) (s : Stamps) (m : Module) : Module :=
  let control := (bytes.getD 0 0).toNat
  let last := control.testBit 6
  let seq := control % 16
  let open_ := m.interp.reassemblies.find? (sameReassembly t sender)
  if badFraming t v.classical bytes then dropSegment t sender m
  else if control.testBit 7 then
    let m1 := if open_.isSome then dropSegment t sender m else m
    let total := (bytes.getD 1 0).toNat
    if seq != 0 || total < 2 || 64 < total then dropSegment t sender m1
    else
      extend t sender fromHead last
        { transport := if t == .cn1 then .cn1 else .cn2, sender := sender, total := 4 * total, bytes := [], nextSeq := 0,
          lastAt := m.time.elapsed, via := v } (bytes.drop 2) s m1
  else
    match open_ with
    | none => dropSegment t sender m
    | some r =>
      if r.nextSeq != seq || r.lastAt + 4000000 < m.time.elapsed then dropSegment t sender m
      else extend t sender fromHead last r (bytes.drop 1) s m

/-- SEGMENT_FRAME on CN1 or the axle link: there byte 0 is the sequence number, and the first copy counts (R461, R519). -/
def segmentFrame (t : Transport) (sender : Nat) (v : Via) (fromHead : Bool) (bytes : List Byte) (s : Stamps) (m : Module) :
    Module :=
  if !m.listens || !m.dieRuns 6 then m
  else if t == .cn1 then takeSegment t sender v fromHead bytes s m
  else if t == .cn2 || t == .cn3 then
    let n : Fin 16 := ⟨sender % 16, Nat.mod_lt _ (by decide)⟩
    let ident := if fromHead then 0x100 + m.straps.node.val else 0x180 + n.val
    let seq := (bytes.getD 0 0).toNat
    let heard := hearFrame (if t == .cn2 then 0 else 1) n m
    let m1 := if fromHead then headHeard heard else heard
    if m1.copySeen ident n.val seq then m1
    else takeSegment t n.val v fromHead (bytes.drop 1) s (noteCopy ident n.val seq m1)
  else m

/-- SEGMENT_TIMEOUT: reassemblies whose last frame came more than 10 ms ago (R521). -/
def segmentTimeout (m : Module) : Module :=
  (m.interp.reassemblies.filter (fun r => r.lastAt + 4000000 < m.time.elapsed)).foldl
    (fun m r => dropSegment r.transport r.sender m) m

/-- CAN_FRAME_RECEIVED, and the packet that a frame on CN0 completes (R457, R519). -/
def canFrame (p : Fin 4) (f : CanFrame) (stamp : Tick) (taken : Nat) (m : Module) : Module :=
  let m1 := canReceived p f stamp taken (updIsobus (fun y => { y with arrived := none }) m)
  match m1.isobus.arrived with
  | none => m1
  | some x => packetBytes .cn0 x.1 {} false x.2 { rx := 0, tx := 0 } (updIsobus (fun y => { y with arrived := none }) m1)

/-- SV_FRAME: the bytes between two delimiters (R522). -/
def svFrame (bytes : List Byte) (m : Module) : Module :=
  if !m.listens || bytes.isEmpty then m
  else
    match unescape bytes with
    | none => countUndecodable m
    | some bs => packetBytes .sv 0 {} false bs { rx := 0, tx := 0 } m

/-- A frame discarded by an Ethernet interface (R468). -/
def discardEth (e : Fin 2) (m : Module) : Module := updEth e (fun x => { x with discards := inc32 x.discards }) m

/-- The datagrams R468 discards by their destination: multicast, broadcast to all or to the interface's own subnet, which has
no broadcast address where the mask leaves fewer than two host bits. DEDUCED, log entry 48. -/
def Module.foreignCast (m : Module) (e : Fin 2) (dest : BitVec 32) : Bool :=
  let mask := m.num (P.etNetmask + 0x10 * e.val)
  let own := m.num (P.etIpAddr + 0x10 * e.val)
  let host := 0xFFFFFFFF - mask
  0xE0000000 ≤ dest.toNat ||
  (1 < host && (dest.toNat &&& mask) == (own &&& mask) && (dest.toNat &&& host) == host)

/-- ETHERNET_DATAGRAM on interface `e` (R467, R468): an interface that is off or has no address answers nothing.
DEDUCED, log entry 48. -/
def ethernetFrame (e : Fin 2) (f : EthFrame) (m : Module) : Module :=
  let own := m.num (P.etIpAddr + 0x10 * e.val)
  if !m.listens || !m.dieRuns 6 || m.num (P.etEnable + 0x10 * e.val) != 1 || own = 0 then m
  else
    match f with
    | .arp target => if target.toNat = own then emit (.arp e.val) (transmit 1 m) else m
    | .echo source dest length =>
      if m.foreignCast e dest then discardEth e m
      else if dest.toNat = own ∧ length ≤ 1472 ∧ (m.hop e.val own source.toNat).isSome then
        emit (.icmp e.val source.toNat length) (transmit ((length + 3) / 4) m)
      else m
    | .udp source dest sourcePort port bytes =>
      if m.foreignCast e dest then discardEth e m
      else if dest.toNat != own then m
      else if port.toNat != 46800 then discardEth e m
      else packetBytes (if e.val = 0 then .et0 else .et1) source.toNat { udpPort := sourcePort.toNat, ownAddr := own } false bytes { rx := 0, tx := 0 } m
    | .excluded => discardEth e m

/-- REPLY_SEND: the reply of the waiting command at a position leaves once its result is ready (R515, R523).
DEDUCED, log entry 35. -/
def replySend (i : Nat) (m : Module) : Module :=
  match m.interp.waiting[i]? with
  | some w =>
    match w.result with
    | some (st, d, data) =>
      sendReply w.opcode w.hdr w.count st d data
        { m with interp := { m.interp with waiting := m.interp.waiting.eraseIdx i } }
    | none => m
  | none => m

/-! ## Timed execution (R525 … R528) -/

/-- The pending timed command that is due first: the earliest instant reached, the earliest accepted (R526, R544). -/
def dueTimed (now : Tick) : List TimedCmd → Option TimedCmd
  | [] => none
  | t :: ts =>
    if now.toNat < t.instant.toNat then dueTimed now ts
    else
      match dueTimed now ts with
      | some u => if u.instant.toNat < t.instant.toNat then some u else some t
      | none => some t

/-- The checks of R528 on a command that is due, as a request without its instant. -/
def recheck (t : TimedCmd) (m : Module) : Check :=
  let h := { t.hdr with timed := false }
  let n := nodeOf (t.words.getD 0 0)
  match t.opcode with
  | 0x13 => liveChecks (pairsOf t.words) m
  | 0x40 => firstFail [checkLockstep 0x40 m, setpointChecks false t.words m]
  | 0x41 => firstFail [checkLockstep 0x41 m, setpointChecks true t.words m]
  | 0x48 => firstFail [checkLockstep 0x48 m, moveChecks false (t.words.getD 0 0) m]
  | 0x49 => firstFail [checkLockstep 0x49 m, moveChecks true (t.words.getD 0 0) m]
  | 0x80 => firstFail [nodeChecks 0x80 h t.words m,
      if m.isHead then failIf (!m.inSet n.val && m.nodeDetail n != 0) .stateForbids (m.nodeDetail n) else ownAdmitCheck m]
  | 0x81 => firstFail [nodeChecks 0x81 h t.words m, releaseCheck n m]
  | _ => none

/-- The effect of a timed command at its instant (R212, R393, R487, R490, R526). -/
def timedEffect (t : TimedCmd) (m : Module) : Module :=
  let w := t.words.getD 0 0
  match t.opcode with
  | 0x13 => applyPairs (some t.instant) (pairsOf t.words) m
  | 0x40 => applyPairs (some t.instant) [setpointPair false t.words] m
  | 0x41 => applyPairs (some t.instant) [setpointPair true t.words] m
  | 0x48 => updActuator (moveActuator w) (fun x => { x with nextMove := some (moveTarget w) }) m
  | 0x49 => updActuator (moveActuator w) (fun x => { x with nextMove := some (moveTarget w) }) m
  | 0x80 => if m.isHead then enterSet (nodeOf w) m else becomeAdmitted m
  | 0x81 => takeRelease (nodeOf w) m
  | _ => m

/-- TIMED_COMMAND_DUE (R528). DEDUCED, log entry 19. -/
def timedDue (m : Module) : Module :=
  match dueTimed m.time.count m.interp.timed with
  | none => m
  | some t =>
    let m1 := { m with interp := { m.interp with timed := m.interp.timed.erase t } }
    match recheck t m with
    | none => timedEffect t m1
    | some _ =>
      raise F.cmdTimedDropped (t.opcode * 256 + t.hdr.tag.toNat) false
        { m1 with interp := { m1.interp with timedDropped := inc32 m1.interp.timedDropped } }

/-! ## Conditions of events -/

/-- An event of a module that has started: nothing but time passes in OFF and SLEEP (R547). DEDUCED, log entry 46. -/
def awake (f : Module → Module) (m : Module) : Module := if m.label.code < 2 then m else f m

/-- An event of a die that runs. -/
def onDie (d : Fin 46) (f : Module → Module) (m : Module) : Module := if m.dieRuns d then f m else m

/-- An event of the bus controllers in SUP, over the transceivers of the PHY (R42, R43). -/
def onBus (f : Module → Module) : Module → Module := awake (onDie 0 (onDie 6 f))

/-- An event of the flash in FL (R42, R43). -/
def onFlash (f : Module → Module) : Module → Module := awake (onDie 1 f)

/-- An event of an island that is supplied. DEDUCED, log entry 46. -/
def onIsland (i : Fin 36) (f : Module → Module) (m : Module) : Module :=
  awake (fun m => if m.islandSupplied i then f m else m) m

/-- An event at a feedback port, and what it does to the actuator that uses it (R389, R390). -/
def atPort (p : Fin 6) (f : Module → Module) (m : Module) : Module := axAfterPort p m (noteHallEdge p m (f m))

/-! ## Commands that meet others -/

/-- RESET_DIE naming SUP with what the start finds (R43); it waits behind a rollback. -/
def restartCommand (h : Hdr) (b : Boot) (m : Module) : Module :=
  if !m.listens then m
  else if m.lockstep.rollback then
    arrives { transport := h.transport, sender := h.sender, fromHead := h.fromHead, words := requestWords 0xF1 h [0],
              stamps := { rx := 0, tx := 0 }, via := h.via } m
  else moduleRestart h b m

/-- CONVERTER_CYCLE_START; at the start of a cycle a tripped comparator of the leg is not tripped any more, one that is
UNRESOLVED stays so (R306, R425, R428). -/
def legCycle (j : Fin 4) (m : Module) : Module :=
  let m1 := cycleStart j m
  let l := m1.converter.legs[j]
  if l.lowOn && m.time.count.toNat ≤ l.onSince && m1.regulationOf j == 2 then regulationDecision j 1 m1 else m1

/-- DI_COMPARATOR_TRIP: the decision of the regulation comparator on its last samples, and the end of the on-time (R422,
R427, R428). -/
def legTrip (j : Fin 4) (levels : List Word) (m : Module) : Module :=
  diTrip j levels (if m.converter.legs[j].lowOn && m.diDecides j levels then regulationDecision j 2 m else m)

/-- A release decision of a comparator on its last samples, or of a detector member on its window (R421, R422, R428). -/
def memberRelease (a : Fin 2) (levels : List Word) (window : Nat) : MemberId → Module → Module
  | .comparator k => comparatorRelease a k levels
  | .detector k => detectorRelease a k window

/-- LOCKSTEP_CHECKPOINT, and the packets that waited for the end of a rollback (R167). -/
def checkpointDrain (main fallback parity : Bool) (ran : List Retirement) (m : Module) : Module :=
  drainQueue (checkpoint main fallback parity ran m)

/-- EPOCH_SWITCH (R566): with it the settings used by no region, the reference and the bus ports; at a commit instant a
Tailstock compares its number with `head`, its Headstock's (R496). -/
def epochSwitch (head : Option Word) (m : Module) : Module :=
  let m1 := switchEpoch m
  let m2 := if m1.epochs.lastSwitch = m.epochs.lastSwitch then m1 else takeReference (takeBusEnable m1)
  if m.isHead then m2 else epochCompare head m2

/-- LOCKSTEP_MISMATCH, SUP_LOCKSTEP_LOST and MEMORY_READ_ERROR: where lockstep is lost, or the rollback has ended, the
packets that waited are taken (R166, R167). -/
def mismatchDrain (ran : List Retirement) (m : Module) : Module := drainQueue (runPair ran m)
def retryFailedDrain (ran : List Retirement) (m : Module) : Module := drainQueue (retryFailed ran m)
def readErrorDrain (b addr : Nat) (bad scrub : Bool) (entry : Nat) (m : Module) : Module :=
  drainQueue (readError b addr bad scrub entry m)

/-- CROSSING_STALL_TIMEOUT, and the packets that waited behind the stall (R87). -/
def stallTimeoutDrain (d : Fin 46) (m : Module) : Module := drainQueue (stallTimeout d m)

/-- FAULT_RAISED: a fault of R589 is detected where no event of its own stands in the table (R575 … R587).
DEDUCED, log entry 32. -/
def faultRaised (code detail : Nat) (cond : Bool) (m : Module) : Module :=
  if m.label.code < 2 || (faultInfo code).isNone then m else raise code (detail % 2 ^ 16) cond m

end Sys2Proof.Machine
end

