-- ==== Sys2Proof/Machine/Landing.lean ====
section
/-!
DEFINITION. What happens by itself while real time passes between two commands: committed values land (R80), outputs become
readable on the fabric exchange (R40), the supervisor's held writes are applied (R86), the GDC places gate edges and the
islands follow them (R349 … R352), SSI words are read (R276), the regenerated outputs emit their edges (R286, R287).
-/

namespace Sys2Proof.Machine

/-! ## The supervisor's writes into a clocked domain (R86) -/

/-- The reply of the command leaves as soon as its writes are applied: CALIBRATE, SCRUB_CONTROL. The others wait for what
they have started (R523). -/
def Waiting.endsWithWrites (w : Waiting) : Bool := w.opcode == 0x72 || w.opcode == 0x76

/-- The writes of a waiting command are applied: an island self-test, a GATE_DIAG, a twin test, a sweep, a new lap; the last
two are answered. -/
def applyHeld (w : Waiting) (m : Module) : Module :=
  if w.opcode = 0x78 then startGateDiag w.target m
  else if w.opcode = 0x72 then
    sendReply 0x72 w.hdr w.count 1 0 w.words (startSweep ⟨w.target % 2, Nat.mod_lt _ (by decide)⟩ m)
  else if w.opcode = 0x76 then
    sendReply 0x76 w.hdr w.count 0 0 w.words (restartLap (if w.target = 4 then 3 else 4) m)
  else if 100 ≤ w.target then
    let a : Fin 2 := ⟨(w.target - 100) / 2 % 2, Nat.mod_lt _ (by decide)⟩
    markTest a ((w.target - 100) % 2 == 1) w.key m
  else startIslandTest ⟨(w.target - 10) % 36, Nat.mod_lt _ (by decide)⟩ m

/-- The held writes whose last word has crossed are applied together (R86). -/
def applyDue (m : Module) : Module :=
  let now := m.time.elapsed
  let due (w : Waiting) : Bool := w.heldUntil.any (fun t => t ≤ now)
  let m1 := { m with interp := { m.interp with waiting :=
    (m.interp.waiting.filter (fun w => !(due w && w.endsWithWrites))).map (fun w =>
      if due w then { w with heldUntil := none } else w) } }
  (m.interp.waiting.filter due).foldl (fun m w => applyHeld w m) m1

/-! ## Real time -/

/-- The clocks at which something falls due by itself. -/
def Module.dueClocks (m : Module) : List Nat :=
  m.landingClocks ++ m.interp.waiting.filterMap (·.heldUntil) ++ m.frameClocks ++ m.windowClocks

/-- The first due clock after the present one and before another. -/
def Module.nextDue (m : Module) (limit : Nat) : Option Nat :=
  (m.dueClocks.filter (fun t => m.time.elapsed < t && t < limit)).foldl (fun best t =>
    match best with
    | some b => if t < b then some t else best
    | none => some t) none

/-- A stretch of time in which nothing falls due but at its end. -/
def stretch (dt : Nat) (m : Module) : Module :=
  let m1 := { passTime dt (runGates dt m) with out := m.out }
  let m2 := followEp dt 1 (followEp dt 0 (followGates dt m1))
  openWindow 1 (openWindow 0 (readFrames (applyDue (settleDue m2))))

/-- Real time up to a clock, stretch by stretch; `k` bounds their number. -/
def passUntil : Nat → Nat → Module → Module
  | 0, limit, m => stretch (limit - m.time.elapsed) m
  | k + 1, limit, m =>
    match m.nextDue limit with
    | some t => passUntil k limit (stretch (t - m.time.elapsed) m)
    | none => stretch (limit - m.time.elapsed) m

/-- `dt` ticks of real time pass before a command (R61); what left the module during the last command is forgotten. In OFF and
SLEEP no circuit of the module acts (R547). The feedback ports end their tick before it passes (R285). DESIGN CHOICE, log
entry 1. -/
def advance (dt : Nat) (m : Module) : Module :=
  if m.label.code < 2 then passTime dt m
  else
    let m0 := { m with out := [] }
    let m1 := if dt = 0 then m0 else settleTick m0
    passUntil (2 * m1.landings.length + m1.dueClocks.length) (m1.time.elapsed + dt) m1

end Sys2Proof.Machine
end

