-- ==== Sys2Proof/Machine/State.lean ====
section
/-!
DEFINITION. The state of the machine: the module's hardware and the queue of the commands that wait; how a command can stop;
the state after reset: the module in OFF with the factory epoch in FL (R547, R568, R680), every field at the value of its
Reset column or at the value the assumption log names.
-/

namespace Sys2Proof.Machine

/-- The machine: the hardware, and the commands that wait, first in, first out. -/
structure State where
  mod : Module
  pending : List Instr
deriving DecidableEq, Repr

/-- Why a command could stop the machine: no rule of the manual stops it, so no meaning faults. DEDUCED, log entry
2. -/
inductive Fault
deriving DecidableEq, Repr

/-- Why a command has no meaning. -/
inductive Refusal where
  /-- Raised by an arm of `exec` whose command has no meaning yet; safe: it claims nothing. No arm raises it now. -/
  | notModelled (mnemonic : String)
deriving DecidableEq, Repr

/-- Strap pins all at level 0: a Headstock in lockstep at node 0 where the role strap says Headstock. DESIGN
CHOICE, log entry 3. -/
def Straps.reset : Straps :=
  { headstock := true, split := false, node := 0, roleInvalid := false, splitInvalid := false, nodeInvalid := 0 }

/-- The epochs in a module as delivered: FL names the factory epoch, no CELLAR (R558, R680). -/
def Epochs.reset : Epochs :=
  { active := factoryImage, staged := none, cellar := none, stagedBad := false, cellarBad := false, activeBad := false,
    previous := factoryImage, onOld := Vector.replicate 8 false, pending := none, provisional := none,
    flashPending := false, programmed := false, flashActive := factoryImage, flashCellar := none, roleReadable := true,
    bootFallback := false, commitCount := 0, lastSwitch := 0 }

/-- No fault, no pattern, an empty log (R587, R591). -/
def Faults.reset : Faults :=
  { active := [], pattern := Vector.replicate 9 .none, patternBy := Vector.replicate 9 (0, 0),
    releasing := Vector.replicate 9 false, buffer := [], ring := [], counts := [], seq := 0, written := 0, lost := 0,
    erasing := false, verifySuspect := [] }

/-- Without supply: OFF (R547), EN low, HVIL open, the hold-up store empty. DESIGN CHOICE, log entry 3. -/
def Supply.reset : Supply :=
  { label := .off, transition := none, lastFail := 0xFF, holdup := false, lvinOk := false, hvauxOk := false,
    store := false, lvin := 0, hvaux := 0, en := false, enFellAt := 0, enRoseAt := 0, hvil := false, fbLimited := 0, svSlow := false,
    railsRemoved := false, wakeReason := 0, wakeHeld := false, wokeAt := none, pins := Straps.reset, readyAt := 0, rampAt := 0 }

/-- The Spindle before the PLL has locked: the count stands at 0 and is not valid (R61, R553). -/
def Timing.reset : Timing :=
  { count := 0, elapsed := 0, running := false, valid := false, ref := .crystal, tsFault := false, xtalFault := false,
    stepped := false, refLossCount := 0, carryWindow := false, retained := 0 }

/-- The module before its first start. DESIGN CHOICE, log entry 3. -/
def Module.reset : Module :=
  { time := Timing.reset, supply := Supply.reset,
    straps := { headstock := true, split := false, node := 0, invalid := 0 },
    dies := Vector.replicate 46 (Die.init 0), epochs := Epochs.reset, live := Live.init, interp := Interp.init,
    faults := Faults.reset, regions := Vector.replicate 8 Region.init, hostOut := Vector.replicate 64 0,
    crossings := Vector.ofFn (fun i => Crossing.init i.val), landings := [], published := Saved.init, exchange := [],
    publishing := [], checkpoints := Saved.init, lockstep := Lockstep.init false, memory := Memory.init 0,
    service := { bootCount := 0, operatingTime := 0, unprogrammed := 0 },
    traction := Vector.replicate 2 Traction.init, chopper := Chopper.init,
    feedback := Vector.replicate 6 Feedback.init, converter := Converter.init, charger := Charger.init,
    islands := Vector.replicate 36 Island.init, gate := GateCtl.init, actuators := Vector.replicate 4 Actuator.init,
    afe := Vector.ofFn (fun a => Afe.init a.val), can := Vector.replicate 4 (CanPort.init 0),
    eth := Vector.replicate 2 EthPort.init, isobus := Isobus.init, sys := System.init true 0 0, drivenTime := 0,
    free := 0, out := [] }

/-- The machine right after reset: the module without supply, no command waiting. -/
def State.reset : State := { mod := Module.reset, pending := [] }

end Sys2Proof.Machine
end

