-- ==== Sys2Proof/Machine/Effect.lean ====
section
/-!
DEFINITION. How a command meets the module: real time passes, then its effect; the parts of the module an event needs to be
running; the words of the rows that spell one form of a host command.
-/

namespace Sys2Proof.Machine

/-- A command's effect on the module after `dt` ticks of real time (R61); the queue is not its concern. DESIGN
CHOICE, log entry 1. -/
def effect (dt : Nat) (f : Module → Module) (s : State) : Host.Outcome State Fault Refusal :=
  .next { s with mod := f (advance dt s.mod) }

/-- No start-of-frame stamps: the packet came over no axle link. -/
def noStamps : Stamps := { rx := 0, tx := 0 }

/-- An event of a control-fabric region whose die runs (R44). -/
def onRegion (n : Fin 8) (f : Module → Module) : Module → Module := awake (onDie (regionDie n) f)

/-- The region of a traction channel (R37). -/
def channelRegion (c : Fin 2) : Fin 8 := ⟨c.val, by omega⟩

/-- An event of the GDC while it runs. -/
def onGdc (f : Module → Module) : Module → Module := awake (onDie 7 f)

/-- An event of a feedback port, whose decoder stands in the GDC (R260); a capture of the same tick takes it in (R264,
R285). -/
def onPort (p : Fin 6) (f : Module → Module) : Module → Module := onGdc (atPort p (withCapture p f))

/-- A change on the lines of a feedback port: an event of its decoder where that runs, else the lines alone move (R262). -/
def onLines (p : Fin 6) (f : Module → Module) (m : Module) : Module := if m.dieRuns 7 then onPort p f m else awake f m

/-- An event of the inverter that holds an island, for the pre-selected patterns (R250). DEDUCED, log entry 47. -/
def preselectFor (i : Fin 36) (m : Module) : Module :=
  if islandFunc i.val = .ta then preselect 0 m else if islandFunc i.val = .tb then preselect 1 m else m

/-- The words of a WRITE_LIVE of one parameter, timed or not (R525, R534). -/
def liveWriteWords (h : Hdr) (instant : Tick) (id : Nat) (value : Word) : List Word :=
  (if h.timed then tickWords instant else []) ++ [word id, value]

/-- READ_SLACK's word with CLEAR set (R131). -/
def setClear : List Word → List Word
  | [] => []
  | w :: ws => (w ||| 0x00100000) :: ws

/-- The current limit of a supply; at a feedback port its lines report a break (R630). -/
def supplyLimit (p : PortSupply) : Module → Module :=
  match p with
  | .fb q => atPort q (fbSupplyLimit (.fb q))
  | .cs i => fbSupplyLimit (.cs i)

end Sys2Proof.Machine
end

