-- ==== Sys2Proof/Machine/BusRows.lean ====
section
/-!
DEFINITION. Meanings: the events of the buses and of the system (R440 … R512).
-/

namespace Sys2Proof.Machine

/-- CAN_FRAME_RECEIVED (R444): A received CAN frame is timestamped and goes to the target of the first matching
filter. -/
def execCanFrameReceived (dt : Nat) (p : Fin 4) (f : CanFrame) (stamp : Tick) (taken : Nat) (s : State) :
    Host.Outcome State Fault Refusal :=
  effect dt (onBus (canFrame p f stamp taken)) s

/-- CAN_FRAME_TRANSMITTED (R446): A pending transmit object wins arbitration and its frame is sent. -/
def execCanFrameTransmitted (dt : Nat) (p : Fin 4) (stamp : Tick) (error : Bool) (s : State) :
    Host.Outcome State Fault Refusal :=
  effect dt (onBus (canTransmitted p stamp error)) s

/-- ONE_SHOT_FAIL (R447): A one-shot frame loses arbitration or meets an error and is withdrawn as failed. -/
def execOneShotFail (dt : Nat) (p : Fin 4) (error : Bool) (s : State) : Host.Outcome State Fault Refusal :=
  effect dt (onBus (oneShotFail p error)) s

/-- BUS_OBJECT_ECC (R448): An uncorrectable error in a message object clears and reloads it and raises a class B
fault. -/
def execBusObjectEcc (dt : Nat) (p : Fin 4) (object : Fin 256) (s : State) : Host.Outcome State Fault Refusal :=
  effect dt (onBus (objectEcc p object.val)) s

/-- HP_BUFFER_FRAME (R449): An axle-link frame with priority 0x000 to 0x00F enters the high-priority buffer and is
taken by the firmware. -/
def execHpBufferFrame (dt : Nat) (p : Fin 2) (n : Fin 16) (stamp : Tick) (data : List Byte) (taken : Nat) (s : State)
    :
    Host.Outcome State Fault Refusal :=
  effect dt (onBus (hpFrame p n stamp data taken)) s

/-- BUS_OFF (R452): A CAN controller enters bus-off, raising a class C fault. -/
def execBusOff (dt : Nat) (p : Fin 4) (s : State) : Host.Outcome State Fault Refusal :=
  effect dt (onBus (busOffP p)) s

/-- BUS_OFF_RECOVERY (R452): After 128 occurrences of 11 recessive bits the controller leaves bus-off. -/
def execBusOffRecovery (dt : Nat) (p : Fin 4) (seen : Nat) (s : State) : Host.Outcome State Fault Refusal :=
  effect dt (onBus (busOffRecovery p seen)) s

/-- BUS_WAKE (R454): A dominant edge or wake frame in SLEEP takes the module to STANDBY. -/
def execBusWake (dt : Nat) (p : Fin 4) (c : WakeCause) (b : Boot) (s : State) : Host.Outcome State Fault Refusal :=
  effect dt (busWake p c b) s

/-- ADDRESS_CLAIM (R456): The module claims its ISO 11783-5 address on CN0, or falls to the null address. -/
def execAddressClaim (dt : Nat) (a : Option (Fin 254)) (s : State) : Host.Outcome State Fault Refusal :=
  effect dt (onBus (addressClaim a)) s

/-- DM1_SEND (R458): DM1 is sent every second and when the active fault set changes. -/
def execDm1Send (dt : Nat) (s : State) : Host.Outcome State Fault Refusal :=
  effect dt (onBus dm1Send) s

/-- AXLE_LINK_FRAME (R461): An axle-link frame is received; the first valid copy is acted on and duplicates are
dropped. -/
def execAxleLinkFrame (dt : Nat) (p : Fin 2) (n : Fin 16) (seq : Byte) (k : AxlePayload) (s : State) :
    Host.Outcome State Fault Refusal :=
  effect dt (onBus (axleFrame p n seq k)) s

/-- AL_PORT_DOWN (R466): An axle-link port bus-off or silent for AL_SILENCE is marked down. -/
def execAlPortDown (dt : Nat) (p : Fin 2) (s : State) : Host.Outcome State Fault Refusal :=
  effect dt (onBus (portDown p)) s

/-- ETHERNET_DATAGRAM (R468): A frame on ET0 or ET1 is answered by ARP or ICMP, passed as a Cerol packet, or
discarded. -/
def execEthernetDatagram (dt : Nat) (e : Fin 2) (f : EthFrame) (s : State) : Host.Outcome State Fault Refusal :=
  effect dt (ethernetFrame e f) s

/-- ET_LINK_DOWN (R469): An enabled Ethernet link goes down and raises a class C fault. -/
def execEtLinkDown (dt : Nat) (e : Fin 2) (s : State) : Host.Outcome State Fault Refusal :=
  effect dt (onBus (etLinkDown e)) s

/-- SYNC_SEND (R476): The Headstock places SYNC every AL_SYNC_PERIOD and SYNC_FU after its stamp. -/
def execSyncSend (dt : Nat) (s : State) : Host.Outcome State Fault Refusal :=
  effect dt (onBus syncSend) s

/-- SYNC_RECEIVED (R478): A Tailstock forms an offset sample from SYNC and its SYNC_FU and corrects its Spindle. -/
def execSyncReceived (dt : Nat) (p : Fin 2) (n : Fin 16) (seq : Byte) (of_ : Byte) (rx : Tick) (tx : Tick) (gap : Nat)
    (s : State) :
    Host.Outcome State Fault Refusal :=
  effect dt (onBus (syncReceived p n seq of_ rx tx gap)) s

/-- WIRED_SYNC_EDGE (R483): A Tailstock times a TS rising edge and forms the wired offset. -/
def execWiredSyncEdge (dt : Nat) (edge : Nat) (s : State) : Host.Outcome State Fault Refusal :=
  effect dt (awake (wiredEdge edge)) s

/-- SYNC_HOLDOVER_EXPIRY (R485): No offset sample for SYS_SYNC_HOLDOVER returns the time state to unlocked. -/
def execSyncHoldoverExpiry (dt : Nat) (s : State) : Host.Outcome State Fault Refusal :=
  effect dt (onBus syncHoldover) s

/-- LISTEN_PERIOD_END (R477): After listening for 2 × AL_STATUS_PERIOD after boot a module begins sending axle-link
frames. -/
def execListenPeriodEnd (dt : Nat) (s : State) : Host.Outcome State Fault Refusal :=
  effect dt (onBus listenEnd) s

/-- STATUS_SEND (R464): Every module sends STATUS every AL_STATUS_PERIOD. -/
def execStatusSend (dt : Nat) (s : State) : Host.Outcome State Fault Refusal :=
  effect dt (onBus statusSend) s

/-- EVENT_SEND (R465): A module sends EVENT at once on HVIL opening, a safe pattern, a class A fault or leaving RUN.
-/
def execEventSend (dt : Nat) (s : State) : Host.Outcome State Fault Refusal :=
  effect dt (onBus eventSend) s

/-- ADMISSION_LOSS (R491): An admitted Tailstock loses admission, sets its safe patterns and returns to the Porch. -/
def execAdmissionLoss (dt : Nat) (c : LossCause) (s : State) : Host.Outcome State Fault Refusal :=
  effect dt (awake (admissionLoss c)) s

/-- NODE_REMOVAL (R503): The Headstock removes a node on EVENT, STATUS or silence and raises SYS_NODE_LOST. -/
def execNodeRemoval (dt : Nat) (n : Fin 16) (s : State) : Host.Outcome State Fault Refusal :=
  effect dt (onBus (nodeSilent n)) s

/-- ALLOCATION_INSTANT (R501): At its execution instant an allocation's shares become the setpoints of
allocation-sourced channels. -/
def execAllocationInstant (dt : Nat) (s : State) : Host.Outcome State Fault Refusal :=
  effect dt (awake allocationInstant) s

/-- SYS_ALLOC_STALE (R502): No allocation for SYS_ALLOC_TIMEOUT sets every share to zero and raises a class B fault.
-/
def execSysAllocStale (dt : Nat) (s : State) : Host.Outcome State Fault Refusal :=
  effect dt (onBus allocStale) s

/-- COMMIT_VOTE_DEADLINE (R494): At I − SYS_COMMIT_VOTE the Headstock decides the system-wide commit and relays
EPOCH_CONFIRM. -/
def execCommitVoteDeadline (dt : Nat) (s : State) : Host.Outcome State Fault Refusal :=
  effect dt (awake commitVote) s

/-- COMMIT_CONFIRM_DEADLINE (R494): At I − SYS_COMMIT_CONFIRM an unconfirmed provisional commit is dropped. -/
def execCommitConfirmDeadline (dt : Nat) (s : State) : Host.Outcome State Fault Refusal :=
  effect dt (awake confirmDeadline) s

end Sys2Proof.Machine
end

