-- ==== Sys2Proof/Machine/CommandRows.lean ====
section
/-!
DEFINITION. Meanings: the host commands and the events of the command interpreter (R513 … R546).
-/

namespace Sys2Proof.Machine

/-- GET_STATUS (R532): Host command that returns the power state, role, mode, fault class, patterns and port levels in
five data words. -/
def execGetStatus (dt : Nat) (r : Req) (s : State) : Host.Outcome State Fault Refusal :=
  effect dt (hostCommand 0x01 r.hdr r.words noStamps) s

/-- ECHO (R531): Host command that returns its parameter words unchanged. -/
def execEcho (dt : Nat) (r : Req) (s : State) : Host.Outcome State Fault Refusal :=
  effect dt (hostCommand 0x02 r.hdr r.words noStamps) s

/-- READ_PARAM (R533): Host command that reads the values in effect of a list of parameter IDs. -/
def execReadParam (dt : Nat) (r : Req) (s : State) : Host.Outcome State Fault Refusal :=
  effect dt (hostCommand 0x10 r.hdr r.words noStamps) s

/-- READ_PARAM_BLOCK (R533): Host command that reads a run of consecutive IDs from the in-effect, STAGED or CELLAR
slot. -/
def execReadParamBlock (dt : Nat) (r : Req) (s : State) : Host.Outcome State Fault Refusal :=
  effect dt (hostCommand 0x12 r.hdr r.words noStamps) s

/-- STAGE_PARAM (R534): Host command that writes epoch-class parameter values into the open STAGED image, all pairs or
none. -/
def execStageParam (dt : Nat) (r : Req) (s : State) : Host.Outcome State Fault Refusal :=
  effect dt (hostCommand 0x11 r.hdr r.words noStamps) s

/-- WRITE_LIVE (R534): Host command that writes live-class parameters that have no row of their own, with effect at
the next period boundary of the region that uses them. -/
def execWriteLive (dt : Nat) (r : Req) (s : State) : Host.Outcome State Fault Refusal :=
  effect dt (hostCommand 0x13 r.hdr r.words noStamps) s

/-- FABRIC_SUPPLY_WRITE (R45): Live write of FABRIC_SUPPLY_CF0 or FABRIC_SUPPLY_CF1 in READY, which starts a supply
change of that fabric die taking at most 200 µs. -/
def execFabricSupplyWrite (dt : Nat) (h : Hdr) (instant : Tick) (d : Fin 2) (value : Word) (s : State) :
    Host.Outcome State Fault Refusal :=
  effect dt (hostCommand 0x13 h (liveWriteWords h instant (P.fabricSupplyCf0 + d.val) value) noStamps) s

/-- FABRIC_SUPPLY_CHANGE_DONE (R136): Completion of a fabric supply level change, after which a new write to the same
die is no longer refused with BUSY. -/
def execFabricSupplyChangeDone (dt : Nat) (d : Fin 2) (s : State) : Host.Outcome State Fault Refusal :=
  effect dt (awake (supplyDone d)) s

/-- FLOG_RECORD_SELECT (R595): Live write that selects the fault-log record by sequence number, so that FLOG_RECORD_w
holds it. -/
def execFlogRecordSelect (dt : Nat) (h : Hdr) (instant : Tick) (value : Word) (s : State) :
    Host.Outcome State Fault Refusal :=
  effect dt (hostCommand 0x13 h (liveWriteWords h instant P.flogRecordSelect value) noStamps) s

/-- FLOG_COUNT_SELECT (R595): Live write that selects the fault code whose occurrence count FLOG_COUNT shows. -/
def execFlogCountSelect (dt : Nat) (h : Hdr) (instant : Tick) (value : Word) (s : State) :
    Host.Outcome State Fault Refusal :=
  effect dt (hostCommand 0x13 h (liveWriteWords h instant P.flogCountSelect value) noStamps) s

/-- FLOG_ERASE (R595): Live write of 1, accepted in STANDBY and READY only, that starts an erasure of the fault-log
ring and the occurrence counts. -/
def execFlogErase (dt : Nat) (h : Hdr) (instant : Tick) (s : State) : Host.Outcome State Fault Refusal :=
  effect dt (hostCommand 0x13 h (liveWriteWords h instant P.flogErase 1) noStamps) s

/-- FLOG_ERASE_DONE (R595): Completion of a fault-log erasure within 2 s, which writes a KIND 6 record and returns
FLOG_ERASE to 0. -/
def execFlogEraseDone (dt : Nat) (s : State) : Host.Outcome State Fault Refusal :=
  effect dt (awake flogEraseDone) s

/-- OPEN_STAGING (R535): Host command that opens a STAGED epoch as a copy of ACTIVE, CELLAR or the factory epoch, with
a new epoch number. -/
def execOpenStaging (dt : Nat) (r : Req) (s : State) : Host.Outcome State Fault Refusal :=
  effect dt (hostCommand 0x20 r.hdr r.words noStamps) s

/-- COMMIT_EPOCH_AT (R562): Timed host command that validates the STAGED image and schedules it to become ACTIVE at
instant I. -/
def execCommitEpochAt (dt : Nat) (r : Req) (s : State) : Host.Outcome State Fault Refusal :=
  effect dt (hostCommand 0x21 r.hdr r.words noStamps) s

/-- DISCARD_STAGED (R560): Host command that discards the open STAGED epoch. -/
def execDiscardStaged (dt : Nat) (r : Req) (s : State) : Host.Outcome State Fault Refusal :=
  effect dt (hostCommand 0x22 r.hdr r.words noStamps) s

/-- REVERT_EPOCH (R570): Host command, optionally timed, that schedules the exchange of ACTIVE and CELLAR. -/
def execRevertEpoch (dt : Nat) (r : Req) (s : State) : Host.Outcome State Fault Refusal :=
  effect dt (hostCommand 0x23 r.hdr r.words noStamps) s

/-- STAGE_LAUNCH (R78): Host command that writes launch-table entries of one region into the STAGED slot. -/
def execStageLaunch (dt : Nat) (r : Req) (s : State) : Host.Outcome State Fault Refusal :=
  effect dt (hostCommand 0x24 r.hdr r.words noStamps) s

/-- READ_LAUNCH (R78): Host command that reads launch-table entries of one region from the ACTIVE or STAGED slot. -/
def execReadLaunch (dt : Nat) (r : Req) (s : State) : Host.Outcome State Fault Refusal :=
  effect dt (hostCommand 0x25 r.hdr r.words noStamps) s

/-- EPOCH_CONFIRM (R494): Relayed command from the Headstock that confirms or aborts a provisional system-wide commit
at a Tailstock. -/
def execEpochConfirm (dt : Nat) (r : Req) (s : State) : Host.Outcome State Fault Refusal :=
  effect dt (hostCommand 0x26 r.hdr r.words noStamps) s

/-- SET_POWER_STATE (R549): Host command that starts a transition of the power state to the target named. -/
def execSetPowerState (dt : Nat) (r : Req) (s : State) : Host.Outcome State Fault Refusal :=
  effect dt (hostCommand 0x30 r.hdr r.words noStamps) s

/-- TORQUE_SETPOINT (R207): Host command, optionally timed, that sets the torque setpoint of a traction channel and
selects torque mode. -/
def execTorqueSetpoint (dt : Nat) (r : Req) (s : State) : Host.Outcome State Fault Refusal :=
  effect dt (hostCommand 0x40 r.hdr r.words noStamps) s

/-- SPEED_SETPOINT (R207): Host command, optionally timed, that sets the speed setpoint of a traction channel and
selects speed mode. -/
def execSpeedSetpoint (dt : Nat) (r : Req) (s : State) : Host.Outcome State Fault Refusal :=
  effect dt (hostCommand 0x41 r.hdr r.words noStamps) s

/-- LOOP_OPEN (R537): Host command that opens every loop named in its mask. -/
def execLoopOpen (dt : Nat) (r : Req) (s : State) : Host.Outcome State Fault Refusal :=
  effect dt (hostCommand 0x42 r.hdr r.words noStamps) s

/-- LOOP_CLOSE (R537): Host command that closes every loop named in its mask, each under its own rules, all or none.
-/
def execLoopClose (dt : Nat) (r : Req) (s : State) : Host.Outcome State Fault Refusal :=
  effect dt (hostCommand 0x43 r.hdr r.words noStamps) s

/-- SHIFT_REQUEST (R394): Host command, optionally timed, that starts a move of a shift actuator to a gear position.
-/
def execShiftRequest (dt : Nat) (r : Req) (s : State) : Host.Outcome State Fault Refusal :=
  effect dt (hostCommand 0x48 r.hdr r.words noStamps) s

/-- PARK_LOCK (R393): Host command, optionally timed, that engages or releases the park lock through its actuator. -/
def execParkLock (dt : Nat) (r : Req) (s : State) : Host.Outcome State Fault Refusal :=
  effect dt (hostCommand 0x49 r.hdr r.words noStamps) s

/-- CHARGE_START (R327): Host command that sets Iset and Vset, starts the safety timer and enters WAIT_SOURCE. -/
def execChargeStart (dt : Nat) (r : Req) (s : State) : Host.Outcome State Fault Refusal :=
  effect dt (hostCommand 0x60 r.hdr r.words noStamps) s

/-- CHARGE_STOP (R333): Host command that ends a charge session by hand-over or directly to IDLE, according to its
state. -/
def execChargeStop (dt : Nat) (r : Req) (s : State) : Host.Outcome State Fault Refusal :=
  effect dt (hostCommand 0x61 r.hdr r.words noStamps) s

/-- EXPORT_START_AC (R334): EXPORT_START with form 0, which starts AC export by running the DAB backwards and forming
a three-phase voltage. -/
def execExportStartAc (dt : Nat) (h : Hdr) (s : State) : Host.Outcome State Fault Refusal :=
  effect dt (hostCommand 0x62 h [0] noStamps) s

/-- EXPORT_START_DC (R315): EXPORT_START with form 1, which moves the link reference to DO_VREF for the implement DC
outlet. -/
def execExportStartDc (dt : Nat) (h : Hdr) (s : State) : Host.Outcome State Fault Refusal :=
  effect dt (hostCommand 0x62 h [1] noStamps) s

/-- EXPORT_STOP_AC (R335): EXPORT_STOP with form 0, which ends AC export through EXPORT_STOP. -/
def execExportStopAc (dt : Nat) (h : Hdr) (s : State) : Host.Outcome State Fault Refusal :=
  effect dt (hostCommand 0x63 h [0] noStamps) s

/-- EXPORT_STOP_DC (R316): EXPORT_STOP with form 1, which ends DC export and ramps Vref back. -/
def execExportStopDc (dt : Nat) (h : Hdr) (s : State) : Host.Outcome State Fault Refusal :=
  effect dt (hostCommand 0x63 h [1] noStamps) s

/-- MEASURE_TEMP (R539): Host command that measures the diode of one die or of all 46 dies and returns the
temperatures. -/
def execMeasureTemp (dt : Nat) (r : Req) (s : State) : Host.Outcome State Fault Refusal :=
  effect dt (hostCommand 0x70 r.hdr r.words noStamps) s

/-- SELFTEST_SUP (R169): SELFTEST naming SUP, accepted in READY only, which runs logic BIST of the two cores one after
the other. -/
def execSelftestSup (dt : Nat) (h : Hdr) (s : State) : Host.Outcome State Fault Refusal :=
  effect dt (hostCommand 0x71 h [TestTarget.sup.word] noStamps) s

/-- SELFTEST_FABRIC (R137): SELFTEST naming CF0 or CF1, accepted in READY, which runs fabric BIST on the die for at
most 20 ms. -/
def execSelftestFabric (dt : Nat) (h : Hdr) (d : Fin 2) (s : State) : Host.Outcome State Fault Refusal :=
  effect dt (hostCommand 0x71 h [(TestTarget.fabric d).word] noStamps) s

/-- SELFTEST_ISLAND (R367): SELFTEST naming a gate island, which tests its comparators, rail monitors and soft
turn-off sequencer. -/
def execSelftestIsland (dt : Nat) (h : Hdr) (i : Fin 36) (s : State) : Host.Outcome State Fault Refusal :=
  effect dt (hostCommand 0x71 h [(TestTarget.island i).word] noStamps) s

/-- SELFTEST_COMPARATOR_PAIR (R431): SELFTEST naming an AFE comparator pair, which tests the idle twin and exchanges
the roles on a pass. -/
def execSelftestComparatorPair (dt : Nat) (h : Hdr) (a : Fin 2) (k : Fin 32) (s : State) :
    Host.Outcome State Fault Refusal :=
  effect dt (hostCommand 0x71 h [(TestTarget.comparator a k).word] noStamps) s

/-- SELFTEST_DETECTOR_PAIR (R431): SELFTEST naming a short-window detector pair, which tests the idle twin with a test
bit stream. -/
def execSelftestDetectorPair (dt : Nat) (h : Hdr) (a : Fin 2) (i : Fin 4) (s : State) :
    Host.Outcome State Fault Refusal :=
  effect dt (hostCommand 0x71 h [(TestTarget.detector a i).word] noStamps) s

/-- CALIBRATE (R416): Host command that starts a calibration sweep over every healthy slice of one AFE. -/
def execCalibrate (dt : Nat) (r : Req) (s : State) : Host.Outcome State Fault Refusal :=
  effect dt (hostCommand 0x72 r.hdr r.words noStamps) s

/-- READ_FAULTS (R540): Host command that returns active faults from a position on, and clears latched-until-read
faults it reports whose condition has ended. -/
def execReadFaults (dt : Nat) (r : Req) (s : State) : Host.Outcome State Fault Refusal :=
  effect dt (hostCommand 0x73 r.hdr r.words noStamps) s

/-- ACK_FAULTS (R583): Host command that clears the named faults its clearing policy allows, and releases safe
patterns whose conditions are gone. -/
def execAckFaults (dt : Nat) (r : Req) (s : State) : Host.Outcome State Fault Refusal :=
  effect dt (hostCommand 0x74 r.hdr r.words noStamps) s

/-- FILL_MEMORY (R609): Host command, in READY only, that fills a fabric or result-queue block with zero and valid
check bits. -/
def execFillMemory (dt : Nat) (r : Req) (s : State) : Host.Outcome State Fault Refusal :=
  effect dt (hostCommand 0x75 r.hdr r.words noStamps) s

/-- SCRUB_CONTROL (R612): Host command that returns the last completed lap time of a scrubber. -/
def execScrubControl (dt : Nat) (h : Hdr) (sc : Fin 5) (s : State) : Host.Outcome State Fault Refusal :=
  effect dt (hostCommand 0x76 h [pack [(sc.val, 8)]] noStamps) s

/-- SCRUB_RESTART (R612): SCRUB_CONTROL with RESTART 1, which makes the scrubber abandon its lap and start a new one.
-/
def execScrubRestart (dt : Nat) (h : Hdr) (sc : Fin 5) (s : State) : Host.Outcome State Fault Refusal :=
  effect dt (hostCommand 0x76 h [pack [(sc.val, 8), (1, 0)]] noStamps) s

/-- READ_SLACK (R131): Host command that returns the slack records of a run of launch-table entries. -/
def execReadSlack (dt : Nat) (r : Req) (s : State) : Host.Outcome State Fault Refusal :=
  effect dt (hostCommand 0x77 r.hdr r.words noStamps) s

/-- READ_SLACK_CLEAR (R129): READ_SLACK with CLEAR set, which returns the records it read to no record. -/
def execReadSlackClear (dt : Nat) (r : Req) (s : State) : Host.Outcome State Fault Refusal :=
  effect dt (hostCommand 0x77 r.hdr (setClear r.words) noStamps) s

/-- GATE_DIAG (R371): Host command in READY that checks the motor connection of one traction inverter with test
currents and classifies the phases. -/
def execGateDiag (dt : Nat) (r : Req) (s : State) : Host.Outcome State Fault Refusal :=
  effect dt (hostCommand 0x78 r.hdr r.words noStamps) s

/-- ADMIT_TAILSTOCK (R487): Host command, optionally timed, that checks the admission conditions of a node on the
Porch and admits it. -/
def execAdmitTailstock (dt : Nat) (r : Req) (s : State) : Host.Outcome State Fault Refusal :=
  effect dt (hostCommand 0x80 r.hdr r.words noStamps) s

/-- RELEASE_TAILSTOCK (R490): Host command, optionally timed, that zeroes a node's shares and returns it to the Porch
without a fault. -/
def execReleaseTailstock (dt : Nat) (r : Req) (s : State) : Host.Outcome State Fault Refusal :=
  effect dt (hostCommand 0x81 r.hdr r.words noStamps) s

/-- TIME_SYNC (R480): Host command that starts a path-delay measurement of one node or of all nodes. -/
def execTimeSync (dt : Nat) (r : Req) (s : State) : Host.Outcome State Fault Refusal :=
  effect dt (hostCommand 0x82 r.hdr r.words noStamps) s

/-- TIME_SYNC_PROBE (R479): Relayed TIME_SYNC probe to a Tailstock, answered with its receive and send stamps. -/
def execTimeSyncProbe (dt : Nat) (h : Hdr) (t2 : Tick) (t3 : Tick) (s : State) : Host.Outcome State Fault Refusal :=
  effect dt (hostCommand 0x82 h [] { rx := t2, tx := t3 }) s

/-- ALLOCATE_TORQUE (R498): Timed host command that gives each named node its traction A and B torque shares from an
execution instant. -/
def execAllocateTorque (dt : Nat) (r : Req) (s : State) : Host.Outcome State Fault Refusal :=
  effect dt (hostCommand 0x83 r.hdr r.words noStamps) s

/-- RELAY (R541): Host command that forwards an inner packet to a Tailstock over the axle link and returns its reply.
-/
def execRelay (dt : Nat) (r : Req) (s : State) : Host.Outcome State Fault Refusal :=
  effect dt (hostCommand 0x84 r.hdr r.words noStamps) s

/-- DEBUG_ATTACH (R172): Host command, in STANDBY and READY, that connects the debug channel to core 1 and ends
comparison. -/
def execDebugAttach (dt : Nat) (r : Req) (s : State) : Host.Outcome State Fault Refusal :=
  effect dt (hostCommand 0xF0 r.hdr r.words noStamps) s

/-- RESET_DIE (R43): Host command that resets one fabric, AFE, GDC or LGD die together with the far halves of its
crossings. -/
def execResetDie (dt : Nat) (r : Req) (s : State) : Host.Outcome State Fault Refusal :=
  effect dt (hostCommand 0xF1 r.hdr r.words noStamps) s

/-- MODULE_RESTART (R43): RESET_DIE naming SUP, which programs the log buffer, switches off the READY dies and resets
SUP, FL and PHY to STANDBY. -/
def execModuleRestart (dt : Nat) (h : Hdr) (b : Boot) (s : State) : Host.Outcome State Fault Refusal :=
  effect dt (restartCommand h b) s

/-- DIE_RESET_RELEASE (R44): End of a commanded die reset once the die's supply is in tolerance, with the die
re-initialised to READY conditions. -/
def execDieResetRelease (dt : Nat) (d : Fin 46) (s : State) : Host.Outcome State Fault Refusal :=
  effect dt (awake (dieResetRelease d)) s

/-- PACKET_RECEIVED (R517): A complete packet taken by the interpreter, which checks CRC, length, version and opcode
before executing it. -/
def execPacketReceived (dt : Nat) (t : Transport) (sender : Nat) (via : Via) (fromHead : Bool) (words : List Word)
    (stamps : Stamps) (s : State) :
    Host.Outcome State Fault Refusal :=
  effect dt (packetWords
    { transport := t, sender := sender, fromHead := fromHead, words := words, stamps := stamps, via := via }) s

/-- PACKET_UNDECODABLE (R516): A received byte sequence that cannot be decoded, counted and not answered. -/
def execPacketUndecodable (dt : Nat) (s : State) : Host.Outcome State Fault Refusal :=
  effect dt (awake (onDie 0 countUndecodable)) s

/-- TRANSPORT_QUEUE_FULL (R524): A packet completed on a transport already holding 16 waiting packets, answered at
once with BUSY. -/
def execTransportQueueFull (dt : Nat) (t : Transport) (sender : Nat) (via : Via) (fromHead : Bool) (words : List Word)
    (stamps : Stamps) (s : State) :
    Host.Outcome State Fault Refusal :=
  effect dt (queueFull
    { transport := t, sender := sender, fromHead := fromHead, words := words, stamps := stamps, via := via }) s

/-- SEGMENT_FRAME (R521): A CN1 or axle-link frame carrying part of a Cerol packet, added to or discarding the open
reassembly. -/
def execSegmentFrame (dt : Nat) (t : Transport) (sender : Nat) (via : Via) (fromHead : Bool) (bytes : List Byte)
    (stamps : Stamps) (s : State) :
    Host.Outcome State Fault Refusal :=
  effect dt (segmentFrame t sender via fromHead bytes stamps) s

/-- SEGMENT_TIMEOUT (R521): More than 10 ms between two frames of one packet, which discards the reassembly. -/
def execSegmentTimeout (dt : Nat) (s : State) : Host.Outcome State Fault Refusal :=
  effect dt (awake segmentTimeout) s

/-- SV_FRAME (R522): A serial frame between two 0xC0 bytes on SV, un-escaped into one packet. -/
def execSvFrame (dt : Nat) (bytes : List Byte) (s : State) : Host.Outcome State Fault Refusal :=
  effect dt (svFrame bytes) s

/-- REPLY_SEND (R515): The reply of a command that waited for hardware leaves once its result is ready. -/
def execReplySend (dt : Nat) (i : Nat) (s : State) : Host.Outcome State Fault Refusal :=
  effect dt (awake (replySend i)) s

/-- TIMED_COMMAND_DUE (R528): The instant of a pending timed command is reached; its state checks are made again and
it takes effect or is dropped. -/
def execTimedCommandDue (dt : Nat) (s : State) : Host.Outcome State Fault Refusal :=
  effect dt (awake timedDue) s

end Sys2Proof.Machine
end

