-- ==== Sys2Proof/Machine/DriveRows.lean ====
section
/-!
DEFINITION. Meanings: the events of traction, chopper, feedback, converter and charger (R175 … R344).
-/

namespace Sys2Proof.Machine

/-- FLYING_START (R236): Observation, synchronisation and direction decision of a STARTING loop, ending in CLOSED. -/
def execFlyingStart (dt : Nat) (c : Fin 2) (s : State) : Host.Outcome State Fault Refusal :=
  effect dt (onRegion (channelRegion c) (flyingStart c)) s

/-- TR_PLAUS_DWELL_EXPIRY (R219): A traction plausibility quantity stays outside its envelope longer than its dwell
and raises its class A fault. -/
def execTrPlausDwellExpiry (dt : Nat) (c : Fin 2) (k : TrCheck) (s : State) :
    Host.Outcome State Fault Refusal :=
  effect dt (onRegion (channelRegion c) (plausFault c k)) s

/-- PRESELECT_UPDATE (R250): The supervisor writes each traction inverter's pre-selected pattern every 20,000 ticks.
-/
def execPreselectUpdate (dt : Nat) (s : State) : Host.Outcome State Fault Refusal :=
  effect dt (awake preselectAll) s

/-- ISLAND_HEALTH_CHANGE (R250): A change of island health makes the supervisor rewrite the pre-selected pattern
within 2 µs. -/
def execIslandHealthChange (dt : Nat) (i : Fin 36) (s : State) : Host.Outcome State Fault Refusal :=
  effect dt (awake (preselectFor i)) s

/-- PATTERN_REEVALUATION (R251): Every 20,000 ticks under a safe pattern the supervisor re-evaluates the traction
pattern choice. -/
def execPatternReevaluation (dt : Nat) (c : Fin 2) (s : State) : Host.Outcome State Fault Refusal :=
  effect dt (awake (reevaluate c)) s

/-- PATTERN_WRITE_TO_REGION (R186): The supervisor writes the pattern in force into the region within 2 µs of each
change. -/
def execPatternWriteToRegion (dt : Nat) (c : Fin 2) (s : State) : Host.Outcome State Fault Refusal :=
  effect dt (onRegion (channelRegion c) (writePattern c)) s

/-- CHOPPER_PERIOD (R240): A chopper period begins, with one switch conducting for the committed duty. -/
def execChopperPeriod (dt : Nat) (vdc : Word) (current : Option Word) (s : State) : Host.Outcome State Fault Refusal :=
  effect dt (onGdc (chopperPeriod vdc current)) s

/-- CH_SWITCH_SHORT (R242): Chopper current above CH_SHORT_CURRENT for CH_SHORT_DWELL with both switches off fails the
chopper. -/
def execChSwitchShort (dt : Nat) (s : State) : Host.Outcome State Fault Refusal :=
  effect dt (onGdc chopperShort) s

/-- CHOPPER_BACKSTOP (R245): The GDC runs the chopper from the DCL_OV2 comparator while the converter is in a safe
pattern. -/
def execChopperBackstop (dt : Nat) (s : State) : Host.Outcome State Fault Refusal :=
  effect dt (onGdc chopperBackstop) s

/-- DCL_OV1 (R247): Vdc reaching DCL_OV1 raises a class B fault and forbids regeneration. -/
def execDclOv1 (dt : Nat) (s : State) : Host.Outcome State Fault Refusal :=
  effect dt (awake dclOv1) s

/-- DCL_OV2 (R248): Vdc reaching DCL_OV2 in the fabric or on the twin comparators raises a class A fault and sets
patterns. -/
def execDclOv2 (dt : Nat) (s : State) : Host.Outcome State Fault Refusal :=
  effect dt (awake dclOv2) s

/-- FB_EDGE (R269): A filtered quadrature or Hall transition is counted or rejected by the decoder. -/
def execFbEdge (dt : Nat) (p : Fin 6) (e : PortEdge) (held : Nat) (s : State) : Host.Outcome State Fault Refusal :=
  effect dt (onLines p (fbEdge p e held)) s

/-- FB_INDEX (R270): A rising Z edge is accepted as an index and corrects the count or raises FB_INDEX_DEVIATION. -/
def execFbIndex (dt : Nat) (p : Fin 6) (aHigh : Bool) (bHigh : Bool) (held : Nat) (s : State) : Host.Outcome State Fault Refusal :=
  effect dt (onPort p (fbIndex p aHigh bHigh held)) s

/-- FB_HALL_INVALID (R273): A Hall state of 0 or 7 lasting FB_HALL_INVALID_DWELL raises a class B fault. -/
def execFbHallInvalid (dt : Nat) (p : Fin 6) (s : State) : Host.Outcome State Fault Refusal :=
  effect dt (onPort p (fbHallInvalid p)) s

/-- SSI_FRAME (R276): The port starts an SSI frame every FB_SSI_INTERVAL and processes the received word. -/
def execSsiFrame (dt : Nat) (p : Fin 6) (w : Word) (lineBad : Bool) (s : State) : Host.Outcome State Fault Refusal :=
  effect dt (onPort p (ssiFrame p w lineBad)) s

/-- FB_STANDSTILL_TIMEOUT (R279): No edge for FB_STANDSTILL_TIMEOUT sets the speed to 0. -/
def execFbStandstillTimeout (dt : Nat) (p : Fin 6) (s : State) : Host.Outcome State Fault Refusal :=
  effect dt (onGdc (fbStandstill p)) s

/-- FB_LINE_BREAK (R281): A used feedback line breaks and position or speed become invalid. -/
def execFbLineBreak (dt : Nat) (p : Fin 6) (l : Fin 5) (s : State) : Host.Outcome State Fault Refusal :=
  effect dt (onLines p (lineBreak p l)) s

/-- FB_EP_OVERRUN (R287): The regenerated encoder output lags the decoded angle by more than 16 counts. -/
def execFbEpOverrun (dt : Nat) (p : Fin 2) (s : State) : Host.Outcome State Fault Refusal :=
  effect dt (onGdc (epOverrun p)) s

/-- CONVERTER_CYCLE_START (R306): A converter leg begins a switching cycle with its low side on and loads its new
threshold and ramp. -/
def execConverterCycleStart (dt : Nat) (j : Fin 4) (s : State) : Host.Outcome State Fault Refusal :=
  effect dt (onGdc (legCycle j)) s

/-- DI_COMPARATOR_TRIP (R427): A DI regulation comparator trips and the GDC ends the low-side on-time on the next
tick. -/
def execDiComparatorTrip (dt : Nat) (j : Fin 4) (levels : List Word) (s : State) : Host.Outcome State Fault Refusal :=
  effect dt (onGdc (legTrip j levels)) s

/-- DUTY_MAX_END (R306): The GDC ends a converter on-time at CV_DUTY_MAX when the comparator has not tripped. -/
def execDutyMaxEnd (dt : Nat) (j : Fin 4) (s : State) : Host.Outcome State Fault Refusal :=
  effect dt (onGdc (dutyMaxEnd j)) s

/-- PRECHARGE_COMPLETE (R311): The link has held its reference within tolerance for 400,000 ticks and PRECHARGED is
set. -/
def execPrechargeComplete (dt : Nat) (s : State) : Host.Outcome State Fault Refusal :=
  effect dt (awake prechargeComplete) s

/-- CV_PRECHARGE_FAIL (R311): Precharge not complete within CV_PRECHARGE_TIMEOUT opens the loops and abandons the
transition. -/
def execCvPrechargeFail (dt : Nat) (s : State) : Host.Outcome State Fault Refusal :=
  effect dt (awake prechargeFail) s

/-- DC_EXPORT_END (R316): DC export ends on HVIL opening, overload, overcurrent, voltage error or low headroom. -/
def execDcExportEnd (dt : Nat) (k : OutletEnd) (s : State) : Host.Outcome State Fault Refusal :=
  effect dt (awake (dcExportEnd k)) s

/-- PILOT_CLASSIFY (R322): Each 1 ms the control pilot level and duty are classified into a state. -/
def execPilotClassify (dt : Nat) (p : PilotLine) (s : State) : Host.Outcome State Fault Refusal :=
  effect dt (awake (pilotClassify p)) s

/-- PROXIMITY_CLASSIFY (R324): Each 10 ms the proximity resistance is classified into a cable rating. -/
def execProximityClassify (dt : Nat) (resistance : Word) (s : State) : Host.Outcome State Fault Refusal :=
  effect dt (awake (proximityClassify resistance)) s

/-- SOURCE_LOST (R326): A source condition failing for 20 ms, or Vbus falling too far, marks the charging source lost.
-/
def execSourceLost (dt : Nat) (s : State) : Host.Outcome State Fault Refusal :=
  effect dt (awake sourceLost) s

/-- CH_STATE_EVALUATION (R328): Every 1 ms the charge state machine advances its session state. -/
def execChStateEvaluation (dt : Nat) (s : State) : Host.Outcome State Fault Refusal :=
  effect dt (awake chEvaluate) s

/-- CV_CG_PLAUS_DWELL_EXPIRY (R336): A converter or charger plausibility check stays outside its envelope longer than
its dwell. -/
def execCvCgPlausDwellExpiry (dt : Nat) (k : CvCheck) (s : State) : Host.Outcome State Fault Refusal :=
  effect dt (awake (cvFault k)) s

end Sys2Proof.Machine
end

