-- ==== Sys2Proof/Machine/FabricRows.lean ====
section
/-!
DEFINITION. Meanings: the events of the control fabric, the redundancy and the Spindle (R61 … R174).
-/

namespace Sys2Proof.Machine

/-- PERIOD_BOUNDARY (R68): A control-period boundary of a region, at which loop-state, setpoint, throttle and epoch
changes take effect. -/
def execPeriodBoundary (dt : Nat) (n : Fin 8) (s : State) : Host.Outcome State Fault Refusal :=
  effect dt (awake (periodBoundary n)) s

/-- LAUNCH (R71): The region tap starts a launch-table entry at its launch instant on the clusters of its mask. -/
def execLaunch (dt : Nat) (n : Fin 8) (e : Fin 512) (s : State) : Host.Outcome State Fault Refusal :=
  effect dt (onRegion n (launch n e.val)) s

/-- SAMPLE_WORD_ARRIVAL (R79): A sample-ring word crosses into a fabric region, so that waiting passes can continue.
-/
def execSampleWordArrival (dt : Nat) (a : Fin 2) (d : Fin 2) (s : State) : Host.Outcome State Fault Refusal :=
  effect dt (awake (sampleWordArrival a d)) s

/-- LANE_COMPLETE (R104): A run-ahead lane signals to the collector that its branch is fully written. -/
def execLaneComplete (dt : Nat) (n : Fin 8) (unit : Fin 16) (entry : Nat) (second : Bool) (branch : Nat) (s : State) :
    Host.Outcome State Fault Refusal :=
  effect dt (onRegion n (laneComplete n unit entry second branch)) s

/-- RESOLVE_KEY (R105): After its input samples arrive, a pass delivers a resolve key naming the matching lane or a
miss. -/
def execResolveKey (dt : Nat) (n : Fin 8) (unit : Fin 16) (entry : Nat) (second : Bool) (key : Fin 32) (s : State) :
    Host.Outcome State Fault Refusal :=
  effect dt (onRegion n (resolveKey n unit entry second key)) s

/-- COLLECTOR_ACCEPT (R111): The collector accepts an arrival on one of its inputs and gives it an acceptance tick. -/
def execCollectorAccept (dt : Nat) (n : Fin 8) (moments : List (List (Nat × Bool))) (upsets : List (Nat × Nat × Word))
    (s : State) : Host.Outcome State Fault Refusal :=
  effect dt (onRegion n (collectorAccept n moments upsets)) s

/-- COMMIT_INSTANT (R113): At an applicable commit instant the collector gives each instance one outcome: clean
commit, fallback, deferral or quench fallback. -/
def execCommitInstant (dt : Nat) (n : Fin 8) (s : State) : Host.Outcome State Fault Refusal :=
  effect dt (onRegion n (evaluate n false)) s

/-- DEFERRED_COMMIT (R106): A deferred run-ahead instance is evaluated at its commit instant plus DEFER. -/
def execDeferredCommit (dt : Nat) (n : Fin 8) (s : State) : Host.Outcome State Fault Refusal :=
  effect dt (onRegion n (evaluate n true)) s

/-- FABRIC_UNIT_STUCK (R100): A unit not idle 16 ticks after a quench marks its cluster failed and raises a class A
fault. -/
def execFabricUnitStuck (dt : Nat) (n : Fin 8) (u : Fin 16) (s : State) : Host.Outcome State Fault Refusal :=
  effect dt (onRegion n (unitStuck n u)) s

/-- FABRIC_FALLBACK_RATE (R125): A region's fallback count in a 400,000,000-tick window exceeds FALLBACK_RATE_LIMIT.
-/
def execFabricFallbackRate (dt : Nat) (n : Fin 8) (s : State) : Host.Outcome State Fault Refusal :=
  effect dt (onRegion n (checkRate n)) s

/-- COUNT_WINDOW_END (R125): A 400,000,000-tick counting window ends at a Spindle count divisible by 400,000,000 and
the window counts restart. -/
def execCountWindowEnd (dt : Nat) (s : State) : Host.Outcome State Fault Refusal :=
  effect dt (awake windowBegin) s

/-- FABRIC_CHECKPOINT_ERROR (R122): An uncorrectable error in the checkpoint shadow clears CHECKPOINT_VALID and raises
a class A fault. -/
def execFabricCheckpointError (dt : Nat) (n : Fin 8) (s : State) : Host.Outcome State Fault Refusal :=
  effect dt (onRegion n (checkpointError n)) s

/-- CHECKPOINT_REBUILT (R122): The rebuild of the checkpoint shadow completes within 1 ms and CHECKPOINT_VALID is set
again. -/
def execCheckpointRebuilt (dt : Nat) (n : Fin 8) (s : State) : Host.Outcome State Fault Refusal :=
  effect dt (onRegion n (checkpointRebuilt n)) s

/-- FABRIC_BIST_DONE (R137): Completion of fabric BIST, which sets DIE_STATUS.BIST and marks failing clusters. -/
def execFabricBistDone (dt : Nat) (d : Fin 2) (failed : Nat) (s : State) : Host.Outcome State Fault Refusal :=
  effect dt (awake (fabricBistDone d failed)) s

/-- SUP_BIST_DONE (R169): Completion of supervisor logic BIST, which resumes lockstep and reports the result. -/
def execSupBistDone (dt : Nat) (core : Bool) (main : Bool) (fallback : Bool) (parity : Bool) (s : State) :
    Host.Outcome State Fault Refusal :=
  effect dt (awake (supBistDone core main fallback parity)) s

/-- XING_EVENT_OVERFLOW (R83): A transferred event-line overflow bit sets OVERFLOW and raises a class C fault. -/
def execXingEventOverflow (dt : Nat) (i : Fin 22) (s : State) : Host.Outcome State Fault Refusal :=
  effect dt (eventOverflow i) s

/-- CROSSING_STALL_TIMEOUT (R85): A supervisor access into a domain that stopped ends 4,000 ticks after it began and
the command is refused with DOMAIN_STOPPED. -/
def execCrossingStallTimeout (dt : Nat) (d : Fin 46) (s : State) : Host.Outcome State Fault Refusal :=
  effect dt (awake (stallTimeoutDrain d)) s

/-- SPINDLE_TS_REF_LOST (R66): The TS reference becomes faulty and the PLL changes phase-continuously to the crystal.
-/
def execSpindleTsRefLost (dt : Nat) (s : State) : Host.Outcome State Fault Refusal :=
  effect dt tsRefLost s

/-- SPINDLE_REF_LOST (R66): The crystal reference in use becomes faulty; the PLL goes to holdover and every power
function to its safe pattern. -/
def execSpindleRefLost (dt : Nat) (s : State) : Host.Outcome State Fault Refusal :=
  effect dt xtalLost s

/-- SPINDLE_LOST (R66): The Spindle leaves ±0.5 % of 400 MHz; the count is marked invalid and no launch or commit
takes place. -/
def execSpindleLost (dt : Nat) (s : State) : Host.Outcome State Fault Refusal :=
  effect dt spindleLost s

/-- LOCKSTEP_CHECKPOINT (R163): The safety pair tests its comparators and delay registers and saves a checkpoint every
5 µs or when a log fills. -/
def execLockstepCheckpoint (dt : Nat) (main : Bool) (fallback : Bool) (parity : Bool) (ran : List Retirement)
    (s : State) : Host.Outcome State Fault Refusal :=
  effect dt (awake (checkpointDrain main fallback parity ran)) s

/-- LOCKSTEP_MISMATCH (R165): A main or fall-back comparator mismatch or delay parity error stops both cores and
reloads the last checkpoint. -/
def execLockstepMismatch (dt : Nat) (ran : List Retirement) (s : State) : Host.Outcome State Fault Refusal :=
  effect dt (awake (mismatchDrain ran)) s

/-- SUP_LOCKSTEP_LOST (R166): A failed retry requests every safe pattern through crossing 4 and leaves core 0 alone.
-/
def execSupLockstepLost (dt : Nat) (ran : List Retirement) (s : State) : Host.Outcome State Fault Refusal :=
  effect dt (awake (retryFailedDrain ran)) s

end Sys2Proof.Machine
end

