-- ==== Sys2Proof/Machine/GateRows.lean ====
section
/-!
DEFINITION. Meanings: the events of the gate islands, the actuators and the analog front ends (R345 … R439).
-/

namespace Sys2Proof.Machine

/-- ISLAND_FRAME (R353): An island receives a frame; a frame failing its check turns the output off until a good one.
-/
def execIslandFrame (dt : Nat) (i : Fin 36) (good : Bool) (s : State) : Host.Outcome State Fault Refusal :=
  effect dt (awake (islandFrame i good)) s

/-- ISLAND_STATUS_FRAME (R364): The GDC receives an island status frame and acts on a reported latched fault. -/
def execIslandStatusFrame (dt : Nat) (i : Fin 36) (good : Bool) (s : State) : Host.Outcome State Fault Refusal :=
  effect dt (awake (islandStatusFrame i good)) s

/-- GD_LINK_LOST (R354): No good frame for 1,200 ticks turns an island off and latches GD_LINK_LOST. -/
def execGdLinkLost (dt : Nat) (i : Fin 36) (atGdc : Bool) (s : State) : Host.Outcome State Fault Refusal :=
  effect dt (awake (linkLost i atGdc)) s

/-- EN_FALL (R355): A valid low of EN turns every island and LGD output off and sets PATTERN_OFF on every function. -/
def execEnFall (dt : Nat) (s : State) : Host.Outcome State Fault Refusal :=
  effect dt enFallen s

/-- EN_RISE (R357): A rising EN edge after a low of at least 10 µs clears eligible latched island faults. -/
def execEnRise (dt : Nat) (s : State) : Host.Outcome State Fault Refusal :=
  effect dt enRise s

/-- GD_UVLO (R359): An island rail leaving its threshold pulls the gate off and latches GD_UVLO_POS or GD_UVLO_NEG. -/
def execGdUvlo (dt : Nat) (i : Fin 36) (pos : Bool) (s : State) : Host.Outcome State Fault Refusal :=
  effect dt (onIsland i (uvlo i pos)) s

/-- ISLAND_RAIL_TIMEOUT (R360): An island rail not in tolerance 20 ms after entry to READY latches its UVLO fault. -/
def execIslandRailTimeout (dt : Nat) (i : Fin 36) (s : State) : Host.Outcome State Fault Refusal :=
  effect dt (onIsland i (railTimeout i)) s

/-- GD_DESAT (R361): Desaturation above threshold for 40 ticks trips the island into its soft turn-off. -/
def execGdDesat (dt : Nat) (i : Fin 36) (s : State) : Host.Outcome State Fault Refusal :=
  effect dt (onIsland i (desat i)) s

/-- GD_HARD_SHORT (R362): The unblanked hard-short comparator trips the island into its soft turn-off. -/
def execGdHardShort (dt : Nat) (i : Fin 36) (s : State) : Host.Outcome State Fault Refusal :=
  effect dt (onIsland i (hardShort i)) s

/-- SOFT_TURN_OFF_STAGE (R363): A stage of the island's soft turn-off ends after its time and the next begins. -/
def execSoftTurnOffStage (dt : Nat) (i : Fin 36) (s : State) : Host.Outcome State Fault Refusal :=
  effect dt (onIsland i (softStage i)) s

/-- ISLAND_SELFTEST_DONE (R367): An island self-test completes within 50 µs and replies with its result. -/
def execIslandSelftestDone (dt : Nat) (desat : Bool) (hard : Bool) (pos : Bool) (neg : Bool) (sto : Bool) (s : State)
    :
    Host.Outcome State Fault Refusal :=
  effect dt (onGdc (islandSelftestDone desat hard pos neg sto)) s

/-- GATE_DIAG_STEP (R371): A 5 ms measurement step of GATE_DIAG ends and the phase nodes are measured. -/
def execGateDiagStep (dt : Nat) (u : Word) (v : Word) (w : Word) (s : State) : Host.Outcome State Fault Refusal :=
  effect dt (onGdc (gateDiagStep u v w)) s

/-- HALL_COMMUTATION (R382): A change of an actuator's Hall state changes its bridge legs on the tick it is decoded.
-/
def execHallCommutation (dt : Nat) (a : Fin 4) (s : State) : Host.Outcome State Fault Refusal :=
  effect dt (onGdc (commutate a)) s

/-- ACTUATOR_CARRIER_VALLEY (R383): At an actuator carrier valley a committed demand takes effect and the shunts are
sampled. -/
def execActuatorCarrierValley (dt : Nat) (a : Fin 4) (iu : Word) (iv : Word) (iw : Word) (vax : Word) (s : State) :
    Host.Outcome State Fault Refusal :=
  effect dt (awake (carrierValley a iu iv iw vax)) s

/-- AX_BOOT_UVLO (R385): A bootstrap supply below 7.5 V turns the high side off and raises a class A fault. -/
def execAxBootUvlo (dt : Nat) (a : Fin 4) (leg : Fin 3) (s : State) : Host.Outcome State Fault Refusal :=
  effect dt (awake (bootUvlo a leg)) s

/-- AX_POSITION_LOST (R389): A Hall fault or jump clears the homed state, opens the loop and raises a class B fault.
-/
def execAxPositionLost (dt : Nat) (a : Fin 4) (s : State) : Host.Outcome State Fault Refusal :=
  effect dt (awake (axPositionLost a)) s

/-- HOMING_STALL (R390): No Hall edge for AX_STALL_TIME during homing sets H0 and homes the actuator. -/
def execHomingStall (dt : Nat) (a : Fin 4) (s : State) : Host.Outcome State Fault Refusal :=
  effect dt (awake (homingStall a)) s

/-- AX_MOVE_TIMEOUT (R394): A move, torque wait or homing not complete within its time limit stops and raises a class
B fault. -/
def execAxMoveTimeout (dt : Nat) (a : Fin 4) (s : State) : Host.Outcome State Fault Refusal :=
  effect dt (awake (axMoveTimeout a)) s

/-- MOVE_COMPLETE (R394): Position within AX_POS_TOL for AX_SETTLE completes a move and clears CLAMP. -/
def execMoveComplete (dt : Nat) (a : Fin 4) (s : State) : Host.Outcome State Fault Refusal :=
  effect dt (awake (moveComplete a)) s

/-- AFE_TRIGGER (R405): An AFE trigger fires and samples its SAR inputs, captures and sigma-delta windows. -/
def execAfeTrigger (dt : Nat) (a : Fin 2) (t : Fin 64) (sar pv : List (BitVec 16)) (sd : List Nat)
    (s : State) :
    Host.Outcome State Fault Refusal :=
  effect dt (awake (fireTrigger a t sar pv sd)) s

/-- QUEUE_ENTRY (R406): All words of a trigger enter the result queue on its entry tick in fixed order. -/
def execQueueEntry (dt : Nat) (a : Fin 2) (s : State) : Host.Outcome State Fault Refusal :=
  effect dt (awake (queueEntry a)) s

/-- SLICE_ROTATION (R413): Every AFE_ROTATE_INTERVAL a calibrated spare takes over an active slice position. -/
def execSliceRotation (dt : Nat) (a : Fin 2) (s : State) : Host.Outcome State Fault Refusal :=
  effect dt (awake (sliceRotation a)) s

/-- SLICE_CALIBRATION_DONE (R414): A spare slice completes calibration, or is marked failed. -/
def execSliceCalibrationDone (dt : Nat) (a : Fin 2) (i : Fin 20) (gain offset inl : Word) (s : State) :
    Host.Outcome State Fault Refusal :=
  effect dt (awake (sliceCalibrated a i gain offset inl)) s

/-- AFE_SD_LOST (R420): A modulator data bit constant for 64 clock periods marks the input lost. -/
def execAfeSdLost (dt : Nat) (a : Fin 2) (i : Fin 4) (s : State) : Host.Outcome State Fault Refusal :=
  effect dt (awake (sdLost a i)) s

/-- SD_DETECTOR_TRIP (R421): A short-window detector trips and sets the function's pattern over the protection path.
-/
def execSdDetectorTrip (dt : Nat) (a : Fin 2) (k : Fin 8) (window : Nat) (s : State) :
    Host.Outcome State Fault Refusal :=
  effect dt (awake (detectorTrip a k window)) s

/-- PROTECTION_COMPARATOR_TRIP (R430): A protection comparator completes a trip decision and the GDC sets the pattern
within 4 ticks. -/
def execProtectionComparatorTrip (dt : Nat) (a : Fin 2) (k : Fin 32) (levels : List Word) (s : State) :
    Host.Outcome State Fault Refusal :=
  effect dt (awake (comparatorTrip a k levels)) s

/-- COMPARATOR_RELEASE (R422): A comparator or detector completes a release decision. -/
def execComparatorRelease (dt : Nat) (a : Fin 2) (k : MemberId) (levels : List Word) (window : Nat)
    (s : State) : Host.Outcome State Fault Refusal :=
  effect dt (awake (memberRelease a levels window k)) s

/-- TWIN_TEST_DONE (R431): The idle-twin test ends and the roles are exchanged after the ORed window, or the twin is
marked failed. -/
def execTwinTestDone (dt : Nat) (a : Fin 2) (reads : List Bool) (s : State) :
    Host.Outcome State Fault Refusal :=
  effect dt (awake (twinTestDone a reads)) s

end Sys2Proof.Machine
end

