-- ==== Sys2Proof/Machine/ModuleRows.lean ====
section
/-!
DEFINITION. Meanings: the events of epochs, power, faults, memory, temperature and ports (R547 … R657).
-/

namespace Sys2Proof.Machine

/-- EPOCH_SWITCH (R566): At I the ACTIVE epoch number and slot roles change, and settings used by no region take
effect. -/
def execEpochSwitch (dt : Nat) (head : Option Word) (s : State) : Host.Outcome State Fault Refusal :=
  effect dt (awake (epochSwitch head)) s

/-- EPOCH_FLASH_DONE (R567): Programming of the STAGED image completes and the role record is written. -/
def execEpochFlashDone (dt : Nat) (s : State) : Host.Outcome State Fault Refusal :=
  effect dt (onFlash flashDone) s

/-- EPOCH_FLASH_FAIL (R567): Programming of an image into flash fails and raises a class B fault. -/
def execEpochFlashFail (dt : Nat) (s : State) : Host.Outcome State Fault Refusal :=
  effect dt (awake flashFail) s

/-- PWR_TRANSITION_FAIL (R551): A transition is abandoned, undone in reverse order, and raises a class B fault. -/
def execPwrTransitionFail (dt : Nat) (s : State) : Host.Outcome State Fault Refusal :=
  effect dt (awake transitionFail) s

/-- START_UP (R553): LVIN coming into tolerance, or a wake, starts the module through the boot steps to STANDBY. -/
def execStartUp (dt : Nat) (b : Boot) (lvin : Word) (s : State) : Host.Outcome State Fault Refusal :=
  effect dt (startUp b lvin) s

/-- LVIN_LOST (R555): LVIN leaves tolerance with HVAUX in range; the module holds up from HVAUX and sets every safe
pattern. -/
def execLvinLost (dt : Nat) (lvin : Word) (s : State) : Host.Outcome State Fault Refusal :=
  effect dt (lvinLost lvin) s

/-- LVIN_RETURN (R638): LVIN returns to tolerance during hold-up and the module returns to LVIN. -/
def execLvinReturn (dt : Nat) (lvin : Word) (s : State) : Host.Outcome State Fault Refusal :=
  effect dt (lvinReturn lvin) s

/-- HVAUX_LOST (R639): HVAUX leaves range while LVIN is out of tolerance; the log is programmed and the module goes
OFF. -/
def execHvauxLost (dt : Nat) (hvaux : Word) (s : State) : Host.Outcome State Fault Refusal :=
  effect dt (hvauxLost hvaux) s

/-- HVIL_CHANGE (R642): The filtered HVIL return current changes the loop decision between open and closed. -/
def execHvilChange (dt : Nat) (current : Word) (s : State) : Host.Outcome State Fault Refusal :=
  effect dt (hvilChange current) s

/-- FB_SUPPLY_LIMIT (R630): An encoder, Hall or modulator supply goes into current limit and its lines report a break.
-/
def execFbSupplyLimit (dt : Nat) (p : PortSupply) (s : State) : Host.Outcome State Fault Refusal :=
  effect dt (awake (supplyLimit p)) s

/-- SV_RATE_CHANGE (R649): After a SUP throttle change the SV rate changes at the first idle line. -/
def execSvRateChange (dt : Nat) (s : State) : Host.Outcome State Fault Refusal :=
  effect dt (awake svRateChange) s

/-- PATTERN_VERIFY (R582): The supervisor checks each pattern in force against island output states every 20,000
ticks. -/
def execPatternVerify (dt : Nat) (i : Fin 36) (on : Bool) (s : State) : Host.Outcome State Fault Refusal :=
  effect dt (awake (patternVerify i on)) s

/-- FAULT_RAISED (R575): A fault is raised, entered in the active table and logged, and its class reaction applied. -/
def execFaultRaised (dt : Nat) (code : Nat) (detail : Nat) (cond : Bool) (s : State) :
    Host.Outcome State Fault Refusal :=
  effect dt (faultRaised code detail cond) s

/-- FLOG_PROGRAM (R593): Records in the write buffer are programmed into FL within 100 ms. -/
def execFlogProgram (dt : Nat) (ok : Bool) (s : State) : Host.Outcome State Fault Refusal :=
  effect dt (onFlash (flogProgram ok)) s

/-- TWIN_TEST_OVERDUE (R596): A pair's last passing self-test is older than SAFETY_TWIN_TEST_INTERVAL. -/
def execTwinTestOverdue (dt : Nat) (a : Fin 2) (detector : Bool) (pair : Nat) (s : State) :
    Host.Outcome State Fault Refusal :=
  effect dt (awake (twinOverdue a detector pair)) s

/-- MEMORY_READ_ERROR (R603): A read finds a word with correctable or uncorrectable errors and corrects or handles it.
-/
def execMemoryReadError (dt : Nat) (block : Nat) (addr : Nat) (bad : Bool) (scrub : Bool) (entry : Nat) (s : State) :
    Host.Outcome State Fault Refusal :=
  effect dt (awake (readErrorDrain block addr bad scrub entry)) s

/-- SCRUB_TICK (R610): A scrubber reads its next word in an idle handshake slot. -/
def execScrubTick (dt : Nat) (sc : Fin 5) (s : State) : Host.Outcome State Fault Refusal :=
  effect dt (awake (scrub sc)) s

/-- MEM_SCRUB_LAP (R611): A lap longer than MEM_SCRUB_LAP_LIMIT_s raises a class B fault. -/
def execMemScrubLap (dt : Nat) (sc : Fin 5) (s : State) : Host.Outcome State Fault Refusal :=
  effect dt (awake (scrubLap sc)) s

/-- FILL_DONE (R609): A memory fill completes and the region restarts at its next boundary. -/
def execFillDone (dt : Nat) (d : Fin 46) (s : State) : Host.Outcome State Fault Refusal :=
  effect dt (awake (fillDone d)) s

/-- TEMP_MEASUREMENT (R613): The supervisor measures a die diode at two currents and records its temperature. -/
def execTempMeasurement (dt : Nat) (d : Fin 46) (v10 : Word) (v100 : Word) (temp : Word) (s : State) :
    Host.Outcome State Fault Refusal :=
  effect dt (awake (tempMeasured d v10 v100 temp)) s

/-- THERM_STALE (R616): A die's last measurement older than THERM_STALE_LIMIT raises a class B fault. -/
def execThermStale (dt : Nat) (d : Fin 46) (s : State) : Host.Outcome State Fault Refusal :=
  effect dt (awake (thermStale d)) s

/-- POWER_TRANSITION_PROGRESS (R551): A step of an accepted power-state transition completes at a later moment (island
rails in tolerance or 20 ms, the next count divisible by 4,000, a stop sequence done, a die switched off) and the next
step or the new label follows. -/
def execPowerTransitionProgress (dt : Nat) (b : Boot) (s : State) : Host.Outcome State Fault Refusal :=
  effect dt (awake (powerProgress b)) s

/-- HVAUX_RETURN (R637): HVAUX comes into its 250 V … 950 V range, sets HVAUX_OK and starts charging the hold-up
store. -/
def execHvauxReturn (dt : Nat) (hvaux : Word) (s : State) : Host.Outcome State Fault Refusal :=
  effect dt (hvauxReturn hvaux) s

/-- HOLDUP_STORE_CHARGED (R637): The internal hold-up store finishes charging from HVAUX and PORT_STATUS.HOLDUP_STORE
is set. -/
def execHoldupStoreCharged (dt : Nat) (s : State) : Host.Outcome State Fault Refusal :=
  effect dt holdupCharged s

/-- DIE_SUPPLY_CHANGE (R23): A die's rail leaves or returns into tolerance, as DIE_STATUS.SUPPLY shows, acting on that
die and its crossings. -/
def execDieSupplyChange (dt : Nat) (d : Fin 46) (ok : Bool) (s : State) : Host.Outcome State Fault Refusal :=
  effect dt (awake (dieSupply d ok)) s

/-- REFERENCE_RECOVERY (R66): A faulty TS reference input becomes healthy again, which ends the condition of
SPINDLE_TS_REF_LOST; with `crystal`, that the crystal lies within its limits again. -/
def execReferenceRecovery (dt : Nat) (crystal : Bool) (s : State) : Host.Outcome State Fault Refusal :=
  effect dt (awake (tsRecovered crystal)) s

/-- FB_LINE_RESTORED (R281): A broken feedback line stops reporting its break, ending the condition of FB_LINE_BREAK
and the LINE_BREAK status. -/
def execFbLineRestored (dt : Nat) (p : Fin 6) (l : Fin 5) (s : State) : Host.Outcome State Fault Refusal :=
  effect dt (awake (lineRestored p l)) s

/-- FB_SUPPLY_RECOVERY (R630): An encoder, Hall or modulator supply leaves current limit, so its lines stop reporting
a break and PORT_STATUS.FB_SUPPLY clears. -/
def execFbSupplyRecovery (dt : Nat) (p : PortSupply) (s : State) : Host.Outcome State Fault Refusal :=
  effect dt (awake (fbSupplyRecovery p)) s

/-- SD_MODULATOR_RECOVERY (R420): A lost sigma-delta modulator's data toggles for 64 periods and the input recovers.
-/
def execSdModulatorRecovery (dt : Nat) (a : Fin 2) (i : Fin 4) (s : State) : Host.Outcome State Fault Refusal :=
  effect dt (awake (sdRecovered a i)) s

/-- UVLO_RECOVERY (R359): An island rail recovers by a further 0.5 V and its UVLO condition ends, so an EN low can
clear the latched fault. -/
def execUvloRecovery (dt : Nat) (i : Fin 36) (pos : Bool) (s : State) : Host.Outcome State Fault Refusal :=
  effect dt (onIsland i (uvloRecovery i pos)) s

/-- BOOT_UVLO_RELEASE (R385): A bootstrap supply rises above 8.5 V, the LGD lets the high side switch again and
BOOT_LOW clears. -/
def execBootUvloRelease (dt : Nat) (a : Fin 4) (leg : Fin 3) (s : State) : Host.Outcome State Fault Refusal :=
  effect dt (awake (bootRelease a leg)) s

/-- ET_LINK_UP (R469): A 100BASE-T1 link comes up, setting LINK_UP and ending the condition of ET_LINK_DOWN. -/
def execEtLinkUp (dt : Nat) (e : Fin 2) (sqi : Fin 8) (s : State) : Host.Outcome State Fault Refusal :=
  effect dt (onBus (etLinkUp e sqi)) s

/-- TP_SESSION_TIMEOUT (R457): A TP or ETP connection on CN0 exceeds an ISO 11783-3 timeout and the session is
aborted. -/
def execTpSessionTimeout (dt : Nat) (s : State) : Host.Outcome State Fault Refusal :=
  effect dt (onBus tpTimeout) s

/-- WIRED_SYNC_PULSE_MISSING (R483): Three consecutive expected TS sync edges are missing and the Tailstock returns
from wired lock to the link offset. -/
def execWiredSyncPulseMissing (dt : Nat) (s : State) : Host.Outcome State Fault Refusal :=
  effect dt (awake wiredMissing) s

/-- DELAY_PROBE (R479): The Headstock sends the next path-delay probe each millisecond and, after the last, computes
d_p or declares the port's measurement failed. -/
def execDelayProbe (dt : Nat) (k : ProbeStep) (s : State) : Host.Outcome State Fault Refusal :=
  effect dt (onBus (delayProbe k)) s

/-- TAILSTOCK_REPLY_TIMEOUT (R541): No reply from the Tailstock arrives within 50 ms of a RELAY or 10 ms of a relayed
ADMIT_TAILSTOCK, and the Headstock replies TAILSTOCK_UNKNOWN. -/
def execTailstockReplyTimeout (dt : Nat) (s : State) : Host.Outcome State Fault Refusal :=
  effect dt (awake replyTimeout) s

/-- WORD_REWRITE (R606): The supervisor completes the rewrite of an uncorrectable fabric word from the ACTIVE image or
the library within 100 µs, so the affected entry launches again. -/
def execWordRewrite (dt : Nat) (block addr : Nat) (s : State) : Host.Outcome State Fault Refusal :=
  effect dt (awake (wordRewrite block addr)) s

/-- OPERATING_TIME_PROGRAM (R673): After every 600 s of counted time SVC_OPERATING_TIME is programmed into FL. -/
def execOperatingTimeProgram (dt : Nat) (s : State) : Host.Outcome State Fault Refusal :=
  effect dt (onFlash operatingTimeProgram) s

end Sys2Proof.Machine
end

