-- ==== Sys2Proof/Machine/Dispatch.lean ====
section
/-!
DEFINITION. The meaning of each command: one arm per constructor, in the order of the table.
-/

namespace Sys2Proof.Machine

def exec (cmd : Instr) (s : State) : Host.Outcome State Fault Refusal :=
  match cmd with
  | .getStatus dt r => Sys2Proof.Machine.execGetStatus dt r s
  | .echo dt r => Sys2Proof.Machine.execEcho dt r s
  | .readParam dt r => Sys2Proof.Machine.execReadParam dt r s
  | .readParamBlock dt r => Sys2Proof.Machine.execReadParamBlock dt r s
  | .stageParam dt r => Sys2Proof.Machine.execStageParam dt r s
  | .writeLive dt r => Sys2Proof.Machine.execWriteLive dt r s
  | .fabricSupplyWrite dt h instant d value => Sys2Proof.Machine.execFabricSupplyWrite dt h instant d value s
  | .fabricSupplyChangeDone dt d => Sys2Proof.Machine.execFabricSupplyChangeDone dt d s
  | .flogRecordSelect dt h instant value => Sys2Proof.Machine.execFlogRecordSelect dt h instant value s
  | .flogCountSelect dt h instant value => Sys2Proof.Machine.execFlogCountSelect dt h instant value s
  | .flogErase dt h instant => Sys2Proof.Machine.execFlogErase dt h instant s
  | .flogEraseDone dt => Sys2Proof.Machine.execFlogEraseDone dt s
  | .openStaging dt r => Sys2Proof.Machine.execOpenStaging dt r s
  | .commitEpochAt dt r => Sys2Proof.Machine.execCommitEpochAt dt r s
  | .discardStaged dt r => Sys2Proof.Machine.execDiscardStaged dt r s
  | .revertEpoch dt r => Sys2Proof.Machine.execRevertEpoch dt r s
  | .stageLaunch dt r => Sys2Proof.Machine.execStageLaunch dt r s
  | .readLaunch dt r => Sys2Proof.Machine.execReadLaunch dt r s
  | .epochConfirm dt r => Sys2Proof.Machine.execEpochConfirm dt r s
  | .setPowerState dt r => Sys2Proof.Machine.execSetPowerState dt r s
  | .torqueSetpoint dt r => Sys2Proof.Machine.execTorqueSetpoint dt r s
  | .speedSetpoint dt r => Sys2Proof.Machine.execSpeedSetpoint dt r s
  | .loopOpen dt r => Sys2Proof.Machine.execLoopOpen dt r s
  | .loopClose dt r => Sys2Proof.Machine.execLoopClose dt r s
  | .shiftRequest dt r => Sys2Proof.Machine.execShiftRequest dt r s
  | .parkLock dt r => Sys2Proof.Machine.execParkLock dt r s
  | .chargeStart dt r => Sys2Proof.Machine.execChargeStart dt r s
  | .chargeStop dt r => Sys2Proof.Machine.execChargeStop dt r s
  | .exportStartAc dt h => Sys2Proof.Machine.execExportStartAc dt h s
  | .exportStartDc dt h => Sys2Proof.Machine.execExportStartDc dt h s
  | .exportStopAc dt h => Sys2Proof.Machine.execExportStopAc dt h s
  | .exportStopDc dt h => Sys2Proof.Machine.execExportStopDc dt h s
  | .measureTemp dt r => Sys2Proof.Machine.execMeasureTemp dt r s
  | .selftestSup dt h => Sys2Proof.Machine.execSelftestSup dt h s
  | .selftestFabric dt h d => Sys2Proof.Machine.execSelftestFabric dt h d s
  | .selftestIsland dt h i => Sys2Proof.Machine.execSelftestIsland dt h i s
  | .selftestComparatorPair dt h a k => Sys2Proof.Machine.execSelftestComparatorPair dt h a k s
  | .selftestDetectorPair dt h a i => Sys2Proof.Machine.execSelftestDetectorPair dt h a i s
  | .calibrate dt r => Sys2Proof.Machine.execCalibrate dt r s
  | .readFaults dt r => Sys2Proof.Machine.execReadFaults dt r s
  | .ackFaults dt r => Sys2Proof.Machine.execAckFaults dt r s
  | .fillMemory dt r => Sys2Proof.Machine.execFillMemory dt r s
  | .scrubControl dt h sc => Sys2Proof.Machine.execScrubControl dt h sc s
  | .scrubRestart dt h sc => Sys2Proof.Machine.execScrubRestart dt h sc s
  | .readSlack dt r => Sys2Proof.Machine.execReadSlack dt r s
  | .readSlackClear dt r => Sys2Proof.Machine.execReadSlackClear dt r s
  | .gateDiag dt r => Sys2Proof.Machine.execGateDiag dt r s
  | .admitTailstock dt r => Sys2Proof.Machine.execAdmitTailstock dt r s
  | .releaseTailstock dt r => Sys2Proof.Machine.execReleaseTailstock dt r s
  | .timeSync dt r => Sys2Proof.Machine.execTimeSync dt r s
  | .timeSyncProbe dt h t2 t3 => Sys2Proof.Machine.execTimeSyncProbe dt h t2 t3 s
  | .allocateTorque dt r => Sys2Proof.Machine.execAllocateTorque dt r s
  | .relay dt r => Sys2Proof.Machine.execRelay dt r s
  | .debugAttach dt r => Sys2Proof.Machine.execDebugAttach dt r s
  | .resetDie dt r => Sys2Proof.Machine.execResetDie dt r s
  | .moduleRestart dt h b => Sys2Proof.Machine.execModuleRestart dt h b s
  | .dieResetRelease dt d => Sys2Proof.Machine.execDieResetRelease dt d s
  | .packetReceived dt t sender via fromHead words stamps => Sys2Proof.Machine.execPacketReceived dt t sender via fromHead words stamps s
  | .packetUndecodable dt => Sys2Proof.Machine.execPacketUndecodable dt s
  | .transportQueueFull dt t sender via fromHead words stamps => Sys2Proof.Machine.execTransportQueueFull dt t sender via fromHead words stamps s
  | .segmentFrame dt t sender via fromHead bytes stamps => Sys2Proof.Machine.execSegmentFrame dt t sender via fromHead bytes stamps s
  | .segmentTimeout dt => Sys2Proof.Machine.execSegmentTimeout dt s
  | .svFrame dt bytes => Sys2Proof.Machine.execSvFrame dt bytes s
  | .replySend dt i => Sys2Proof.Machine.execReplySend dt i s
  | .timedCommandDue dt => Sys2Proof.Machine.execTimedCommandDue dt s
  | .periodBoundary dt n => Sys2Proof.Machine.execPeriodBoundary dt n s
  | .launch dt n e => Sys2Proof.Machine.execLaunch dt n e s
  | .sampleWordArrival dt a d => Sys2Proof.Machine.execSampleWordArrival dt a d s
  | .laneComplete dt n unit entry second branch => Sys2Proof.Machine.execLaneComplete dt n unit entry second branch s
  | .resolveKey dt n unit entry second key => Sys2Proof.Machine.execResolveKey dt n unit entry second key s
  | .collectorAccept dt n moments upsets => Sys2Proof.Machine.execCollectorAccept dt n moments upsets s
  | .commitInstant dt n => Sys2Proof.Machine.execCommitInstant dt n s
  | .deferredCommit dt n => Sys2Proof.Machine.execDeferredCommit dt n s
  | .fabricUnitStuck dt n u => Sys2Proof.Machine.execFabricUnitStuck dt n u s
  | .fabricFallbackRate dt n => Sys2Proof.Machine.execFabricFallbackRate dt n s
  | .countWindowEnd dt => Sys2Proof.Machine.execCountWindowEnd dt s
  | .fabricCheckpointError dt n => Sys2Proof.Machine.execFabricCheckpointError dt n s
  | .checkpointRebuilt dt n => Sys2Proof.Machine.execCheckpointRebuilt dt n s
  | .fabricBistDone dt d failed => Sys2Proof.Machine.execFabricBistDone dt d failed s
  | .supBistDone dt core main fallback parity => Sys2Proof.Machine.execSupBistDone dt core main fallback parity s
  | .xingEventOverflow dt i => Sys2Proof.Machine.execXingEventOverflow dt i s
  | .crossingStallTimeout dt d => Sys2Proof.Machine.execCrossingStallTimeout dt d s
  | .spindleTsRefLost dt => Sys2Proof.Machine.execSpindleTsRefLost dt s
  | .spindleRefLost dt => Sys2Proof.Machine.execSpindleRefLost dt s
  | .spindleLost dt => Sys2Proof.Machine.execSpindleLost dt s
  | .lockstepCheckpoint dt main fallback parity ran => Sys2Proof.Machine.execLockstepCheckpoint dt main fallback parity ran s
  | .lockstepMismatch dt ran => Sys2Proof.Machine.execLockstepMismatch dt ran s
  | .supLockstepLost dt ran => Sys2Proof.Machine.execSupLockstepLost dt ran s
  | .flyingStart dt c => Sys2Proof.Machine.execFlyingStart dt c s
  | .trPlausDwellExpiry dt c k => Sys2Proof.Machine.execTrPlausDwellExpiry dt c k s
  | .preselectUpdate dt => Sys2Proof.Machine.execPreselectUpdate dt s
  | .islandHealthChange dt i => Sys2Proof.Machine.execIslandHealthChange dt i s
  | .patternReevaluation dt c => Sys2Proof.Machine.execPatternReevaluation dt c s
  | .patternWriteToRegion dt c => Sys2Proof.Machine.execPatternWriteToRegion dt c s
  | .chopperPeriod dt vdc current => Sys2Proof.Machine.execChopperPeriod dt vdc current s
  | .chSwitchShort dt => Sys2Proof.Machine.execChSwitchShort dt s
  | .chopperBackstop dt => Sys2Proof.Machine.execChopperBackstop dt s
  | .dclOv1 dt => Sys2Proof.Machine.execDclOv1 dt s
  | .dclOv2 dt => Sys2Proof.Machine.execDclOv2 dt s
  | .fbEdge dt p e held => Sys2Proof.Machine.execFbEdge dt p e held s
  | .fbIndex dt p aHigh bHigh held => Sys2Proof.Machine.execFbIndex dt p aHigh bHigh held s
  | .fbHallInvalid dt p => Sys2Proof.Machine.execFbHallInvalid dt p s
  | .ssiFrame dt p w lineBad => Sys2Proof.Machine.execSsiFrame dt p w lineBad s
  | .fbStandstillTimeout dt p => Sys2Proof.Machine.execFbStandstillTimeout dt p s
  | .fbLineBreak dt p l => Sys2Proof.Machine.execFbLineBreak dt p l s
  | .fbEpOverrun dt p => Sys2Proof.Machine.execFbEpOverrun dt p s
  | .converterCycleStart dt j => Sys2Proof.Machine.execConverterCycleStart dt j s
  | .diComparatorTrip dt j levels => Sys2Proof.Machine.execDiComparatorTrip dt j levels s
  | .dutyMaxEnd dt j => Sys2Proof.Machine.execDutyMaxEnd dt j s
  | .prechargeComplete dt => Sys2Proof.Machine.execPrechargeComplete dt s
  | .cvPrechargeFail dt => Sys2Proof.Machine.execCvPrechargeFail dt s
  | .dcExportEnd dt k => Sys2Proof.Machine.execDcExportEnd dt k s
  | .pilotClassify dt p => Sys2Proof.Machine.execPilotClassify dt p s
  | .proximityClassify dt resistance => Sys2Proof.Machine.execProximityClassify dt resistance s
  | .sourceLost dt => Sys2Proof.Machine.execSourceLost dt s
  | .chStateEvaluation dt => Sys2Proof.Machine.execChStateEvaluation dt s
  | .cvCgPlausDwellExpiry dt k => Sys2Proof.Machine.execCvCgPlausDwellExpiry dt k s
  | .islandFrame dt i good => Sys2Proof.Machine.execIslandFrame dt i good s
  | .islandStatusFrame dt i good => Sys2Proof.Machine.execIslandStatusFrame dt i good s
  | .gdLinkLost dt i atGdc => Sys2Proof.Machine.execGdLinkLost dt i atGdc s
  | .enFall dt => Sys2Proof.Machine.execEnFall dt s
  | .enRise dt => Sys2Proof.Machine.execEnRise dt s
  | .gdUvlo dt i pos => Sys2Proof.Machine.execGdUvlo dt i pos s
  | .islandRailTimeout dt i => Sys2Proof.Machine.execIslandRailTimeout dt i s
  | .gdDesat dt i => Sys2Proof.Machine.execGdDesat dt i s
  | .gdHardShort dt i => Sys2Proof.Machine.execGdHardShort dt i s
  | .softTurnOffStage dt i => Sys2Proof.Machine.execSoftTurnOffStage dt i s
  | .islandSelftestDone dt desat hard pos neg sto => Sys2Proof.Machine.execIslandSelftestDone dt desat hard pos neg sto s
  | .gateDiagStep dt u v w => Sys2Proof.Machine.execGateDiagStep dt u v w s
  | .hallCommutation dt a => Sys2Proof.Machine.execHallCommutation dt a s
  | .actuatorCarrierValley dt a iu iv iw vax => Sys2Proof.Machine.execActuatorCarrierValley dt a iu iv iw vax s
  | .axBootUvlo dt a leg => Sys2Proof.Machine.execAxBootUvlo dt a leg s
  | .axPositionLost dt a => Sys2Proof.Machine.execAxPositionLost dt a s
  | .homingStall dt a => Sys2Proof.Machine.execHomingStall dt a s
  | .axMoveTimeout dt a => Sys2Proof.Machine.execAxMoveTimeout dt a s
  | .moveComplete dt a => Sys2Proof.Machine.execMoveComplete dt a s
  | .afeTrigger dt a t sar pv sd => Sys2Proof.Machine.execAfeTrigger dt a t sar pv sd s
  | .queueEntry dt a => Sys2Proof.Machine.execQueueEntry dt a s
  | .sliceRotation dt a => Sys2Proof.Machine.execSliceRotation dt a s
  | .sliceCalibrationDone dt a i gain offset inl => Sys2Proof.Machine.execSliceCalibrationDone dt a i gain offset inl s
  | .afeSdLost dt a i => Sys2Proof.Machine.execAfeSdLost dt a i s
  | .sdDetectorTrip dt a k window => Sys2Proof.Machine.execSdDetectorTrip dt a k window s
  | .protectionComparatorTrip dt a k levels => Sys2Proof.Machine.execProtectionComparatorTrip dt a k levels s
  | .comparatorRelease dt a k levels window => Sys2Proof.Machine.execComparatorRelease dt a k levels window s
  | .twinTestDone dt a reads => Sys2Proof.Machine.execTwinTestDone dt a reads s
  | .canFrameReceived dt p f stamp taken => Sys2Proof.Machine.execCanFrameReceived dt p f stamp taken s
  | .canFrameTransmitted dt p stamp error => Sys2Proof.Machine.execCanFrameTransmitted dt p stamp error s
  | .oneShotFail dt p error => Sys2Proof.Machine.execOneShotFail dt p error s
  | .busObjectEcc dt p object => Sys2Proof.Machine.execBusObjectEcc dt p object s
  | .hpBufferFrame dt p n stamp data taken => Sys2Proof.Machine.execHpBufferFrame dt p n stamp data taken s
  | .busOff dt p => Sys2Proof.Machine.execBusOff dt p s
  | .busOffRecovery dt p seen => Sys2Proof.Machine.execBusOffRecovery dt p seen s
  | .busWake dt p c b => Sys2Proof.Machine.execBusWake dt p c b s
  | .addressClaim dt a => Sys2Proof.Machine.execAddressClaim dt a s
  | .dm1Send dt => Sys2Proof.Machine.execDm1Send dt s
  | .axleLinkFrame dt p n seq k => Sys2Proof.Machine.execAxleLinkFrame dt p n seq k s
  | .alPortDown dt p => Sys2Proof.Machine.execAlPortDown dt p s
  | .ethernetDatagram dt e f => Sys2Proof.Machine.execEthernetDatagram dt e f s
  | .etLinkDown dt e => Sys2Proof.Machine.execEtLinkDown dt e s
  | .syncSend dt => Sys2Proof.Machine.execSyncSend dt s
  | .syncReceived dt p n seq of_ rx tx gap => Sys2Proof.Machine.execSyncReceived dt p n seq of_ rx tx gap s
  | .wiredSyncEdge dt edge => Sys2Proof.Machine.execWiredSyncEdge dt edge s
  | .syncHoldoverExpiry dt => Sys2Proof.Machine.execSyncHoldoverExpiry dt s
  | .listenPeriodEnd dt => Sys2Proof.Machine.execListenPeriodEnd dt s
  | .statusSend dt => Sys2Proof.Machine.execStatusSend dt s
  | .eventSend dt => Sys2Proof.Machine.execEventSend dt s
  | .admissionLoss dt c => Sys2Proof.Machine.execAdmissionLoss dt c s
  | .nodeRemoval dt n => Sys2Proof.Machine.execNodeRemoval dt n s
  | .allocationInstant dt => Sys2Proof.Machine.execAllocationInstant dt s
  | .sysAllocStale dt => Sys2Proof.Machine.execSysAllocStale dt s
  | .commitVoteDeadline dt => Sys2Proof.Machine.execCommitVoteDeadline dt s
  | .commitConfirmDeadline dt => Sys2Proof.Machine.execCommitConfirmDeadline dt s
  | .epochSwitch dt head => Sys2Proof.Machine.execEpochSwitch dt head s
  | .epochFlashDone dt => Sys2Proof.Machine.execEpochFlashDone dt s
  | .epochFlashFail dt => Sys2Proof.Machine.execEpochFlashFail dt s
  | .pwrTransitionFail dt => Sys2Proof.Machine.execPwrTransitionFail dt s
  | .startUp dt b lvin => Sys2Proof.Machine.execStartUp dt b lvin s
  | .lvinLost dt lvin => Sys2Proof.Machine.execLvinLost dt lvin s
  | .lvinReturn dt lvin => Sys2Proof.Machine.execLvinReturn dt lvin s
  | .hvauxLost dt hvaux => Sys2Proof.Machine.execHvauxLost dt hvaux s
  | .hvilChange dt current => Sys2Proof.Machine.execHvilChange dt current s
  | .fbSupplyLimit dt p => Sys2Proof.Machine.execFbSupplyLimit dt p s
  | .svRateChange dt => Sys2Proof.Machine.execSvRateChange dt s
  | .patternVerify dt i on => Sys2Proof.Machine.execPatternVerify dt i on s
  | .faultRaised dt code detail cond => Sys2Proof.Machine.execFaultRaised dt code detail cond s
  | .flogProgram dt ok => Sys2Proof.Machine.execFlogProgram dt ok s
  | .twinTestOverdue dt a detector pair => Sys2Proof.Machine.execTwinTestOverdue dt a detector pair s
  | .memoryReadError dt block addr bad scrub entry => Sys2Proof.Machine.execMemoryReadError dt block addr bad scrub entry s
  | .scrubTick dt sc => Sys2Proof.Machine.execScrubTick dt sc s
  | .memScrubLap dt sc => Sys2Proof.Machine.execMemScrubLap dt sc s
  | .fillDone dt d => Sys2Proof.Machine.execFillDone dt d s
  | .tempMeasurement dt d v10 v100 temp => Sys2Proof.Machine.execTempMeasurement dt d v10 v100 temp s
  | .thermStale dt d => Sys2Proof.Machine.execThermStale dt d s
  | .powerTransitionProgress dt b => Sys2Proof.Machine.execPowerTransitionProgress dt b s
  | .hvauxReturn dt hvaux => Sys2Proof.Machine.execHvauxReturn dt hvaux s
  | .holdupStoreCharged dt => Sys2Proof.Machine.execHoldupStoreCharged dt s
  | .dieSupplyChange dt d ok => Sys2Proof.Machine.execDieSupplyChange dt d ok s
  | .referenceRecovery dt crystal => Sys2Proof.Machine.execReferenceRecovery dt crystal s
  | .fbLineRestored dt p l => Sys2Proof.Machine.execFbLineRestored dt p l s
  | .fbSupplyRecovery dt p => Sys2Proof.Machine.execFbSupplyRecovery dt p s
  | .sdModulatorRecovery dt a i => Sys2Proof.Machine.execSdModulatorRecovery dt a i s
  | .uvloRecovery dt i pos => Sys2Proof.Machine.execUvloRecovery dt i pos s
  | .bootUvloRelease dt a leg => Sys2Proof.Machine.execBootUvloRelease dt a leg s
  | .etLinkUp dt e sqi => Sys2Proof.Machine.execEtLinkUp dt e sqi s
  | .tpSessionTimeout dt => Sys2Proof.Machine.execTpSessionTimeout dt s
  | .wiredSyncPulseMissing dt => Sys2Proof.Machine.execWiredSyncPulseMissing dt s
  | .delayProbe dt k => Sys2Proof.Machine.execDelayProbe dt k s
  | .tailstockReplyTimeout dt => Sys2Proof.Machine.execTailstockReplyTimeout dt s
  | .wordRewrite dt block addr => Sys2Proof.Machine.execWordRewrite dt block addr s
  | .operatingTimeProgram dt => Sys2Proof.Machine.execOperatingTimeProgram dt s

end Sys2Proof.Machine
end

