-- ==== Sys2Proof/Safety.lean ====
section
/-!
DEFINITION. What a run keeps and what the statements speak of: the invariant of the module, the answers of the machine, the
conditions a command finds.
-/

namespace Sys2Proof

/-! ## Forms of a request (R515, R525, R541) -/

/-- A request neither TIMED nor RELAYED. -/
def Hdr.plain (h : Hdr) : Bool := !h.timed && !h.relayed

/-- A request TIMED and not RELAYED. -/
def Hdr.onlyTimed (h : Hdr) : Bool := h.timed && !h.relayed

/-- A request RELAYED, in CEROL_TO from the Headstock over the axle link, not TIMED. -/
def Hdr.viaHead (h : Hdr) : Bool := !h.timed && h.relayed && h.fromHead && (h.transport == .cn2 || h.transport == .cn3)

end Sys2Proof

namespace Sys2Proof.Machine

/-! ## The invariant -/

/-- No fault stands twice in the table with one code and detail (R577, R587). -/
def distinctFaults : List ActiveFault → Bool
  | [] => true
  | f :: fs => !isActive fs f.code f.detail && distinctFaults fs

/-- The table holds at most 255 faults beside FAULT_TABLE_FULL, none of them twice (R587). -/
def tableOk (fs : List ActiveFault) : Bool := entriesInUse fs ≤ 255 && distinctFaults fs

/-- At most 32 timed commands are pending (R527). -/
def timedOk (ts : List TimedCmd) : Bool := ts.length ≤ 32

/-- Split mode is what the SPLIT strap says, in every state (R174, R648). -/
def modeOk (mode : SupMode) (split : Bool) : Bool := (mode == .split) == split

/-- The memory of a region and its checkpoint are in canonical form, and the checkpoint holds carried state alone (R120). -/
def Region.sound (r : Region) : Bool :=
  Memory.wf r.memory && Memory.wf r.shadow && r.shadow.all (fun p => p.1 < carriedWords)

/-- Every region is sound. -/
def regionsOk (rs : Vector Region 8) : Bool := rs.toList.all Region.sound

/-- What the invariant speaks of: the fault table, the pending timed commands, the supervisor mode, the region memories. -/
def coreOk (fs : List ActiveFault) (ts : List TimedCmd) (mode : SupMode) (split : Bool) (rs : Vector Region 8) : Bool :=
  tableOk fs && timedOk ts && modeOk mode split && regionsOk rs

/-- The invariant: the fault table, the pending timed commands and the supervisor mode are as the manual bounds them, the
region memories in canonical form. -/
def Module.safe (m : Module) : Bool :=
  coreOk m.faults.active m.interp.timed m.lockstep.mode m.straps.split m.regions

/-- A safe machine. -/
def State.safe (s : State) : Bool := s.mod.safe

/-! ## Answers -/

/-- The machine goes on with the module as `m`. -/
def became (m : Module) (s : State) : Host.Outcome State Fault Refusal := .next { s with mod := m }

/-- The machine goes on with the module as `m`, the command counted as accepted and its reply, OK or OK_SCHEDULED, sent (R545). -/
def replied (opcode : Nat) (h : Hdr) (count status : Nat) (data : List Word) (m : Module) (s : State) :
    Host.Outcome State Fault Refusal :=
  became (sendReply opcode h count status 0 data (countAccepted m)) s

/-- The machine goes on with the module as `m`, the command counted as accepted; its reply leaves later (R523). -/
def accepted (m : Module) (s : State) : Host.Outcome State Fault Refusal := became (countAccepted m) s

/-- Two CAN ports alike but for the frames in the transmit objects and the count of failed ones. -/
def sendsOnly (a b : CanPort) : Prop := ∃ (tx : List TxFrame) (txFail : Nat), b = { a with tx := tx, txFail := txFail }

/-- Two modules alike but for the sending of a packet: what left, crossing 12, the transmit objects, the transfers of CN0 and
the axle-link sequence numbers (R90, R446, R456, R457, R461). -/
def sentOnly (m n : Module) : Prop :=
  ∃ (out : List Out) (x : Crossing) (can : Vector CanPort 4) (iso : Isobus) (seqs : List (Nat × Nat)),
    n = { m with out := out, crossings := Vector.upd m.crossings 12 (fun _ => x), can := can, isobus := iso,
                 sys := { m.sys with seqs := seqs } } ∧
    (∀ p : Fin 4, sendsOnly m.can[p] can[p]) ∧
    ∃ (sending : Option TpSend) (waiting : List (Nat × List Byte)),
      iso = { m.isobus with sending := sending, waiting := waiting }

/-- Two modules alike but for a refusal: CMD_REJECT_COUNT has risen, and a reply may have been sent (R529). -/
def onlyRefused (m n : Module) : Prop :=
  sentOnly { m with interp := { m.interp with rejected := inc32 m.interp.rejected } } n

/-! ## Packets (R513 … R521) -/

/-- A byte sequence of these words is a packet that can be decoded (R516). -/
def decodable (words : List Word) : Bool := 2 ≤ words.length && words.length ≤ 64 && !bit (words.getD 0 0) 3

/-- The opcode and the parameter words of a packet (R513). -/
def packetOpcode (words : List Word) : Nat := bits (words.getD 0 0) 31 24
def packetParams (words : List Word) : List Word := (words.drop 1).dropLast

/-- The packet as the interpreter's queue holds it. -/
def packetOf (t : Transport) (sender : Nat) (v : Via) (fromHead : Bool) (words : List Word) (stamps : Stamps) : QueuedPacket :=
  { transport := t, sender := sender, via := v, fromHead := fromHead, words := words, stamps := stamps }

/-- Segment frames of one sender on CN1, taken one after the other. -/
def takeSegments (t : Transport) (sender : Nat) (v : Via) (fromHead : Bool) (frames : List (List Byte)) (m : Module) : Module :=
  frames.foldl (fun x f => takeSegment t sender v fromHead f noStamps x) m

/-- A word that R277 does not call invalid, on a line that reports no break (DESIGN CHOICE, log entry 98). -/
def Module.goodSsi (m : Module) (p : Fin 6) (s : SsiFrame) : Bool :=
  !s.lineBad && !(m.fnum p P.fbSsiErrorBit < 32 && bit s.word (m.fnum p P.fbSsiErrorBit)) &&
  m.ssiPlausible p s.tick (m.ssiPosition p s.word) && !m.feedback[p].broken.testBit 4

/-! ## Starts -/

/-- The module `n` as a start leaves the module `m` (R43, R553, R558): nothing stays of what was active or waited. -/
def startedFrom (m n : Module) : Prop :=
  n.label = .standby ∧ n.supply.transition = none ∧ (∀ a ∈ n.faults.active, a.code = F.epochBootInvalid) ∧
  (∀ f : Func, n.patternOf f = .none) ∧ n.interp.timed = [] ∧ n.interp.waiting = [] ∧ n.interp.queue = [] ∧
  n.epochs.staged = none ∧ n.live = Live.init ∧ n.service.bootCount = inc32 m.service.bootCount ∧
  modeOk n.lockstep.mode n.straps.split = true

/-! ## Conditions -/

/-- The commands that reach a module in OFF or SLEEP: its supplies, EN, the bus that wakes it (R454, R547, R553). -/
def wakes : Instr → Bool
  | .startUp .. | .busWake .. | .lvinLost .. | .lvinReturn .. | .hvauxLost .. | .hvauxReturn .. | .enFall .. | .enRise .. => true
  | _ => false

/-- The module has started: STANDBY or above. -/
def Module.up (m : Module) : Bool := 2 ≤ m.label.code

/-- The module takes a host command at once: it has started, SUP runs, neither a rollback nor a stalled access stands before
it (R42, R87, R167, R547). -/
def Module.attends (m : Module) : Bool :=
  m.listens && !m.lockstep.rollback && m.crossings.toList.all (fun c => c.stalled.isNone)

/-- A Headstock that R477 has not silenced takes system-class commands of its hosts. -/
def Module.leads (m : Module) : Bool := m.isHead && !m.sys.silenced

/-- The instant is not past (R525). -/
def Module.ahead (m : Module) (ws : List Word) : Bool := m.time.count.toNat ≤ (instantOf ws).toNat

end Sys2Proof.Machine
end

