-- ==== Sys2Proof/Certificates/Slice0/Obligations.lean ====
section
/-!
DEFINITION. The statements for the provers. `m = advance dt s.mod` is the module as a command finds it: the module after the
`dt` ticks that passed since the last one. A completion statement gives the whole next state, so that it says at once what a
command changes and that nothing else changes.
-/

open Sys2Proof
open Sys2Proof.Machine

/-- Where the queue is c :: cs, step is exec of c on the state with cs as its queue, so the commands run first in,
first out; on an empty queue step answers the state as it is (the model's choice: log entry 1). -/
def Obligations.StepTakesTheFrontCommand : Prop :=
  (∀ (c : Instr) (cs : List Instr) (s : State), s.pending = c :: cs → step s = exec c { s with pending := cs }) ∧
  (∀ s : State, s.pending = [] → step s = .next s)

/-- For every command of the table and every state exec answers a next state, never a fault or a refusal of the model,
and the queue of waiting commands is the same after it: no rule of the manual stops the module. -/
def Obligations.EveryCommandIsAnswered : Prop :=
  ∀ (c : Instr) (s : State), ∃ m : Module, exec c s = .next { s with mod := m }

/-- State.reset: the power state label is OFF, no transition runs, no fault is active, no safe pattern is set, the log
is empty, FLT is released, the ACTIVE epoch is the factory epoch, STAGED and CELLAR are empty, every live-class
parameter stands at its Reset value, no timed command is pending and no command waits. That the model starts before
the first supply is its own choice (log entry 3). -/
def Obligations.ResetIsOff : Prop :=
  State.reset.pending = [] ∧ State.reset.mod.label = .off ∧ State.reset.mod.supply.transition = none ∧
  State.reset.mod.faults.active = [] ∧ (∀ f : Func, State.reset.mod.patternOf f = .none) ∧
  State.reset.mod.faults.buffer = [] ∧ State.reset.mod.faults.ring = [] ∧ State.reset.mod.flt = false ∧
  State.reset.mod.epochs.active = factoryImage ∧ State.reset.mod.epochs.staged = none ∧
  State.reset.mod.epochs.cellar = none ∧ State.reset.mod.live = Live.init ∧ State.reset.mod.interp.timed = []

/-- State.reset is safe: the fault table, the pending timed commands, the supervisor mode and the region memories are
as the invariant of StepKeepsSafe asks. -/
def Obligations.ResetIsSafe : Prop :=
  State.reset.safe = true

/-- For every safe state, reachable or not, a step that answers a next state answers a safe one: at most 255 faults
stand in the table beside FAULT_TABLE_FULL and no code with one detail twice; at most 32 timed commands are pending;
the supervisor is in split mode exactly while the SPLIT strap in use says so; the memory of every region lists rising
addresses inside the region and no word that reads as the fill value, and its checkpoint holds carried state alone. -/
def Obligations.StepKeepsSafe : Prop :=
  ∀ s t : State, s.safe = true → step s = .next t → t.safe = true

/-- A decodable packet that the header checks or the checks of its opcode refuse leaves every part of the module as it
was but for CMD_REJECT_COUNT: no parameter, slot, other counter, timer, waiting command, loop, pattern or fault
changes. What the reply may touch is what left the module, crossing 12 to the bus die, the transmit objects of the CAN
ports with their count of failed ones, the transfers of CN0 and the sequence numbers of the axle link. The module has
started and SUP runs, no rollback runs and no access is stalled. -/
def Obligations.RefusalChangesNothing : Prop :=
  (∀ (dt : Nat) (t : Transport) (sender : Nat) (v : Via) (fromHead : Bool) (words : List Word) (stamps : Stamps) (st : Status)
    (d : Nat) (s : State) (m : Module), m = advance dt s.mod → m.attends → decodable words → headerCheck words = none →
    isRestart (packetOpcode words) (hdrOf t sender v fromHead (words.getD 0 0)) (packetParams words) m = false →
    handle (packetOpcode words) (hdrOf t sender v fromHead (words.getD 0 0)) (packetParams words) stamps m = .refuse st d →
    ∃ n : Module, onlyRefused m n ∧ exec (.packetReceived dt t sender v fromHead words stamps) s = became n s) ∧
  (∀ (dt : Nat) (t : Transport) (sender : Nat) (v : Via) (fromHead : Bool) (words : List Word) (stamps : Stamps) (st : Status)
    (s : State) (m : Module), m = advance dt s.mod → m.attends → decodable words → headerCheck words = some st →
    ∃ n : Module, onlyRefused m n ∧ exec (.packetReceived dt t sender v fromHead words stamps) s = became n s)

/-- A decodable packet is refused with BAD_CRC where its last word is not the CRC-32C of the words before it; else
with BAD_LENGTH where COUNT is not the number of words less 2; else with BAD_VERSION where VERSION is not 2; else with
UNKNOWN_OPCODE where the opcode table does not list OPCODE; and where every header check passes its command runs with
the fields of word 0. -/
def Obligations.HeaderChecksInOrder : Prop :=
  ∀ (dt : Nat) (t : Transport) (sender : Nat) (v : Via) (fromHead : Bool) (words : List Word) (stamps : Stamps) (s : State)
    (m : Module), m = advance dt s.mod → m.attends → decodable words →
    exec (.packetReceived dt t sender v fromHead words stamps) s =
      (if words.getLast? ≠ some (crc32c words.dropLast) then
        became (refuseRaw t sender v (words.getD 0 0) .badCrc 0 m) s
      else if bits (words.getD 0 0) 15 8 + 2 ≠ words.length then
        became (refuseRaw t sender v (words.getD 0 0) .badLength 0 m) s
      else if bits (words.getD 0 0) 7 4 ≠ 2 then
        became (refuseRaw t sender v (words.getD 0 0) .badVersion 0 m) s
      else if packetOpcode words ∉ opcodes then
        became (refuseRaw t sender v (words.getD 0 0) .unknownOpcode 0 m) s
      else became (runCommand (packetOpcode words) (hdrOf t sender v fromHead (words.getD 0 0)) (packetParams words) stamps m) s)

/-- While the power state label is OFF or SLEEP every command but START_UP, BUS_WAKE, the events of LVIN and HVAUX and
the edges of EN changes nothing: real time passes, and the module is what it was. -/
def Obligations.NothingReachesASleepingModule : Prop :=
  ∀ (c : Instr) (s : State), wakes c = false → s.mod.label = .off ∨ s.mod.label = .sleep →
    ∃ dt : Nat, exec c s = .next { s with mod := advance dt s.mod }

/-- A packet shorter than 8 bytes or longer than 256, one with bit 3 of word 0 set that is no answer of a Tailstock at
its Headstock, an SV frame with a bad escape or with a length that is no multiple of 4 bytes, and PACKET_UNDECODABLE
raise CMD_UNDECODABLE_COUNT by one; nothing else changes and no reply leaves. -/
def Obligations.UndecodablePacketsAreOnlyCounted : Prop :=
  (∀ (dt : Nat) (t : Transport) (sender : Nat) (v : Via) (fromHead : Bool) (words : List Word) (stamps : Stamps) (s : State)
    (m : Module), m = advance dt s.mod → m.listens → words.length < 2 ∨ 64 < words.length →
    exec (.packetReceived dt t sender v fromHead words stamps) s = became (countUndecodable m) s) ∧
  (∀ (dt : Nat) (t : Transport) (sender : Nat) (v : Via) (fromHead : Bool) (words : List Word) (stamps : Stamps) (s : State)
    (m : Module), m = advance dt s.mod → m.listens → bit (words.getD 0 0) 3 →
    !(m.isHead && (t == .cn2 || t == .cn3) && !fromHead) →
    exec (.packetReceived dt t sender v fromHead words stamps) s = became (countUndecodable m) s) ∧
  (∀ (dt : Nat) (bytes : List Byte) (s : State) (m : Module), m = advance dt s.mod → m.listens → bytes ≠ [] →
    (unescape bytes).bind bytesWords = none → exec (.svFrame dt bytes) s = became (countUndecodable m) s) ∧
  (∀ (dt : Nat) (s : State) (m : Module), m = advance dt s.mod → m.listens →
    exec (.packetUndecodable dt) s = became (countUndecodable m) s) ∧
  (∀ m : Module, countUndecodable m =
    { m with interp := { m.interp with undecodable := Nat.min 0xFFFFFFFF (m.interp.undecodable + 1) } })

/-- While a rollback runs, or an access into the domain its command needs is stalled, a decodable packet on a
transport that holds fewer than 16 waiting packets joins the end of the queue, and nothing else changes; one on a
transport that holds 16 is answered at once with BUSY, detail 0xFFFF, and is not executed; so does
TRANSPORT_QUEUE_FULL. A transport that held at most 16 packets holds at most 16 after it. -/
def Obligations.FullTransportAnswersBusy : Prop :=
  (∀ (dt : Nat) (t : Transport) (sender : Nat) (v : Via) (fromHead : Bool) (words : List Word) (stamps : Stamps) (s : State)
    (m : Module), m = advance dt s.mod → m.listens → decodable words →
    m.holdsPacket (packetOf t sender v fromHead words stamps) → m.waitingOn t < 16 →
    exec (.packetReceived dt t sender v fromHead words stamps) s = became { m with
      interp := { m.interp with queue := m.interp.queue ++ [packetOf t sender v fromHead words stamps] } } s) ∧
  (∀ (dt : Nat) (t : Transport) (sender : Nat) (v : Via) (fromHead : Bool) (words : List Word) (stamps : Stamps) (s : State)
    (m : Module), m = advance dt s.mod → m.listens → decodable words →
    m.holdsPacket (packetOf t sender v fromHead words stamps) → 16 ≤ m.waitingOn t →
    exec (.packetReceived dt t sender v fromHead words stamps) s =
      became (refuseRaw t sender v (words.getD 0 0) .busy 0xFFFF m) s) ∧
  (∀ (dt : Nat) (t : Transport) (sender : Nat) (v : Via) (fromHead : Bool) (words : List Word) (stamps : Stamps) (s : State)
    (m : Module), m = advance dt s.mod → m.listens → 16 ≤ m.waitingOn t →
    exec (.transportQueueFull dt t sender v fromHead words stamps) s =
      became (refuseRaw t sender v (words.getD 0 0) .busy 0xFFFF m) s) ∧
  (∀ (dt : Nat) (t u : Transport) (sender : Nat) (v : Via) (fromHead : Bool) (words : List Word) (stamps : Stamps) (s r : State)
    (m : Module), m = advance dt s.mod → decodable words → m.holdsPacket (packetOf t sender v fromHead words stamps) →
    m.waitingOn u ≤ 16 →
    exec (.packetReceived dt t sender v fromHead words stamps) s = .next r → r.mod.waitingOn u ≤ 16)

/-- For every opcode of the table, every header and at most 62 parameter words: the packet built for them holds the
opcode, the COUNT, the tag and the flags of the header in their fields and passes every header check; the fields read
back are the ones put in; and receiving it is the same as the command itself, whether it runs at once or waits behind
a rollback or a stalled access. -/
def Obligations.PacketRoundTrip : Prop :=
  ∀ (opcode : Nat) (h : Hdr) (ws : List Word), opcode ∈ opcodes → ws.length ≤ 62 →
    decodable (requestWords opcode h ws) ∧ headerCheck (requestWords opcode h ws) = none ∧
    packetOpcode (requestWords opcode h ws) = opcode ∧ packetParams (requestWords opcode h ws) = ws ∧
    hdrOf h.transport h.sender h.via h.fromHead ((requestWords opcode h ws).getD 0 0) = h ∧
    ∀ (dt : Nat) (stamps : Stamps) (s : State),
      exec (.packetReceived dt h.transport h.sender h.via h.fromHead (requestWords opcode h ws) stamps) s =
        .next { s with mod := hostCommand opcode h ws stamps (advance dt s.mod) }

/-- For every byte sequence, the frame that escapes it holds no delimiter 0xC0 and un-escapes to it; the bytes of a
list of words read back as those words; and an SV frame that carries a packet of one word or more acts as the packet
received on SV. -/
def Obligations.EscapedPacketRoundTrip : Prop :=
  (∀ bs : List Byte, (0xC0 : Byte) ∉ escape bs ∧ unescape (escape bs) = some bs) ∧
  (∀ ws : List Word, bytesWords (ws.flatMap wordBytes) = some ws) ∧
  (∀ (dt : Nat) (ws : List Word) (s : State), ws ≠ [] →
    exec (.svFrame dt (escape (ws.flatMap wordBytes))) s = exec (.packetReceived dt .sv 0 {} false ws noStamps) s)

/-- A packet of 2 to 64 words cut into frames as R520 cuts it, first frame with the length, full frames, sequence
numbers from 0 that wrap at 16, and received in order on CN1 (CAN FD or classical) or from one sender on the axle link
where no reassembly of that sender is open, arrives as the packet itself: nothing else of the module changes on the
way. -/
def Obligations.SegmentedPacketArrivesWhole : Prop :=
  ∀ (bytes : List Byte) (k : Nat) (m : Module), 2 ≤ k → k ≤ 64 → bytes.length = 4 * k →
    (∀ v : Via, m.interp.reassemblies.all (fun r => !sameReassembly .cn1 0 r) →
      (v.classical = false →
        takeSegments .cn1 0 v false (segments 62 63 bytes) m = packetBytes .cn1 0 v false bytes noStamps m) ∧
      (v.classical = true →
        takeSegments .cn1 0 v false (segments 6 7 bytes) m = packetBytes .cn1 0 v false bytes noStamps m)) ∧
    (∀ (sender : Nat) (v : Via) (fromHead : Bool), m.interp.reassemblies.all (fun r => !sameReassembly .cn2 sender r) →
      takeSegments .cn2 sender v fromHead (segments 109 110 bytes) m = packetBytes .cn2 sender v fromHead bytes noStamps m)

/-- Raising a fault whose code and detail are active leaves the codes and details of the table, the write buffer, the
ring, the sequence number and the occurrence counts as they were; a fault whose code or whose detail is another
becomes active beside every fault that was, where two entries are free (the second for an overrun of the log). -/
def Obligations.FaultRaisedTwiceIsOneEntry : Prop :=
  (∀ (tick : Tick) (code detail : Nat) (cond : Bool) (m : Module), isActive m.faults.active code detail = true →
    (raiseAt tick code detail cond m).faults.active.map (fun f => (f.code, f.detail)) =
      m.faults.active.map (fun f => (f.code, f.detail)) ∧
    (raiseAt tick code detail cond m).faults.buffer = m.faults.buffer ∧
    (raiseAt tick code detail cond m).faults.ring = m.faults.ring ∧
    (raiseAt tick code detail cond m).faults.seq = m.faults.seq ∧
    (raiseAt tick code detail cond m).faults.counts = m.faults.counts) ∧
  (∀ (tick : Tick) (code detail : Nat) (cond : Bool) (m : Module), isActive m.faults.active code detail = false →
    entriesInUse m.faults.active < 254 →
    isActive (raiseAt tick code detail cond m).faults.active code detail = true ∧
    ∀ f ∈ m.faults.active, isActive (raiseAt tick code detail cond m).faults.active f.code f.detail = true)

/-- FAULT_RAISED of a class B or C fault that is not active, with a free entry and room in the write buffer: the fault
stands at the end of the table with its condition, the occurrence count of its code has risen by one up to 65,535, a
KIND 1 record with the code, the detail, the present label, coverage, boot count, epoch and instant and the next
sequence number is the last of the buffer, and nothing else of the module changes. -/
def Obligations.NewFaultIsLogged : Prop :=
  ∀ (dt code detail : Nat) (cond : Bool) (s : State) (m : Module), m = advance dt s.mod → m.up →
    (faultInfo code).isSome → detail < 65536 → classOf code ≠ .a → isActive m.faults.active code detail = false →
    entriesInUse m.faults.active < 255 → m.faults.buffer.length < 512 →
    exec (.faultRaised dt code detail cond) s = became { m with faults := { m.faults with
      active := m.faults.active ++ [{ code := code, detail := detail, cond := cond }],
      counts := bumpCount code m.faults.counts,
      buffer := m.faults.buffer ++ [{
        code := code, detail := detail, kind := 1, state := m.label.code,
        coverage := m.coverage, func := 0, pattern := 0, tick := m.time.count, boot := m.service.bootCount,
        seq := m.faults.seq, epoch := m.epochs.active.number }],
      seq := (m.faults.seq + 1) % 2 ^ 32 } } s

/-- Raising a class A fault that is not active leaves a safe pattern on every function that R578 names for it and that
the ACTIVE epoch enables; a function that had a pattern keeps one; the power state label stays, and the functions it
does not affect keep the pattern they had. -/
def Obligations.ClassAFaultSetsThePatterns : Prop :=
  (∀ (tick : Tick) (code detail : Nat) (cond : Bool) (m : Module) (f : Func), classOf code = .a →
    isActive m.faults.active code detail = false → f ∈ m.affected code detail → m.enabled f = true →
    (raiseAt tick code detail cond m).patternOf f ≠ .none) ∧
  (∀ (tick : Tick) (code detail : Nat) (cond : Bool) (m : Module) (f : Func), m.patternOf f ≠ .none →
    (raiseAt tick code detail cond m).patternOf f ≠ .none) ∧
  (∀ (tick : Tick) (code detail : Nat) (cond : Bool) (m : Module) (f : Func), f ∉ m.affected code detail →
    (raiseAt tick code detail cond m).patternOf f = m.patternOf f) ∧
  (∀ (tick : Tick) (code detail : Nat) (cond : Bool) (m : Module),
    (raiseAt tick code detail cond m).label = m.label)

/-- EN_FALL in READY, ARMED or RUN with the GDC running and no transition under way: every island output is off but
those in their own soft turn-off, which completes, every function that the ACTIVE epoch enables carries a safe
pattern, EN reads low and the power state label is the one before. -/
def Obligations.EnLowTurnsEverythingOff : Prop :=
  ∀ (dt : Nat) (s t : State) (m : Module), m = advance dt s.mod → m.atLeastReady → m.dieRuns 7 →
    m.supply.transition = none → exec (.enFall dt) s = .next t →
    (∀ i : Fin 36, (t.mod.islands[i]).state ≠ .softOff → (t.mod.islands[i]).output = false) ∧
    (∀ f : Func, t.mod.enabled f = true → t.mod.patternOf f ≠ .none) ∧ t.mod.enHigh = false ∧ t.mod.label = m.label

/-- ACK_FAULTS accepted, with room in the write buffer for the records: of the faults active before it, those of
policy 0 that its code names (0 names all) and whose CONDITION is 0 are active no more, every other one stays active,
and no new one appears. -/
def Obligations.AckFaultsClearsByPolicy : Prop :=
  ∀ (code : Nat) (m : Module) (f : ActiveFault), distinctFaults m.faults.active = true →
    m.faults.buffer.length + m.faults.active.length ≤ 512 →
    (isActive (acknowledge code m).faults.active f.code f.detail = true ↔
      ∃ g ∈ m.faults.active, g.code = f.code ∧ g.detail = f.detail ∧
        ¬ ((code = 0 ∨ g.code = code) ∧ policyOf g.code = 0 ∧ m.condOf g = false))

/-- A function whose release an ACK_FAULTS begins carries a pattern, EN is high, no throttle level of T3 holds it and
no class A fault that affects it is active any more once the command has cleared what it may; a pattern itself is not
touched before the boundary of the function's region. -/
def Obligations.OnlyAReleasableFunctionIsReleased : Prop :=
  (∀ (code : Nat) (m : Module) (f : Func), m.faults.releasing[f.idx] = false →
    (acknowledge code m).faults.releasing[f.idx] = true →
    (acknowledge code m).patterned f = true ∧ (acknowledge code m).enHigh = true ∧
    (acknowledge code m).heldByT3 f = false ∧
    ∀ a ∈ (acknowledge code m).faults.active, classOf a.code = .a → f ∉ (acknowledge code m).affected a.code a.detail) ∧
  (∀ (code : Nat) (m : Module) (f : Func), (acknowledge code m).patternOf f = m.patternOf f)

/-- While the supervisor does not have coverage (split mode, lockstep or comparison lost, a debug probe attached),
every request with an opcode 0x40 to 0x5F other than LOOP_OPEN, CHARGE_START, EXPORT_START, ADMIT_TAILSTOCK and
ALLOCATE_TORQUE is refused, whatever its header and its parameter words; the checks that requests share answer
LOCKSTEP_REQUIRED where length, encoding and origin pass. -/
def Obligations.NoDriveWithoutCoverage : Prop :=
  (∀ (opcode : Nat) (h : Hdr) (ws : List Word) (stamps : Stamps) (m : Module), needsLockstep opcode = true →
    m.lockstepRequired = true → ∃ (st : Status) (d : Nat), handle opcode h ws stamps m = .refuse st d) ∧
  (∀ (opcode : Nat) (h : Hdr) (ws : List Word) (m : Module) (ok : Nat → Bool) (t : Timing3) (enc : Bool),
    needsLockstep opcode = true → m.lockstepRequired = true → checkLength h ws ok = none →
    checkEncoding h t enc = none → checkRelayed opcode h m = none →
    prelude opcode h ws ok t enc m = some (.lockstepRequired, 0))

/-- At a Tailstock every request of the opcodes 0x80 to 0x84 without RELAYED is refused; one that passes the checks of
length and encoding is refused with NOT_HEADSTOCK. RELAYED on a packet that did not come from the Headstock over the
axle link refuses every opcode but those refused for their length or encoding first. -/
def Obligations.SystemClassNeedsAHeadstock : Prop :=
  (∀ (opcode : Nat) (h : Hdr) (ws : List Word) (stamps : Stamps) (m : Module), isSystemClass opcode = true →
    m.isHead = false → h.relayed = false → ∃ (st : Status) (d : Nat), handle opcode h ws stamps m = .refuse st d) ∧
  (∀ (opcode : Nat) (h : Hdr) (m : Module), isSystemClass opcode = true → m.isHead = false → h.relayed = false →
    checkRelayed opcode h m = some (.notHeadstock, 0)) ∧
  (∀ (opcode : Nat) (h : Hdr) (m : Module), h.relayed = true →
    ((h.transport == .cn2 || h.transport == .cn3) && h.fromHead) = false →
    checkRelayed opcode h m = some (.reservedEncoding, 0))

/-- The count lies on a period boundary of region n exactly where (S − REGION_PHASE_n) is a multiple of
REGION_PERIOD_n, for every count and every period other than 0; region n = 4 · d + r lies on fabric die d. -/
def Obligations.PeriodBoundaries : Prop :=
  (∀ (m : Module) (n : Fin 8), m.rnum n (P.regionPeriod + n.val) ≠ 0 →
    (m.atBoundary n = true ↔
      ((m.time.count.toNat : Int) - (m.rnum n (P.regionPhase + n.val) : Int)) % (m.rnum n (P.regionPeriod + n.val) : Int) = 0)) ∧
  (∀ (d : Fin 2) (r : Fin 4) (n : Fin 8), n.val = 4 * d.val + r.val → (regionDie n).val = 2 + d.val)

/-- For a period p other than 0 and a phase ph, boundaryAtOrAfter p ph t is at least t and at least ph, lies a whole
number of periods after ph, and no boundary lies between t and it. -/
def Obligations.FirstBoundaryAtOrAfter : Prop :=
  ∀ p ph t : Nat, p ≠ 0 →
    t ≤ boundaryAtOrAfter p ph t ∧ ph ≤ boundaryAtOrAfter p ph t ∧ (boundaryAtOrAfter p ph t - ph) % p = 0 ∧
    ∀ b : Nat, t ≤ b → ph ≤ b → (b - ph) % p = 0 → boundaryAtOrAfter p ph t ≤ b

/-- For an image whose list of values rises strictly by ID: writing a parameter keeps the list rising; the parameter
then has the value written, and every other parameter the value it had. The same of a launch-table entry; the
parameters and the entries do not touch one another, and the epoch number stays. -/
def Obligations.ImageReadsWhatWasWritten : Prop :=
  (∀ (img : Image) (id : Nat) (w : Word), img.params.Pairwise (fun p q => p.1 < q.1) →
    (img.write id w).params.Pairwise (fun p q => p.1 < q.1) ∧
    (∀ k : Nat, (img.write id w).val k = if k = id then w else img.val k) ∧
    (img.write id w).launch = img.launch ∧ (img.write id w).number = img.number) ∧
  (∀ (img : Image) (n e : Nat) (w0 w1 : Word), e < 512 → img.launch.Pairwise (fun p q => p.1 < q.1) →
    (img.writeEntry n e w0 w1).launch.Pairwise (fun p q => p.1 < q.1) ∧
    (∀ k f : Nat, f < 512 → (img.writeEntry n e w0 w1).entry k f = if k = n ∧ f = e then (w0, w1) else img.entry k f) ∧
    (img.writeEntry n e w0 w1).params = img.params ∧ (img.writeEntry n e w0 w1).number = img.number)

/-- The first data word of GET_STATUS, field by field as R532 places it: state label, transition, role, node,
supervisor mode, coverage, highest fault class, STAGING_OPEN, ADMITTED, the patterns of the traction channels, the
converter and the charger, the patterns of the actuators, EN, FLT, HVIL, and bit 0, which is 0. -/
def Obligations.StatusWordFields : Prop :=
  ∀ m : Module,
    bits (statusWord m) 31 29 = m.label.code ∧ bit (statusWord m) 28 = m.inTransition ∧
    bit (statusWord m) 27 = m.isHead ∧ bits (statusWord m) 26 23 = m.straps.node.val ∧
    bits (statusWord m) 22 21 = m.lockstep.mode.code ∧ bit (statusWord m) 20 = m.coverage ∧
    bits (statusWord m) 19 18 = m.highest ∧ bit (statusWord m) 17 = m.epochs.staged.isSome ∧
    bit (statusWord m) 16 = m.isAdmitted ∧ bits (statusWord m) 15 14 = (m.patternOf .ta).code ∧
    bits (statusWord m) 13 12 = (m.patternOf .tb).code ∧ bits (statusWord m) 11 10 = (m.patternOf .cv).code ∧
    bits (statusWord m) 9 8 = (m.patternOf .cg).code ∧ (∀ a : Fin 4, bit (statusWord m) (4 + a.val) = m.patterned (.ax a)) ∧
    bit (statusWord m) 3 = m.enHigh ∧ bit (statusWord m) 2 = m.flt ∧ bit (statusWord m) 1 = m.supply.hvil ∧
    bit (statusWord m) 0 = false

/-- After START_UP in OFF, a BUS_WAKE that wakes the module from SLEEP and an accepted RESET_DIE of SUP the label is
STANDBY, no fault is active but EPOCH_BOOT_INVALID, no function carries a pattern, no timed command is pending and no
reply outstanding, the STAGED slot is empty, the live-class parameters stand at Reset, the boot count has risen by
one, and the supervisor mode is that of the straps read. -/
def Obligations.StartForgetsWhatWasActive : Prop :=
  (∀ (dt : Nat) (b : Boot) (lvin : Word) (s t : State) (m : Module), m = advance dt s.mod → m.label = .off →
    exec (.startUp dt b lvin) s = .next t → startedFrom m t.mod) ∧
  (∀ (dt : Nat) (p : Fin 4) (c : WakeCause) (b : Boot) (s t : State) (m : Module), m = advance dt s.mod →
    m.label = .sleep → m.supply.lvinOk → m.wakesOn p c →
    exec (.busWake dt p c b) s = .next t → startedFrom m t.mod) ∧
  (∀ (dt : Nat) (h : Hdr) (b : Boot) (s t : State) (m : Module), m = advance dt s.mod → m.attends →
    resetDieCheck h [0] m = none → exec (.moduleRestart dt h b) s = .next t → startedFrom m t.mod)

/-- Of dt ticks of real time in which nothing falls due and no feedback port has an index or a frame of its tick left
to settle the clock takes every one; the Spindle count rises by dt while the Spindle runs and stands otherwise, and
wraps from 2^64 − 1 to 0; beside the clocks only the crossings (handshakes), the gate edges of the islands and the
regenerated edges of the feedback ports move. In OFF and SLEEP that nothing else but the clocks and the handshakes
moves holds of every module, and passing dt ticks and then e is passing dt + e. How the passing of time is a part of a
command is the model's choice (log entry 1). -/
def Obligations.TimeAdvancesEvenly : Prop :=
  (∀ (dt : Nat) (m : Module), m.dueClocks = [] ∧ (∀ p : Fin 6, (m.feedback[p]).waits = false) ∨ m.label.code < 2 →
    (advance dt m).time.elapsed = m.time.elapsed + dt ∧
    (m.time.running = true → (advance dt m).time.count.toNat = (m.time.count.toNat + dt) % 2 ^ 64) ∧
    (m.time.running = false → (advance dt m).time.count = m.time.count)) ∧
  (∀ (dt : Nat) (m : Module), m.dueClocks = [] → (∀ p : Fin 6, (m.feedback[p]).waits = false) →
    ∃ (time : Timing) (crossings : Vector Crossing 22) (islands : Vector Island 36) (feedback : Vector Feedback 6)
      (driven : Nat) (service : Service),
    advance dt m = { m with
      time := time, crossings := crossings, islands := islands, feedback := feedback, drivenTime := driven,
      service := service, out := [] } ∧
    service.bootCount = m.service.bootCount ∧ service.operatingTime = m.service.operatingTime) ∧
  (∀ (dt : Nat) (m : Module), m.label.code < 2 →
    ∃ (time : Timing) (crossings : Vector Crossing 22) (driven : Nat) (service : Service),
    advance dt m = { m with time := time, crossings := crossings, drivenTime := driven, service := service, out := [] } ∧
    service.bootCount = m.service.bootCount ∧ service.operatingTime = m.service.operatingTime) ∧
  (∀ (dt e : Nat) (m : Module), m.label.code < 2 → advance e (advance dt m) = advance (dt + e) m)

/-- For finite words the comparisons of the fabric and of the range checks order the words exactly as the rational
values that their sign, exponent and fraction stand for; the smaller and the larger of two words are one of them and
bound both. -/
def Obligations.WordOrderIsValueOrder : Prop :=
  (∀ a b : Word, F32.nonFinite a = false → F32.nonFinite b = false →
    (F32.lt a b = true ↔ F32.rat a < F32.rat b) ∧ (F32.le a b = true ↔ F32.rat a ≤ F32.rat b)) ∧
  (∀ a b : Word, (F32.fmin a b = a ∨ F32.fmin a b = b) ∧ F32.le (F32.fmin a b) a = true ∧ F32.le (F32.fmin a b) b = true) ∧
  (∀ a b : Word, (F32.fmax a b = a ∨ F32.fmax a b = b) ∧ F32.le a (F32.fmax a b) = true ∧ F32.le b (F32.fmax a b) = true)

/-- What FB_INDEX and SSI_FRAME left for the end of the tick: the first index of an ABZ port without a start by Hall
or SSI sets the count to FB_INDEX_POS and makes the position valid; a later one within FB_INDEX_TOLERANCE corrects the
count and is counted, one beyond it raises FB_INDEX_DEVIATION and takes the validity away; an SSI frame of the tick is
read from there on, against the count at the end of the tick. The first good frame of source 4 sets the count from its
position, carried on by the counts that came since, a later one that deviates by more than FB_SSI_TOLERANCE raises
FB_SSI_MISMATCH, also where the position is not valid. A word that was read with its line wrong is an invalid one; a
good one of source 3 sets the angle of its latch tick. A port with nothing left changes nothing. Where the events of
one tick are taken together is the model's choice (log entry 1). -/
def Obligations.IndexAndFrameSettleAtTheEndOfTheTick : Prop :=
  (∀ (p : Fin 6) (m : Module), (m.feedback[p]).waits = false → settlePort p m = m) ∧
  (∀ (p : Fin 6) (a b : Bool) (m : Module), (m.feedback[p]).indexPending = some (a, b) →
    (m.feedback[p]).ssiPending = none → m.fcounts p ≠ 0 → m.fnum p P.fbIndexGate ≠ 1 ∨ a && b →
    !(m.feedback[p]).lost.testBit 2 → !(m.feedback[p]).indexBlocked → m.fsource p = 1 → (m.feedback[p]).acquire ≠ 2 →
    !m.portBlocked p →
    (settlePort p m).feedback[p].count = m.fnum p P.fbIndexPos ∧ (settlePort p m).feedback[p].posValid = true ∧
    (settlePort p m).feedback[p].speedValid = true ∧ (settlePort p m).feedback[p].acquire = 2 ∧
    (settlePort p m).feedback[p].indexSeen = true ∧ (settlePort p m).feedback[p].indexPending = none ∧
    ∃ f : Feedback, settlePort p m = updFeedback p (fun _ => f) m) ∧
  (∀ (p : Fin 6) (a b : Bool) (m : Module), (m.feedback[p]).indexPending = some (a, b) →
    (m.feedback[p]).ssiPending = none → m.fcounts p ≠ 0 → m.fnum p P.fbIndexGate ≠ 1 ∨ a && b →
    !(m.feedback[p]).lost.testBit 2 → !(m.feedback[p]).indexBlocked → (m.feedback[p]).acquire = 2 →
    (m.feedback[p]).posValid → (m.feedback[p]).indexSeen →
    (indexDeviation (m.fcounts p) (m.feedback[p]).count (m.fnum p P.fbIndexPos)).natAbs ≤ m.fnum p P.fbIndexTolerance →
    (settlePort p m).feedback[p].count = m.fnum p P.fbIndexPos ∧
    (settlePort p m).feedback[p].indexDev =
      indexDeviation (m.fcounts p) (m.feedback[p]).count (m.fnum p P.fbIndexPos) ∧
    ((settlePort p m).feedback[p].corrections =
      if (settlePort p m).feedback[p].indexDev = 0 then (m.feedback[p]).corrections
      else inc32 (m.feedback[p]).corrections) ∧
    ∃ f : Feedback, settlePort p m = updFeedback p (fun _ => f) m) ∧
  (∀ (p : Fin 6) (a b : Bool) (m : Module), (m.feedback[p]).indexPending = some (a, b) →
    (m.feedback[p]).ssiPending = none → m.fcounts p ≠ 0 → m.fnum p P.fbIndexGate ≠ 1 ∨ a && b →
    !(m.feedback[p]).lost.testBit 2 → !(m.feedback[p]).indexBlocked → (m.feedback[p]).acquire = 2 →
    (m.feedback[p]).posValid → (m.feedback[p]).indexSeen →
    m.fnum p P.fbIndexTolerance < (indexDeviation (m.fcounts p) (m.feedback[p]).count (m.fnum p P.fbIndexPos)).natAbs →
    settlePort p m = raisePort F.fbIndexDeviation p false (updFeedback p (fun f => { f with
      indexPending := none,
      indexDev := indexDeviation (m.fcounts p) (m.feedback[p]).count (m.fnum p P.fbIndexPos),
      posValid := false, indexBlocked := true }) m)) ∧
  (∀ (p : Fin 6) (w : Word) (bad : Bool) (m : Module), (m.feedback[p]).indexPending = none →
    (m.feedback[p]).ssiPending = some (w, bad) →
    settlePort p m = updFeedback p (fun f => { f with
      ssiPending := none,
      ssiReading := some { word := w, lineBad := bad, tick := m.time.count.toNat, count := f.count, passed := f.passed,
                           readyAt := m.time.elapsed + m.ssiTicks p } }) m) ∧
  (∀ (p : Fin 6) (x : SsiFrame) (frac : Nat) (m : Module), (m.feedback[p]).ssiStarted = false → !m.portBlocked p →
    m.fcounts p ≠ 0 → x.passed = (m.feedback[p]).passed →
    (useSsi p x frac m).feedback[p].count = (frac * m.fcounts p + 2 ^ 31) / 2 ^ 32 % m.fcounts p ∧
    (useSsi p x frac m).feedback[p].posValid = true ∧ (useSsi p x frac m).feedback[p].speedValid = true ∧
    (useSsi p x frac m).feedback[p].acquire = 2 ∧ (useSsi p x frac m).feedback[p].ssiStarted = true ∧
    ∃ f : Feedback, useSsi p x frac m = updFeedback p (fun _ => f) m) ∧
  (∀ (p : Fin 6) (x : SsiFrame) (frac : Nat) (m : Module), (m.feedback[p]).ssiStarted → m.fcounts p ≠ 0 →
    tolWord (m.fpar p P.fbSsiTolerance) < (angleDiff (frac * m.fpoles p)
      (x.count * m.fpoles p % m.fcounts p * 2 ^ 32 / m.fcounts p)).natAbs →
    useSsi p x frac m = raisePort F.fbSsiMismatch p false (updFeedback p (fun f => { f with posValid := false }) m)) ∧
  (∀ (p : Fin 6) (x : SsiFrame) (m : Module), x.lineBad → (m.feedback[p]).ssiBad ≠ 2 →
    ssiRead p x m = portError p (updFeedback p (fun f => { f with
      ssiWord := x.word, ssiReading := none, ssiBad := f.ssiBad + 1 }) m)) ∧
  (∀ (p : Fin 6) (x : SsiFrame) (frac : Nat) (m n : Module), m.goodSsi p x →
    frac = m.ssiPosition p x.word * 2 ^ 32 / 2 ^ m.fnum p P.fbSsiTurnBits →
    n = endCond F.fbSsiError p.val (updFeedback p (fun f => { f with ssiWord := x.word, ssiReading := none }) m) →
    (m.fsource p = 4 →
      ssiRead p x m = updFeedback p (fun f => { f with
        ssiBad := 0, ssiFresh := true, ssiAngle := word frac, ssiAt := some x.tick }) (useSsi p x frac n)) ∧
    (m.fsource p = 3 → (m.feedback[p]).ssiAt = none → (m.feedback[p]).ssiTrail = [] → !n.portBlocked p →
      ssiRead p x m = updFeedback p (fun f => { f with
        ssiBad := 0, ssiFresh := true, ssiAngle := word frac, ssiAt := some x.tick,
        ssiTrail := [(x.tick, (frac : Int))], angle := word (frac * m.fpoles p + offsetWord (m.fpar p P.fbAngleOffset)),
        angleAt := x.tick, posValid := true, speedValid := true, acquire := 2 }) n))

/-- WRITE_LIVE, TORQUE_SETPOINT, SPEED_SETPOINT, SHIFT_REQUEST and PARK_LOCK, timed and free of every other refusal,
are refused with BUSY, detail 0, where 32 timed commands are pending. -/
def Obligations.TimedCommandsHaveRoomForThirtyTwo : Prop :=
  (∀ (dt : Nat) (r : Req) (lo : Word) (hi : Word) (ws : List Word) (s : State) (m : Module), m = advance dt s.mod →
    m.attends → r.hdr.onlyTimed → r.words = lo :: hi :: ws → m.ahead r.words → 32 ≤ m.interp.timed.length →
    2 ≤ ws.length → ws.length ≤ 60 → ws.length % 2 = 0 →
    (indexed (pairsOf ws)).all (fun p => (pairEncoding p.1 p.2).isNone) → liveChecks (pairsOf ws) m = none →
    exec (.writeLive dt r) s = became (refuse 0x13 r.hdr r.words.length .busy 0 m) s) ∧
  (∀ (dt : Nat) (r : Req) (lo : Word) (hi : Word) (ws : List Word) (c : Word) (v : Word) (s : State) (m : Module), m =
     advance dt s.mod →
    m.attends → r.hdr.onlyTimed → r.words = lo :: hi :: ws → m.ahead r.words → 32 ≤ m.interp.timed.length →
    ws = [c, v] → c.toNat ≤ 1 → !m.lockstepRequired → setpointChecks false [c, v] m = none →
    exec (.torqueSetpoint dt r) s = became (refuse 0x40 r.hdr r.words.length .busy 0 m) s) ∧
  (∀ (dt : Nat) (r : Req) (lo : Word) (hi : Word) (ws : List Word) (c : Word) (v : Word) (s : State) (m : Module), m =
     advance dt s.mod →
    m.attends → r.hdr.onlyTimed → r.words = lo :: hi :: ws → m.ahead r.words → 32 ≤ m.interp.timed.length →
    ws = [c, v] → c.toNat ≤ 1 → !m.lockstepRequired → setpointChecks true [c, v] m = none →
    exec (.speedSetpoint dt r) s = became (refuse 0x41 r.hdr r.words.length .busy 0 m) s) ∧
  (∀ (dt : Nat) (r : Req) (lo : Word) (hi : Word) (ws : List Word) (w : Word) (s : State) (m : Module), m = advance dt
     s.mod →
    m.attends → r.hdr.onlyTimed → r.words = lo :: hi :: ws → m.ahead r.words → 32 ≤ m.interp.timed.length → ws = [w] →
    bits w 31 5 = 0 → !m.lockstepRequired → moveChecks false w m = none →
    exec (.shiftRequest dt r) s = became (refuse 0x48 r.hdr r.words.length .busy 0 m) s) ∧
  (∀ (dt : Nat) (r : Req) (lo : Word) (hi : Word) (ws : List Word) (w : Word) (s : State) (m : Module), m = advance dt
     s.mod →
    m.attends → r.hdr.onlyTimed → r.words = lo :: hi :: ws → m.ahead r.words → 32 ≤ m.interp.timed.length → ws = [w] →
    bits w 31 5 = 0 → !m.lockstepRequired → moveChecks true w m = none → moveTarget w ≤ 1 →
    exec (.parkLock dt r) s = became (refuse 0x49 r.hdr r.words.length .busy 0 m) s)

/-- GET_STATUS, ECHO, READ_PARAM, READ_PARAM_BLOCK in its three slots, READ_LAUNCH, READ_SLACK with and without CLEAR,
SCRUB_CONTROL with and without RESTART and READ_FAULTS, well-formed and not refused, complete with OK and the data of
their rules; the only change beside the reply and CMD_ACCEPT_COUNT is the one named. A RESTART of the scrubber of an
AFE is accepted and its reply leaves once its writes have crossed. Rules: spec/14_command_packets.md,
spec/03_control_fabric.md, spec/17_memory_thermal.md. -/
def Obligations.ReadingCommandsComplete : Prop :=
  (∀ (dt : Nat) (r : Req) (s : State) (m : Module), m = advance dt s.mod →
    m.attends → r.hdr.plain → r.words = [] →
    exec (.getStatus dt r) s = replied 0x01 r.hdr r.words.length 0 (statusData m) m s) ∧
  (∀ (dt : Nat) (r : Req) (s : State) (m : Module), m = advance dt s.mod →
    m.attends → r.hdr.plain → r.words.length ≤ 61 →
    exec (.echo dt r) s = replied 0x02 r.hdr r.words.length 0 r.words m s) ∧
  (∀ (dt : Nat) (r : Req) (s : State) (m : Module), m = advance dt s.mod →
    m.attends → r.hdr.plain → 1 ≤ r.words.length → r.words.length ≤ 61 → totalWidth (r.words.map (·.toNat)) ≤ 61 →
    r.words.all (fun w => w.toNat < 65536) → unreadable true (r.words.map (·.toNat)) = none →
    exec (.readParam dt r) s = replied 0x10 r.hdr r.words.length 0
      ((r.words.map (·.toNat)).flatMap (fun id => readInEffect id m)) m s) ∧
  (∀ (dt : Nat) (r : Req) (w : Word) (s : State) (m : Module), m = advance dt s.mod →
    m.attends → r.hdr.plain → r.words = [w] → bits w 31 24 = 0 → bits w 23 22 = 0 → bits w 21 16 ≠ 0 →
    totalWidth (blockIds w) ≤ 61 → unreadable true (blockIds w) = none →
    exec (.readParamBlock dt r) s = replied 0x12 r.hdr r.words.length 0
      ((blockIds w).flatMap (fun id => readInEffect id m)) m s) ∧
  (∀ (dt : Nat) (r : Req) (w : Word) (img : Image) (s : State) (m : Module), m = advance dt s.mod →
    m.attends → r.hdr.plain → r.words = [w] → bits w 31 24 = 0 → bits w 23 22 = 1 → bits w 21 16 ≠ 0 →
    totalWidth (blockIds w) ≤ 61 → unreadable false (blockIds w) = none → m.epochs.staged = some img →
    exec (.readParamBlock dt r) s = replied 0x12 r.hdr r.words.length 0 ((blockIds w).map (fun id => img.read id)) m s) ∧
  (∀ (dt : Nat) (r : Req) (w : Word) (img : Image) (s : State) (m : Module), m = advance dt s.mod →
    m.attends → r.hdr.plain → r.words = [w] → bits w 31 24 = 0 → bits w 23 22 = 2 → bits w 21 16 ≠ 0 →
    totalWidth (blockIds w) ≤ 61 → unreadable false (blockIds w) = none → m.epochs.cellar = some img →
    !m.epochs.cellarBad →
    exec (.readParamBlock dt r) s = replied 0x12 r.hdr r.words.length 0 ((blockIds w).map (fun id => img.read id)) m s) ∧
  (∀ (dt : Nat) (r : Req) (w : Word) (s : State) (m : Module), m = advance dt s.mod →
    m.attends → r.hdr.plain → r.words = [w] → launchWordOk w → launchFirst w + launchCount w ≤ 512 →
    launchCount w ≤ 30 → launchSlot w ≠ 1 || m.epochs.staged.isSome →
    exec (.readLaunch dt r) s = replied 0x25 r.hdr r.words.length 0 (
        (List.range (launchCount w)).flatMap (
            fun i => [
                (
                    (if launchSlot w = 1 then m.epochs.staged.getD m.epochs.active else m.epochs.active).entry
                      (launchRegion w) (launchFirst w + i)).1, (
                    (if launchSlot w = 1 then m.epochs.staged.getD m.epochs.active else m.epochs.active).entry
                      (launchRegion w) (launchFirst w + i)).2])) m s) ∧
  (∀ (dt : Nat) (r : Req) (w : Word) (n : Fin 8) (s : State) (m : Module), m = advance dt s.mod →
    m.attends → r.hdr.plain → r.words = [w] → !bit w 20 → bits w 31 21 = 0 → !bit w 19 → !bit w 9 → bits w 15 10 ≠ 0 →
    bits w 8 0 + bits w 15 10 ≤ 512 → bits w 15 10 ≤ 30 → bits w 18 16 = n.val → m.dieRuns (regionDie n) →
    exec (.readSlack dt r) s = replied 0x77 r.hdr r.words.length 0 (
        ((List.range (bits w 15 10)).map (bits w 8 0 + ·)).flatMap (
            fun e => if clusterMask ((m.regionImage n).entry n.val e).1 = 0 then EntryRec.init.words false else
              ((m.regions[n]).slackRec e).words (isRunAhead ((m.regionImage n).entry n.val e).1))) m s) ∧
  (∀ (dt : Nat) (r : Req) (v : Word) (w : Word) (n : Fin 8) (s : State) (m : Module), m = advance dt s.mod →
    m.attends → r.hdr.plain → r.words = [v] → w = v ||| 0x00100000 → bits w 31 21 = 0 → !bit w 19 → !bit w 9 →
    bits w 15 10 ≠ 0 → bits w 8 0 + bits w 15 10 ≤ 512 → bits w 15 10 ≤ 30 → bits w 18 16 = n.val →
    m.dieRuns (regionDie n) →
    exec (.readSlackClear dt r) s = replied 0x77 r.hdr r.words.length 0 (
        ((List.range (bits w 15 10)).map (bits w 8 0 + ·)).flatMap (
            fun e => if clusterMask ((m.regionImage n).entry n.val e).1 = 0 then EntryRec.init.words false else
              ((m.regions[n]).slackRec e).words (isRunAhead ((m.regionImage n).entry n.val e).1))) (
        updRegion n (
            fun x => { x with
                records := x.records.map (
                    fun p => if ((List.range (bits w 15 10)).map (bits w 8 0 + ·)).contains p.1 then
                      (p.1, p.2.cleared) else p) }) m) s) ∧
  (∀ (dt : Nat) (h : Hdr) (sc : Fin 5) (s : State) (m : Module), m = advance dt s.mod →
    m.attends → h.plain → m.dies[scrubberDie sc].supply ≠ 0 → sc.val < 3 || m.dieRuns (scrubberDie sc) →
    exec (.scrubControl dt h sc) s = replied 0x76 h 1 0 [word (m.memory.scrubbers[sc]).lap] m s) ∧
  (∀ (dt : Nat) (h : Hdr) (sc : Fin 5) (s : State) (m : Module), m = advance dt s.mod →
    m.attends → h.plain → m.dies[scrubberDie sc].supply ≠ 0 → sc.val < 3 →
    exec (.scrubRestart dt h sc) s = replied 0x76 h 1 0 [word (m.memory.scrubbers[sc]).lap] (
        updScrubber sc (
            fun x => { x with
                block := scrubFirst sc.val, address := 0, lapStart := m.time.elapsed, skipped := [], again :=
                  false }) m) s) ∧
  (∀ (dt : Nat) (h : Hdr) (sc : Fin 5) (s : State) (m : Module), m = advance dt s.mod →
    m.attends → h.plain → m.dies[scrubberDie sc].supply ≠ 0 → 3 ≤ sc.val → m.dieRuns (scrubberDie sc) →
    exec (.scrubRestart dt h sc) s = accepted (
        holdWrites (if sc.val = 3 then 0 else 2)
          { (waitingFor 0x76 h 1 (scrubberDie sc).val m) with words := [word (m.memory.scrubbers[sc]).lap] } m) s) ∧
  (∀ (dt : Nat) (r : Req) (w : Word) (s : State) (m : Module), m = advance dt s.mod →
    m.attends → r.hdr.plain → r.words = [w] → bits w 31 8 = 0 →
    exec (.readFaults dt r) s = replied 0x73 r.hdr r.words.length 0 (faultData (bits w 7 0) m)
      (clearFaults ((if r.hdr.data then returnedFaults (bits w 7 0) m else []).filter (m.clearable 2)) m) s)

/-- OPEN_STAGING, STAGE_PARAM, STAGE_LAUNCH, DISCARD_STAGED, COMMIT_EPOCH_AT, REVERT_EPOCH (each alone, relayed to an
admitted Tailstock, and at a Headstock that leads others) and EPOCH_CONFIRM, not refused, complete with the effect of
their rules on the epochs and nothing else. Rules: spec/14_command_packets.md, spec/15_power_states_epochs.md,
spec/03_control_fabric.md, spec/13_system_hotplug.md. -/
def Obligations.StagingCommandsComplete : Prop :=
  (∀ (dt : Nat) (r : Req) (src : Word) (num : Word) (s : State) (m : Module), m = advance dt s.mod →
    m.attends → r.hdr.plain → r.words = [src, num] → src.toNat ≤ 2 → num ≠ 0 → num ≠ m.epochs.active.number →
    !m.epochs.cellar.any (fun c => c.number == num) → m.epochs.staged = none →
    src ≠ 1 || (m.epochs.cellar.isSome && !m.epochs.cellarBad) →
    exec (.openStaging dt r) s = replied 0x20 r.hdr r.words.length 0 [] { m with
        epochs := { m.epochs with
            staged := some {
                (
                    if src = 0 then m.epochs.active else if src = 1 then m.epochs.cellar.getD factoryImage
                      else factoryImage) with
                  number := num }, stagedBad := false } } s) ∧
  (∀ (dt : Nat) (r : Req) (img : Image) (s : State) (m : Module), m = advance dt s.mod →
    m.attends → r.hdr.plain → m.epochs.staged = some img → stageParamCheck r.hdr r.words m = none →
    exec (.stageParam dt r) s = replied 0x11 r.hdr r.words.length 0 []
      { m with epochs := { m.epochs with staged := some (img.writePairs m.epochs.active (pairsOf r.words)) } } s) ∧
  (∀ (dt : Nat) (r : Req) (w : Word) (ws : List Word) (img : Image) (s : State) (m : Module), m = advance dt s.mod →
    m.attends → r.hdr.plain → r.words = w :: ws → ws.length = 2 * launchCount w → launchWordOk w → launchSlot w = 1 →
    (pairsOf ws).all (fun e => launchClass e.1 != 3 && bits e.2 15 10 == 0) → launchFirst w + launchCount w ≤ 512 →
    launchCount w ≤ 30 → m.epochs.staged = some img → !m.frozen →
    exec (.stageLaunch dt r) s = replied 0x24 r.hdr r.words.length 0 [] { m with
        epochs := { m.epochs with
            staged := some (
                (indexed (pairsOf ws)).foldl
                  (fun i p => i.writeEntry (launchRegion w) (launchFirst w + p.1) p.2.1 p.2.2) img) } } s) ∧
  (∀ (dt : Nat) (r : Req) (s : State) (m : Module), m = advance dt s.mod →
    m.attends → r.hdr.plain → r.words = [] → m.epochs.staged.isSome → !m.frozen →
    exec (.discardStaged dt r) s = replied 0x22 r.hdr r.words.length 0 []
      { m with epochs := { m.epochs with staged := none, stagedBad := false } } s) ∧
  (∀ (dt : Nat) (r : Req) (s : State) (m : Module), m = advance dt s.mod →
    m.attends → commitChecks false r.hdr r.words m = none → checkLead r.hdr r.words m = none → !m.leadsOthers →
    !m.asked r.hdr →
    exec (.commitEpochAt dt r) s = replied 0x21 r.hdr r.words.length 1 []
      (makePending false (commitInstant r.hdr r.words m) false m) s) ∧
  (∀ (dt : Nat) (r : Req) (s : State) (m : Module), m = advance dt s.mod →
    m.attends → commitChecks false r.hdr r.words m = none → checkLead r.hdr r.words m = none → !m.leadsOthers →
    m.asked r.hdr →
    exec (.commitEpochAt dt r) s = replied 0x21 r.hdr r.words.length 1 [] { m with
        epochs := { m.epochs with
            provisional := some {
                revert := false, instant := commitInstant r.hdr r.words m, confirmed := false, asked := 0,
                  replies := [] } } } s) ∧
  (∀ (dt : Nat) (r : Req) (img : Image) (s : State) (m : Module), m = advance dt s.mod →
    m.attends → commitChecks false r.hdr r.words m = none → checkLead r.hdr r.words m = none → m.leadsOthers →
    img = m.epochs.staged.getD m.epochs.active →
    exec (.commitEpochAt dt r) s = accepted (
        (
            m.otherNodes.foldl (fun x n => relayTo n (relayedCommit false (commitInstant r.hdr r.words m) img) x)
              { m with
                epochs := { m.epochs with
                    provisional := some {
                        revert := false, instant := commitInstant r.hdr r.words m, confirmed := false, asked
                          := m.sys.admittedMask - 2 ^ m.straps.node.val, replies := [] } } }).withWaiting
          (waitingFor 0x21 r.hdr r.words.length 0 m)) s) ∧
  (∀ (dt : Nat) (r : Req) (s : State) (m : Module), m = advance dt s.mod →
    m.attends → commitChecks true r.hdr r.words m = none → checkLead r.hdr r.words m = none → !m.leadsOthers →
    !m.asked r.hdr →
    exec (.revertEpoch dt r) s = replied 0x23 r.hdr r.words.length 1 []
      (makePending true (commitInstant r.hdr r.words m) false m) s) ∧
  (∀ (dt : Nat) (r : Req) (s : State) (m : Module), m = advance dt s.mod →
    m.attends → commitChecks true r.hdr r.words m = none → checkLead r.hdr r.words m = none → !m.leadsOthers →
    m.asked r.hdr →
    exec (.revertEpoch dt r) s = replied 0x23 r.hdr r.words.length 1 [] { m with
        epochs := { m.epochs with
            provisional := some {
                revert := true, instant := commitInstant r.hdr r.words m, confirmed := false, asked := 0,
                  replies := [] } } } s) ∧
  (∀ (dt : Nat) (r : Req) (img : Image) (s : State) (m : Module), m = advance dt s.mod →
    m.attends → commitChecks true r.hdr r.words m = none → checkLead r.hdr r.words m = none → m.leadsOthers →
    img = m.epochs.cellar.getD m.epochs.active →
    exec (.revertEpoch dt r) s = accepted (
        (
            m.otherNodes.foldl (fun x n => relayTo n (relayedCommit true (commitInstant r.hdr r.words m) img) x)
              { m with
                epochs := { m.epochs with
                    provisional := some {
                        revert := true, instant := commitInstant r.hdr r.words m, confirmed := false, asked
                          := m.sys.admittedMask - 2 ^ m.straps.node.val, replies := [] } } }).withWaiting
          (waitingFor 0x23 r.hdr r.words.length 0 m)) s) ∧
  (∀ (dt : Nat) (r : Req) (p : Provisional) (s : State) (m : Module), m = advance dt s.mod →
    m.attends → r.hdr.viaHead → r.words = [1] → m.epochs.provisional = some p →
    m.time.count.toNat + m.num P.sysCommitConfirm ≤ p.instant.toNat →
    exec (.epochConfirm dt r) s = replied 0x26 r.hdr r.words.length 0 [] (makePending p.revert p.instant true m) s) ∧
  (∀ (dt : Nat) (r : Req) (p : Provisional) (s : State) (m : Module), m = advance dt s.mod →
    m.attends → r.hdr.viaHead → r.words = [0] → m.epochs.provisional = some p →
    m.time.count.toNat + m.num P.sysCommitConfirm ≤ p.instant.toNat →
    exec (.epochConfirm dt r) s = replied 0x26 r.hdr r.words.length 0 []
      { m with epochs := { m.epochs with provisional := none } } s)

/-- WRITE_LIVE, TORQUE_SETPOINT and SPEED_SETPOINT, untimed and timed, FABRIC_SUPPLY_WRITE, FLOG_RECORD_SELECT,
FLOG_COUNT_SELECT and FLOG_ERASE, not refused, complete with the effect of their rules; so do the completions
FABRIC_SUPPLY_CHANGE_DONE and FLOG_ERASE_DONE. Rules: spec/14_command_packets.md, spec/05_torque_control.md,
spec/02_spindle_time.md, spec/03_control_fabric.md, spec/16_faults.md. -/
def Obligations.LiveWritesComplete : Prop :=
  (∀ (dt : Nat) (r : Req) (s : State) (m : Module), m = advance dt s.mod →
    m.attends → r.hdr.plain → 2 ≤ r.words.length → r.words.length ≤ 60 → r.words.length % 2 = 0 →
    (indexed (pairsOf r.words)).all (fun p => (pairEncoding p.1 p.2).isNone) → liveChecks (pairsOf r.words) m = none →
    exec (.writeLive dt r) s = replied 0x13 r.hdr r.words.length 0 [] (applyPairs none (pairsOf r.words) m) s) ∧
  (∀ (dt : Nat) (r : Req) (lo : Word) (hi : Word) (ws : List Word) (s : State) (m : Module), m = advance dt s.mod →
    m.attends → r.hdr.onlyTimed → r.words = lo :: hi :: ws → m.ahead r.words → m.interp.timed.length < 32 →
    2 ≤ ws.length → ws.length ≤ 60 → ws.length % 2 = 0 →
    (indexed (pairsOf ws)).all (fun p => (pairEncoding p.1 p.2).isNone) → liveChecks (pairsOf ws) m = none →
    exec (.writeLive dt r) s = replied 0x13 r.hdr r.words.length 1 [] { m with
        interp := { m.interp with
            timed := m.interp.timed ++ [{ opcode := 0x13, hdr := r.hdr, words := ws, instant := tickOf lo hi }] } } s) ∧
  (∀ (dt : Nat) (h : Hdr) (instant : Tick) (d : Fin 2) (value : Word) (s : State) (m : Module), m = advance dt s.mod →
    m.attends → h.plain → pairEncoding 0 (word (P.fabricSupplyCf0 + d.val), value) = none →
    liveChecks [(word (P.fabricSupplyCf0 + d.val), value)] m = none →
    exec (.fabricSupplyWrite dt h instant d value) s = replied 0x13 h 2 0 []
      (setSupply d (storedWord m.epochs.active (P.fabricSupplyCf0 + d.val) value) m) s) ∧
  (∀ (dt : Nat) (d : Fin 2) (s : State) (m : Module), m = advance dt s.mod →
    m.up → m.supplyChanging d →
    exec (.fabricSupplyChangeDone dt d) s = became { m with
        live := (if d = 0 then { m.live with supplyBusy0 := false } else { m.live with supplyBusy1 := false }) } s) ∧
  (∀ (dt : Nat) (h : Hdr) (instant : Tick) (value : Word) (s : State) (m : Module), m = advance dt s.mod →
    m.attends → h.plain → liveChecks [(word P.flogRecordSelect, value)] m = none →
    exec (.flogRecordSelect dt h instant value) s = replied 0x13 h 2 0 []
      { m with live := { m.live with recordSelect := storedWord m.epochs.active P.flogRecordSelect value } } s) ∧
  (∀ (dt : Nat) (h : Hdr) (instant : Tick) (value : Word) (s : State) (m : Module), m = advance dt s.mod →
    m.attends → h.plain → liveChecks [(word P.flogCountSelect, value)] m = none →
    exec (.flogCountSelect dt h instant value) s = replied 0x13 h 2 0 []
      { m with live := { m.live with countSelect := storedWord m.epochs.active P.flogCountSelect value } } s) ∧
  (∀ (dt : Nat) (h : Hdr) (instant : Tick) (s : State) (m : Module), m = advance dt s.mod →
    m.attends → h.plain → m.label = .standby || m.label = .ready → !m.faults.erasing →
    exec (.flogErase dt h instant) s = replied 0x13 h 2 0 [] { m with faults := { m.faults with erasing := true } } s) ∧
  (∀ (dt : Nat) (s : State) (m : Module), m = advance dt s.mod →
    m.up → m.faults.erasing →
    exec (.flogEraseDone dt) s = became (
        record 0 0 6 0 0
          { m with faults := { m.faults with ring := [], counts := [], written := 0, erasing := false } }) s) ∧
  (∀ (dt : Nat) (r : Req) (c : Word) (v : Word) (s : State) (m : Module), m = advance dt s.mod →
    m.attends → r.hdr.plain → r.words = [c, v] → c.toNat ≤ 1 → !m.lockstepRequired →
    setpointChecks false [c, v] m = none →
    exec (.torqueSetpoint dt r) s = replied 0x40 r.hdr r.words.length 0 [] { m with
        interp := { m.interp with
            liveWrites := m.interp.liveWrites ++ [
                {
                    id := setpointId false c.toNat, value := storedWord m.epochs.active
                      (setpointId false c.toNat) v, from_ := m.time.count, atInstant := false }] } } s) ∧
  (∀ (dt : Nat) (r : Req) (lo : Word) (hi : Word) (ws : List Word) (c : Word) (v : Word) (s : State) (m : Module), m =
     advance dt s.mod →
    m.attends → r.hdr.onlyTimed → r.words = lo :: hi :: ws → m.ahead r.words → m.interp.timed.length < 32 →
    ws = [c, v] → c.toNat ≤ 1 → !m.lockstepRequired → setpointChecks false [c, v] m = none →
    exec (.torqueSetpoint dt r) s = replied 0x40 r.hdr r.words.length 1 [] { m with
        interp := { m.interp with
            timed := m.interp.timed ++ [{ opcode := 0x40, hdr := r.hdr, words := ws, instant := tickOf lo hi }] } } s) ∧
  (∀ (dt : Nat) (r : Req) (c : Word) (v : Word) (s : State) (m : Module), m = advance dt s.mod →
    m.attends → r.hdr.plain → r.words = [c, v] → c.toNat ≤ 1 → !m.lockstepRequired →
    setpointChecks true [c, v] m = none →
    exec (.speedSetpoint dt r) s = replied 0x41 r.hdr r.words.length 0 [] { m with
        interp := { m.interp with
            liveWrites := m.interp.liveWrites ++ [
                {
                    id := setpointId true c.toNat, value := storedWord m.epochs.active
                      (setpointId true c.toNat) v, from_ := m.time.count, atInstant := false }] } } s) ∧
  (∀ (dt : Nat) (r : Req) (lo : Word) (hi : Word) (ws : List Word) (c : Word) (v : Word) (s : State) (m : Module), m =
     advance dt s.mod →
    m.attends → r.hdr.onlyTimed → r.words = lo :: hi :: ws → m.ahead r.words → m.interp.timed.length < 32 →
    ws = [c, v] → c.toNat ≤ 1 → !m.lockstepRequired → setpointChecks true [c, v] m = none →
    exec (.speedSetpoint dt r) s = replied 0x41 r.hdr r.words.length 1 [] { m with
        interp := { m.interp with
            timed := m.interp.timed ++ [{ opcode := 0x41, hdr := r.hdr, words := ws, instant := tickOf lo hi }] } } s)

/-- LOOP_OPEN and LOOP_CLOSE take every loop of their mask, SHIFT_REQUEST and PARK_LOCK start a move at once or become
pending timed commands; each completes when its rules do not refuse it. Rules: spec/14_command_packets.md,
spec/10_gearbox_actuators.md, spec/05_torque_control.md. -/
def Obligations.LoopAndMoveCommandsComplete : Prop :=
  (∀ (dt : Nat) (r : Req) (w : Word) (s : State) (m : Module), m = advance dt s.mod →
    m.attends → r.hdr.plain → r.words = [w] → maskOk w →
    exec (.loopOpen dt r) s = replied 0x42 r.hdr r.words.length 0 [] ((maskLoops w).foldl openLoop m) s) ∧
  (∀ (dt : Nat) (r : Req) (w : Word) (s : State) (m : Module), m = advance dt s.mod →
    m.attends → r.hdr.plain → r.words = [w] → maskOk w → !m.lockstepRequired →
    (maskLoops w).all (fun l => (closeCheck m l).isNone) →
    exec (.loopClose dt r) s = replied 0x43 r.hdr r.words.length 0 [] ((maskLoops w).foldl closeLoop m) s) ∧
  (∀ (dt : Nat) (r : Req) (w : Word) (s : State) (m : Module), m = advance dt s.mod →
    m.attends → r.hdr.plain → r.words = [w] → bits w 31 5 = 0 → !m.lockstepRequired → moveChecks false w m = none →
    exec (.shiftRequest dt r) s = replied 0x48 r.hdr r.words.length 0 [] (startMove (moveActuator w) (moveTarget w) m)
      s) ∧
  (∀ (dt : Nat) (r : Req) (lo : Word) (hi : Word) (ws : List Word) (w : Word) (s : State) (m : Module), m = advance dt
     s.mod →
    m.attends → r.hdr.onlyTimed → r.words = lo :: hi :: ws → m.ahead r.words → m.interp.timed.length < 32 → ws = [w] →
    bits w 31 5 = 0 → !m.lockstepRequired → moveChecks false w m = none →
    exec (.shiftRequest dt r) s = replied 0x48 r.hdr r.words.length 1 [] { m with
        interp := { m.interp with
            timed := m.interp.timed ++ [{ opcode := 0x48, hdr := r.hdr, words := ws, instant := tickOf lo hi }] } } s) ∧
  (∀ (dt : Nat) (r : Req) (w : Word) (s : State) (m : Module), m = advance dt s.mod →
    m.attends → r.hdr.plain → r.words = [w] → bits w 31 5 = 0 → !m.lockstepRequired → moveChecks true w m = none →
    moveTarget w ≤ 1 →
    exec (.parkLock dt r) s = replied 0x49 r.hdr r.words.length 0 [] (startMove (moveActuator w) (moveTarget w) m) s) ∧
  (∀ (dt : Nat) (r : Req) (lo : Word) (hi : Word) (ws : List Word) (w : Word) (s : State) (m : Module), m = advance dt
     s.mod →
    m.attends → r.hdr.onlyTimed → r.words = lo :: hi :: ws → m.ahead r.words → m.interp.timed.length < 32 → ws = [w] →
    bits w 31 5 = 0 → !m.lockstepRequired → moveChecks true w m = none → moveTarget w ≤ 1 →
    exec (.parkLock dt r) s = replied 0x49 r.hdr r.words.length 1 [] { m with
        interp := { m.interp with
            timed := m.interp.timed ++ [{ opcode := 0x49, hdr := r.hdr, words := ws, instant := tickOf lo hi }] } } s)

/-- CHARGE_START, CHARGE_STOP, EXPORT_START and EXPORT_STOP in both forms complete with the effect of their rules
where no rule refuses them. Rules: spec/08_converter_charger.md, spec/14_command_packets.md. -/
def Obligations.ChargeCommandsComplete : Prop :=
  (∀ (dt : Nat) (r : Req) (i : Word) (v : Word) (s : State) (m : Module), m = advance dt s.mod →
    m.attends → r.hdr.plain → r.words = [i, v] → !m.lockstepRequired → !F32.nonFinite i → F32.lt 0 i →
    !F32.lt (m.par P.cvIbatChgMax) i → !F32.nonFinite v → F32.le (m.par P.cvVbatMin) v →
    F32.le v (m.par P.cvVbatMax) → !chargePattern m → m.isAdmitted → m.charger.state = 0 → m.label = .run →
    !m.inTransition → m.num P.cgEnable = 1 → m.converter.closed → !m.chargerFault →
    exec (.chargeStart dt r) s = replied 0x60 r.hdr r.words.length 0 [] (
        keepCheckpoint 3 { m with
            live := { m.live with cgISet := i, cgVSet := v }, charger := { m.charger with
                session := true, ending := false, timerW := 0, timerHalf := false, derated := false, phase := 0,
                  integ := 0, pref := 0, endSince := none, failSince := none, presentSince := none, state := 1,
                  entered := m.time.elapsed } }) s) ∧
  (∀ (dt : Nat) (r : Req) (s : State) (m : Module), m = advance dt s.mod →
    m.attends → r.hdr.plain → r.words = [] → m.charger.state = 4 || m.charger.state = 5 →
    exec (.chargeStop dt r) s = replied 0x61 r.hdr r.words.length 0 [] { m with
        charger := { m.charger with
            handStep := 1, handAt := m.time.elapsed, ending := true, state := 6, entered := m.time.elapsed } } s) ∧
  (∀ (dt : Nat) (h : Hdr) (s : State) (m : Module), m = advance dt s.mod →
    m.attends → h.plain → !m.lockstepRequired → !chargePattern m → m.isAdmitted → m.charger.state = 0 →
    m.label = .run → !m.inTransition → m.num P.exAcEnable = 1 → m.converter.closed → m.charger.pilot = 0 →
    lasted m.time.elapsed m.charger.quietSince 400000000 →
    exec (.exportStartAc dt h) s = replied 0x62 h 1 0 [] { m with
        charger := { m.charger with
            exportV := 0, exportStep := 0, formPhase := 0, limitSince := none, apparentSince := none,
              deviationSince := none, closePv := true, closeDb := true, state := 7, entered := m.time.elapsed } } s) ∧
  (∀ (dt : Nat) (h : Hdr) (s : State) (m : Module), m = advance dt s.mod →
    m.attends → h.plain → !m.lockstepRequired → !m.patterned .cv → m.isAdmitted → exportDcOk m →
    exec (.exportStartDc dt h) s = replied 0x62 h 1 0 []
      { m with converter := { m.converter with outlet := if m.converter.outlet = 0 then 1 else m.converter.outlet } }
      s) ∧
  (∀ (dt : Nat) (h : Hdr) (s : State) (m : Module), m = advance dt s.mod →
    m.attends → h.plain → m.charger.state = 7 || m.charger.state = 8 →
    exec (.exportStopAc dt h) s = replied 0x63 h 1 0 [] { m with
        charger :=
          { m.charger with exportFrom := m.charger.exportV, exportStep := 0, state := 9, entered := m.time.elapsed } }
      s) ∧
  (∀ (dt : Nat) (h : Hdr) (s : State) (m : Module), m = advance dt s.mod →
    m.attends → h.plain →
    exec (.exportStopDc dt h) s = replied 0x63 h 1 0 [] { m with converter := { m.converter with outlet := 0 } } s)

/-- MEASURE_TEMP, the five forms of SELFTEST, CALIBRATE, FILL_MEMORY, GATE_DIAG and ACK_FAULTS complete with the
effect of their rules where no rule refuses them. Rules: spec/14_command_packets.md, spec/17_memory_thermal.md,
spec/09_gate_drive.md, spec/11_analog_front_end.md, spec/16_faults.md. -/
def Obligations.ServiceCommandsComplete : Prop :=
  (∀ (dt : Nat) (r : Req) (w : Word) (s : State) (m : Module), m = advance dt s.mod →
    m.attends → r.hdr.plain → r.words = [w] → bits w 31 6 = 0 → bits w 5 0 ≤ 45 →
    (m.dies.toList.getD (bits w 5 0) (Die.init 0)).supply ≠ 0 → commandCrossing (bits w 5 0) = none →
    exec (.measureTemp dt r) s = accepted (m.withWaiting (waitingFor 0x70 r.hdr r.words.length (bits w 5 0) m)) s) ∧
  (∀ (dt : Nat) (r : Req) (w : Word) (i : Fin 22) (s : State) (m : Module), m = advance dt s.mod →
    m.attends → r.hdr.plain → r.words = [w] → bits w 31 6 = 0 → bits w 5 0 ≤ 45 →
    (m.dies.toList.getD (bits w 5 0) (Die.init 0)).supply ≠ 0 → !m.clockedStopped (bits w 5 0) →
    commandCrossing (bits w 5 0) = some i →
    exec (.measureTemp dt r) s = accepted
      (sendCommand i (m.withWaiting (waitingFor 0x70 r.hdr r.words.length (bits w 5 0) m))) s) ∧
  (∀ (dt : Nat) (r : Req) (s : State) (m : Module), m = advance dt s.mod →
    m.attends → r.hdr.plain → r.words = [0x3F] → !(m.measured 0x3F).any (fun k => m.clockedStopped k.val) →
    exec (.measureTemp dt r) s = accepted (
        ((m.measured 0x3F).filterMap (fun k => commandCrossing k.val)).foldl (fun x i => sendCommand i x)
          (m.withWaiting (waitingFor 0x70 r.hdr r.words.length 0x3F m))) s) ∧
  (∀ (dt : Nat) (h : Hdr) (s : State) (m : Module), m = advance dt s.mod →
    m.attends → h.plain → m.label = .ready → m.lockstep.bist = 0 →
    exec (.selftestSup dt h) s = replied 0x71 h 1 1 []
      { m with lockstep := { m.lockstep with bist := 1, bistFailed := false, delay := [] } } s) ∧
  (∀ (dt : Nat) (h : Hdr) (d : Fin 2) (s : State) (m : Module), m = advance dt s.mod →
    m.attends → h.plain → m.label = .ready → m.dieRuns (if d = 0 then 2 else 3) →
    !(List.finRange 8).any (fun n => regionDie n == (if d = 0 then 2 else 3 : Fin 46) && (m.regions[n]).held) →
    exec (.selftestFabric dt h d) s = replied 0x71 h 1 1 []
      (zeroRegions d.val (mapRegions d.val (fun r => { r.stop with held := true }) m)) s) ∧
  (∀ (dt : Nat) (h : Hdr) (i : Fin 36) (s : State) (m : Module), m = advance dt s.mod →
    m.attends → h.plain → m.atLeastReady → !m.gateBusy → !m.driven || m.heldOff i → m.dieRuns 7 →
    exec (.selftestIsland dt h i) s = accepted (holdWrites 4 (waitingFor 0x71 h 1 (10 + i.val) m) m) s) ∧
  (∀ (dt : Nat) (h : Hdr) (a : Fin 2) (k : Fin 32) (j : Nat) (s : State) (m : Module), m = advance dt s.mod →
    m.attends → h.plain → m.atLeastReady → m.idleComparator a k = some j → !m.twinBusy a → m.afeRuns a →
    exec (.selftestComparatorPair dt h a k) s = accepted
      (holdWrites (if a.val = 0 then 0 else 2) { (waitingFor 0x71 h 1 (twinTarget a false) m) with key := j } m) s) ∧
  (∀ (dt : Nat) (h : Hdr) (a : Fin 2) (i : Fin 4) (j : Nat) (s : State) (m : Module), m = advance dt s.mod →
    m.attends → h.plain → m.atLeastReady → m.idleDetector a i = some j → !m.twinBusy a → m.afeRuns a →
    exec (.selftestDetectorPair dt h a i) s = accepted
      (holdWrites (if a.val = 0 then 0 else 2) { (waitingFor 0x71 h 1 (twinTarget a true) m) with key := j } m) s) ∧
  (∀ (dt : Nat) (r : Req) (w : Word) (a : Fin 2) (s : State) (m : Module), m = advance dt s.mod →
    m.attends → r.hdr.plain → r.words = [w] → bits w 31 1 = 0 → a.val = w.toNat % 2 → m.atLeastReady →
    !m.afe[a].sweep → !m.writesOut (4 + a.val) 0x72 → m.afeRuns a →
    exec (.calibrate dt r) s = accepted
      (holdWrites (if a.val = 0 then 0 else 2) (waitingFor 0x72 r.hdr r.words.length (4 + a.val) m) m) s) ∧
  (∀ (dt : Nat) (r : Req) (w : Word) (dies : List (Fin 46)) (filled : Module) (upper : Module) (s : State)
     (m : Module), m = advance dt s.mod →
    m.attends → r.hdr.plain → r.words = [w] → bits w 31 16 = 0 → bits w 7 0 = 0 →
    bits w 15 8 = 0xFF || (9 ≤ bits w 15 8 && blockValid (bits w 15 8)) → m.label = .ready →
    dies = (List.finRange 46).filter (fun d => (fillBlocks (bits w 15 8)).any (fun c => blockDie c == d)) →
    dies.all (fun d => m.dieRuns d) →
    !dies.any (
        fun d => m.memory.filling.any (fun c => blockDie c == d) || (List.finRange 8).any
          (fun n => regionDie n == d && (m.regions[n]).held)) →
    filled = { m with memory := { m.memory with filling := m.memory.filling ++ fillBlocks (bits w 15 8) } } →
    upper = (
        if dies.contains 2 then zeroRegions 0 (mapRegions 0 (fun r => { r.stop with held := true }) filled) else
          filled) →
    exec (.fillMemory dt r) s = replied 0x75 r.hdr r.words.length 1 []
      (if dies.contains 3 then zeroRegions 1 (mapRegions 1 (fun r => { r.stop with held := true }) upper) else upper)
      s) ∧
  (∀ (dt : Nat) (r : Req) (w : Word) (s : State) (m : Module), m = advance dt s.mod →
    m.attends → r.hdr.plain → r.words = [w] → bits w 31 1 = 0 → m.label = .ready →
    !F32.lt (F32.ofNat 60) (m.diagVdc w.toNat) → !m.gateBusy → m.dieRuns 7 →
    exec (.gateDiag dt r) s = accepted (holdWrites 4 (waitingFor 0x78 r.hdr r.words.length w.toNat m) m) s) ∧
  (∀ (dt : Nat) (r : Req) (w : Word) (s : State) (m : Module), m = advance dt s.mod →
    m.attends → r.hdr.plain → r.words = [w] → bits w 15 0 = 0 →
    bits w 31 16 = 0 || (faultInfo (bits w 31 16)).isSome →
    exec (.ackFaults dt r) s = replied 0x74 r.hdr r.words.length 0
      [pack [((ackedFaults (bits w 31 16) m).length, 16), ((acknowledge (bits w 31 16) m).faults.active.length, 0)]]
      (acknowledge (bits w 31 16) m) s)

/-- ADMIT_TAILSTOCK, RELEASE_TAILSTOCK, TIME_SYNC, the TIME_SYNC probe, ALLOCATE_TORQUE and RELAY complete with the
effect of their rules at the Headstock and, relayed, at a Tailstock, where no rule refuses them. Rules:
spec/13_system_hotplug.md, spec/14_command_packets.md. -/
def Obligations.SystemCommandsComplete : Prop :=
  (∀ (dt : Nat) (r : Req) (w : Word) (n : Fin 16) (s : State) (m : Module), m = advance dt s.mod →
    m.attends → m.leads → r.hdr.plain → r.words = [w] → bits w 31 4 = 0 → n = nodeOf w → !m.wideCommit →
    !m.lockstepRequired → n ≠ m.straps.node → m.statusHeard n → !m.inSet n.val → !(m.sys.nodes[n]).conflict →
    exec (.admitTailstock dt r) s = became (
        relayTo n.val (readSetCrc r.hdr.tag) (
            m.withWaiting { (waitingFor 0x80 r.hdr r.words.length n.val m) with
                words := r.words, key := 0x10 * 256 + r.hdr.tag.toNat })) s) ∧
  (∀ (dt : Nat) (r : Req) (w : Word) (n : Fin 16) (s : State) (m : Module), m = advance dt s.mod →
    m.attends → m.leads → r.hdr.plain → r.words = [w] → bits w 31 4 = 0 → n = nodeOf w → !m.wideCommit →
    !m.lockstepRequired → n ≠ m.straps.node → m.statusHeard n → m.inSet n.val →
    exec (.admitTailstock dt r) s = replied 0x80 r.hdr r.words.length 0 [] m s) ∧
  (∀ (dt : Nat) (r : Req) (w : Word) (n : Fin 16) (s : State) (m : Module), m = advance dt s.mod →
    m.attends → r.hdr.viaHead → r.words = [w] → bits w 31 4 = 0 → n = nodeOf w → !m.wideCommit → !m.lockstepRequired →
    !m.isHead → !m.sys.admitted → ownAdmitCheck m = none →
    exec (.admitTailstock dt r) s = replied 0x80 r.hdr r.words.length 0 [] (becomeAdmitted m) s) ∧
  (∀ (dt : Nat) (r : Req) (w : Word) (n : Fin 16) (s : State) (m : Module), m = advance dt s.mod →
    m.attends → m.leads → r.hdr.plain → r.words = [w] → bits w 31 4 = 0 → n = nodeOf w → !m.wideCommit →
    !m.lockstepRequired → n ≠ m.straps.node → m.statusHeard n → releaseCheck n m = none →
    exec (.releaseTailstock dt r) s = replied 0x81 r.hdr r.words.length 0 []
      (takeRelease n (relayTo n.val (nodePacket 0x81 r.hdr r.words) m)) s) ∧
  (∀ (dt : Nat) (r : Req) (w : Word) (n : Fin 16) (s : State) (m : Module), m = advance dt s.mod →
    m.attends → r.hdr.viaHead → r.words = [w] → bits w 31 4 = 0 → n = nodeOf w → !m.wideCommit → !m.lockstepRequired →
    !m.isHead → releaseCheck n m = none →
    exec (.releaseTailstock dt r) s = replied 0x81 r.hdr r.words.length 0 [] (takeRelease n m) s) ∧
  (∀ (dt : Nat) (r : Req) (w : Word) (s : State) (m : Module), m = advance dt s.mod →
    m.attends → m.leads → r.hdr.plain → r.words = [w] → bits w 31 17 = 0 → bits w 15 4 = 0 →
    bit w 16 || m.heard (nodeOf w) → m.sys.measurement = none →
    exec (.timeSync dt r) s = replied 0x82 r.hdr r.words.length 1 [] (
        startMeasure (
            (
                if bit w 16 then (List.finRange 16).filter
                  (fun k => k != m.straps.node && ((m.sys.nodes[k]).porch || m.inSet k.val)) else [nodeOf w]).map
              (·.val)) m) s) ∧
  (∀ (dt : Nat) (h : Hdr) (t2 : Tick) (t3 : Tick) (s : State) (m : Module), m = advance dt s.mod →
    m.attends → h.viaHead → !m.isHead →
    exec (.timeSyncProbe dt h t2 t3) s = replied 0x82 h 0 0 (tickWords (m.stampOf t2) ++ tickWords (m.stampOf t3)) m s) ∧
  (∀ (dt : Nat) (r : Req) (s : State) (m : Module), m = advance dt s.mod →
    m.attends → allocChecks r.hdr r.words m = none → !m.isHead →
    exec (.allocateTorque dt r) s = replied 0x83 r.hdr r.words.length 1 [] { m with
        sys := { m.sys with
            held := holdAllocation
              { instant := instantOf r.words, shares := allocShares (r.words.drop 2), realloc := false }
              m.sys.held, lastAccepted := some (instantOf r.words) } } s) ∧
  (∀ (dt : Nat) (r : Req) (s : State) (m : Module), m = advance dt s.mod →
    m.attends → allocChecks r.hdr r.words m = none → m.isHead →
    exec (.allocateTorque dt r) s = replied 0x83 r.hdr r.words.length 1 [] (
        sendAllocation { instant := instantOf r.words, shares := allocShares (r.words.drop 2), realloc := false }
          { m with
            sys := { m.sys with
                held := holdAllocation
                  { instant := instantOf r.words, shares := allocShares (r.words.drop 2), realloc := false }
                  m.sys.held, lastAccepted := some (instantOf r.words) } }) s) ∧
  (∀ (dt : Nat) (r : Req) (w : Word) (v : Word) (ws : List Word) (n : Fin 16) (body : List Word) (s : State)
     (m : Module), m = advance dt s.mod →
    m.attends → relayChecks r.hdr r.words m = none → r.words = w :: v :: ws → n = nodeOf w →
    body = (v ||| 2) :: ws.dropLast →
    exec (.relay dt r) s = accepted (
        relayTo n.val (body ++ [crc32c body])
          (m.withWaiting { (waitingFor 0x84 r.hdr r.words.length n.val m) with key := bits (v ||| 2) 31 16 })) s)

/-- SET_POWER_STATE (to the state the module is in, and to another), DEBUG_ATTACH, RESET_DIE, its completion
DIE_RESET_RELEASE, and MODULE_RESTART complete with the effect of their rules where no rule refuses them. Rules:
spec/15_power_states_epochs.md, spec/04_redundancy.md, spec/01_architecture.md, spec/14_command_packets.md. -/
def Obligations.ModuleCommandsComplete : Prop :=
  (∀ (dt : Nat) (r : Req) (w : Word) (s : State) (m : Module), m = advance dt s.mod →
    m.attends → r.hdr.plain → r.words = [w] → bits w 31 3 = 0 → powerOf (bits w 2 0) = m.label → m.label ≠ .off →
    exec (.setPowerState dt r) s = replied 0x30 r.hdr r.words.length 0 [] m s) ∧
  (∀ (dt : Nat) (r : Req) (w : Word) (t : Power) (s : State) (m : Module), m = advance dt s.mod →
    m.attends → r.hdr.plain → r.words = [w] → bits w 31 3 = 0 → t = powerOf (bits w 2 0) → t ≠ .off → t ≠ m.label →
    legalTarget m.label t → !m.inTransition → !m.commitPending → !(t == .sleep && m.epochs.flashPending) →
    !(m.lockstepRequired && (t == .armed || t == .run)) → t ≠ .run || m.isAdmitted → !(t == .armed && m.armBlocked) →
    !(m.driven && t.code ≤ 3 && m.tooFast) →
    exec (.setPowerState dt r) s = replied 0x30 r.hdr r.words.length 1 [] (beginLeg t (stepTowards m.label t) m) s) ∧
  (∀ (dt : Nat) (r : Req) (s : State) (m : Module), m = advance dt s.mod →
    m.attends → r.hdr.plain → r.words = [] → !m.driven →
    exec (.debugAttach dt r) s = replied 0xF0 r.hdr r.words.length 0 [] { m with
        lockstep := { m.lockstep with
            debug := true, mode := if m.lockstep.mode = .lockstep then .suspended else m.lockstep.mode, rollback
              := false, delay := [] } } s) ∧
  (∀ (dt : Nat) (r : Req) (w : Word) (d : Fin 46) (s : State) (m : Module), m = advance dt s.mod →
    m.attends → r.hdr.plain → r.words = [w] → w = word d.val → resettable d.val → m.label = .ready → !m.inTransition →
    !m.dies[d].inReset →
    exec (.resetDie dt r) s = accepted
      (holdDie d (sendResetFrames d ((unstick d m).withWaiting (waitingFor 0xF1 r.hdr r.words.length d.val m)))) s) ∧
  (∀ (dt : Nat) (h : Hdr) (b : Boot) (s : State) (m : Module), m = advance dt s.mod →
    m.attends → h.plain → m.label = .standby || m.label = .ready → !m.dies[(0 : Fin 46)].inReset →
    exec (.moduleRestart dt h b) s = became (restartNow b (sendNew m (sendReply 0xF1 h 1 0 0 [] (countAccepted m)))) s) ∧
  (∀ (dt : Nat) (d : Fin 46) (s : State) (m : Module), m = advance dt s.mod →
    m.up → m.dies[d].inReset → m.dies[d].supply = 1 →
    exec (.dieResetRelease dt d) s = became (resolveWaiting [0xF1] (· == d.val) 0 0 [] (releaseDie d m)) s)

/-- PACKET_RECEIVED of a packet that passes the header checks runs its command with the effect of its rules, and
PACKET_UNDECODABLE is counted. Rules: spec/14_command_packets.md. -/
def Obligations.PacketCommandsComplete : Prop :=
  (∀ (dt : Nat) (t : Transport) (sender : Nat) (via : Via) (fromHead : Bool) (words : List Word) (stamps : Stamps)
     (s : State) (m : Module), m = advance dt s.mod →
    m.attends → 2 ≤ words.length → words.length ≤ 64 → !bit (words.getD 0 0) 3 → headerCheck words = none →
    exec (.packetReceived dt t sender via fromHead words stamps) s = became (
        runCommand (bits (words.getD 0 0) 31 24) (hdrOf t sender via fromHead (words.getD 0 0))
          (words.drop 1).dropLast stamps m) s) ∧
  (∀ (dt : Nat) (s : State) (m : Module), m = advance dt s.mod →
    m.listens →
    exec (.packetUndecodable dt) s = became
      { m with interp := { m.interp with undecodable := inc32 m.interp.undecodable } } s)

/-- TRANSPORT_QUEUE_FULL sends BUSY with detail 0xFFFF and counts the packet; SEGMENT_FRAME on CN1 and on the axle
link ends, opens, continues or discards a reassembly; SEGMENT_TIMEOUT discards the overdue one; SV_FRAME passes its
un-escaped bytes on as a packet or counts them as undecodable. Each conclusion is that exec answers the next state
written out, under hypotheses on the state and the operands alone. Rules: spec/14_command_packets.md. -/
def Obligations.QueueAndSegmentEventsComplete : Prop :=
  (∀ (dt : Nat) (t : Transport) (sender : Nat) (via : Via) (fromHead : Bool) (words : List Word) (stamps : Stamps)
     (s : State) (m : Module), m = advance dt s.mod →
    m.listens → 16 ≤ m.waitingOn t →
    exec (.transportQueueFull dt t sender via fromHead words stamps) s = became (
        sendPacket t sender via (
            [words.getD 0 0 ||| 8, pack [(0x0303, 16), (0xFFFF, 0)]] ++
              [crc32c [words.getD 0 0 ||| 8, pack [(0x0303, 16), (0xFFFF, 0)]]])
          { m with interp := { m.interp with rejected := inc32 m.interp.rejected } }) s) ∧
  (∀ (dt : Nat) (t : Transport) (sender : Nat) (via : Via) (fromHead : Bool) (words : List Word) (stamps : Stamps)
     (s : State) (m : Module), m = advance dt s.mod →
    m.waitingOn t < 16 →
    exec (.transportQueueFull dt t sender via fromHead words stamps) s = became m s) ∧
  (∀ (dt : Nat) (sender : Nat) (via : Via) (fromHead : Bool) (bytes : List Byte) (stamps : Stamps) (n : Byte)
     (rest : List Byte) (s : State) (m : Module), m = advance dt s.mod →
    m.listens → m.dieRuns 6 → bytes = 0xC0 :: n :: rest → 2 ≤ n.toNat → n.toNat ≤ 64 → 4 * n.toNat ≤ rest.length →
    m.interp.reassemblies = [] →
    exec (.segmentFrame dt (.cn1) sender via fromHead bytes stamps) s = became
      (packetBytes .cn1 sender via fromHead (rest.take (4 * n.toNat)) stamps m) s) ∧
  (∀ (dt : Nat) (sender : Nat) (via : Via) (fromHead : Bool) (bytes : List Byte) (stamps : Stamps) (n : Byte)
     (rest : List Byte) (s : State) (m : Module), m = advance dt s.mod →
    m.listens → m.dieRuns 6 → bytes = 0x80 :: n :: rest → !via.classical → bytes.length = 64 → 16 ≤ n.toNat →
    n.toNat ≤ 64 → m.interp.reassemblies = [] →
    exec (.segmentFrame dt (.cn1) sender via fromHead bytes stamps) s = became { m with
        interp := { m.interp with
            reassemblies := [
                {
                    transport := .cn1, sender := sender, total := 4 * n.toNat, bytes := rest, nextSeq := 1,
                      lastAt := m.time.elapsed, via := via }] } } s) ∧
  (∀ (dt : Nat) (sender : Nat) (via : Via) (fromHead : Bool) (bytes : List Byte) (stamps : Stamps) (q : Reassembly)
     (c : Byte) (rest : List Byte) (s : State) (m : Module), m = advance dt s.mod →
    m.listens → m.dieRuns 6 → m.interp.reassemblies = [q] → q.transport = .cn1 → m.time.elapsed ≤ q.lastAt + 4000000 →
    bytes = c :: rest → c.toNat < 16 → c.toNat = q.nextSeq → !via.classical → bytes.length = 64 →
    q.bytes.length + rest.length ≤ q.total →
    exec (.segmentFrame dt (.cn1) sender via fromHead bytes stamps) s = became { m with
        interp := { m.interp with
            reassemblies :=
              [{ q with bytes := q.bytes ++ rest, nextSeq := (q.nextSeq + 1) % 16, lastAt := m.time.elapsed }] } } s) ∧
  (∀ (dt : Nat) (sender : Nat) (via : Via) (fromHead : Bool) (bytes : List Byte) (stamps : Stamps) (q : Reassembly)
     (c : Byte) (rest : List Byte) (s : State) (m : Module), m = advance dt s.mod →
    m.listens → m.dieRuns 6 → m.interp.reassemblies = [q] → q.transport = .cn1 → m.time.elapsed ≤ q.lastAt + 4000000 →
    bytes = c :: rest → 64 ≤ c.toNat → c.toNat < 80 → c.toNat = 64 + q.nextSeq →
    q.total ≤ q.bytes.length + rest.length →
    exec (.segmentFrame dt (.cn1) sender via fromHead bytes stamps) s = became (
        packetBytes .cn1 sender q.via fromHead ((q.bytes ++ rest).take q.total) stamps
          { m with interp := { m.interp with reassemblies := [] } }) s) ∧
  (∀ (dt : Nat) (sender : Nat) (via : Via) (fromHead : Bool) (bytes : List Byte) (stamps : Stamps) (q : Reassembly)
     (c : Byte) (rest : List Byte) (s : State) (m : Module), m = advance dt s.mod →
    m.listens → m.dieRuns 6 → m.interp.reassemblies = [q] → q.transport = .cn1 → bytes = c :: rest → c.toNat < 16 →
    c.toNat ≠ q.nextSeq →
    exec (.segmentFrame dt (.cn1) sender via fromHead bytes stamps) s = became { m with
        interp := { m.interp with
            segmentDrops := inc32 m.interp.segmentDrops, reassemblies := [], undecodable := inc32
              m.interp.undecodable } } s) ∧
  (∀ (dt : Nat) (sender : Nat) (via : Via) (bytes : List Byte) (stamps : Stamps) (seq : Byte) (n : Byte)
     (rest : List Byte) (node : Fin 16) (m1 : Module) (s : State) (m : Module), m = advance dt s.mod →
    m.listens → m.dieRuns 6 → bytes = seq :: 0xC0 :: n :: rest → 2 ≤ n.toNat → n.toNat ≤ 64 →
    4 * n.toNat ≤ rest.length → node = (⟨sender % 16, Nat.mod_lt _ (by decide)⟩ : Fin 16) → m1 = hearFrame 0 node m →
    !m1.copySeen (0x180 + node.val) node.val seq.toNat → m1.interp.reassemblies = [] →
    exec (.segmentFrame dt (.cn2) sender via (false) bytes stamps) s = became (
        packetBytes .cn2 node.val via false (rest.take (4 * n.toNat)) stamps
          (noteCopy (0x180 + node.val) node.val seq.toNat m1)) s) ∧
  (∀ (dt : Nat) (sender : Nat) (via : Via) (bytes : List Byte) (stamps : Stamps) (node : Fin 16) (m1 : Module)
     (s : State) (m : Module), m = advance dt s.mod →
    m.listens → m.dieRuns 6 → node = (⟨sender % 16, Nat.mod_lt _ (by decide)⟩ : Fin 16) →
    m1 = headHeard (hearFrame 1 node m) → m1.copySeen (0x100 + m.straps.node.val) node.val (bytes.getD 0 0).toNat →
    exec (.segmentFrame dt (.cn3) sender via (true) bytes stamps) s = became m1 s) ∧
  (∀ (dt : Nat) (q : Reassembly) (s : State) (m : Module), m = advance dt s.mod →
    m.up → m.interp.reassemblies = [q] → q.lastAt + 4000000 < m.time.elapsed →
    exec (.segmentTimeout dt) s = became { m with
        interp := { m.interp with
            segmentDrops := inc32 m.interp.segmentDrops, reassemblies := [], undecodable := inc32
              m.interp.undecodable } } s) ∧
  (∀ (dt : Nat) (s : State) (m : Module), m = advance dt s.mod →
    m.up → m.interp.reassemblies.all (fun q => m.time.elapsed ≤ q.lastAt + 4000000) →
    exec (.segmentTimeout dt) s = became m s) ∧
  (∀ (dt : Nat) (bytes : List Byte) (bs : List Byte) (s : State) (m : Module), m = advance dt s.mod →
    m.listens → bytes ≠ [] → unescape bytes = some bs →
    exec (.svFrame dt bytes) s = became (packetBytes .sv 0 {} false bs noStamps m) s) ∧
  (∀ (dt : Nat) (bytes : List Byte) (s : State) (m : Module), m = advance dt s.mod →
    m.listens → bytes ≠ [] → unescape bytes = none →
    exec (.svFrame dt bytes) s = became
      { m with interp := { m.interp with undecodable := inc32 m.interp.undecodable } } s)

/-- REPLY_SEND takes the waiting command out and sends its reply with the status, detail and data it came to;
TIMED_COMMAND_DUE takes out the first pending command whose instant is reached, checks its state again, and lets it
take effect or counts it and raises CMD_TIMED_DROPPED. Each conclusion is that exec answers the next state written
out, under hypotheses on the state and the operands alone. Rules: spec/14_command_packets.md. -/
def Obligations.ReplyAndTimedCommandEventsComplete : Prop :=
  (∀ (dt : Nat) (i : Nat) (w : Waiting) (st : Nat) (d : Nat) (data : List Word) (s : State) (m : Module), m = advance
     dt s.mod →
    m.up → m.interp.waiting[i]? = some w → w.result = some (st, d, data) →
    exec (.replySend dt i) s = became (
        sendReply w.opcode w.hdr w.count st d data
          { m with interp := { m.interp with waiting := m.interp.waiting.eraseIdx i } }) s) ∧
  (∀ (dt : Nat) (i : Nat) (w : Waiting) (s : State) (m : Module), m = advance dt s.mod →
    m.up → m.interp.waiting[i]? = some w → w.result = none →
    exec (.replySend dt i) s = became m s) ∧
  (∀ (dt : Nat) (t : TimedCmd) (s : State) (m : Module), m = advance dt s.mod →
    m.up → dueTimed m.time.count m.interp.timed = some t → recheck t m = none →
    exec (.timedCommandDue dt) s = became
      (timedEffect t { m with interp := { m.interp with timed := m.interp.timed.erase t } }) s) ∧
  (∀ (dt : Nat) (t : TimedCmd) (s : State) (m : Module), m = advance dt s.mod →
    m.up → dueTimed m.time.count m.interp.timed = some t → (recheck t m).isSome →
    exec (.timedCommandDue dt) s = became (
        raise F.cmdTimedDropped (t.opcode * 256 + t.hdr.tag.toNat) false { m with
            interp :=
              { m.interp with timed := m.interp.timed.erase t, timedDropped := inc32 m.interp.timedDropped } }) s) ∧
  (∀ (dt : Nat) (s : State) (m : Module), m = advance dt s.mod →
    m.up → dueTimed m.time.count m.interp.timed = none →
    exec (.timedCommandDue dt) s = became m s)

/-- PERIOD_BOUNDARY, LAUNCH (started and skipped), SAMPLE_WORD_ARRIVAL, LANE_COMPLETE, RESOLVE_KEY, COLLECTOR_ACCEPT,
COMMIT_INSTANT and DEFERRED_COMMIT (clean and fallback) complete with the effect of their rules in a region that runs.
Rules: spec/03_control_fabric.md, spec/02_spindle_time.md. -/
def Obligations.RegionEventsComplete : Prop :=
  (∀ (dt : Nat) (n : Fin 8) (m1 : Module) (s : State) (m : Module), m = advance dt s.mod →
    m.up → m.time.valid → m1 = switchRegion n m → m1.atBoundary n →
    !m.supply.transition.any (fun t => t.source == .ready && t.dest == .standby) → m.dieRuns (regionDie n) →
    exec (.periodBoundary dt n) s = became (takeLoops n (startRegion n (takeLive n (takeReleases n m1)))) s) ∧
  (∀ (dt : Nat) (n : Fin 8) (e : Fin 512) (w : Word × Word) (s : State) (m : Module), m = advance dt s.mod →
    m.up → m.regionRuns n → w = (m.regionImage n).entry n.val e.val → clusterMask w.1 ≠ 0 → m.launchDue n w.1 →
    2 ≤ n.val || (m.regionImage n).trOn n.val → !skipped (m.regions[n]).level w.1 (m.launchPeriod n w.1) →
    exec (.launch dt n e) s = became (startInstance n e.val w.1 w.2 m) s) ∧
  (∀ (dt : Nat) (n : Fin 8) (e : Fin 512) (w : Word × Word) (s : State) (m : Module), m = advance dt s.mod →
    m.up → m.regionRuns n → w = (m.regionImage n).entry n.val e.val → clusterMask w.1 ≠ 0 → m.launchDue n w.1 →
    2 ≤ n.val || (m.regionImage n).trOn n.val → skipped (m.regions[n]).level w.1 (m.launchPeriod n w.1) →
    exec (.launch dt n e) s = became (updRegion n (fun x => { x with skips := inc32 x.skips }) m) s) ∧
  (∀ (dt : Nat) (a : Fin 2) (d : Fin 2) (q : QueueEntry) (lanes : List Nat) (code : Nat) (key : Nat) (m2 : Module)
     (s : State) (m : Module), m = advance dt s.mod →
    m.up → m.afe[a].queue.find? (fun x => x.pendingFor d) = some q →
    sendOn m.time.elapsed 1 (m.crossings[ringCrossing a d]).lanes = some lanes → m.afeRuns a →
    m.dieRuns (if d = 0 then 2 else 3) → code = 256 * a.val + bits q.word 31 26 →
    key = 512 * bits q.word 25 20 + code →
    m2 = watchLink d code (
        ((List.finRange 8).filter (fun n => regionDie n == (if d = 0 then 2 else 3 : Fin 46))).foldl
          (fun x n => noteSample n key (sampleArrives n key q.word x)) (
            updCrossing (ringCrossing a d) (fun c => { c with lanes := lanes })
              (updAfe a (fun f => { f with queue := takeEntry d f.queue }) m))) →
    exec (.sampleWordArrival dt a d) s = became (if d.val = 0 then noteLink code m2 else m2) s) ∧
  (∀ (dt : Nat) (n : Fin 8) (unit : Fin 16) (entry : Nat) (second : Bool) (branch : Nat) (i : Instance) (l : Lane)
     (s : State) (m : Module), m = advance dt s.mod →
    m.up → m.dieRuns (regionDie n) →
    (m.regions[n]).flight.find? (fun i => i.entry == entry && !i.quenched && i.lanesOn) = some i →
    (m.regions[n]).laneFor i second branch = some l → l.unit = some unit.val → l.complete (libraryEntry i.word1) →
    exec (.laneComplete dt n unit entry second branch) s = became (
        updRegion n (
            fun x => { x with
                requests := x.requests ++
                  [{ input := unit.val, entry := i.entry, launch := i.launch, item := .lane second branch }] }) m) s) ∧
  (∀ (dt : Nat) (n : Fin 8) (unit : Fin 16) (entry : Nat) (second : Bool) (key : Fin 32) (i : Instance) (c : Fin 2)
     (s : State) (m : Module), m = advance dt s.mod →
    m.up → m.dieRuns (regionDie n) →
    (m.regions[n]).flight.find? (fun i => i.entry == entry && !i.quenched && i.lanesOn) = some i →
    (m.samplesOf n i).all (fun k => i.arrived.contains k) → channelOf n = some c → isDecision (libraryEntry i.word1) →
    exec (.resolveKey dt n unit entry second key) s = became (
        updRegion n (
            fun x => { x with
                requests := x.requests ++ [
                    {
                        input := unit.val, entry := i.entry, launch := i.launch, item := .key second (
                            (
                                (decisionKey c i.period (i.underEpoch n ((i.seen.sampled m).view m)))
                                  ^^^ key.val) % 32) }] }) m) s) ∧
  (∀ (dt : Nat) (n : Fin 8) (unit : Fin 16) (entry : Nat) (second : Bool) (key : Fin 32) (i : Instance) (s : State)
     (m : Module), m = advance dt s.mod →
    m.up → m.dieRuns (regionDie n) →
    (m.regions[n]).flight.find? (fun i => i.entry == entry && !i.quenched && i.lanesOn) = some i →
    (m.samplesOf n i).all (fun k => i.arrived.contains k) →
    !((channelOf n).isSome && isDecision (libraryEntry i.word1)) →
    exec (.resolveKey dt n unit entry second key) s = became (
        updRegion n (
            fun x => { x with
                requests := x.requests ++ [
                    {
                        input := unit.val, entry := i.entry, launch := i.launch, item := .key second
                          (key.val % 32) }] }) m) s) ∧
  (∀ (dt : Nat) (n : Fin 8) (moments : List (List (Nat × Bool))) (upsets : List (Nat × Nat × Word)) (m1 : Module)
     (q : Request) (s : State) (m : Module), m = advance dt s.mod →
    m.up → m.regionRuns n → m1 = runUnits n moments upsets m → lowest (m1.regions[n]).requests = some q →
    exec (.collectorAccept dt n moments upsets) s = became (
        updRegion n (
            fun x => { x with
                requests := x.requests.erase q, flight := updFlight q.id
                  (fun i => { i with accepted := i.accepted ++ [(q.item, m1.time.count)] }) x.flight }) m1) s) ∧
  (∀ (dt : Nat) (n : Fin 8) (moments : List (List (Nat × Bool))) (upsets : List (Nat × Nat × Word)) (m1 : Module)
     (s : State) (m : Module), m = advance dt s.mod →
    m.up → m.regionRuns n → m1 = runUnits n moments upsets m → (m1.regions[n]).requests = [] →
    exec (.collectorAccept dt n moments upsets) s = became m1 s) ∧
  (∀ (dt : Nat) (n : Fin 8) (i : Instance) (m0 : Module) (s : State) (m : Module), m = advance dt s.mod →
    m.up → m.regionRuns n → m.dueInstances n false = [i] →
    m0 = updRegion n (
        fun r => { (r.release [i.id] m.time.count.toNat) with
            flight := r.flight.filter (fun j => !j.dueNow false m.time.count) }) (tapToggle n m) →
    m.outcomeOf n i = .clean → m0.outcomeOf n i = .clean →
    exec (.commitInstant dt n) s = became (checkRate n (commitClean n i m0)) s) ∧
  (∀ (dt : Nat) (n : Fin 8) (i : Instance) (m0 : Module) (o : Outcome) (s : State) (m : Module), m = advance dt s.mod
     →
    m.up → m.regionRuns n → m.dueInstances n false = [i] →
    m0 = updRegion n (
        fun r => { (r.release [i.id] m.time.count.toNat) with
            flight := r.flight.filter (fun j => !j.dueNow false m.time.count) }) (tapToggle n m) →
    m.outcomeOf n i = o → m0.outcomeOf n i = o → o.isFallback →
    exec (.commitInstant dt n) s = became (checkRate n (rollback n (commitFallback n i o m0))) s) ∧
  (∀ (dt : Nat) (n : Fin 8) (i : Instance) (m0 : Module) (s : State) (m : Module), m = advance dt s.mod →
    m.up → m.regionRuns n → m.dueInstances n false = [i] →
    m0 = updRegion n (
        fun r => { (r.release [i.id] m.time.count.toNat) with
            flight := r.flight.filter (fun j => !j.dueNow false m.time.count) }) (tapToggle n m) →
    m.outcomeOf n i = .quench → m0.outcomeOf n i = .quench →
    exec (.commitInstant dt n) s = became (checkRate n (commitFallback n i .quench m0)) s) ∧
  (∀ (dt : Nat) (n : Fin 8) (i : Instance) (m0 : Module) (s : State) (m : Module), m = advance dt s.mod →
    m.up → m.regionRuns n → m.dueInstances n true = [i] →
    m0 = updRegion n (
        fun r => { (r.release [i.id] m.time.count.toNat) with
            flight := r.flight.filter (fun j => !j.dueNow true m.time.count) }) (tapToggle n m) →
    m.outcomeOf n i = .clean → m0.outcomeOf n i = .clean →
    exec (.deferredCommit dt n) s = became (checkRate n (commitClean n i m0)) s) ∧
  (∀ (dt : Nat) (n : Fin 8) (i : Instance) (m0 : Module) (o : Outcome) (s : State) (m : Module), m = advance dt s.mod
     →
    m.up → m.regionRuns n → m.dueInstances n true = [i] →
    m0 = updRegion n (
        fun r => { (r.release [i.id] m.time.count.toNat) with
            flight := r.flight.filter (fun j => !j.dueNow true m.time.count) }) (tapToggle n m) →
    m.outcomeOf n i = o → m0.outcomeOf n i = o → o.isFallback →
    exec (.deferredCommit dt n) s = became (checkRate n (rollback n (commitFallback n i o m0))) s) ∧
  (∀ (dt : Nat) (n : Fin 8) (i : Instance) (m0 : Module) (s : State) (m : Module), m = advance dt s.mod →
    m.up → m.regionRuns n → m.dueInstances n true = [i] →
    m0 = updRegion n (
        fun r => { (r.release [i.id] m.time.count.toNat) with
            flight := r.flight.filter (fun j => !j.dueNow true m.time.count) }) (tapToggle n m) →
    m.outcomeOf n i = .quench → m0.outcomeOf n i = .quench →
    exec (.deferredCommit dt n) s = became (checkRate n (commitFallback n i .quench m0)) s) ∧
  (∀ (dt : Nat) (n : Fin 8) (i : Instance) (m0 : Module) (s : State) (m : Module), m = advance dt s.mod →
    m.up → m.regionRuns n → m.dueInstances n false = [i] →
    m0 = updRegion n (
        fun r => { (r.release [] m.time.count.toNat) with
            flight := r.flight.filter (fun j => !j.dueNow false m.time.count) }) (tapToggle n m) →
    m.outcomeOf n i = .deferred → m0.outcomeOf n i = .deferred →
    exec (.commitInstant dt n) s = became (checkRate n (deferInstance n i m0)) s)

/-- FABRIC_UNIT_STUCK, FABRIC_FALLBACK_RATE, COUNT_WINDOW_END, FABRIC_CHECKPOINT_ERROR, CHECKPOINT_REBUILT,
FABRIC_BIST_DONE (passed and failed), XING_EVENT_OVERFLOW and CROSSING_STALL_TIMEOUT complete with the effect of their
rules. Rules: spec/03_control_fabric.md, spec/02_spindle_time.md. -/
def Obligations.FabricEventsComplete : Prop :=
  (∀ (dt : Nat) (n : Fin 8) (u : Fin 16) (s : State) (m : Module), m = advance dt s.mod →
    m.up → m.dieRuns (regionDie n) →
    exec (.fabricUnitStuck dt n u) s = became (
        raise F.fabricUnitStuck (fabricDetail n.val u.val 0) false
          (updRegion n (fun x => { x with stuck := x.stuck ||| 2 ^ (u.val / 4) }) m)) s) ∧
  (∀ (dt : Nat) (n : Fin 8) (s : State) (m : Module), m = advance dt s.mod →
    m.up → m.dieRuns (regionDie n) → m.rnum n P.fallbackRateLimit < (m.regions[n]).window →
    !(m.regions[n]).windowRaised →
    exec (.fabricFallbackRate dt n) s = became (
        raise F.fabricFallbackRate (fabricDetail n.val 0 0) false
          (updRegion n (fun x => { x with windowRaised := true }) m)) s) ∧
  (∀ (dt : Nat) (s : State) (m : Module), m = advance dt s.mod →
    m.up → m.time.count.toNat % 400000000 = 0 → !m.time.carryWindow →
    exec (.countWindowEnd dt) s = became { m with
        regions := m.regions.map (fun x => { x with window := 0, windowRaised := false }), lockstep :=
          { m.lockstep with window := 0, windowRaised := false }, memory := { m.memory with
            scrubbers := m.memory.scrubbers.map (fun x => { x with window := 0, windowRaised := false }) }, traction
          := m.traction.map (fun x => { x with missWindow := 0, missRaised := false }), feedback := m.feedback.map
          (fun x => { x with window := 0, windowRaised := false }), islands := m.islands.map
          (fun x => { x with window := 0, windowRaised := false }) } s) ∧
  (∀ (dt : Nat) (s : State) (m : Module), m = advance dt s.mod →
    m.up → m.time.count.toNat % 400000000 = 0 → m.time.carryWindow →
    exec (.countWindowEnd dt) s = became { m with time := { m.time with carryWindow := false } } s) ∧
  (∀ (dt : Nat) (n : Fin 8) (s : State) (m : Module), m = advance dt s.mod →
    m.up → m.dieRuns (regionDie n) →
    exec (.fabricCheckpointError dt n) s = became (
        raise F.fabricCheckpointError (fabricDetail n.val 0 0) true
          (updRegion n (fun x => { x with checkpointValid := false, rebuilding := false }) m)) s) ∧
  (∀ (dt : Nat) (n : Fin 8) (m1 : Module) (s : State) (m : Module), m = advance dt s.mod →
    m.up → m.dieRuns (regionDie n) → (m.regions[n]).rebuilding →
    m1 = updRegion n
      (fun x => { x with checkpointValid := true, rebuilding := false, shadow := carriedPart x.memory }) m →
    exec (.checkpointRebuilt dt n) s = became (
        endCond F.fabricCheckpointError (fabricDetail n.val 0 0)
          { m1 with checkpoints := Saved.take n.val (m1.regionImage n) m1.saved m1.checkpoints }) s) ∧
  (∀ (dt : Nat) (d : Fin 2) (failed : Nat) (s : State) (m : Module), m = advance dt s.mod →
    m.up → m.dieRuns (if d = 0 then 2 else 3 : Fin 46) →
    ((List.finRange 8).filter (fun n => regionDie n == (if d = 0 then 2 else 3 : Fin 46))).all
      (fun n => (m.regions[n]).held) →
    !m.memory.filling.any (fun b => 16 ≤ b && (b - 16) / 64 == d.val) → failed % 65536 = 0 →
    exec (.fabricBistDone dt d failed) s = became (
        ((List.finRange 8).filter (fun n => regionDie n == (if d = 0 then 2 else 3 : Fin 46))).foldl
          (fun x n => updRegion n (fun r => { r.resume with failed := 0 }) x)
          (updDie (if d = 0 then 2 else 3 : Fin 46) (fun x => { x with bist := 1 }) m)) s) ∧
  (∀ (dt : Nat) (d : Fin 2) (failed : Nat) (ns : List (Fin 8)) (mask : Fin 8 → Nat) (s : State) (m : Module), m =
     advance dt s.mod →
    m.up → m.dieRuns (if d = 0 then 2 else 3 : Fin 46) →
    ((List.finRange 8).filter (fun n => regionDie n == (if d = 0 then 2 else 3 : Fin 46))).all
      (fun n => (m.regions[n]).held) →
    !m.memory.filling.any (fun b => 16 ≤ b && (b - 16) / 64 == d.val) → failed % 65536 ≠ 0 →
    ns = (List.finRange 8).filter (fun n => regionDie n == (if d = 0 then 2 else 3 : Fin 46)) →
    mask = (fun (n : Fin 8) => failed / 2 ^ (4 * (n.val % 4)) % 16) →
    exec (.fabricBistDone dt d failed) s = became (
        ns.foldl (fun x n => if mask n = 0 then x else raise F.fabricBistFail (fabricDetail n.val 0 0) false x) (
            ns.foldl (fun x n => updRegion n (fun r => { r.resume with failed := mask n }) x)
              (updDie (if d = 0 then 2 else 3 : Fin 46) (fun x => { x with bist := 2 }) m))) s) ∧
  (∀ (dt : Nat) (i : Fin 22) (s : State) (m : Module), m = advance dt s.mod →
    m.up → (m.crossings[i]).line.overflow → (m.crossings[i]).line.busy ≤ m.time.elapsed →
    !(m.crossings[i]).hpLine.overflow →
    exec (.xingEventOverflow dt i) s = became (
        raise F.xingEventOverflow i.val false (
            updCrossing i (
                fun c => { c with
                    overflow := true, line := {
                        events := 0, overflow := false, received := satAdd 0xFFFFFFFF c.line.received
                          c.line.events, busy := m.time.elapsed + roundTrip } }) m)) s) ∧
  (∀ (dt : Nat) (i : Fin 22) (s : State) (m : Module), m = advance dt s.mod →
    m.up → (m.crossings[i]).hpLine.overflow → (m.crossings[i]).hpLine.busy ≤ m.time.elapsed →
    !(m.crossings[i]).line.overflow →
    exec (.xingEventOverflow dt i) s = became (
        raise F.xingEventOverflow i.val false (
            updCrossing i (
                fun c => { c with
                    overflow := true, hpLine := {
                        events := 0, overflow := false, received := satAdd 0xFFFFFFFF c.hpLine.received
                          c.hpLine.events, busy := m.time.elapsed + roundTrip } }) m)) s) ∧
  (∀ (dt : Nat) (d : Fin 46) (i : Fin 22) (ws : List Waiting) (k : Nat) (s : State) (m : Module), m = advance dt s.mod
     →
    m.up → commandCrossing d.val = some i → (m.crossings[i]).stalled.any (fun t => t + 4000 ≤ m.time.elapsed) →
    ws = m.interp.waiting.map (
        fun w => if overdueAccess d.val m.time.elapsed w then
          { w with heldUntil := none, result := some (Status.domainStopped.code, d.val, []) } else w) →
    k = (m.interp.waiting.filter (overdueAccess d.val m.time.elapsed)).length →
    exec (.crossingStallTimeout dt d) s = became (
        drainQueue (
            undoAccess d.val (
                updCrossing i (fun c => { c with stalled := (ws.find? (addresses d.val)).map (·.since) })
                  { m with
                    interp := { m.interp with
                        accepted := m.interp.accepted - k, rejected := satAdd 0xFFFFFFFF m.interp.rejected
                          k, waiting := ws } }))) s)

/-- SPINDLE_TS_REF_LOST, SPINDLE_REF_LOST, SPINDLE_LOST, REFERENCE_RECOVERY, LOCKSTEP_CHECKPOINT (with and without a
rollback), LOCKSTEP_MISMATCH (a retirement that matches, one that does not, one that does not while a rollback runs),
SUP_LOCKSTEP_LOST (a replayed transaction that differs) and SUP_BIST_DONE in both phases complete with the effect of
their rules. Rules: spec/02_spindle_time.md, spec/04_redundancy.md. -/
def Obligations.ReferenceAndLockstepEventsComplete : Prop :=
  (∀ (dt : Nat) (s : State) (m : Module), m = advance dt s.mod →
    m.up → m.num P.tsMode = 1 → !m.time.tsFault → m.time.ref = .ts → !m.time.xtalFault →
    exec (.spindleTsRefLost dt) s = became (
        raise F.spindleTsRefLost 0 true { m with
            time := { m.time with tsFault := true, refLossCount := inc32 m.time.refLossCount, ref := .crystal } }) s) ∧
  (∀ (dt : Nat) (s : State) (m : Module), m = advance dt s.mod →
    m.up → m.num P.tsMode = 1 → !m.time.tsFault → m.time.ref = .ts → m.time.xtalFault →
    exec (.spindleTsRefLost dt) s = became (
        raise F.spindleRefLost 0 true { m with
            time := { m.time with tsFault := true, refLossCount := inc32 m.time.refLossCount, ref := .holdover } }) s) ∧
  (∀ (dt : Nat) (s : State) (m : Module), m = advance dt s.mod →
    m.up → !m.time.xtalFault → m.time.ref = .crystal →
    exec (.spindleRefLost dt) s = became (
        raise F.spindleRefLost 0 true { m with
            time := { m.time with xtalFault := true, refLossCount := inc32 m.time.refLossCount, ref := .holdover } })
      s) ∧
  (∀ (dt : Nat) (s : State) (m : Module), m = advance dt s.mod →
    m.up → m.time.valid →
    exec (.spindleLost dt) s = became (raise F.spindleLost 0 true { m with time := { m.time with valid := false } }) s) ∧
  (∀ (dt : Nat) (s : State) (m : Module), m = advance dt s.mod →
    m.up →
    exec (.referenceRecovery dt (false)) s = became
      (endCond F.spindleTsRefLost 0 { m with time := { m.time with tsFault := false } }) s) ∧
  (∀ (dt : Nat) (s : State) (m : Module), m = advance dt s.mod →
    m.up →
    exec (.referenceRecovery dt (true)) s = became { m with time := { m.time with xtalFault := false } } s) ∧
  (∀ (dt : Nat) (main : Bool) (fallback : Bool) (parity : Bool) (ran : List Retirement) (p : Bool × Module)
     (m2 : Module) (s : State) (m : Module), m = advance dt s.mod →
    m.up → p = retireAll ran (false, m) → p.1 → p.2.paired → p.2.checkpointDue → !p.2.lockstep.rollback →
    m2 = noteTests main fallback parity true p.2 → !m2.registersDiffer → !m2.lockstep.rollback →
    exec (.lockstepCheckpoint dt main fallback parity ran) s = became (drainQueue (saveCheckpoint m2)) s) ∧
  (∀ (dt : Nat) (main : Bool) (fallback : Bool) (parity : Bool) (ran : List Retirement) (p : Bool × Module)
     (m2 : Module) (s : State) (m : Module), m = advance dt s.mod →
    m.up → p = retireAll ran (false, m) → p.1 → p.2.paired → p.2.checkpointDue → p.2.lockstep.rollback →
    p.2.lockstep.replay.length ≤ p.2.lockstep.replayed → m2 = noteTests main fallback parity true p.2 →
    !m2.registersDiffer → m2.lockstep.rollback →
    exec (.lockstepCheckpoint dt main fallback parity ran) s = became (drainQueue (saveCheckpoint (endRollback m2))) s) ∧
  (∀ (dt : Nat) (main : Bool) (fallback : Bool) (parity : Bool) (ran : List Retirement) (p : Bool × Module)
     (m2 : Module) (s : State) (m : Module), m = advance dt s.mod →
    m.up → p = retireAll ran (false, m) → p.1 → p.2.paired → p.2.checkpointDue → !p.2.lockstep.rollback →
    m2 = noteTests main fallback parity true p.2 → m2.registersDiffer → m2.paired → m2.gating ≠ 2 →
    !m2.lockstep.rollback →
    exec (.lockstepCheckpoint dt main fallback parity ran) s = became (
        drainQueue { m2 with
            lockstep := { reloadCores m2.lockstep with
                rollback := true, mismatchTick := m2.time.count, mismatchDetail := lockstepDetail 0
                  m2.lockstep.next0 } }) s) ∧
  (∀ (dt : Nat) (main : Bool) (fallback : Bool) (parity : Bool) (ran : List Retirement) (p : Bool × Module)
     (m2 : Module) (s : State) (m : Module), m = advance dt s.mod →
    m.up → p = retireAll ran (false, m) → p.1 → p.2.paired → p.2.checkpointDue → p.2.lockstep.rollback →
    p.2.lockstep.replay.length ≤ p.2.lockstep.replayed → m2 = noteTests main fallback parity true p.2 →
    m2.registersDiffer → m2.paired → m2.gating ≠ 2 → m2.lockstep.rollback →
    exec (.lockstepCheckpoint dt main fallback parity ran) s = became
      (drainQueue (lockstepLost (lockstepDetail 0 m2.lockstep.next0) m2)) s) ∧
  (∀ (dt : Nat) (ran : List Retirement) (r : Retired) (d : DelayReg) (ds : List DelayReg) (s : State) (m : Module), m
     = advance dt s.mod →
    m.up → m.paired → ran = [.core1 r] → m.lockstep.delay = d :: ds → 3 ≤ m.lockstep.delay.length →
    compareRetired d r m.lockstep = 0 → !(m.lockstep.rollback && replayDiffers d.retired m.lockstep) →
    exec (.lockstepMismatch dt ran) s = became (drainQueue { m with lockstep := matched d r m.lockstep }) s) ∧
  (∀ (dt : Nat) (ran : List Retirement) (r : Retired) (d : DelayReg) (ds : List DelayReg) (s : State) (m : Module), m
     = advance dt s.mod →
    m.up → m.paired → ran = [.core1 r] → m.lockstep.delay = d :: ds → 3 ≤ m.lockstep.delay.length →
    m.gating ≠ 2 || compareRetired d r m.lockstep = 2 → compareRetired d r m.lockstep ≠ 0 → !m.lockstep.rollback →
    exec (.lockstepMismatch dt ran) s = became { m with
        lockstep := {
            reloadCores { m.lockstep with
                parityErrors := if compareRetired d r m.lockstep = 2 then inc32 m.lockstep.parityErrors else
                  m.lockstep.parityErrors } with
              rollback := true, mismatchTick := m.time.count, mismatchDetail := lockstepDetail 1 r.address } } s) ∧
  (∀ (dt : Nat) (ran : List Retirement) (r : Retired) (d : DelayReg) (ds : List DelayReg) (s : State) (m : Module), m
     = advance dt s.mod →
    m.up → m.paired → ran = [.core1 r] → m.lockstep.delay = d :: ds → 3 ≤ m.lockstep.delay.length →
    m.gating ≠ 2 || compareRetired d r m.lockstep = 2 → compareRetired d r m.lockstep ≠ 0 → m.lockstep.rollback →
    exec (.lockstepMismatch dt ran) s = became (
        drainQueue (
            lockstepLost (lockstepDetail 1 r.address) { m with
                lockstep := { m.lockstep with
                    parityErrors := if compareRetired d r m.lockstep = 2 then inc32 m.lockstep.parityErrors
                      else m.lockstep.parityErrors } })) s) ∧
  (∀ (dt : Nat) (ran : List Retirement) (r : Retired) (d : DelayReg) (ds : List DelayReg) (s : State) (m : Module), m
     = advance dt s.mod →
    m.up → m.paired → ran = [.core1 r] → m.lockstep.delay = d :: ds → 3 ≤ m.lockstep.delay.length →
    m.lockstep.rollback → compareRetired d r m.lockstep = 0 → replayDiffers d.retired m.lockstep →
    exec (.supLockstepLost dt ran) s = became (drainQueue (lockstepLost m.lockstep.mismatchDetail m)) s) ∧
  (∀ (dt : Nat) (core : Bool) (main : Bool) (fallback : Bool) (parity : Bool) (s : State) (m : Module), m = advance dt
     s.mod →
    m.up → m.lockstep.bist = 1 → !core →
    exec (.supBistDone dt core main fallback parity) s = became (
        noteTests main fallback parity false { m with
            lockstep := { resumePair m.time.count m.lockstep with
                bist := 2, bistFailed := m.lockstep.bistFailed || (main || fallback || parity) } }) s) ∧
  (∀ (dt : Nat) (core : Bool) (main : Bool) (fallback : Bool) (parity : Bool) (s : State) (m : Module), m = advance dt
     s.mod →
    m.up → m.lockstep.bist = 1 → core →
    exec (.supBistDone dt core main fallback parity) s = became (
        lockstepLost 0 (
            noteTests main fallback parity false (
                updDie 0 (fun d => { d with bist := 2 }) { m with
                    lockstep := { resumePair m.time.count m.lockstep with bist := 0, bistFailed := true } }))) s) ∧
  (∀ (dt : Nat) (core : Bool) (main : Bool) (fallback : Bool) (parity : Bool) (s : State) (m : Module), m = advance dt
     s.mod →
    m.up → m.lockstep.bist = 2 → !core →
    exec (.supBistDone dt core main fallback parity) s = became (
        updDie 0 (fun d => { d with bist := if m.lockstep.bistFailed then 2 else 1 })
          { m with lockstep := { resumePair m.time.count m.lockstep with bist := 0 } }) s) ∧
  (∀ (dt : Nat) (core : Bool) (main : Bool) (fallback : Bool) (parity : Bool) (s : State) (m : Module), m = advance dt
     s.mod →
    m.up → m.lockstep.bist = 2 → core →
    exec (.supBistDone dt core main fallback parity) s = became (
        lockstepLost 0 (
            updDie 0 (fun d => { d with bist := 2 })
              { m with lockstep := { resumePair m.time.count m.lockstep with bist := 0, bistFailed := true } })) s)

/-- FLYING_START, TR_PLAUS_DWELL_EXPIRY, PRESELECT_UPDATE, ISLAND_HEALTH_CHANGE, PATTERN_REEVALUATION and
PATTERN_WRITE_TO_REGION complete with the effect of their rules. Rules: spec/05_torque_control.md,
spec/06_traction_envelope.md. -/
def Obligations.TractionEventsComplete : Prop :=
  (∀ (dt : Nat) (c : Fin 2) (o : Observation) (s : State) (m : Module), m = advance dt s.mod →
    m.up → m.dieRuns (regionDie (channelRegion c)) → (m.traction[c]).loop = .starting → observe c m = some o →
    exec (.flyingStart dt c) s = became (updTraction c (fun t => { t with startObs := some o.kept }) m) s) ∧
  (∀ (dt : Nat) (c : Fin 2) (s : State) (m : Module), m = advance dt s.mod →
    m.up → m.dieRuns (regionDie (channelRegion c)) → observe c m = none →
    exec (.flyingStart dt c) s = became m s) ∧
  (∀ (dt : Nat) (c : Fin 2) (s : State) (m : Module), m = advance dt s.mod →
    m.up → m.dieRuns (regionDie (channelRegion c)) → (m.traction[c]).loop ≠ .starting →
    exec (.flyingStart dt c) s = became m s) ∧
  (∀ (dt : Nat) (c : Fin 2) (k : TrCheck) (s : State) (m : Module), m = advance dt s.mod →
    m.up → m.dieRuns (regionDie (channelRegion c)) → (m.regionImage m.epochs.active.supFin).enables (tractionFunc c) →
    m.driven → plausDwell c k m < (m.traction[c]).outsideFor[k.idx] →
    exec (.trPlausDwellExpiry dt c k) s = became (raise (k.code + 0x1000 * c.val) 0 true m) s) ∧
  (∀ (dt : Nat) (s : State) (m : Module), m = advance dt s.mod →
    m.up →
    exec (.preselectUpdate dt) s = became (
        updTraction 1 (
            fun t =>
              { t with preselected := (preselect 0 m).choosePattern 1, emfRatio := (preselect 0 m).emfRatioOf 1 })
          (updTraction 0 (fun t => { t with preselected := m.choosePattern 0, emfRatio := m.emfRatioOf 0 }) m)) s) ∧
  (∀ (dt : Nat) (i : Fin 36) (s : State) (m : Module), m = advance dt s.mod →
    m.up → i.val < 6 →
    exec (.islandHealthChange dt i) s = became
      (updTraction 0 (fun t => { t with preselected := m.choosePattern 0, emfRatio := m.emfRatioOf 0 }) m) s) ∧
  (∀ (dt : Nat) (i : Fin 36) (s : State) (m : Module), m = advance dt s.mod →
    m.up → 6 ≤ i.val → i.val < 12 →
    exec (.islandHealthChange dt i) s = became
      (updTraction 1 (fun t => { t with preselected := m.choosePattern 1, emfRatio := m.emfRatioOf 1 }) m) s) ∧
  (∀ (dt : Nat) (c : Fin 2) (f : Func) (p : Pattern) (s : State) (m : Module), m = advance dt s.mod →
    m.up → f = tractionFunc c → m.patternOf f = p → p ≠ .none → !m.latchedShort f → !(m.traction[c]).offByRow1 →
    m.enHigh → m.choosePattern c = p →
    exec (.patternReevaluation dt c) s = became (updTraction c (fun t => { t with offByRow1 := false }) m) s) ∧
  (∀ (dt : Nat) (c : Fin 2) (m1 : Module) (s : State) (m : Module), m = advance dt s.mod →
    m.up → m.patternOf (tractionFunc c) = .ascLow || m.patternOf (tractionFunc c) = .ascHigh →
    m.latchedShort (tractionFunc c) →
    m1 = putPattern (tractionFunc c) .off (m.faults.patternBy[(tractionFunc c).idx]).1
      (m.faults.patternBy[(tractionFunc c).idx]).2 (updTraction c (fun t => { t with offByRow1 := true }) m) →
    exec (.patternReevaluation dt c) s = became { m1 with
        faults := { m1.faults with
            releasing := m1.faults.releasing.set (tractionFunc c).idx.val m.faults.releasing[(tractionFunc c).idx]
              (tractionFunc c).idx.isLt } } s) ∧
  (∀ (dt : Nat) (c : Fin 2) (s : State) (m : Module), m = advance dt s.mod →
    m.up → m.dieRuns (regionDie (channelRegion c)) →
    exec (.patternWriteToRegion dt c) s = became (
        updTraction c (
            fun t => Traction.noteLegs m.time.count.toNat { t with
                patternSeen := m.patternOf (tractionFunc c), plausUntil := if m.patternOf (tractionFunc c) =
                  t.patternSeen then t.plausUntil else m.time.elapsed + 2 * m.modelPeriod }) m) s)

/-- CHOPPER_PERIOD, CH_SWITCH_SHORT, CHOPPER_BACKSTOP, DCL_OV1 and DCL_OV2 complete with the effect of their rules.
Rules: spec/06_traction_envelope.md. -/
def Obligations.ChopperEventsComplete : Prop :=
  (∀ (dt : Nat) (vdc : Word) (current : Option Word) (s : State) (m : Module), m = advance dt s.mod →
    m.up → m.dieRuns 7 → m.tch ≠ 0 → m.time.count.toNat % m.tch = 0 → (m.regionImage 2).holds 2 0x061 → m.time.valid →
    exec (.chopperPeriod dt vdc current) s = became { m with
        chopper := { m.chopper with
            startedAt := m.time.elapsed, ended := m.chopper.ended ++
              [(m.chopper.dutyNow, m.chopper.switchNow, vdc, current)], dutyNow := if !m.chopperRuns ||
              m.chopperFailed || m.backstop || m.patterned .ch then 0 else m.chopper.duty, switchNow := if
              m.openMark 0 then 1 else if m.openMark 1 then 0 else m.time.count.toNat / m.tch % 2 } } s) ∧
  (∀ (dt : Nat) (t : Nat) (s : State) (m : Module), m = advance dt s.mod →
    m.up → m.dieRuns 7 → m.shortSeen → m.chopper.shortSince = some t →
    t + F32.usTicks (m.rpar 2 P.chShortDwell) ≤ m.time.elapsed → !m.hasFault F.chSwitchShort →
    exec (.chSwitchShort dt) s = became (
        raise F.chSwitchShort 7 true { m with
            chopper := { m.chopper with switch0 := 2, switch1 := 2, failed := true, duty := 0, dutyNow := 0 } }) s) ∧
  (∀ (dt : Nat) (s : State) (m : Module), m = advance dt s.mod →
    m.up → m.dieRuns 7 → m.backstop →
    exec (.chopperBackstop dt) s = became { m with chopper := { m.chopper with dutyNow := 0 } } s) ∧
  (∀ (dt : Nat) (s : State) (m : Module), m = advance dt s.mod →
    m.up → m.dieRuns 7 → !m.backstop →
    exec (.chopperBackstop dt) s = became m s) ∧
  (∀ (dt : Nat) (s : State) (m : Module), m = advance dt s.mod →
    m.up → F32.le (m.rpar 2 P.dclOv1) (m.v2 1) →
    exec (.dclOv1 dt) s = became (raise F.dclOv1 0 true m) s) ∧
  (∀ (dt : Nat) (s : State) (m : Module), m = advance dt s.mod →
    m.up → F32.le (m.rpar 2 P.dclOv2) (m.v2 1) || m.ov2Tripped →
    exec (.dclOv2 dt) s = became (raise F.dclOv2 0 true m) s)

/-- FB_EDGE (a quadrature count up, an illegal change, a Hall state), FB_INDEX, FB_HALL_INVALID, SSI_FRAME (a good
frame of the position source, a bad one), FB_STANDSTILL_TIMEOUT, FB_LINE_BREAK, FB_LINE_RESTORED and FB_EP_OVERRUN
complete with the effect of their rules, and with what they do to the actuator that uses the port. Rules:
spec/07_position_feedback.md, spec/10_gearbox_actuators.md. -/
def Obligations.FeedbackEventsComplete : Prop :=
  (∀ (dt : Nat) (p : Fin 6) (held : Nat) (s : State) (m : Module), m = advance dt s.mod →
    m.up → m.dieRuns 7 → !m.capturedNow p → m.fnum p P.fbFilter ≤ held → m.usesAbz p →
    exec (.fbEdge dt p (.up) held) s = became
      (axAfterPort p m (noteHallEdge p m (quadEdge p (m.fnum p P.fbDirection == 1) m))) s) ∧
  (∀ (dt : Nat) (p : Fin 6) (held : Nat) (s : State) (m : Module), m = advance dt s.mod →
    m.up → m.dieRuns 7 → !m.capturedNow p → m.fnum p P.fbFilter ≤ held → m.usesAbz p →
    exec (.fbEdge dt p (.down) held) s = became
      (axAfterPort p m (noteHallEdge p m (quadEdge p (!(m.fnum p P.fbDirection == 1)) m))) s) ∧
  (∀ (dt : Nat) (p : Fin 6) (held : Nat) (s : State) (m : Module), m = advance dt s.mod →
    m.up → m.dieRuns 7 → !m.capturedNow p → m.fnum p P.fbFilter ≤ held → m.usesAbz p →
    exec (.fbEdge dt p (.illegal) held) s = became
      (axAfterPort p m (noteHallEdge p m (portError p (updFeedback p (fun f => { f with overRange := true }) m)))) s) ∧
  (∀ (dt : Nat) (p : Fin 6) (held : Nat) (m1 : Module) (s : State) (m : Module), m = advance dt s.mod →
    m.up → m.dieRuns 7 → m.fnum p P.fbFilter ≤ held → m.usesAbz p → m.capturedNow p →
    m1 = updFeedback p
      (fun x => { x with edgesSinceCapture := x.capEdges, overRange := x.capOver, ssiFresh := x.capFresh }) m →
    exec (.fbEdge dt p (.up) held) s = became
      (axAfterPort p m (noteHallEdge p m (recapture p (quadEdge p (m.fnum p P.fbDirection == 1) m1)))) s) ∧
  (∀ (dt : Nat) (p : Fin 6) (e : PortEdge) (held : Nat) (s : State) (m : Module), m = advance dt s.mod →
    m.up → m.dieRuns 7 → !m.capturedNow p → held < m.fnum p P.fbFilter →
    exec (.fbEdge dt p e held) s = became (axAfterPort p m (noteHallEdge p m (m))) s) ∧
  (∀ (dt : Nat) (p : Fin 6) (held : Nat) (x : Fin 8) (s : State) (m : Module), m = advance dt s.mod →
    m.up → m.dieRuns 7 → !m.capturedNow p → m.fnum p P.fbFilter ≤ held → !m.usesHall p →
    exec (.fbEdge dt p (.hall x) held) s = became
      (axAfterPort p m (noteHallEdge p m (updFeedback p (Feedback.hallStands m.time.elapsed x.val) m))) s) ∧
  (∀ (dt : Nat) (p : Fin 6) (held : Nat) (x : Fin 8) (s : State) (m : Module), m = advance dt s.mod →
    m.up → m.dieRuns 7 → !m.capturedNow p → m.fnum p P.fbFilter ≤ held → m.usesHall p →
    exec (.fbEdge dt p (.hall x) held) s = became (
        axAfterPort p m
          (noteHallEdge p m (hallChange p x.val (updFeedback p (fun f => { f with hallNow := x.val }) m)))) s) ∧
  (∀ (dt : Nat) (p : Fin 6) (aHigh : Bool) (bHigh : Bool) (held : Nat) (s : State) (m : Module), m = advance dt s.mod
     →
    m.up → m.dieRuns 7 → !m.capturedNow p → m.fnum p P.fbFilter ≤ held → m.usesAbz p →
    exec (.fbIndex dt p aHigh bHigh held) s = became
      (axAfterPort p m (noteHallEdge p m (updFeedback p (fun f => { f with indexPending := some (aHigh, bHigh) }) m)))
      s) ∧
  (∀ (dt : Nat) (p : Fin 6) (aHigh : Bool) (bHigh : Bool) (held : Nat) (s : State) (m : Module), m = advance dt s.mod
     →
    m.up → m.dieRuns 7 → !m.capturedNow p → held < m.fnum p P.fbFilter →
    exec (.fbIndex dt p aHigh bHigh held) s = became (axAfterPort p m (noteHallEdge p m (m))) s) ∧
  (∀ (dt : Nat) (p : Fin 6) (s : State) (m : Module), m = advance dt s.mod →
    m.up → m.dieRuns 7 → !m.capturedNow p → m.usesHall p → m.fsource p = 5 →
    lasted m.time.elapsed (m.feedback[p]).invalidSince (F32.usTicks (m.fpar p P.fbHallInvalidDwell)) →
    exec (.fbHallInvalid dt p) s = became (
        axAfterPort p m (
            noteHallEdge p m (
                raisePort F.fbHallInvalid p true
                  (updFeedback p (fun f => { f with posValid := false, speedValid := false }) m)))) s) ∧
  (∀ (dt : Nat) (p : Fin 6) (w : Word) (lineBad : Bool) (s : State) (m : Module), m = advance dt s.mod →
    m.up → m.dieRuns 7 → !m.capturedNow p → m.usesSsi p → m.fnum p P.fbSsiInterval ≠ 0 →
    m.time.count.toNat % m.fnum p P.fbSsiInterval = 0 →
    exec (.ssiFrame dt p w lineBad) s = became
      (axAfterPort p m (noteHallEdge p m (updFeedback p (fun f => { f with ssiPending := some (w, lineBad) }) m))) s) ∧
  (∀ (dt : Nat) (p : Fin 6) (e : Edge) (es : List Edge) (s : State) (m : Module), m = advance dt s.mod →
    m.up → m.dieRuns 7 → (m.feedback[p]).edges = e :: es →
    e.at_ + F32.usTicks (m.fpar p P.fbStandstillTimeout) ≤ m.time.count.toNat →
    exec (.fbStandstillTimeout dt p) s = became (updFeedback p (fun f => { f with stood := true }) m) s) ∧
  (∀ (dt : Nat) (p : Fin 6) (l : Fin 5) (s : State) (m : Module), m = advance dt s.mod →
    m.up → m.dieRuns 7 → !m.capturedNow p → m.lineUsed p l.val → l.val ≤ 1 →
    exec (.fbLineBreak dt p l) s = became (
        axAfterPort p m (
            noteHallEdge p m (
                raisePort F.fbLineBreak p true (
                    updFeedback p (
                        fun f => { f with
                            broken := f.broken ||| 2 ^ l.val, lost := f.lost ||| 2 ^ l.val, posValid :=
                              false, speedValid := false, edges := [] }) m)))) s) ∧
  (∀ (dt : Nat) (p : Fin 6) (l : Fin 5) (s : State) (m : Module), m = advance dt s.mod →
    m.up → !m.dieRuns 7 →
    exec (.fbLineBreak dt p l) s = became (updFeedback p (fun f => { f with broken := f.broken ||| 2 ^ l.val }) m) s) ∧
  (∀ (dt : Nat) (p : Fin 6) (held : Nat) (x : Fin 8) (s : State) (m : Module), m = advance dt s.mod →
    m.up → !m.dieRuns 7 → m.fnum p P.fbFilter ≤ held →
    exec (.fbEdge dt p (.hall x) held) s = became (updFeedback p (Feedback.hallStands m.time.elapsed x.val) m) s) ∧
  (∀ (dt : Nat) (p : Fin 6) (l : Fin 5) (s : State) (m : Module), m = advance dt s.mod →
    m.up → m.dieRuns 7 → !m.capturedNow p → m.lineUsed p l.val → l.val = 2 →
    exec (.fbLineBreak dt p l) s = became (
        axAfterPort p m (
            noteHallEdge p m (
                raisePort F.fbLineBreak p true (
                    updFeedback p
                      (fun f => { f with broken := f.broken ||| 2 ^ l.val, lost := f.lost ||| 2 ^ l.val }) m)))) s) ∧
  (∀ (dt : Nat) (p : Fin 6) (l : Fin 5) (s : State) (m : Module), m = advance dt s.mod →
    m.up → (m.feedback[p]).broken = 2 ^ l.val →
    exec (.fbLineRestored dt p l) s = became
      (endCond F.fbLineBreak p.val (updFeedback p (fun f => { f with broken := 0 }) m)) s) ∧
  (∀ (dt : Nat) (p : Fin 2) (q : Fin 6) (s : State) (m : Module), m = advance dt s.mod →
    m.up → m.dieRuns 7 → q = epPort p → m.epRuns q → (m.feedback[q]).epStart = 0 →
    16 < (m.epTarget q - (m.feedback[q]).epCount).natAbs → !isActive m.faults.active F.fbEpOverrun p.val →
    exec (.fbEpOverrun dt p) s = became (raisePort F.fbEpOverrun q false m) s)

/-- CONVERTER_CYCLE_START, DI_COMPARATOR_TRIP, DUTY_MAX_END, PRECHARGE_COMPLETE, CV_PRECHARGE_FAIL, DC_EXPORT_END,
PILOT_CLASSIFY, PROXIMITY_CLASSIFY, SOURCE_LOST, CH_STATE_EVALUATION and CV_CG_PLAUS_DWELL_EXPIRY complete with the
effect of their rules. Rules: spec/08_converter_charger.md, spec/11_analog_front_end.md. -/
def Obligations.ConverterEventsComplete : Prop :=
  (∀ (dt : Nat) (j : Fin 4) (s : State) (m : Module), m = advance dt s.mod →
    m.up → m.dieRuns 7 → m.tsw ≠ 0 → m.inCycle j = 0 → m.legDriven → m.time.valid → m.regulationOf j = 2 →
    exec (.converterCycleStart dt j) s = became (
        regulationDecision j 1 { m with
            converter := { m.converter with
                legs := Vector.upd m.converter.legs j (
                    fun l => { l with
                        ipk := l.nextIpk, slope := l.nextSlope, lowOn := true, onSince := m.time.count.toNat
                          + (if l.cycling && !l.lowOn then m.rnum 2 (P.gdDeadTime + 0x80) else 0), trip :=
                          l.trip && !l.lowOn, cycling := true }) } }) s) ∧
  (∀ (dt : Nat) (j : Fin 4) (s : State) (m : Module), m = advance dt s.mod →
    m.up → m.dieRuns 7 → m.tsw ≠ 0 → m.inCycle j = 0 → m.legDriven → m.time.valid → m.regulationOf j ≠ 2 →
    exec (.converterCycleStart dt j) s = became { m with
        converter := { m.converter with
            legs := Vector.upd m.converter.legs j (
                fun l => { l with
                    ipk := l.nextIpk, slope := l.nextSlope, lowOn := true, onSince := m.time.count.toNat +
                      (if l.cycling && !l.lowOn then m.rnum 2 (P.gdDeadTime + 0x80) else 0), trip := l.trip &&
                      !l.lowOn, cycling := true }) } } s) ∧
  (∀ (dt : Nat) (j : Fin 4) (levels : List Word) (m1 : Module) (s : State) (m : Module), m = advance dt s.mod →
    m.up → m.dieRuns 7 → m1 = regulationDecision j 2 m → (m.converter.legs[j]).lowOn → m.diDecides j levels →
    exec (.diComparatorTrip dt j levels) s = became (
        noteEvent 1 { m1 with
            converter := { m1.converter with
                legs := Vector.upd m1.converter.legs j (fun l => { l with lowOn := false, trip := true }) } }) s) ∧
  (∀ (dt : Nat) (j : Fin 4) (s : State) (m : Module), m = advance dt s.mod →
    m.up → m.dieRuns 7 → (m.converter.legs[j]).lowOn →
    (F32.toInt (F32.mul (m.rpar 2 P.cvDutyMax) (F32.ofNat m.tsw))).toNat ≤ m.inCycle j →
    exec (.dutyMaxEnd dt j) s = became { m with
        converter := { m.converter with
            legs := Vector.upd m.converter.legs j
              (fun l => { l with lowOn := false, trip := false, dutyMaxAt := some m.time.elapsed }) } } s) ∧
  (∀ (dt : Nat) (s : State) (m : Module), m = advance dt s.mod →
    m.up → m.converter.precharge = 2 || (m.converter.precharge ≠ 0 && !m.enabled .cv) → m.withinTol →
    lasted m.time.elapsed m.converter.withinSince 400000 →
    exec (.prechargeComplete dt) s = became { m with
        supply := { m.supply with transition := m.supply.transition.map (fun t => { t with stage := 2 }) },
          converter := { m.converter with precharged := true, precharge := 0 } } s) ∧
  (∀ (dt : Nat) (s : State) (m : Module), m = advance dt s.mod →
    m.up → m.supply.transition.any (fun t => t.source == .ready && t.dest == .armed) → !m.converter.precharged →
    m.converter.prechargeAt + m.us P.cvPrechargeTimeout ≤ m.time.elapsed →
    exec (.cvPrechargeFail dt) s = became (abandon 0xFF (raise F.cvPrechargeFail 0 false m)) s) ∧
  (∀ (dt : Nat) (s : State) (m : Module), m = advance dt s.mod →
    m.up → m.converter.outlet ≠ 0 → !m.supply.hvil →
    exec (.dcExportEnd dt (.hvil)) s = became
      (raise F.doHvilOpen 0 false { m with converter := { m.converter with outlet := 0 } }) s) ∧
  (∀ (dt : Nat) (s : State) (m : Module), m = advance dt s.mod →
    m.up → m.converter.outlet ≠ 0 → F32.lt (m.rpar 2 P.doITrip) (F32.abs m.converter.outletCurrent) →
    exec (.dcExportEnd dt (.overcurrent)) s = became
      (raise F.doOvercurrent 0 true { m with converter := { m.converter with outlet := 0 } }) s) ∧
  (∀ (dt : Nat) (p : PilotLine) (s : State) (m : Module), m = advance dt s.mod →
    m.up →
    exec (.pilotClassify dt p) s = became (
        updCharger (
            fun c => { c with
                pilotSeen := threeInRow c.pilotSeen (pilotClass p), pilotIn := if
                  (threeInRow c.pilotSeen (pilotClass p)).2 = 3 then pilotClass p else c.pilotIn, dutyIn := if
                  p.pwm then meanDuty ((p.duties ++ m.charger.pilotDuties).take 4) else fOne, pilotDuties := if
                  p.pwm then (p.duties ++ m.charger.pilotDuties).take 4 else [], digitalIn := between
                  (dec 3 100) (if p.pwm then meanDuty ((p.duties ++ m.charger.pilotDuties).take 4) else fOne)
                  (dec 7 100) }) m) s) ∧
  (∀ (dt : Nat) (resistance : Word) (s : State) (m : Module), m = advance dt s.mod →
    m.up →
    exec (.proximityClassify dt resistance) s = became (
        updCharger (
            fun c => { c with
                proximitySeen := threeInRow c.proximitySeen (proximityClass resistance), proximityIn := if
                  (threeInRow c.proximitySeen (proximityClass resistance)).2 = 3 then proximityClass resistance
                  else c.proximityIn }) m) s) ∧
  (∀ (dt : Nat) (s : State) (m : Module), m = advance dt s.mod →
    m.up → m.charger.heard → !m.charger.pfClosed → lasted m.time.elapsed m.charger.failSince 8000000 →
    m.charger.state = 4 → m.charger.s2 → !m.charger.acOk → m.charger.pilot < 4 → m.charger.proximity ≠ 5 →
    exec (.sourceLost dt) s = became (
        keepCheckpoint 3 (
            showCh (
                startHandover false false (
                    raise F.cgAcLost 0 false
                      { m with charger := { m.charger with source := false, presentSince := none } })))) s) ∧
  (∀ (dt : Nat) (s : State) (m : Module), m = advance dt s.mod →
    m.up → !m.charger.evalDue →
    exec (.chStateEvaluation dt) s = became m s) ∧
  (∀ (dt : Nat) (m1 : Module) (s : State) (m : Module), m = advance dt s.mod →
    m.up → m.charger.evalDue → m1 = timerTick (updCharger (fun c => { c with evalDue := false }) m) →
    m1.charger.state ≠ 7 → m1.charger.state ≠ 8 →
    exec (.chStateEvaluation dt) s = became (keepCheckpoint 3 (showCh (exportRamp (stateTick m1)))) s) ∧
  (∀ (dt : Nat) (m1 : Module) (s : State) (m : Module), m = advance dt s.mod →
    m.up → m.charger.evalDue → m1 = timerTick (updCharger (fun c => { c with evalDue := false }) m) →
    m1.charger.state = 7 || m1.charger.state = 8 →
    exec (.chStateEvaluation dt) s = became (keepCheckpoint 3 (showCh (exportRamp (stateTick (exportTick m1))))) s) ∧
  (∀ (dt : Nat) (k : CvCheck) (s : State) (m : Module), m = advance dt s.mod →
    m.up → (m.regionImage m.epochs.active.supFin).enables (if k.conv then .cv else .cg) → m.driven →
    F32.usTicks (m.rpar m.epochs.active.supFin k.dwell) < k.outside m →
    exec (.cvCgPlausDwellExpiry dt k) s = became (raise k.code k.detail true m) s)

/-- ISLAND_FRAME (good, good after a lost link, bad, bad above the rate limit), ISLAND_STATUS_FRAME, GD_LINK_LOST at
both ends, GD_UVLO, UVLO_RECOVERY, ISLAND_RAIL_TIMEOUT, GD_DESAT, GD_HARD_SHORT and SOFT_TURN_OFF_STAGE complete with
the effect of their rules on a supplied island. Rules: spec/09_gate_drive.md. -/
def Obligations.IslandEventsComplete : Prop :=
  (∀ (dt : Nat) (i : Fin 36) (s : State) (m : Module), m = advance dt s.mod →
    m.up → m.islandSupplied i → m.dieRuns 7 → !(m.islands[i]).ignoresLink →
    exec (.islandFrame dt i (true)) s = became (
        followCond i (
            followGate m.time.elapsed i (
                updIsland i (
                    fun x => { x with
                        frameOff := false, waits := false, linkDown := false, goodFrameAt := m.time.elapsed }) m))) s) ∧
  (∀ (dt : Nat) (i : Fin 36) (s : State) (m : Module), m = advance dt s.mod →
    m.up → m.islandSupplied i → m.dieRuns 7 → !(m.islands[i]).ignoresLink → (m.islands[i]).window < 100 →
    exec (.islandFrame dt i (false)) s = became (
        updIsland i (
            fun x => { x with
                linkErrors := satAdd 255 x.linkErrors 1, window := (m.islands[i]).window + 1, frameOff :=
                  x.frameOff || x.output, output := false }) m) s) ∧
  (∀ (dt : Nat) (i : Fin 36) (s : State) (m : Module), m = advance dt s.mod →
    m.up → m.islandSupplied i → m.dieRuns 7 → !(m.islands[i]).ignoresLink → 100 ≤ (m.islands[i]).window →
    !(m.islands[i]).windowRaised → !m.unused i →
    exec (.islandFrame dt i (false)) s = became (
        raise F.gdLinkErrorRate i.val false (
            updIsland i (fun x => { x with windowRaised := true }) (
                updIsland i (
                    fun x => { x with
                        linkErrors := satAdd 255 x.linkErrors 1, window := (m.islands[i]).window + 1,
                          frameOff := x.frameOff || x.output, output := false }) m))) s) ∧
  (∀ (dt : Nat) (i : Fin 36) (q : Module) (s : State) (m : Module), m = advance dt s.mod →
    m.up → m.islandSupplied i → m.dieRuns 7 → (m.islands[i]).held →
    q = followCond i (updIsland i (fun x => { x with goodStatusAt := m.time.elapsed, statusDown := false }) m) →
    (q.islands[i]).cause ≠ 0 → !(q.islands[i]).reported → (q.islands[i]).others = [] →
    exec (.islandStatusFrame dt i (true)) s = became (
        updIsland i (fun x => { x with alsoReported := (q.islands[i]).also }) (
            raise (causeFault (q.islands[i]).cause) i.val (q.islands[i]).condition
              (updIsland i (fun x => { x with reported := true }) q))) s) ∧
  (∀ (dt : Nat) (i : Fin 36) (s : State) (m : Module), m = advance dt s.mod →
    m.up → m.islandSupplied i → m.dieRuns 7 → !(m.islands[i]).held →
    exec (.islandStatusFrame dt i (true)) s = became
      (followCond i (updIsland i (fun x => { x with goodStatusAt := m.time.elapsed, statusDown := false }) m)) s) ∧
  (∀ (dt : Nat) (i : Fin 36) (s : State) (m : Module), m = advance dt s.mod →
    m.up → m.islandSupplied i → m.dieRuns 7 → (m.islands[i]).window < 100 →
    exec (.islandStatusFrame dt i (false)) s = became (
        updIsland i
          (fun x => { x with linkErrors := satAdd 255 x.linkErrors 1, window := (m.islands[i]).window + 1 }) m) s) ∧
  (∀ (dt : Nat) (i : Fin 36) (s : State) (m : Module), m = advance dt s.mod →
    m.up → m.islandSupplied i → !m.supply.railsRemoved → !m.unused i → (m.islands[i]).held →
    (m.islands[i]).cause ≠ 5 → !(m.islands[i]).also.testBit 5 → !(m.islands[i]).waits → !(m.islands[i]).ignoresLink →
    (m.islands[i]).goodFrameAt + 1200 ≤ m.time.elapsed →
    exec (.gdLinkLost dt i (false)) s = became (
        followCond i (
            updIsland i (
                fun x => { x with
                    also := x.also ||| 2 ^ 5, alsoAt := m.time.elapsed, alsoReported := if
                      x.alsoReported.testBit 5 then x.alsoReported - 2 ^ 5 else x.alsoReported })
              (updIsland i (fun x => { x with output := false, linkDown := true }) m))) s) ∧
  (∀ (dt : Nat) (i : Fin 36) (s : State) (m : Module), m = advance dt s.mod →
    m.up → m.islandSupplied i → !m.supply.railsRemoved → !m.unused i → !(m.islands[i]).held → !(m.islands[i]).waits →
    !(m.islands[i]).ignoresLink → (m.islands[i]).goodFrameAt + 1200 ≤ m.time.elapsed →
    exec (.gdLinkLost dt i (false)) s = became (
        followCond i (
            updIsland i (
                fun x => { x with
                    state := .latched, cause := 5, condition := true, also := 0, alsoReported := 0, output :=
                      false, latchedAt := m.time.elapsed, stage := 0, stageAt := m.time.elapsed, reported :=
                      false }) (updIsland i (fun x => { x with output := false, linkDown := true }) m))) s) ∧
  (∀ (dt : Nat) (i : Fin 36) (s : State) (m : Module), m = advance dt s.mod →
    m.up → !m.supply.railsRemoved → m.dies[(⟨10 + i.val, by omega⟩ : Fin 46)].supply ≠ 0 → m.dieRuns 7 → !m.unused i →
    !(m.islands[i]).held → (m.islands[i]).goodStatusAt + 1200 ≤ m.time.elapsed →
    exec (.gdLinkLost dt i (true)) s = became (
        reportIsland i (
            followCond i (
                updIsland i (
                    fun x => { x with
                        state := .latched, cause := 5, condition := true, also := 0, alsoReported := 0,
                          output := false, latchedAt := m.time.elapsed, stage := 0, stageAt :=
                          m.time.elapsed, reported := false })
                  (updIsland i (fun x => { x with statusDown := true }) m)))) s) ∧
  (∀ (dt : Nat) (i : Fin 36) (pos : Bool) (q : Module) (s : State) (m : Module), m = advance dt s.mod →
    m.up → m.islandSupplied i → pos → (m.islands[i]).railsSeen → !m.unused i → !(m.islands[i]).held →
    q = updIsland i (fun x => { x with railPosOk := false, uvloPos := true, output := false }) m →
    exec (.gdUvlo dt i pos) s = became (
        followCond i (
            updIsland i (
                fun x => { x with
                    state := .latched, cause := 3, condition := true, also := 0, alsoReported := 0, output :=
                      false, latchedAt := m.time.elapsed, stage := 0, stageAt := m.time.elapsed, reported :=
                      false }) q)) s) ∧
  (∀ (dt : Nat) (i : Fin 36) (pos : Bool) (q : Module) (s : State) (m : Module), m = advance dt s.mod →
    m.up → m.islandSupplied i → !pos → m.negMonitored i → (m.islands[i]).railsSeen → !m.unused i →
    !(m.islands[i]).held →
    q = updIsland i (fun x => { x with railNegOk := false, uvloNeg := true, output := false }) m →
    exec (.gdUvlo dt i pos) s = became (
        followCond i (
            updIsland i (
                fun x => { x with
                    state := .latched, cause := 4, condition := true, also := 0, alsoReported := 0, output :=
                      false, latchedAt := m.time.elapsed, stage := 0, stageAt := m.time.elapsed, reported :=
                      false }) q)) s) ∧
  (∀ (dt : Nat) (i : Fin 36) (pos : Bool) (s : State) (m : Module), m = advance dt s.mod →
    m.up → m.islandSupplied i → pos → !(m.islands[i]).railsSeen →
    exec (.gdUvlo dt i pos) s = became
      (followCond i (updIsland i (fun x => { x with railPosOk := false, uvloPos := true, output := false }) m)) s) ∧
  (∀ (dt : Nat) (i : Fin 36) (pos : Bool) (s : State) (m : Module), m = advance dt s.mod →
    m.up → m.islandSupplied i →
    exec (.uvloRecovery dt i pos) s = became (followCond i (setRail i pos true m)) s) ∧
  (∀ (dt : Nat) (i : Fin 36) (s : State) (m : Module), m = advance dt s.mod →
    m.up → m.islandSupplied i → m.supply.rampAt + 8000000 ≤ m.time.elapsed → !(m.islands[i]).railsSeen →
    !(m.islands[i]).railPosOk → !m.unused i → !(m.islands[i]).held →
    exec (.islandRailTimeout dt i) s = became (
        followCond i (
            updIsland i (
                fun x => { x with
                    state := .latched, cause := 3, condition := true, also := 0, alsoReported := 0, output :=
                      false, latchedAt := m.time.elapsed, stage := 0, stageAt := m.time.elapsed, reported :=
                      false }) m)) s) ∧
  (∀ (dt : Nat) (i : Fin 36) (s : State) (m : Module), m = advance dt s.mod →
    m.up → m.islandSupplied i → m.supply.rampAt + 8000000 ≤ m.time.elapsed → !(m.islands[i]).railsSeen →
    (m.islands[i]).railPosOk → !(m.islands[i]).railNegOk → m.negMonitored i → !m.unused i → !(m.islands[i]).held →
    exec (.islandRailTimeout dt i) s = became (
        followCond i (
            updIsland i (
                fun x => { x with
                    state := .latched, cause := 4, condition := true, also := 0, alsoReported := 0, output :=
                      false, latchedAt := m.time.elapsed, stage := 0, stageAt := m.time.elapsed, reported :=
                      false }) m)) s) ∧
  (∀ (dt : Nat) (i : Fin 36) (s : State) (m : Module), m = advance dt s.mod →
    m.up → m.islandSupplied i → !m.unused i → !(m.islands[i]).held → (m.islands[i]).output →
    (m.islands[i]).onAt + (m.gpar i P.gdDesatBlank).toNat + 40 ≤ m.time.elapsed →
    exec (.gdDesat dt i) s = became (
        updIsland i (
            fun x => { x with
                state := .softOff, cause := 1, condition := true, also := 0, alsoReported := 0, output := false,
                  latchedAt := m.time.elapsed, stage := 1, stageAt := m.time.elapsed, reported := false }) m) s) ∧
  (∀ (dt : Nat) (i : Fin 36) (s : State) (m : Module), m = advance dt s.mod →
    m.up → m.islandSupplied i → !m.unused i → !(m.islands[i]).held → (m.islands[i]).output →
    (m.islands[i]).onAt + 8 ≤ m.time.elapsed →
    exec (.gdHardShort dt i) s = became (
        updIsland i (
            fun x => { x with
                state := .softOff, cause := 2, condition := true, also := 0, alsoReported := 0, output := false,
                  latchedAt := m.time.elapsed, stage := 1, stageAt := m.time.elapsed, reported := false }) m) s) ∧
  (∀ (dt : Nat) (i : Fin 36) (s : State) (m : Module), m = advance dt s.mod →
    m.up → m.islandSupplied i → (m.islands[i]).state = .softOff →
    (m.islands[i]).stageAt + stageTicks m i (m.islands[i]).stage ≤ m.time.elapsed → (m.islands[i]).stage < 3 →
    exec (.softTurnOffStage dt i) s = became
      (updIsland i (fun x => { x with stage := x.stage + 1, stageAt := m.time.elapsed }) m) s) ∧
  (∀ (dt : Nat) (i : Fin 36) (s : State) (m : Module), m = advance dt s.mod →
    m.up → m.islandSupplied i → (m.islands[i]).state = .softOff →
    (m.islands[i]).stageAt + stageTicks m i (m.islands[i]).stage ≤ m.time.elapsed → 3 ≤ (m.islands[i]).stage →
    exec (.softTurnOffStage dt i) s = became
      (followCond i (updIsland i (fun x => { x with state := .latched, stage := 0 }) m)) s)

/-- EN_FALL, EN_RISE, ISLAND_SELFTEST_DONE, GATE_DIAG_STEP (between steps and at the last), PATTERN_VERIFY (first and
second contradiction) complete with the effect of their rules. Rules: spec/09_gate_drive.md, spec/16_faults.md. -/
def Obligations.EnableAndTestEventsComplete : Prop :=
  (∀ (dt : Nat) (s : State) (m : Module), m = advance dt s.mod →
    !m.atLeastReady → m.supply.transition = none →
    exec (.enFall dt) s = became { m with supply := { m.supply with en := false, enFellAt := m.time.elapsed - 80 } } s) ∧
  (∀ (dt : Nat) (s : State) (m : Module), m = advance dt s.mod →
    m.driven → m.dieRuns 7 → m.supply.transition = none →
    exec (.enFall dt) s = became (
        Func.all.foldl (fun x f => setPattern f .off F.gdEnOff 0 x) (
            raise F.gdEnOff 0 true
              (outputsOff { m with supply := { m.supply with en := false, enFellAt := m.time.elapsed - 80 } }))) s) ∧
  (∀ (dt : Nat) (low : Nat) (s : State) (m : Module), m = advance dt s.mod →
    !m.supply.en → m.atLeastReady → m.dieRuns 7 → low = Nat.max m.supply.enFellAt m.gate.enSeenAt →
    low + 4000 ≤ m.time.elapsed →
    exec (.enRise dt) s = became (
        (List.finRange 36).foldl (clearIsland low)
          { m with supply := { m.supply with en := true, enRoseAt := m.time.elapsed } }) s) ∧
  (∀ (dt : Nat) (s : State) (m : Module), m = advance dt s.mod →
    !m.supply.en →
    !m.atLeastReady || !m.dieRuns 7 || m.time.elapsed < Nat.max m.supply.enFellAt m.gate.enSeenAt + 4000 →
    exec (.enRise dt) s = became { m with supply := { m.supply with en := true, enRoseAt := m.time.elapsed } } s) ∧
  (∀ (dt : Nat) (desat : Bool) (hard : Bool) (pos : Bool) (neg : Bool) (sto : Bool) (i : Fin 36) (q : Module)
     (s : State) (m : Module), m = advance dt s.mod →
    m.up → m.dieRuns 7 → m.gate.test = 1 → i.val = m.gate.testIsland → !desat && !hard && !pos && !neg && !sto →
    q = crossWords 5 1 (resolveWaiting [0x71] (· == 10 + i.val) 0 0 [0] { m with gate := { m.gate with test := 0 } })
      →
    exec (.islandSelftestDone dt desat hard pos neg sto) s = became
      (followCond i (updIsland i (fun x => { x with selftest := 1 }) q)) s) ∧
  (∀ (dt : Nat) (desat : Bool) (hard : Bool) (pos : Bool) (neg : Bool) (sto : Bool) (i : Fin 36) (q : Module)
     (s : State) (m : Module), m = advance dt s.mod →
    m.up → m.dieRuns 7 → m.gate.test = 1 → i.val = m.gate.testIsland → desat →
    q = crossWords 5 1 (
        resolveWaiting [0x71] (· == 10 + i.val) 0 0 [selftestWord desat hard pos (neg && m.negMonitored i) sto]
          { m with gate := { m.gate with test := 0 } }) →
    exec (.islandSelftestDone dt desat hard pos neg sto) s = became
      (followCond i (latch i 6 false (updIsland i (fun x => { x with selftest := 2 }) q))) s) ∧
  (∀ (dt : Nat) (u : Word) (v : Word) (w : Word) (s : State) (m : Module), m = advance dt s.mod →
    m.up → m.dieRuns 7 → m.gate.test = 2 → m.gate.testAt + 2000000 ≤ m.time.elapsed → m.gate.diagStep < 3 →
    exec (.gateDiagStep dt u v w) s = became { m with
        gate := { m.gate with
            diagReadings := m.gate.diagReadings ++ [[u, v, w]], diagStep := m.gate.diagStep + 1, testAt :=
              m.time.elapsed } } s) ∧
  (∀ (dt : Nat) (u : Word) (v : Word) (w : Word) (rs : List (List Word)) (s : State) (m : Module), m = advance dt
     s.mod →
    m.up → m.dieRuns 7 → m.gate.test = 2 → m.gate.testAt + 2000000 ≤ m.time.elapsed → m.gate.diagStep = 3 →
    rs = m.gate.diagReadings ++ [[u, v, w]] →
    exec (.gateDiagStep dt u v w) s = became (
        crossWords 5 1 (
            resolveWaiting [0x78] (fun _ => true) 0 0
              [diagWord rs m.gate.diagVdc, reading rs 1 0, reading rs 2 1, reading rs 3 2, m.gate.diagVdc]
              { m with gate := { m.gate with test := 0, diagReadings := rs } })) s) ∧
  (∀ (dt : Nat) (i : Fin 36) (s : State) (m : Module), m = advance dt s.mod →
    m.up → m.wantedBy i = some false → (m.islands[i]).healthy → m.islandSupplied i → m.driven →
    (m.islands[i]).contradicted = 0 →
    exec (.patternVerify dt i (true)) s = became (updIsland i (fun x => { x with contradicted := 1 }) m) s) ∧
  (∀ (dt : Nat) (i : Fin 36) (s : State) (m : Module), m = advance dt s.mod →
    m.up → m.wantedBy i = some false → (m.islands[i]).healthy → m.islandSupplied i → m.driven →
    (m.islands[i]).contradicted ≠ 0 →
    exec (.patternVerify dt i (true)) s = became (
        raise F.patternVerifyFail i.val true (
            updIsland i (fun x => { x with contradicted := 2 }) { m with
                supply := { m.supply with railsRemoved := true }, islands := m.islands.map
                  (fun x => { (Island.unpowered x) with state := if x.held then .latched else .disabled }) })) s)

/-- HALL_COMMUTATION, ACTUATOR_CARRIER_VALLEY (with the bridge off, with it on, and with a phase current above the
trip level), AX_BOOT_UVLO, BOOT_UVLO_RELEASE, AX_POSITION_LOST, HOMING_STALL, AX_MOVE_TIMEOUT and MOVE_COMPLETE
complete with the effect of their rules. Rules: spec/10_gearbox_actuators.md. -/
def Obligations.ActuatorEventsComplete : Prop :=
  (∀ (dt : Nat) (a : Fin 4) (m1 : Module) (s : State) (m : Module), m = advance dt s.mod →
    m.up → m.dieRuns 7 → m1 = followLow a m →
    exec (.hallCommutation dt a) s = became (
        updActuator a (
            fun x => { x with
                legs := m1.legsNow a, kept := Vector.ofFn (
                    fun i => if x.legs[i] != (m1.legsNow a)[i] && x.legsAt[i] != m1.time.elapsed then
                      m1.gateBefore a i else x.kept[i]), legsAt := Vector.ofFn
                  (fun i => if x.legs[i] != (m1.legsNow a)[i] then m1.time.elapsed else x.legsAt[i]) }) m1) s) ∧
  (∀ (dt : Nat) (a : Fin 4) (iu : Word) (iv : Word) (iw : Word) (vax : Word) (s : State) (m : Module), m = advance dt
     s.mod →
    m.up → m.atValley a → m.dieRuns 7 → m.time.valid → !m.bridgeOn a →
    exec (.actuatorCarrierValley dt a iu iv iw vax) s = became (
        endCond F.axOvercurrent a.val (
            updActuator a (
                fun x => { x with
                    uNow := x.u, duty := 0, current := 0, supply := vax, refreshing := Vector.replicate 3
                      false, refreshNext := Vector.replicate 3 false, legs := Vector.replicate 3 0,
                      sinceRefresh := Vector.replicate 3 0, valleyAt := m.time.elapsed, lowSeen :=
                      m.time.elapsed, lowFrom := Vector.replicate 3 none, lowBest := Vector.replicate 3 0 }) m)) s) ∧
  (∀ (dt : Nat) (a : Fin 4) (iu : Word) (iv : Word) (iw : Word) (vax : Word) (m1 : Module)
     (k : Vector Nat 3 × Vector Bool 3) (s : State) (m : Module), m = advance dt s.mod →
    m.up → m.atValley a → m.dieRuns 7 → m.time.valid → m.bridgeOn a → m1 = followLow a m →
    (hallPosition (m1.feedback[axPort a]).hallNow).isSome → k = m1.refreshStep a →
    !(List.finRange 3).any
      (fun j => m1.legValid a j && F32.lt (m1.apar a P.axITrip) (F32.abs (#v[iu, iv, iw] : Vector Word 3)[j])) →
    !(List.finRange 3).any (fun j => (m1.actuators[a]).legs[j] == 2) →
    exec (.actuatorCarrierValley dt a iu iv iw vax) s = became (
        turnValley a k.1 k.2 vax
          (updActuator a (fun x => { x with current := bridgeCurrent x.legs #v[iu, iv, iw] }) m1)) s) ∧
  (∀ (dt : Nat) (a : Fin 4) (iu : Word) (iv : Word) (iw : Word) (vax : Word) (m1 : Module)
     (k : Vector Nat 3 × Vector Bool 3) (s : State) (m : Module), m = advance dt s.mod →
    m.up → m.atValley a → m.dieRuns 7 → m.time.valid → m.bridgeOn a → m1 = followLow a m →
    (hallPosition (m1.feedback[axPort a]).hallNow).isSome → k = m1.refreshStep a →
    !(List.finRange 3).any
      (fun j => m1.legValid a j && F32.lt (m1.apar a P.axITrip) (F32.abs (#v[iu, iv, iw] : Vector Word 3)[j])) →
    (List.finRange 3).any (fun j => (m1.actuators[a]).legs[j] == 2) →
    exec (.actuatorCarrierValley dt a iu iv iw vax) s = became (
        endCond F.axOvercurrent a.val (
            turnValley a k.1 k.2 vax
              (updActuator a (fun x => { x with current := bridgeCurrent x.legs #v[iu, iv, iw] }) m1))) s) ∧
  (∀ (dt : Nat) (a : Fin 4) (iu : Word) (iv : Word) (iw : Word) (vax : Word) (m1 : Module)
     (k : Vector Nat 3 × Vector Bool 3) (s : State) (m : Module), m = advance dt s.mod →
    m.up → m.atValley a → m.dieRuns 7 → m.time.valid → m.bridgeOn a → m1 = followLow a m →
    (hallPosition (m1.feedback[axPort a]).hallNow).isSome → k = m1.refreshStep a →
    (List.finRange 3).any
      (fun j => m1.legValid a j && F32.lt (m1.apar a P.axITrip) (F32.abs (#v[iu, iv, iw] : Vector Word 3)[j])) →
    exec (.actuatorCarrierValley dt a iu iv iw vax) s = became (
        raise F.axOvercurrent a.val true (
            turnValley a k.1 k.2 vax
              (updActuator a (fun x => { x with current := bridgeCurrent x.legs #v[iu, iv, iw] }) m1))) s) ∧
  (∀ (dt : Nat) (a : Fin 4) (leg : Fin 3) (s : State) (m : Module), m = advance dt s.mod →
    m.up → m.dieRuns 8 →
    exec (.axBootUvlo dt a leg) s = became
      (raise F.axBootUvlo a.val true (updActuator a (fun x => { x with bootLow := x.bootLow ||| 2 ^ leg.val }) m)) s) ∧
  (∀ (dt : Nat) (a : Fin 4) (leg : Fin 3) (s : State) (m : Module), m = advance dt s.mod →
    m.up → (m.actuators[a]).bootLow = 2 ^ leg.val →
    exec (.bootUvloRelease dt a leg) s = became
      (endCond F.axBootUvlo a.val (updActuator a (fun x => { x with bootLow := 0 }) m)) s) ∧
  (∀ (dt : Nat) (a : Fin 4) (s : State) (m : Module), m = advance dt s.mod →
    m.up → m.axLost a →
    exec (.axPositionLost dt a) s = became
      (raise F.axPositionLost a.val false (updActuator a (fun x => { abandonAx x with homed := false }) m)) s) ∧
  (∀ (dt : Nat) (a : Fin 4) (s : State) (m : Module), m = advance dt s.mod →
    m.up → m.movesRun a → (m.actuators[a]).move = 3 →
    (m.actuators[a]).stepAt + m.aus a P.axStallTime ≤ m.time.elapsed →
    exec (.homingStall dt a) s = became (
        moveResult (
            updActuator a
              (fun x => { x with h0 := m.hallCount a, homed := true, move := 0, u := 0, nextClosed := some true })
              m)) s) ∧
  (∀ (dt : Nat) (a : Fin 4) (s : State) (m : Module), m = advance dt s.mod →
    m.up → m.movesRun a → (m.actuators[a]).move = 1 →
    (m.actuators[a]).moveAt + m.aus a P.axTorqueWait ≤ m.time.elapsed →
    exec (.axMoveTimeout dt a) s = became
      (moveResult (raise F.axMoveTimeout a.val false (updActuator a (fun x => { x with move := 0 }) m))) s) ∧
  (∀ (dt : Nat) (a : Fin 4) (s : State) (m : Module), m = advance dt s.mod →
    m.up → m.movesRun a → (m.actuators[a]).move = 2 →
    (m.actuators[a]).stepAt + m.aus a P.axMoveTimeout ≤ m.time.elapsed →
    exec (.axMoveTimeout dt a) s = became (
        moveResult (
            raise F.axMoveTimeout a.val false (
                updActuator a (
                    fun x =>
                      { x with move := 0, gear := 15, settleSince := none, ref := F32.ofInt (m.axPosition a) })
                  m))) s) ∧
  (∀ (dt : Nat) (a : Fin 4) (s : State) (m : Module), m = advance dt s.mod →
    m.up → m.movesRun a → (m.actuators[a]).move = 3 →
    (m.actuators[a]).moveAt + m.aus a P.axMoveTimeout ≤ m.time.elapsed →
    exec (.axMoveTimeout dt a) s = became (moveResult (raise F.axMoveTimeout a.val false (updActuator a abandonAx m)))
      s) ∧
  (∀ (dt : Nat) (a : Fin 4) (s : State) (m : Module), m = advance dt s.mod →
    m.up → m.movesRun a → (m.actuators[a]).move = 2 →
    lasted m.time.elapsed (m.actuators[a]).settleSince (m.aus a P.axSettle) →
    exec (.moveComplete dt a) s = became (
        moveResult
          (updActuator a (fun x => { x with move := 0, gear := x.moveGear, clamp := false, settleSince := none }) m))
      s)

/-- AFE_TRIGGER, QUEUE_ENTRY, SLICE_ROTATION, SLICE_CALIBRATION_DONE, AFE_SD_LOST, SD_MODULATOR_RECOVERY,
SD_DETECTOR_TRIP, PROTECTION_COMPARATOR_TRIP, COMPARATOR_RELEASE, TWIN_TEST_DONE and TWIN_TEST_OVERDUE complete with
the effect of their rules. Rules: spec/11_analog_front_end.md, spec/16_faults.md. -/
def Obligations.AnalogEventsComplete : Prop :=
  (∀ (dt : Nat) (a : Fin 2) (t : Fin 64) (sar : List (BitVec 16)) (pv : List (BitVec 16)) (sd : List Nat)
     (ports : List (Fin 6)) (m1 : Module) (k : List Word × Module) (s : State) (m : Module), m = advance dt s.mod →
    m.up → m.afeRuns a → m.trigDue a t.val → ports = m.capturedPorts a t.val →
    m1 = ports.foldl (fun x p => capture p x) m →
    k = sarWords a t.val (
        (
            indexed (
                (List.finRange 32).filter
                  (fun c => ((m.trigImage a t.val).trig P.afeTrigInputs a.val t.val).testBit c.val))).map
          (fun x => (((m1.afe[a]).freePositions m1.time.elapsed).getD x.1 18, x.2))) sar m1 →
    exec (.afeTrigger dt a t sar pv sd) s = became (
        updAfe a (
            fun f => { f with
                fired := f.fired ++ [
                    {
                        trigger := t.val, at_ := m.time.count, latency := (m.trigImage a t.val).trig
                          P.afeTrigLatency a.val t.val, dest := ctrlDest
                          ((m.trigImage a t.val).trig P.afeTrigCtrl a.val t.val), words := ports.flatMap
                          (m.captureEntries t.val) ++ m.voltageWords a t.val pv ++ k.1 ++ k.2.sdWords a
                          t.val (ctrlMask ((m.trigImage a t.val).trig P.afeTrigCtrl a.val t.val)) sd }] }) k.2) s) ∧
  (∀ (dt : Nat) (a : Fin 2) (due : List Fired) (new : List QueueEntry) (s : State) (m : Module), m = advance dt s.mod
     →
    m.up → m.afeRuns a → due = byTrigger ((m.afe[a]).fired.filter (fun x => x.due m.time.count)) → due ≠ [] →
    new = due.flatMap (
        fun x => x.words.map
          (fun w => ({ word := w, cf0 := x.dest % 2 == 1, cf1 := x.dest / 2 % 2 == 1 } : QueueEntry))) →
    (m.afe[a]).queue.length + new.length ≤ 1024 → (m.afe[a]).discarded ≤ 0xFFFFFFFF →
    exec (.queueEntry dt a) s = became (
        updAfe a (
            fun f =>
              { f with queue := (m.afe[a]).queue ++ new, fired := f.fired.filter (fun x => !x.due m.time.count) }) m)
      s) ∧
  (∀ (dt : Nat) (a : Fin 2) (due : List Fired) (new : List QueueEntry) (d : Nat) (s : State) (m : Module), m = advance
     dt s.mod →
    m.up → m.afeRuns a → due = byTrigger ((m.afe[a]).fired.filter (fun x => x.due m.time.count)) → due ≠ [] →
    new = due.flatMap (
        fun x => x.words.map
          (fun w => ({ word := w, cf0 := x.dest % 2 == 1, cf1 := x.dest / 2 % 2 == 1 } : QueueEntry))) →
    d = ((m.afe[a]).queue ++ new).length - 1024 → d ≠ 0 →
    exec (.queueEntry dt a) s = became (
        raise F.afeQueueDiscard (afeDetail a 0) false (
            updAfe a (
                fun f => { f with
                    queue := ((m.afe[a]).queue ++ new).drop d, discarded := satAdd 0xFFFFFFFF f.discarded d,
                      fired := f.fired.filter (fun x => !x.due m.time.count) }) m)) s) ∧
  (∀ (dt : Nat) (a : Fin 2) (i : Fin 20) (o : Fin 20) (s : State) (m : Module), m = advance dt s.mod →
    m.up → m.afeRuns a →
    (m.afe[a]).sweep || (m.afe[a]).rotatedAt + F32.usTicks (m.par (P.afeRotateInterval + 0x400 * a.val)) ≤
      m.time.elapsed →
    19 ≤ (m.afe[a]).healthy →
    (m.afe[a]).pick (fun x => !x.failed && x.position.isNone && !x.calibrating) true = some i →
    (m.afe[a]).pick (fun x => x.position.isSome && !x.failed && (!(m.afe[a]).sweep || x.sweepDue)) false = some o →
    m.positionIdle a ⟨((m.afe[a]).slices[o]).position.getD 0 % 18, Nat.mod_lt _ (by decide)⟩ →
    exec (.sliceRotation dt a) s = became (
        updAfe a (
            fun f => { f with
                rotatedAt := m.time.elapsed, slices := Vector.upd (
                    Vector.upd f.slices o
                      (fun x => { x with position := none, calibrating := true, rotated := false })) i
                  (fun x => { x with position := ((m.afe[a]).slices[o]).position, seen := 0, rotated := true }) }) m)
      s) ∧
  (∀ (dt : Nat) (a : Fin 2) (i : Fin 20) (gain : Word) (offset : Word) (inl : Word) (s : State) (m : Module), m =
     advance dt s.mod →
    m.up → m.afeRuns a → ((m.afe[a]).slices[i]).calibrating → !((m.afe[a]).slices[i]).failed →
    sliceGood gain offset inl →
    exec (.sliceCalibrationDone dt a i gain offset inl) s = became (
        updAfe a (
            fun f => endSweep { f with
                slices := Vector.upd f.slices i (
                    fun x => { x with
                        calibrating := false, calibratedAt := m.time.elapsed, sweepDue := false, gain :=
                          gain, offset := offset }) }) m) s) ∧
  (∀ (dt : Nat) (a : Fin 2) (i : Fin 20) (gain : Word) (offset : Word) (inl : Word) (m1 : Module) (s : State)
     (m : Module), m = advance dt s.mod →
    m.up → m.afeRuns a → ((m.afe[a]).slices[i]).calibrating → !((m.afe[a]).slices[i]).failed →
    !sliceGood gain offset inl →
    m1 = updAfe a (
        fun f => endSweep { f with
            slices := Vector.upd f.slices i
              (fun x => { x with calibrating := false, failed := true, sweepDue := false }) }) m →
    18 < (m1.afe[a]).healthy →
    exec (.sliceCalibrationDone dt a i gain offset inl) s = became (raise F.afeSliceFail (afeDetail a i.val) false m1)
      s) ∧
  (∀ (dt : Nat) (a : Fin 2) (i : Fin 20) (gain : Word) (offset : Word) (inl : Word) (m1 : Module) (s : State)
     (m : Module), m = advance dt s.mod →
    m.up → m.afeRuns a → ((m.afe[a]).slices[i]).calibrating → !((m.afe[a]).slices[i]).failed →
    !sliceGood gain offset inl →
    m1 = updAfe a (
        fun f => endSweep { f with
            slices := Vector.upd f.slices i
              (fun x => { x with calibrating := false, failed := true, sweepDue := false }) }) m →
    (m1.afe[a]).healthy = 18 →
    exec (.sliceCalibrationDone dt a i gain offset inl) s = became (raise F.afeNoSpare (afeDetail a i.val) false m1) s) ∧
  (∀ (dt : Nat) (a : Fin 2) (i : Fin 20) (gain : Word) (offset : Word) (inl : Word) (m1 : Module) (s : State)
     (m : Module), m = advance dt s.mod →
    m.up → m.afeRuns a → ((m.afe[a]).slices[i]).calibrating → !((m.afe[a]).slices[i]).failed →
    !sliceGood gain offset inl →
    m1 = updAfe a (
        fun f => endSweep { f with
            slices := Vector.upd f.slices i
              (fun x => { x with calibrating := false, failed := true, sweepDue := false }) }) m →
    (m1.afe[a]).healthy < 18 →
    exec (.sliceCalibrationDone dt a i gain offset inl) s = became (raise F.afeSliceLost (afeDetail a i.val) false m1)
      s) ∧
  (∀ (dt : Nat) (a : Fin 2) (i : Fin 4) (m1 : Module) (s : State) (m : Module), m = advance dt s.mod →
    m.up → m.afeRuns a →
    m1 = updAfe a (
        fun f => { f with
            sdLost := f.sdLost ||| 2 ^ i.val, detectors := Vector.ofFn (
                fun k => if k.val / 2 = i.val && m.sdOn a i.val then { f.detectors[k] with decision := 2 } else
                  f.detectors[k]) }) m →
    (m.sdFuncs a.val i.val).any m.enabled →
    exec (.afeSdLost dt a i) s = became (raise F.afeSdLost (afeDetail a i.val) true m1) s) ∧
  (∀ (dt : Nat) (a : Fin 2) (i : Fin 4) (s : State) (m : Module), m = advance dt s.mod →
    m.up → ((m.afe[a]).sdLost).testBit i.val →
    exec (.sdModulatorRecovery dt a i) s = became
      (endCond F.afeSdLost (afeDetail a i.val) (updAfe a (fun f => { f with sdLost := f.sdLost - 2 ^ i.val }) m)) s) ∧
  (∀ (dt : Nat) (a : Fin 2) (k : Fin 8) (window : Nat) (s : State) (m : Module), m = advance dt s.mod →
    m.up → m.afeRuns a → m.sdOn a (k.val / 2) → !((m.afe[a]).detectors[k]).underTest →
    ((m.afe[a]).detectors[k]).decision ≠ 2 → m.sdTrips a (k.val / 2) window →
    m.drives a true k.val (m.afe[a]).detectors[k] →
    exec (.sdDetectorTrip dt a k window) s = became (
        noteEvent 5 (
            raise F.afeSdOvercurrent (afeDetail a (k.val / 2)) true
              (updDetector a k (fun x => { x with decision := 2 }) m))) s) ∧
  (∀ (dt : Nat) (a : Fin 2) (k : Fin 8) (window : Nat) (s : State) (m : Module), m = advance dt s.mod →
    m.up → m.afeRuns a → m.sdOn a (k.val / 2) → !((m.afe[a]).detectors[k]).underTest →
    ((m.afe[a]).detectors[k]).decision ≠ 2 → m.sdTrips a (k.val / 2) window →
    !m.drives a true k.val (m.afe[a]).detectors[k] →
    exec (.sdDetectorTrip dt a k window) s = became (updDetector a k (fun x => { x with decision := 2 }) m) s) ∧
  (∀ (dt : Nat) (a : Fin 2) (k : Fin 32) (levels : List Word) (s : State) (m : Module), m = advance dt s.mod →
    m.up → m.afeRuns a → cmpRole a.val k.val = 1 → !((m.afe[a]).comparators[k]).underTest →
    ((m.afe[a]).comparators[k]).decision ≠ 2 → m.cmpDecides a k.val true levels →
    m.drives a false k.val (m.afe[a]).comparators[k] →
    exec (.protectionComparatorTrip dt a k levels) s = became (
        noteEvent 5 (
            raise (comparatorFault a k.val).1 (comparatorFault a k.val).2 true
              (updComparator a k (fun x => { x with decision := 2 }) m))) s) ∧
  (∀ (dt : Nat) (a : Fin 2) (k : Fin 32) (levels : List Word) (s : State) (m : Module), m = advance dt s.mod →
    m.up → m.afeRuns a → cmpRole a.val k.val = 1 → !((m.afe[a]).comparators[k]).underTest →
    ((m.afe[a]).comparators[k]).decision ≠ 2 → m.cmpDecides a k.val true levels →
    !m.drives a false k.val (m.afe[a]).comparators[k] →
    exec (.protectionComparatorTrip dt a k levels) s = became
      (updComparator a k (fun x => { x with decision := 2 }) m) s) ∧
  (∀ (dt : Nat) (a : Fin 2) (levels : List Word) (window : Nat) (k : Fin 32) (m1 : Module) (s : State) (m : Module), m
     = advance dt s.mod →
    m.up → m.afeRuns a → cmpRole a.val k.val = 1 → !((m.afe[a]).comparators[k]).underTest →
    m.cmpDecides a k.val false levels → m1 = updComparator a k (fun x => { x with decision := 1 }) m →
    !m1.faultStands a (comparatorFault a k.val) →
    exec (.comparatorRelease dt a (.comparator k) levels window) s = became
      (endCond (comparatorFault a k.val).1 (comparatorFault a k.val).2 m1) s) ∧
  (∀ (dt : Nat) (a : Fin 2) (levels : List Word) (window : Nat) (k : Fin 32) (s : State) (m : Module), m = advance dt
     s.mod →
    m.up → m.afeRuns a → cmpRole a.val k.val = 2 → !((m.afe[a]).comparators[k]).underTest →
    m.diBelow (k.val - 18) levels →
    exec (.comparatorRelease dt a (.comparator k) levels window) s = became
      (updComparator a k (fun x => { x with decision := 1 }) m) s) ∧
  (∀ (dt : Nat) (a : Fin 2) (levels : List Word) (window : Nat) (k : Fin 8) (m1 : Module) (s : State) (m : Module), m
     = advance dt s.mod →
    m.up → m.afeRuns a → m.sdOn a (k.val / 2) → !((m.afe[a]).sdLost).testBit (k.val / 2) →
    !((m.afe[a]).detectors[k]).underTest → m.sdReleases a (k.val / 2) window →
    m1 = updDetector a k (fun x => { x with decision := 1 }) m → !m1.detectorStands a (k.val / 2) →
    exec (.comparatorRelease dt a (.detector k) levels window) s = became
      (endCond F.afeSdOvercurrent (afeDetail a (k.val / 2)) m1) s) ∧
  (∀ (dt : Nat) (a : Fin 2) (levels : List Word) (window : Nat) (k : Fin 8) (m1 : Module) (s : State) (m : Module), m
     = advance dt s.mod →
    m.up → m.afeRuns a → m.sdOn a (k.val / 2) → !((m.afe[a]).sdLost).testBit (k.val / 2) →
    !((m.afe[a]).detectors[k]).underTest → m.sdReleases a (k.val / 2) window →
    m1 = updDetector a k (fun x => { x with decision := 1 }) m → m1.detectorStands a (k.val / 2) →
    exec (.comparatorRelease dt a (.detector k) levels window) s = became m1 s) ∧
  (∀ (dt : Nat) (a : Fin 2) (reads : List Bool) (k : TwinTest) (s : State) (m : Module), m = advance dt s.mod →
    m.up → m.afeRuns a → (m.afe[a]).test = some k → !k.passed → !k.fails reads 0 → !k.fails reads 1 →
    !k.fails reads 2 → k.detector || cmpRole a.val k.index ≠ 2 →
    exec (.twinTestDone dt a reads) s = became (
        updAfe a (
            fun f => { updPair k (fun x => { x with underTest := false, decision := 1 }) id f with
                test := some { k with passed := true, at_ := m.time.elapsed } }) m) s) ∧
  (∀ (dt : Nat) (a : Fin 2) (reads : List Bool) (k : TwinTest) (s : State) (m : Module), m = advance dt s.mod →
    m.up → m.afeRuns a → (m.afe[a]).test = some k → !k.passed → !k.fails reads 0 → !k.fails reads 1 →
    !k.fails reads 2 → !k.detector → cmpRole a.val k.index = 2 →
    exec (.twinTestDone dt a reads) s = became (
        crossWords (if a.val = 0 then 1 else 3) 1 (
            resolveWaiting [0x71] (· == twinTarget a k.detector) 0 0 [twinWord false false false false] (
                updAfe a (
                    fun f => { updPair k (fun x => { x with underTest := false, decision := 1 }) id f with
                        test := none }) m))) s) ∧
  (∀ (dt : Nat) (a : Fin 2) (reads : List Bool) (k : TwinTest) (s : State) (m : Module), m = advance dt s.mod →
    m.up → m.afeRuns a → (m.afe[a]).test = some k → !k.passed →
    k.fails reads 2 || k.fails reads 1 || k.fails reads 0 →
    exec (.twinTestDone dt a reads) s = became (
        crossWords (if a.val = 0 then 1 else 3) 1 (
            resolveWaiting [0x71] (· == twinTarget a k.detector) 0 0
              [twinWord false (k.fails reads 2) (k.fails reads 1) (k.fails reads 0)] (
                raise F.afeTwinFail (afeDetail a (if k.detector then k.index / 2 else k.index)) false (
                    updAfe a (
                        fun f => {
                            updPair k (fun x => { x with failed := true, underTest := false }) id f with
                              test := none }) m)))) s) ∧
  (∀ (dt : Nat) (a : Fin 2) (reads : List Bool) (k : TwinTest) (s : State) (m : Module), m = advance dt s.mod →
    m.up → m.afeRuns a → (m.afe[a]).test = some k → k.passed →
    k.at_ + 32 * m.samplePeriod a k.detector (k.index / 2) ≤ m.time.elapsed →
    exec (.twinTestDone dt a reads) s = became (
        crossWords (if a.val = 0 then 1 else 3) 1 (
            resolveWaiting [0x71] (· == twinTarget a k.detector) 0 0 [twinWord true false false false] (
                endCond F.twinTestOverdue (afeDetail a (if k.detector then k.index / 2 else k.index / 2 * 2)) (
                    settleTrip a k.detector k.index (
                        updAfe a (
                            fun f => {
                                updPair k (fun x => { x with active := true, passedAt := m.drivenTime })
                                  (fun x => { x with active := false, passedAt := m.drivenTime }) f with
                                  test := none }) m))))) s) ∧
  (∀ (dt : Nat) (a : Fin 2) (detector : Bool) (pair : Nat) (s : State) (m : Module), m = advance dt s.mod →
    m.up → !detector → m.us P.safetyTwinTestInterval ≠ 0 → cmpRole a.val (2 * pair) = 1 →
    (comparatorFuncs a (2 * pair)).any m.enabled →
    (m.afe[a].comparators.toList.getD (2 * pair) (Member.init false)).passedAt + m.us P.safetyTwinTestInterval <
      m.drivenTime →
    exec (.twinTestOverdue dt a detector pair) s = became (raise F.twinTestOverdue (afeDetail a (2 * pair)) true m) s)

/-- CAN_FRAME_RECEIVED, CAN_FRAME_TRANSMITTED, ONE_SHOT_FAIL, BUS_OBJECT_ECC, HP_BUFFER_FRAME, BUS_OFF,
BUS_OFF_RECOVERY, BUS_WAKE, ADDRESS_CLAIM (an address, the null address), DM1_SEND, TP_SESSION_TIMEOUT,
ETHERNET_DATAGRAM (ARP, echo, a datagram), ET_LINK_DOWN and ET_LINK_UP complete with the effect of their rules. Rules:
spec/12_buses.md. -/
def Obligations.BusEventsComplete : Prop :=
  (∀ (dt : Nat) (f : CanFrame) (stamp : Tick) (taken : Nat) (m0 : Module) (s : State) (m : Module), m = advance dt
     s.mod →
    m.up → m.dieRuns 0 → m.dieRuns 6 → (m.can[(1 : Fin 4)]).active → f.damaged →
    m0 = updIsobus (fun y => { y with arrived := none }) m →
    exec (.canFrameReceived dt (1) f stamp taken) s = became (updCan 1 CanPort.badReceive m0) s) ∧
  (∀ (dt : Nat) (f : CanFrame) (stamp : Tick) (taken : Nat) (m0 : Module) (s : State) (m : Module), m = advance dt
     s.mod →
    m.up → m.dieRuns 0 → m.dieRuns 6 → (m.can[(1 : Fin 4)]).active → !f.damaged →
    m0 = updIsobus (fun y => { y with arrived := none }) m → f.format ≠ .xl → f.ident = m.num P.cn1ReqId →
    f.extended == (m.num P.cn1Ext == 1) →
    ((takeFrames 0 taken (m.can[(1 : Fin 4)]).goodReceive.rx).filter (fun x => x.1 == 0)).length < 32 →
    exec (.canFrameReceived dt (1) f stamp taken) s = became (
        noteEvent 13 (
            updCan 1 (
                fun c => { c.goodReceive with
                    rx := takeFrames 0 taken c.goodReceive.rx ++
                      [(0, { head := headOf f stamp, data := f.data })] }) m0)) s) ∧
  (∀ (dt : Nat) (p : Fin 4) (stamp : Tick) (f : TxFrame) (h : FrameHead) (s : State) (m : Module), m = advance dt
     s.mod →
    m.up → m.dieRuns 0 → m.dieRuns 6 → (m.can[p]).active → offered (m.can[p]).tx = some f →
    p.val < 2 || f.head.ident ≠ 0x010 → h = { f.head with stamp := canStamp stamp } →
    exec (.canFrameTransmitted dt p stamp (false)) s = became (
        noteEvent 13 (
            emit (.frame p.val h f.data)
              (updCan p (fun c => noteSent f.object h { c.goodSend with tx := c.goodSend.tx.erase f }) m))) s) ∧
  (∀ (dt : Nat) (p : Fin 4) (stamp : Tick) (f : TxFrame) (s : State) (m : Module), m = advance dt s.mod →
    m.up → m.dieRuns 0 → m.dieRuns 6 → (m.can[p]).active → offered (m.can[p]).tx = some f → !f.oneShot →
    exec (.canFrameTransmitted dt p stamp (true)) s = became (sendError p m) s) ∧
  (∀ (dt : Nat) (p : Fin 4) (error : Bool) (f : TxFrame) (s : State) (m : Module), m = advance dt s.mod →
    m.up → m.dieRuns 0 → m.dieRuns 6 → (m.can[p]).active → offered (m.can[p]).tx = some f → f.oneShot →
    f.instant = none → !error →
    exec (.oneShotFail dt p error) s = became
      (updCan p (fun c => { c with txFail := inc32 c.txFail, tx := c.tx.erase f }) m) s) ∧
  (∀ (dt : Nat) (p : Fin 4) (object : Fin 256) (s : State) (m : Module), m = advance dt s.mod →
    m.up → m.dieRuns 0 → m.dieRuns 6 → !(fifos p).any (fun x => x.1 ≤ object.val && object.val < x.1 + x.2) →
    exec (.busObjectEcc dt p object) s = became (
        raise F.busObjectEcc p.val false (
            updCan p (
                fun c => { c with
                    tx := c.tx.eraseP (fun f => f.object == object.val), sent := c.sent.filter
                      (fun x => x.1 != object.val) }) m)) s) ∧
  (∀ (dt : Nat) (p : Fin 4) (object : Fin 256) (x : Nat × Nat) (s : State) (m : Module), m = advance dt s.mod →
    m.up → m.dieRuns 0 → m.dieRuns 6 →
    (fifos p).find? (fun x => x.1 ≤ object.val && object.val < x.1 + x.2) = some x →
    exec (.busObjectEcc dt p object) s = became (
        raise F.busObjectEcc p.val false (
            updCan p (
                fun c => { c with
                    tx := c.tx.eraseP (fun f => f.object == object.val), sent := c.sent.filter
                      (fun x => x.1 != object.val), rx := dropFrame x.1 (object.val - x.1) c.rx }) m)) s) ∧
  (∀ (dt : Nat) (p : Fin 2) (n : Fin 16) (stamp : Tick) (data : List Byte) (taken : Nat) (q : Fin 4) (m1 : Module)
     (s : State) (m : Module), m = advance dt s.mod →
    m.up → m.dieRuns 0 → m.dieRuns 6 → q = (⟨p.val + 2, by omega⟩ : Fin 4) → (m.can[q]).active →
    m1 = noteHp (updCan q (fun c => { c.goodReceive with hp := c.hp.drop taken }) (hearFrame p n m)) →
    data.length ≤ 112 → (m1.can[q]).hp.length < 4 →
    exec (.hpBufferFrame dt p n stamp data taken) s = became (
        updCan q (
            fun c => { c with
                hp := c.hp ++ [
                    {
                        head := {
                            ident := n.val, format := .xl, length := data.length, vcid := n.val, stamp :=
                              canStamp stamp }, data := data }] }) m1) s) ∧
  (∀ (dt : Nat) (p : Fin 4) (s : State) (m : Module), m = advance dt s.mod →
    m.up → m.dieRuns 0 → m.dieRuns 6 → (m.can[p]).active → p.val < 2 →
    exec (.busOff dt p) s = became (
        raise F.busOff p.val false (
            updCan p (
                fun c => { c with
                    state := 3, tecErr := 256, busOff := inc32 c.busOff, txFail := satAdd 0xFFFFFFFF c.txFail
                      ((m.can[p]).tx.filter (·.oneShot)).length, tx := c.tx.filter (fun f => !f.oneShot) }) m)) s) ∧
  (∀ (dt : Nat) (p : Fin 4) (seen : Nat) (s : State) (m : Module), m = advance dt s.mod →
    m.up → m.dieRuns 0 → m.dieRuns 6 → (m.can[p]).isOff → seen ≠ 0 → seen < 128 →
    exec (.busOffRecovery dt p seen) s = became (updCan p (fun c => { c with state := 4 }) m) s) ∧
  (∀ (dt : Nat) (p : Fin 4) (seen : Nat) (s : State) (m : Module), m = advance dt s.mod →
    m.up → m.dieRuns 0 → m.dieRuns 6 → p.val < 2 → (m.can[p]).isOff → 128 ≤ seen → !(m.can[p]).down →
    exec (.busOffRecovery dt p seen) s = became (
        endCond F.alPortDown p.val
          (updCan p (fun c => { c with state := 1, recErr := 0, tecErr := 0, down := false }) m)) s) ∧
  (∀ (dt : Nat) (p : Fin 4) (c : WakeCause) (b : Boot) (s : State) (m : Module), m = advance dt s.mod →
    m.label = .sleep → m.supply.lvinOk → m.wakesOn p c →
    exec (.busWake dt p c b) s = became (
        wakeUp b { m with
            supply :=
              { m.supply with wakeReason := m.supply.wakeReason ||| 2 ^ p.val, wokeAt := some m.time.elapsed } }) s) ∧
  (∀ (dt : Nat) (p : Fin 4) (c : WakeCause) (b : Boot) (s : State) (m : Module), m = advance dt s.mod →
    m.label ≠ .sleep → m.wakesOn p c → m.supply.wokeAt = some m.time.elapsed →
    exec (.busWake dt p c b) s = became
      { m with supply := { m.supply with wakeReason := m.supply.wakeReason ||| 2 ^ p.val } } s) ∧
  (∀ (dt : Nat) (a : Fin 254) (s : State) (m : Module), m = advance dt s.mod →
    m.up → m.dieRuns 0 → m.dieRuns 6 → (m.can[(0 : Fin 4)]).active → m.mayClaim a.val → !m.takenAddress a.val →
    exec (.addressClaim dt (some a)) s = became (
        endCond F.isAddressLost 0 (
            offer 0 0 0 (0x18EEFF00 + a.val) false (nameBytes m) none
              { m with isobus := { m.isobus with address := a.val, claimed := true } })) s) ∧
  (∀ (dt : Nat) (s : State) (m : Module), m = advance dt s.mod →
    m.up → m.dieRuns 0 → m.dieRuns 6 → (m.can[(0 : Fin 4)]).active →
    !(List.range 254).any (fun a => m.mayClaim a && !m.takenAddress a) →
    exec (.addressClaim dt (none)) s = became
      (raise F.isAddressLost 0 true (offer 0 0 0 0x18EEFFFE false (nameBytes m) none (loseAddress m))) s) ∧
  (∀ (dt : Nat) (s : State) (m : Module), m = advance dt s.mod →
    m.up → m.dieRuns 0 → m.dieRuns 6 → m.isobus.address ≠ 254 → m.isobus.dm1At = none →
    exec (.dm1Send dt) s = became (
        offerDm1 (dm1Bytes m) { m with
            isobus := { m.isobus with
                dm1At := some m.time.elapsed, dm1Set := m.faults.active.map (fun f => (f.code, f.detail)) } }) s) ∧
  (∀ (dt : Nat) (x : TpSession) (s : State) (m : Module), m = advance dt s.mod →
    m.up → m.dieRuns 0 → m.dieRuns 6 → m.isobus.sending = none → m.isobus.session = some x →
    x.lastAt + 300000000 ≤ m.time.elapsed →
    exec (.tpSessionTimeout dt) s = became (
        offerTp (if x.extended then 0xC8 else 0xEC) x.peer [255, 3, 0xFF, 0xFF, 0xFF, 0x00, 0xEF, 0x00]
          { m with isobus := { m.isobus with session := none } }) s) ∧
  (∀ (dt : Nat) (s : State) (m : Module), m = advance dt s.mod →
    m.up → m.dieRuns 0 → m.dieRuns 6 → m.isobus.sending = none → m.isobus.session = none →
    exec (.tpSessionTimeout dt) s = became m s) ∧
  (∀ (dt : Nat) (e : Fin 2) (target : BitVec 32) (s : State) (m : Module), m = advance dt s.mod →
    m.listens → m.dieRuns 6 → m.num (P.etEnable + 0x10 * e.val) = 1 → m.num (P.etIpAddr + 0x10 * e.val) ≠ 0 →
    target.toNat = m.num (P.etIpAddr + 0x10 * e.val) →
    exec (.ethernetDatagram dt e (.arp target)) s = became (emit (.arp e.val) (transmit 1 m)) s) ∧
  (∀ (dt : Nat) (e : Fin 2) (source : BitVec 32) (dest : BitVec 32) (length : Nat) (s : State) (m : Module), m =
     advance dt s.mod →
    m.listens → m.dieRuns 6 → m.num (P.etEnable + 0x10 * e.val) = 1 → m.num (P.etIpAddr + 0x10 * e.val) ≠ 0 →
    dest.toNat = m.num (P.etIpAddr + 0x10 * e.val) → !m.foreignCast e dest → length ≤ 1472 →
    (m.hop e.val dest.toNat source.toNat).isSome →
    exec (.ethernetDatagram dt e (.echo source dest length)) s = became
      (emit (.icmp e.val source.toNat length) (transmit ((length + 3) / 4) m)) s) ∧
  (∀ (dt : Nat) (e : Fin 2) (source : BitVec 32) (dest : BitVec 32) (sourcePort : BitVec 16) (port : BitVec 16)
     (bytes : List Byte) (s : State) (m : Module), m = advance dt s.mod →
    m.listens → m.dieRuns 6 → m.num (P.etEnable + 0x10 * e.val) = 1 → m.num (P.etIpAddr + 0x10 * e.val) ≠ 0 →
    dest.toNat = m.num (P.etIpAddr + 0x10 * e.val) → !m.foreignCast e dest → port.toNat = 46800 →
    exec (.ethernetDatagram dt e (.udp source dest sourcePort port bytes)) s = became (
        packetBytes (if e.val = 0 then .et0 else .et1) source.toNat
          { udpPort := sourcePort.toNat, ownAddr := dest.toNat } false bytes noStamps m) s) ∧
  (∀ (dt : Nat) (e : Fin 2) (s : State) (m : Module), m = advance dt s.mod →
    m.up → m.dieRuns 0 → m.dieRuns 6 → m.num (P.etEnable + 0x10 * e.val) ≠ 0 →
    exec (.etLinkDown dt e) s = became
      (raise F.etLinkDown e.val true (updEth e (fun x => { x with linkUp := false, sqi := 0 }) m)) s) ∧
  (∀ (dt : Nat) (e : Fin 2) (sqi : Fin 8) (s : State) (m : Module), m = advance dt s.mod →
    m.up → m.dieRuns 0 → m.dieRuns 6 → m.num (P.etEnable + 0x10 * e.val) ≠ 0 →
    exec (.etLinkUp dt e sqi) s = became
      (endCond F.etLinkDown e.val (updEth e (fun x => { x with linkUp := true, sqi := sqi.val }) m)) s)

/-- AXLE_LINK_FRAME (a SYNC, a STATUS, an EVENT, an allocation), AL_PORT_DOWN, SYNC_SEND, SYNC_RECEIVED,
WIRED_SYNC_EDGE, WIRED_SYNC_PULSE_MISSING, SYNC_HOLDOVER_EXPIRY, LISTEN_PERIOD_END, STATUS_SEND, EVENT_SEND and
DELAY_PROBE complete with the effect of their rules. Rules: spec/12_buses.md, spec/13_system_hotplug.md. -/
def Obligations.AxleLinkEventsComplete : Prop :=
  (∀ (dt : Nat) (p : Fin 2) (n : Fin 16) (seq : Byte) (rx : Tick) (s : State) (m : Module), m = advance dt s.mod →
    m.up → m.dieRuns 0 → m.dieRuns 6 → !m.isHead →
    exec (.axleLinkFrame dt p n seq (.sync rx)) s = became (syncArrives p seq.toNat rx (headHeard (hearFrame p n m)))
      s) ∧
  (∀ (dt : Nat) (p : Fin 2) (n : Fin 16) (seq : Byte) (flags : BitVec 8) (patterns : BitVec 8) (cls : BitVec 8)
     (epoch : Word) (crc : Word) (setCrc : Option Word) (s : State) (m : Module), m = advance dt s.mod →
    m.up → m.dieRuns 0 → m.dieRuns 6 → n ≠ m.straps.node →
    !(hearFrame p n m).copySeen (0x080 + n.val) n.val seq.toNat →
    exec (.axleLinkFrame dt p n seq (.status flags patterns cls epoch crc setCrc)) s = became
      (noteStatus n flags epoch setCrc (noteCopy (0x080 + n.val) n.val seq.toNat (hearFrame p n m))) s) ∧
  (∀ (dt : Nat) (p : Fin 2) (n : Fin 16) (seq : Byte) (causes : BitVec 8) (instant : Tick) (m1 : Module) (s : State)
     (m : Module), m = advance dt s.mod →
    m.up → m.dieRuns 0 → m.dieRuns 6 → m1 = noteCopy n.val n.val seq.toNat (hearFrame p n m) →
    !(hearFrame p n m).copySeen n.val n.val seq.toNat → !(m1.sys.nodes[n]).head →
    exec (.axleLinkFrame dt p n seq (.event causes instant)) s = became (nodeEvent n causes.toNat instant m1) s) ∧
  (∀ (dt : Nat) (p : Fin 2) (n : Fin 16) (seq : Byte) (mask : BitVec 8) (instant : Tick) (shares : List (Word × Word))
     (s : State) (m : Module), m = advance dt s.mod →
    m.up → m.dieRuns 0 → m.dieRuns 6 → !m.isHead → !(hearFrame p n m).copySeen 0x020 n.val seq.toNat →
    exec (.axleLinkFrame dt p n seq (.alloc false mask instant shares)) s = became
      (allocArrives false mask.toNat instant shares (headHeard (noteCopy 0x020 n.val seq.toNat (hearFrame p n m)))) s) ∧
  (∀ (dt : Nat) (p : Fin 2) (q : Fin 4) (m1 : Module) (s : State) (m : Module), m = advance dt s.mod →
    m.up → m.dieRuns 0 → m.dieRuns 6 → q = (⟨p.val + 2, by omega⟩ : Fin 4) → !(m.can[q]).down → (m.can[q]).isOff →
    m1 = raise F.alPortDown q.val true
      (updCan q (fun c => { c with down := true }) { m with sys := { m.sys with lastDown := q.val } }) →
    !(m1.can[(2 : Fin 4)]).down || !(m1.can[(3 : Fin 4)]).down →
    exec (.alPortDown dt p) s = became m1 s) ∧
  (∀ (dt : Nat) (s : State) (m : Module), m = advance dt s.mod →
    m.up → m.dieRuns 0 → m.dieRuns 6 → m.isHead → m.time.count.toNat % m.num P.alSyncPeriod = 0 → m.num P.tsMode = 3 →
    exec (.syncSend dt) s = became (
        emit (.tsPulse 100) (
            strobe 12 (
                updSys (fun x => { x with tsUntil := m.time.elapsed + 100 })
                  (offerAxle 0x010 true [0, 0, 0] none m)))) s) ∧
  (∀ (dt : Nat) (s : State) (m : Module), m = advance dt s.mod →
    m.up → m.dieRuns 0 → m.dieRuns 6 → m.isHead → m.time.count.toNat % m.num P.alSyncPeriod = 0 → m.num P.tsMode ≠ 3 →
    exec (.syncSend dt) s = became (offerAxle 0x010 true [0, 0, 0] none m) s) ∧
  (∀ (dt : Nat) (p : Fin 2) (n : Fin 16) (seq : Byte) (of_ : Byte) (rx : Tick) (tx : Tick) (gap : Nat) (s : State)
     (m : Module), m = advance dt s.mod →
    m.up → m.dieRuns 0 → m.dieRuns 6 → !m.isHead → gap ≤ m.num P.alSyncPeriod →
    exec (.syncReceived dt p n seq of_ rx tx gap) s = became
      (syncFuArrives p of_.toNat tx (syncArrives p seq.toNat rx (headHeard (hearFrame p n m)))) s) ∧
  (∀ (dt : Nat) (edge : Nat) (nearest : Nat) (xs : List Rat) (s : State) (m : Module), m = advance dt s.mod →
    m.up → !m.isHead → m.num P.tsMode = 2 → m.sys.timeState = .slewing →
    nearest = (edge + 5 * m.num P.alSyncPeriod) / (10 * m.num P.alSyncPeriod) * m.num P.alSyncPeriod →
    xs = last8 (m.sys.wired ++ [(edge : Rat) / 10 - (nearest : Rat) - F32.rat (m.par P.sysTsCableDelay) / (5 / 2)]) →
    exec (.wiredSyncEdge dt edge) s = became (
        updSys (
            fun x => { x with
                wired := xs, missingPulses := 0, wiredCount := if ratAbs (mean xs) ≤ 2 then x.wiredCount + 1
                  else 0 }) (noteEvent 13 m)) s) ∧
  (∀ (dt : Nat) (s : State) (m : Module), m = advance dt s.mod →
    m.up → !m.isHead → m.num P.tsMode = 2 → m.sys.timeState = .wiredLock →
    exec (.wiredSyncPulseMissing dt) s = became
      (enterTime .linkLock { m with sys := { m.sys with wired := [], wiredCount := 0 } }) s) ∧
  (∀ (dt : Nat) (s : State) (m : Module), m = advance dt s.mod →
    m.up → m.dieRuns 0 → m.dieRuns 6 → !m.isHead → m.sys.timeState ≠ .unlocked →
    m.sys.sampleAt + m.us P.sysSyncHoldover ≤ m.time.elapsed →
    exec (.syncHoldoverExpiry dt) s = became (enterTime .unlocked m) s) ∧
  (∀ (dt : Nat) (s : State) (m : Module), m = advance dt s.mod →
    m.up → m.dieRuns 0 → m.dieRuns 6 → m.sys.listening →
    m.sys.listenAt + 2 * m.num P.alStatusPeriod ≤ m.time.elapsed →
    exec (.listenPeriodEnd dt) s = became { m with sys := { m.sys with listening := false } } s) ∧
  (∀ (dt : Nat) (s : State) (m : Module), m = advance dt s.mod →
    m.up → m.dieRuns 0 → m.dieRuns 6 → !m.axleSilent → m.statusDue → !m.sys.nodeConflict →
    exec (.statusSend dt) s = became (
        updSys (fun x => { x with statusAt := some m.time.elapsed })
          (offerAxle (0x080 + m.straps.node.val) false (statusBytes m) none m)) s) ∧
  (∀ (dt : Nat) (s : State) (m : Module), m = advance dt s.mod →
    m.up → m.dieRuns 0 → m.dieRuns 6 → !m.axleSilent → m.sys.causes ≠ 0 →
    exec (.eventSend dt) s = became (
        updSys (fun x => { x with causes := 0, causeAt := 0 }) (
            offerAxle m.straps.node.val false ([BitVec.ofNat 8 m.sys.causes, 0, 0] ++ tickBytes m.sys.causeAt)
              none m)) s) ∧
  (∀ (dt : Nat) (x : Measurement) (d : Rat) (s : State) (m : Module), m = advance dt s.mod →
    m.up → m.dieRuns 0 → m.dieRuns 6 → m.sys.measurement = some x → m.num P.sysDelaySamples + 1 ≤ x.sent →
    x.delay (m.num P.sysDelaySamples) = some d →
    exec (.delayProbe dt (.finish)) s = became
      (emit (.pathDelay (x.nodes.headD 0) (2 + x.port) d) { m with sys := { m.sys with measurement := x.next } }) s) ∧
  (∀ (dt : Nat) (x : Measurement) (t1 : Tick) (s : State) (m : Module), m = advance dt s.mod →
    m.up → m.dieRuns 0 → m.dieRuns 6 → m.isHead → !m.axleSilent → m.sys.measurement = some x →
    x.sent ≤ m.num P.sysDelaySamples → x.sent = 0 ∨ x.sentAt + 400000 ≤ m.time.elapsed →
    exec (.delayProbe dt (.send t1)) s = became (
        bumpSeq (0x100 + x.nodes.headD 0) (
            offer (if x.port = 0 then 2 else 3) 0 15 (0x100 + x.nodes.headD 0) false (
                BitVec.ofNat 8 (m.seqOf (0x100 + x.nodes.headD 0)) ::
                  (segments 109 110 ((probeWords x.sent).flatMap wordBytes)).headD []) none { m with
                sys := { m.sys with
                    measurement := some { x with
                        sent := x.sent + 1, sentAt := m.time.elapsed, stamps := x.stamps ++
                          [(some (m.stampOf t1), none, none, none)] } } })) s) ∧
  (∀ (dt : Nat) (p : Fin 2) (d : Rat) (s : State) (m : Module), m = advance dt s.mod →
    m.up → m.dieRuns 0 → m.dieRuns 6 → !m.isHead →
    exec (.delayProbe dt (.delay p d)) s = became
      { m with sys := { m.sys with newDelays := Vector.upd m.sys.newDelays p (fun _ => some d) } } s)

/-- ADMISSION_LOSS, NODE_REMOVAL, ALLOCATION_INSTANT, SYS_ALLOC_STALE, COMMIT_VOTE_DEADLINE (carried, aborted),
COMMIT_CONFIRM_DEADLINE and TAILSTOCK_REPLY_TIMEOUT complete with the effect of their rules. Rules:
spec/13_system_hotplug.md, spec/14_command_packets.md. -/
def Obligations.SystemEventsComplete : Prop :=
  (∀ (dt : Nat) (c : LossCause) (m1 : Module) (s : State) (m : Module), m = advance dt s.mod →
    m.up → !m.isHead → m.sys.admitted → lossPresent c m → !m.driven →
    m1 = raise (lossFault c) (if c = .linkLost then m.sys.lastDown else 0) true
      { m with sys := { m.sys with admitted := false } } →
    !m1.driven →
    exec (.admissionLoss dt c) s = became m1 s) ∧
  (∀ (dt : Nat) (n : Fin 16) (s : State) (m : Module), m = advance dt s.mod →
    m.up → m.dieRuns 0 → m.dieRuns 6 → !m.heard n →
    exec (.nodeRemoval dt n) s = became (removeNode n m.time.count m) s) ∧
  (∀ (dt : Nat) (q : Allocation) (rest : List Allocation) (k : Word × Word) (s : State) (m : Module), m = advance dt
     s.mod →
    m.up → m.sys.held = q :: rest → q.instant.toNat ≤ m.time.count.toNat → !m.sys.rateHeld →
    m.regionRuns m.epochs.active.sysFin → m.isAdmitted →
    k = (fun n => (((q.shares.find? (fun x => x.1 == n)).map (·.2)).getD (0, 0) : Word × Word)) m.straps.node.val →
    exec (.allocationInstant dt) s = became (
        endCond F.sysAllocStale 0 (
            takeShares k.1 k.2 { m with
                sys := { m.sys with
                    held := rest, lastAllocTick := q.instant, allocAt := some m.time.elapsed, stale := false,
                      nodes := Vector.ofFn (
                        fun n => { m.sys.nodes[n] with
                            shareA :=
                              (((q.shares.find? (fun x => x.1 == n.val)).map (·.2)).getD (0, 0)).1, shareB
                              := (((q.shares.find? (fun x => x.1 == n.val)).map (·.2)).getD (0, 0)).2 }) } })) s) ∧
  (∀ (dt : Nat) (t0 : Nat) (s : State) (m : Module), m = advance dt s.mod →
    m.up → m.dieRuns 0 → m.dieRuns 6 → m.sys.allocAt = some t0 → m.isAdmitted → !m.sys.stale →
    t0 + m.us P.sysAllocTimeout ≤ m.time.elapsed →
    exec (.sysAllocStale dt) s = became (
        raise F.sysAllocStale 0 true (
            takeShares 0 0 { m with
                sys := { m.sys with
                    stale := true, nodes := m.sys.nodes.map (fun x => { x with shareA := 0, shareB := 0 }) } })) s) ∧
  (∀ (dt : Nat) (p : Provisional) (s : State) (m : Module), m = advance dt s.mod →
    m.up → m.isHead → m.epochs.provisional = some p → p.instant.toNat ≤ m.time.count.toNat + m.num P.sysCommitVote →
    voteStatus p = none →
    exec (.commitVoteDeadline dt) s = became (
        resolveWaiting [0x21, 0x23] (fun _ => true) 1 0 [] (
            makePending p.revert p.instant true
              ((setBits 16 p.asked).foldl (fun x n => relayTo n (confirmWords 1) x) m))) s) ∧
  (∀ (dt : Nat) (p : Provisional) (k : Nat × Nat) (s : State) (m : Module), m = advance dt s.mod →
    m.up → m.isHead → m.epochs.provisional = some p → p.instant.toNat ≤ m.time.count.toNat + m.num P.sysCommitVote →
    voteStatus p = some k →
    exec (.commitVoteDeadline dt) s = became (
        raise F.sysCommitAborted k.2 false (
            resolveWaiting [0x21, 0x23] (fun _ => true) k.1 k.2 [] (
                updEpochs (fun e => { e with provisional := none }) (
                    ((setBits 16 p.asked).filter (fun n => p.replies.contains (n, 1))).foldl
                      (fun x n => relayTo n (confirmWords 0) x) m)))) s) ∧
  (∀ (dt : Nat) (p : Provisional) (s : State) (m : Module), m = advance dt s.mod →
    m.up → !m.isHead → m.epochs.provisional = some p →
    p.instant.toNat ≤ m.time.count.toNat + m.num P.sysCommitConfirm →
    exec (.commitConfirmDeadline dt) s = became { m with epochs := { m.epochs with provisional := none } } s) ∧
  (∀ (dt : Nat) (x : Waiting) (s : State) (m : Module), m = advance dt s.mod →
    m.up → m.interp.waiting.find? (replyOverdue m) = some x → x.opcode = 0x84 →
    exec (.tailstockReplyTimeout dt) s = became (
        touchWaiting (replyOverdue m)
          (fun w => { w with result := some (Status.tailstockUnknown.code, x.target, []) }) m) s)

/-- Each of EPOCH_SWITCH, EPOCH_FLASH_DONE, EPOCH_FLASH_FAIL, START_UP, POWER_TRANSITION_PROGRESS, PWR_TRANSITION_FAIL
and DIE_SUPPLY_CHANGE, in the states its clauses name, answers the next state of its rules: the epochs, the label and
the transition, the dies, and nothing else changes. Rules: spec/15_power_states_epochs.md,
spec/18_ports_electrical.md, spec/01_architecture.md, spec/12_buses.md. -/
def Obligations.EpochEventsComplete : Prop :=
  (∀ (dt : Nat) (head : Option Word) (p : Pending) (m1 : Module) (s : State) (m : Module), m = advance dt s.mod →
    m.up → m.isHead → m.epochs.pending = some p → !p.switched → p.instant.toNat ≤ m.time.count.toNat →
    p.instant ≠ m.epochs.lastSwitch → m1 = switchEpoch m → m1.epochs.lastSwitch = p.instant →
    exec (.epochSwitch dt head) s = became (takeReference (takeBusEnable m1)) s) ∧
  (∀ (dt : Nat) (s : State) (m : Module), m = advance dt s.mod →
    m.up → m.dieRuns 1 → m.epochs.flashPending → m.epochs.pending = none →
    exec (.epochFlashDone dt) s = became { m with
        epochs := { m.epochs with
            programmed := true, flashActive := m.epochs.active, flashCellar := m.epochs.cellar, roleReadable :=
              true, flashPending := false } } s) ∧
  (∀ (dt : Nat) (p : Pending) (s : State) (m : Module), m = advance dt s.mod →
    m.up → m.dieRuns 1 → m.epochs.flashPending → m.epochs.pending = some p → !p.switched → !p.revert →
    exec (.epochFlashDone dt) s = became { m with epochs := { m.epochs with programmed := true } } s) ∧
  (∀ (dt : Nat) (s : State) (m : Module), m = advance dt s.mod →
    m.up → m.epochs.flashPending →
    exec (.epochFlashFail dt) s = became
      (raise F.epochFlashFail 0 false { m with epochs := { m.epochs with flashPending := false } }) s) ∧
  (∀ (dt : Nat) (t : Transition) (d : Nat) (s : State) (m : Module), m = advance dt s.mod →
    m.up → m.supply.transition = some t → t.source = .standby → t.dest = .ready →
    2000000 ≤ m.time.elapsed - t.started → m.badDie = some d →
    exec (.pwrTransitionFail dt) s = became (abandon d m) s) ∧
  (∀ (dt : Nat) (b : Boot) (t : Transition) (s : State) (m : Module), m = advance dt s.mod →
    m.up → m.supply.transition = some t → t.source = .standby → t.dest = .ready → m.badDie = none →
    8000000 ≤ m.time.elapsed - t.started →
    exec (.powerTransitionProgress dt b) s = became
      (updSupply (fun x => { x with readyAt := m.time.elapsed }) (finishLeg t m)) s) ∧
  (∀ (dt : Nat) (b : Boot) (t : Transition) (s : State) (m : Module), m = advance dt s.mod →
    m.up → m.supply.transition = some t → t.source = .armed → t.dest = .run → m.time.count.toNat % 4000 = 0 →
    exec (.powerTransitionProgress dt b) s = became (finishLeg t m) s) ∧
  (∀ (dt : Nat) (b : Boot) (t : Transition) (m1 : Module) (s : State) (m : Module), m = advance dt s.mod →
    m.up → m.supply.transition = some t → t.source = .standby → t.dest = .sleep → !m.supply.wakeHeld →
    m1 = programLog m →
    exec (.powerTransitionProgress dt b) s = became (
        updSupply (fun x => { x with label := .sleep, transition := none }) { m1 with
            time := { m1.time with retained := m1.time.count, running := false }, dies := sleepDies m1, can :=
              m1.can.map (fun c => { c with state := 5 }), eth := m1.eth.map (fun e => { e with linkUp := false }) })
      s) ∧
  (∀ (dt : Nat) (b : Boot) (lvin : Word) (s : State) (m : Module), m = advance dt s.mod →
    m.label = .off →
    exec (.startUp dt b lvin) s = became (
        bootTo b (BitVec.ofNat 64 b.lock) false false
          { m with supply := { m.supply with lvinOk := true, lvin := lvin, holdup := false } }) s) ∧
  (∀ (dt : Nat) (d : Fin 46) (s : State) (m : Module), m = advance dt s.mod →
    m.up → (m.dies[d]).supply = 2 →
    exec (.dieSupplyChange dt d (true)) s = became
      (resolveWaiting [0xF1] (· == d.val) 0 0 [] (releaseDie d (updDie d (fun x => { x with supply := 1 }) m))) s) ∧
  (∀ (dt : Nat) (d : Fin 46) (s : State) (m : Module), m = advance dt s.mod →
    m.up → (m.dies[d]).supply = 1 → d.val < 10 →
    exec (.dieSupplyChange dt d (false)) s = became (holdDie d (updDie d (fun x => { x with supply := 2 }) m)) s) ∧
  (∀ (dt : Nat) (d : Fin 46) (i : Fin 36) (s : State) (m : Module), m = advance dt s.mod →
    m.up → (m.dies[d]).supply = 1 → d.val = 10 + i.val →
    exec (.dieSupplyChange dt d (false)) s = became
      (updIsland i Island.unpowered (updDie d (fun x => { x with supply := 2 }) m)) s)

/-- Each event of LVIN, HVAUX, the hold-up store, HVIL, the port supplies and the SV rate, in the states its clauses
name, answers the next state of its rules: the supply levels, the faults they raise or end, and nothing else changes.
Rules: spec/15_power_states_epochs.md, spec/18_ports_electrical.md, spec/01_architecture.md, spec/12_buses.md. -/
def Obligations.SupplyEventsComplete : Prop :=
  (∀ (dt : Nat) (lvin : Word) (s : State) (m : Module), m = advance dt s.mod →
    m.up → m.supply.lvinOk → m.supply.hvauxOk →
    exec (.lvinLost dt lvin) s = became (
        raise F.pwrLvinLost 0 true
          { m with supply := { m.supply with lvinOk := false, lvin := lvin, holdup := true } }) s) ∧
  (∀ (dt : Nat) (lvin : Word) (s : State) (m : Module), m = advance dt s.mod →
    m.supply.lvinOk → m.label ≠ .off → !m.supply.hvauxOk →
    exec (.lvinLost dt lvin) s = became (goOff { m with supply := { m.supply with lvinOk := false, lvin := lvin } }) s) ∧
  (∀ (dt : Nat) (lvin : Word) (s : State) (m : Module), m = advance dt s.mod →
    m.supply.lvinOk → m.label = .sleep → m.supply.hvauxOk →
    exec (.lvinLost dt lvin) s = became
      { m with supply := { m.supply with lvinOk := false, lvin := lvin, holdup := true } } s) ∧
  (∀ (dt : Nat) (lvin : Word) (s : State) (m : Module), m = advance dt s.mod →
    m.supply.holdup →
    exec (.lvinReturn dt lvin) s = became
      (endCond F.pwrLvinLost 0 { m with supply := { m.supply with lvinOk := true, lvin := lvin, holdup := false } }) s) ∧
  (∀ (dt : Nat) (hvaux : Word) (s : State) (m : Module), m = advance dt s.mod →
    m.supply.holdup →
    exec (.hvauxLost dt hvaux) s = became
      (goOff { m with supply := { m.supply with hvauxOk := false, hvaux := hvaux } }) s) ∧
  (∀ (dt : Nat) (hvaux : Word) (s : State) (m : Module), m = advance dt s.mod →
    !m.supply.holdup →
    exec (.hvauxLost dt hvaux) s = became
      { m with supply := { m.supply with hvauxOk := false, hvaux := hvaux, store := false } } s) ∧
  (∀ (dt : Nat) (hvaux : Word) (s : State) (m : Module), m = advance dt s.mod →
    exec (.hvauxReturn dt hvaux) s = became { m with supply := { m.supply with hvauxOk := true, hvaux := hvaux } } s) ∧
  (∀ (dt : Nat) (s : State) (m : Module), m = advance dt s.mod →
    m.up → m.supply.hvauxOk → m.supply.lvinOk →
    exec (.holdupStoreCharged dt) s = became { m with supply := { m.supply with store := true } } s) ∧
  (∀ (dt : Nat) (current : Word) (s : State) (m : Module), m = advance dt s.mod →
    m.up → F32.le (F32.ofNat 8) current → F32.le current (F32.ofNat 12) →
    exec (.hvilChange dt current) s = became
      (endCond F.sysHvilOpen 0 { m with supply := { m.supply with hvil := true } }) s) ∧
  (∀ (dt : Nat) (current : Word) (s : State) (m : Module), m = advance dt s.mod →
    m.up → m.supply.hvil → F32.lt current (F32.ofNat 4) →
    exec (.hvilChange dt current) s = became (
        loseAdmission F.sysHvilOpen 0
          (dcExportEnd .hvil (noteCause 0 m.time.count { m with supply := { m.supply with hvil := false } }))) s) ∧
  (∀ (dt : Nat) (q : Fin 6) (s : State) (m : Module), m = advance dt s.mod →
    m.up → m.atLeastReady →
    exec (.fbSupplyLimit dt (.fb q)) s = became (
        axAfterPort q m (
            noteHallEdge q m (
                allLines.foldl (fun x l => lineBreak q l x)
                  (updSupply (fun x => { x with fbLimited := x.fbLimited ||| 2 ^ q.val }) m)))) s) ∧
  (∀ (dt : Nat) (i : Fin 8) (s : State) (m : Module), m = advance dt s.mod →
    m.up → m.atLeastReady →
    exec (.fbSupplyLimit dt (.cs i)) s = became (sdLost ⟨i.val / 4, by omega⟩ ⟨i.val % 4, by omega⟩ m) s) ∧
  (∀ (dt : Nat) (q : Fin 6) (s : State) (m : Module), m = advance dt s.mod →
    m.up →
    exec (.fbSupplyRecovery dt (.fb q)) s = became (
        allLines.foldl (fun x l => lineRestored q l x)
          (updSupply (fun x => { x with fbLimited := clearBit x.fbLimited q.val }) m)) s) ∧
  (∀ (dt : Nat) (i : Fin 8) (s : State) (m : Module), m = advance dt s.mod →
    m.up →
    exec (.fbSupplyRecovery dt (.cs i)) s = became (sdRecovered ⟨i.val / 4, by omega⟩ ⟨i.val % 4, by omega⟩ m) s) ∧
  (∀ (dt : Nat) (s : State) (m : Module), m = advance dt s.mod →
    m.up →
    exec (.svRateChange dt) s = became
      { m with supply := { m.supply with svSlow := 2 ≤ (m.dies[(0 : Fin 46)]).throttle } } s)

/-- FAULT_RAISED, FLOG_PROGRAM (done, failed), MEMORY_READ_ERROR (corrected, uncorrectable), SCRUB_TICK,
MEM_SCRUB_LAP, FILL_DONE, TEMP_MEASUREMENT (a good and a broken diode), THERM_STALE, WORD_REWRITE and
OPERATING_TIME_PROGRAM complete with the effect of their rules. Rules: spec/16_faults.md, spec/17_memory_thermal.md,
spec/19_parameter_map.md. -/
def Obligations.FaultAndMemoryEventsComplete : Prop :=
  (∀ (dt : Nat) (code : Nat) (detail : Nat) (cond : Bool) (s : State) (m : Module), m = advance dt s.mod →
    m.up → (faultInfo code).isSome → detail < 65536 →
    exec (.faultRaised dt code detail cond) s = became (raise code detail cond m) s) ∧
  (∀ (dt : Nat) (s : State) (m : Module), m = advance dt s.mod →
    m.up → m.dieRuns 1 → m.faults.buffer ≠ [] →
    exec (.flogProgram dt (true)) s = became (
        endCond F.flogWriteFail 0 { m with
            faults := { m.faults with
                ring := fillRing m.faults.ring m.faults.buffer, written := satAdd 0xFFFFFFFF m.faults.written
                  m.faults.buffer.length, buffer := [] } }) s) ∧
  (∀ (dt : Nat) (s : State) (m : Module), m = advance dt s.mod →
    m.up → m.dieRuns 1 → m.faults.buffer ≠ [] →
    exec (.flogProgram dt (false)) s = became (raise F.flogWriteFail 0 true m) s) ∧
  (∀ (dt : Nat) (block : Nat) (addr : Nat) (scrub : Bool) (entry : Nat) (s : State) (m : Module), m = advance dt s.mod
     →
    m.up → blockValid block → addr < blockWords block → m.dieRuns (blockDie block) →
    (m.memory.scrubbers[scrubberOf block]).window + 1 ≤ m.num P.memCorrectedRateLimit →
    exec (.memoryReadError dt block addr (false) scrub entry) s = became (
        drainQueue (
            updScrubber (scrubberOf block) (
                fun x => { x with
                    corrected := inc32 x.corrected, window := x.window + 1, lastError := pack
                      [(block, 24), (addr % 2 ^ 20, 1)] }) m)) s) ∧
  (∀ (dt : Nat) (block : Nat) (addr : Nat) (scrub : Bool) (entry : Nat) (s : State) (m : Module), m = advance dt s.mod
     →
    m.up → blockValid block → addr < blockWords block → m.dieRuns (blockDie block) → block = 4 →
    exec (.memoryReadError dt block addr (true) scrub entry) s = became (
        drainQueue (
            raise F.memUncorrSup (blockDetail block) true (
                markBad block addr (
                    updScrubber (scrubberOf block) (
                        fun x => { x with
                            uncorrected := inc32 x.uncorrected, lastError := pack
                              [(block, 24), (addr % 2 ^ 20, 1), (1, 0)] }) m)))) s) ∧
  (∀ (dt : Nat) (sc : Fin 5) (s : State) (m : Module), m = advance dt s.mod →
    m.up → m.dieRuns (scrubberDie sc) → m.scrubTick sc →
    (m.memory.scrubbers[sc]).address + 1 < blockWords (m.memory.scrubbers[sc]).block →
    !m.memory.filling.contains (m.memory.scrubbers[sc]).block →
    exec (.scrubTick dt sc) s = became (updScrubber sc (fun x => { x with address := x.address + 1 }) m) s) ∧
  (∀ (dt : Nat) (sc : Fin 5) (s : State) (m : Module), m = advance dt s.mod →
    m.up → m.dieRuns (scrubberDie sc) →
    m.num (P.memScrubLapLimit + sc.val) < m.time.elapsed - (m.memory.scrubbers[sc]).lapStart →
    exec (.memScrubLap dt sc) s = became (raise F.memScrubLap (sc.val * 2 ^ 8) true m) s) ∧
  (∀ (dt : Nat) (d : Fin 46) (blocks : List Nat) (m1 : Module) (s : State) (m : Module), m = advance dt s.mod →
    m.up → blocks = m.memory.filling.filter (fun c => blockDie c == d) → blocks ≠ [] →
    m1 = blocks.foldl (fun x c => filled c x) m →
    exec (.fillDone dt d) s = became
      { m1 with regions := Vector.ofFn (fun n => if regionDie n == d then (m1.regions[n]).resume else m1.regions[n]) }
      s) ∧
  (∀ (dt : Nat) (d : Fin 46) (v10 : Word) (v100 : Word) (temp : Word) (m1 : Module) (s : State) (m : Module), m =
     advance dt s.mod →
    m.up → (m.dies[d]).supply ≠ 0 → m.wantsTemp d → !m.clockedStopped d.val → m.memory.scanRequest ≠ some d.val →
    replyCrossing d.val = none → !diodeBroken v10 v100 →
    m1 = endCond F.thermSensorBroken d.val
      (endCond F.thermStale d.val (updDie d (fun x => { x with temp := temp, measuredAt := some m.time.elapsed }) m))
      →
    exec (.tempMeasurement dt d v10 v100 temp) s = became
      (answerTemps d (setLevel d (m.newLevel d.val (m.dies[d]).throttle temp) m1)) s) ∧
  (∀ (dt : Nat) (d : Fin 46) (v10 : Word) (v100 : Word) (temp : Word) (s : State) (m : Module), m = advance dt s.mod →
    m.up → (m.dies[d]).supply ≠ 0 → m.wantsTemp d → !m.clockedStopped d.val → m.memory.scanRequest ≠ some d.val →
    replyCrossing d.val = none → diodeBroken v10 v100 →
    exec (.tempMeasurement dt d v10 v100 temp) s = became (
        answerTemps d (
            raise F.thermSensorBroken d.val true (
                endCond F.thermStale d.val
                  (updDie d (fun x => { x with temp := F32.ofNat 200, measuredAt := some m.time.elapsed }) m)))) s) ∧
  (∀ (dt : Nat) (d : Fin 46) (v10 : Word) (v100 : Word) (temp : Word) (x : Fin 22) (m1 : Module) (s : State)
     (m : Module), m = advance dt s.mod →
    m.up → (m.dies[d]).supply ≠ 0 → m.wantsTemp d → !m.clockedStopped d.val → m.memory.scanRequest ≠ some d.val →
    replyCrossing d.val = some x → !diodeBroken v10 v100 →
    m1 = endCond F.thermSensorBroken d.val
      (endCond F.thermStale d.val (updDie d (fun x => { x with temp := temp, measuredAt := some m.time.elapsed }) m))
      →
    exec (.tempMeasurement dt d v10 v100 temp) s = became
      (answerTemps d (crossWords x 1 (setLevel d (m.newLevel d.val (m.dies[d]).throttle temp) m1))) s) ∧
  (∀ (dt : Nat) (d : Fin 46) (s : State) (m : Module), m = advance dt s.mod →
    m.up → m.atLeastReady → m.scanned d →
    Nat.max ((m.dies[d]).measuredAt.getD 0) m.supply.readyAt + m.us P.thermStaleLimit < m.time.elapsed →
    exec (.thermStale dt d) s = became (raise F.thermStale d.val true m) s) ∧
  (∀ (dt : Nat) (block : Nat) (addr : Nat) (m1 : Module) (s : State) (m : Module), m = advance dt s.mod →
    m.up → blockValid block → 16 ≤ block →
    m1 = { m with memory := { m.memory with bad := m.memory.bad.filter (fun p => !(p.1 == block && p.2 == addr)) } } →
    blockK block ≠ 2 →
    exec (.wordRewrite dt block addr) s = became m1 s) ∧
  (∀ (dt : Nat) (block : Nat) (addr : Nat) (m1 : Module) (s : State) (m : Module), m = advance dt s.mod →
    m.up → blockValid block → 16 ≤ block →
    m1 = { m with memory := { m.memory with bad := m.memory.bad.filter (fun p => !(p.1 == block && p.2 == addr)) } } →
    blockK block = 2 →
    exec (.wordRewrite dt block addr) s = became
      (updRegion (blockRegion block) (fun x => { x with affected := x.affected.filter (· != addr) }) m1) s) ∧
  (∀ (dt : Nat) (s : State) (m : Module), m = advance dt s.mod →
    m.up → m.dieRuns 1 → 240000000000 ≤ m.service.unprogrammed →
    exec (.operatingTimeProgram dt) s = became { m with
        service := { m.service with
            operatingTime := satAdd 0xFFFFFFFF m.service.operatingTime (m.service.unprogrammed / 400000000),
              unprogrammed := m.service.unprogrammed % 400000000 } } s)
end

