-- ==== Sys2Proof/Laws/State.lean ====
section
/-!
SUPPORT. What each field of the module is after each update: one lemma per field per update, all true by unfolding.
-/

namespace Sys2Proof.Machine

/-! ## An entry of a vector after an update -/

@[simp] theorem getElem_upd_self {α : Type} {n : Nat} (v : Vector α n) (i : Fin n) (f : α → α) :
    (Vector.upd v i f)[i] = f v[i] := by
  simp [Vector.upd]

theorem getElem_upd_other {α : Type} {n : Nat} (v : Vector α n) (i j : Fin n) (f : α → α) (h : j ≠ i) :
    (Vector.upd v i f)[j] = v[j] := by
  have : i.val ≠ j.val := fun e => h (Fin.ext e.symm)
  simp [Vector.upd, this]

/-! ## updRegion -/

@[simp] theorem updRegion_time (n : Fin 8) (f : Region → Region) (m : Module) : (updRegion n f m).time = m.time := rfl
@[simp] theorem updRegion_supply (n : Fin 8) (f : Region → Region) (m : Module) :
    (updRegion n f m).supply = m.supply := rfl
@[simp] theorem updRegion_straps (n : Fin 8) (f : Region → Region) (m : Module) :
    (updRegion n f m).straps = m.straps := rfl
@[simp] theorem updRegion_dies (n : Fin 8) (f : Region → Region) (m : Module) : (updRegion n f m).dies = m.dies := rfl
@[simp] theorem updRegion_epochs (n : Fin 8) (f : Region → Region) (m : Module) :
    (updRegion n f m).epochs = m.epochs := rfl
@[simp] theorem updRegion_live (n : Fin 8) (f : Region → Region) (m : Module) : (updRegion n f m).live = m.live := rfl
@[simp] theorem updRegion_interp (n : Fin 8) (f : Region → Region) (m : Module) :
    (updRegion n f m).interp = m.interp := rfl
@[simp] theorem updRegion_faults (n : Fin 8) (f : Region → Region) (m : Module) :
    (updRegion n f m).faults = m.faults := rfl
@[simp] theorem updRegion_regions (n : Fin 8) (f : Region → Region) (m : Module) :
    (updRegion n f m).regions = Vector.upd m.regions n f := rfl
@[simp] theorem updRegion_hostOut (n : Fin 8) (f : Region → Region) (m : Module) :
    (updRegion n f m).hostOut = m.hostOut := rfl
@[simp] theorem updRegion_crossings (n : Fin 8) (f : Region → Region) (m : Module) :
    (updRegion n f m).crossings = m.crossings := rfl
@[simp] theorem updRegion_landings (n : Fin 8) (f : Region → Region) (m : Module) :
    (updRegion n f m).landings = m.landings := rfl
@[simp] theorem updRegion_published (n : Fin 8) (f : Region → Region) (m : Module) :
    (updRegion n f m).published = m.published := rfl
@[simp] theorem updRegion_exchange (n : Fin 8) (f : Region → Region) (m : Module) :
    (updRegion n f m).exchange = m.exchange := rfl
@[simp] theorem updRegion_publishing (n : Fin 8) (f : Region → Region) (m : Module) :
    (updRegion n f m).publishing = m.publishing := rfl
@[simp] theorem updRegion_checkpoints (n : Fin 8) (f : Region → Region) (m : Module) :
    (updRegion n f m).checkpoints = m.checkpoints := rfl
@[simp] theorem updRegion_lockstep (n : Fin 8) (f : Region → Region) (m : Module) :
    (updRegion n f m).lockstep = m.lockstep := rfl
@[simp] theorem updRegion_memory (n : Fin 8) (f : Region → Region) (m : Module) :
    (updRegion n f m).memory = m.memory := rfl
@[simp] theorem updRegion_service (n : Fin 8) (f : Region → Region) (m : Module) :
    (updRegion n f m).service = m.service := rfl
@[simp] theorem updRegion_traction (n : Fin 8) (f : Region → Region) (m : Module) :
    (updRegion n f m).traction = m.traction := rfl
@[simp] theorem updRegion_chopper (n : Fin 8) (f : Region → Region) (m : Module) :
    (updRegion n f m).chopper = m.chopper := rfl
@[simp] theorem updRegion_feedback (n : Fin 8) (f : Region → Region) (m : Module) :
    (updRegion n f m).feedback = m.feedback := rfl
@[simp] theorem updRegion_converter (n : Fin 8) (f : Region → Region) (m : Module) :
    (updRegion n f m).converter = m.converter := rfl
@[simp] theorem updRegion_charger (n : Fin 8) (f : Region → Region) (m : Module) :
    (updRegion n f m).charger = m.charger := rfl
@[simp] theorem updRegion_islands (n : Fin 8) (f : Region → Region) (m : Module) :
    (updRegion n f m).islands = m.islands := rfl
@[simp] theorem updRegion_gate (n : Fin 8) (f : Region → Region) (m : Module) : (updRegion n f m).gate = m.gate := rfl
@[simp] theorem updRegion_actuators (n : Fin 8) (f : Region → Region) (m : Module) :
    (updRegion n f m).actuators = m.actuators := rfl
@[simp] theorem updRegion_afe (n : Fin 8) (f : Region → Region) (m : Module) : (updRegion n f m).afe = m.afe := rfl
@[simp] theorem updRegion_can (n : Fin 8) (f : Region → Region) (m : Module) : (updRegion n f m).can = m.can := rfl
@[simp] theorem updRegion_eth (n : Fin 8) (f : Region → Region) (m : Module) : (updRegion n f m).eth = m.eth := rfl
@[simp] theorem updRegion_isobus (n : Fin 8) (f : Region → Region) (m : Module) :
    (updRegion n f m).isobus = m.isobus := rfl
@[simp] theorem updRegion_sys (n : Fin 8) (f : Region → Region) (m : Module) : (updRegion n f m).sys = m.sys := rfl
@[simp] theorem updRegion_drivenTime (n : Fin 8) (f : Region → Region) (m : Module) :
    (updRegion n f m).drivenTime = m.drivenTime := rfl
@[simp] theorem updRegion_free (n : Fin 8) (f : Region → Region) (m : Module) : (updRegion n f m).free = m.free := rfl
@[simp] theorem updRegion_out (n : Fin 8) (f : Region → Region) (m : Module) : (updRegion n f m).out = m.out := rfl

/-! ## updDie -/

@[simp] theorem updDie_time (d : Fin 46) (f : Die → Die) (m : Module) : (updDie d f m).time = m.time := rfl
@[simp] theorem updDie_supply (d : Fin 46) (f : Die → Die) (m : Module) : (updDie d f m).supply = m.supply := rfl
@[simp] theorem updDie_straps (d : Fin 46) (f : Die → Die) (m : Module) : (updDie d f m).straps = m.straps := rfl
@[simp] theorem updDie_dies (d : Fin 46) (f : Die → Die) (m : Module) :
    (updDie d f m).dies = Vector.upd m.dies d f := rfl
@[simp] theorem updDie_epochs (d : Fin 46) (f : Die → Die) (m : Module) : (updDie d f m).epochs = m.epochs := rfl
@[simp] theorem updDie_live (d : Fin 46) (f : Die → Die) (m : Module) : (updDie d f m).live = m.live := rfl
@[simp] theorem updDie_interp (d : Fin 46) (f : Die → Die) (m : Module) : (updDie d f m).interp = m.interp := rfl
@[simp] theorem updDie_faults (d : Fin 46) (f : Die → Die) (m : Module) : (updDie d f m).faults = m.faults := rfl
@[simp] theorem updDie_regions (d : Fin 46) (f : Die → Die) (m : Module) : (updDie d f m).regions = m.regions := rfl
@[simp] theorem updDie_hostOut (d : Fin 46) (f : Die → Die) (m : Module) : (updDie d f m).hostOut = m.hostOut := rfl
@[simp] theorem updDie_crossings (d : Fin 46) (f : Die → Die) (m : Module) :
    (updDie d f m).crossings = m.crossings := rfl
@[simp] theorem updDie_landings (d : Fin 46) (f : Die → Die) (m : Module) : (updDie d f m).landings = m.landings := rfl
@[simp] theorem updDie_published (d : Fin 46) (f : Die → Die) (m : Module) :
    (updDie d f m).published = m.published := rfl
@[simp] theorem updDie_exchange (d : Fin 46) (f : Die → Die) (m : Module) : (updDie d f m).exchange = m.exchange := rfl
@[simp] theorem updDie_publishing (d : Fin 46) (f : Die → Die) (m : Module) :
    (updDie d f m).publishing = m.publishing := rfl
@[simp] theorem updDie_checkpoints (d : Fin 46) (f : Die → Die) (m : Module) :
    (updDie d f m).checkpoints = m.checkpoints := rfl
@[simp] theorem updDie_lockstep (d : Fin 46) (f : Die → Die) (m : Module) : (updDie d f m).lockstep = m.lockstep := rfl
@[simp] theorem updDie_memory (d : Fin 46) (f : Die → Die) (m : Module) : (updDie d f m).memory = m.memory := rfl
@[simp] theorem updDie_service (d : Fin 46) (f : Die → Die) (m : Module) : (updDie d f m).service = m.service := rfl
@[simp] theorem updDie_traction (d : Fin 46) (f : Die → Die) (m : Module) : (updDie d f m).traction = m.traction := rfl
@[simp] theorem updDie_chopper (d : Fin 46) (f : Die → Die) (m : Module) : (updDie d f m).chopper = m.chopper := rfl
@[simp] theorem updDie_feedback (d : Fin 46) (f : Die → Die) (m : Module) : (updDie d f m).feedback = m.feedback := rfl
@[simp] theorem updDie_converter (d : Fin 46) (f : Die → Die) (m : Module) :
    (updDie d f m).converter = m.converter := rfl
@[simp] theorem updDie_charger (d : Fin 46) (f : Die → Die) (m : Module) : (updDie d f m).charger = m.charger := rfl
@[simp] theorem updDie_islands (d : Fin 46) (f : Die → Die) (m : Module) : (updDie d f m).islands = m.islands := rfl
@[simp] theorem updDie_gate (d : Fin 46) (f : Die → Die) (m : Module) : (updDie d f m).gate = m.gate := rfl
@[simp] theorem updDie_actuators (d : Fin 46) (f : Die → Die) (m : Module) :
    (updDie d f m).actuators = m.actuators := rfl
@[simp] theorem updDie_afe (d : Fin 46) (f : Die → Die) (m : Module) : (updDie d f m).afe = m.afe := rfl
@[simp] theorem updDie_can (d : Fin 46) (f : Die → Die) (m : Module) : (updDie d f m).can = m.can := rfl
@[simp] theorem updDie_eth (d : Fin 46) (f : Die → Die) (m : Module) : (updDie d f m).eth = m.eth := rfl
@[simp] theorem updDie_isobus (d : Fin 46) (f : Die → Die) (m : Module) : (updDie d f m).isobus = m.isobus := rfl
@[simp] theorem updDie_sys (d : Fin 46) (f : Die → Die) (m : Module) : (updDie d f m).sys = m.sys := rfl
@[simp] theorem updDie_drivenTime (d : Fin 46) (f : Die → Die) (m : Module) :
    (updDie d f m).drivenTime = m.drivenTime := rfl
@[simp] theorem updDie_free (d : Fin 46) (f : Die → Die) (m : Module) : (updDie d f m).free = m.free := rfl
@[simp] theorem updDie_out (d : Fin 46) (f : Die → Die) (m : Module) : (updDie d f m).out = m.out := rfl

/-! ## updTraction -/

@[simp] theorem updTraction_time (c : Fin 2) (f : Traction → Traction) (m : Module) :
    (updTraction c f m).time = m.time := rfl
@[simp] theorem updTraction_supply (c : Fin 2) (f : Traction → Traction) (m : Module) :
    (updTraction c f m).supply = m.supply := rfl
@[simp] theorem updTraction_straps (c : Fin 2) (f : Traction → Traction) (m : Module) :
    (updTraction c f m).straps = m.straps := rfl
@[simp] theorem updTraction_dies (c : Fin 2) (f : Traction → Traction) (m : Module) :
    (updTraction c f m).dies = m.dies := rfl
@[simp] theorem updTraction_epochs (c : Fin 2) (f : Traction → Traction) (m : Module) :
    (updTraction c f m).epochs = m.epochs := rfl
@[simp] theorem updTraction_live (c : Fin 2) (f : Traction → Traction) (m : Module) :
    (updTraction c f m).live = m.live := rfl
@[simp] theorem updTraction_interp (c : Fin 2) (f : Traction → Traction) (m : Module) :
    (updTraction c f m).interp = m.interp := rfl
@[simp] theorem updTraction_faults (c : Fin 2) (f : Traction → Traction) (m : Module) :
    (updTraction c f m).faults = m.faults := rfl
@[simp] theorem updTraction_regions (c : Fin 2) (f : Traction → Traction) (m : Module) :
    (updTraction c f m).regions = m.regions := rfl
@[simp] theorem updTraction_hostOut (c : Fin 2) (f : Traction → Traction) (m : Module) :
    (updTraction c f m).hostOut = m.hostOut := rfl
@[simp] theorem updTraction_crossings (c : Fin 2) (f : Traction → Traction) (m : Module) :
    (updTraction c f m).crossings = m.crossings := rfl
@[simp] theorem updTraction_landings (c : Fin 2) (f : Traction → Traction) (m : Module) :
    (updTraction c f m).landings = m.landings := rfl
@[simp] theorem updTraction_published (c : Fin 2) (f : Traction → Traction) (m : Module) :
    (updTraction c f m).published = m.published := rfl
@[simp] theorem updTraction_exchange (c : Fin 2) (f : Traction → Traction) (m : Module) :
    (updTraction c f m).exchange = m.exchange := rfl
@[simp] theorem updTraction_publishing (c : Fin 2) (f : Traction → Traction) (m : Module) :
    (updTraction c f m).publishing = m.publishing := rfl
@[simp] theorem updTraction_checkpoints (c : Fin 2) (f : Traction → Traction) (m : Module) :
    (updTraction c f m).checkpoints = m.checkpoints := rfl
@[simp] theorem updTraction_lockstep (c : Fin 2) (f : Traction → Traction) (m : Module) :
    (updTraction c f m).lockstep = m.lockstep := rfl
@[simp] theorem updTraction_memory (c : Fin 2) (f : Traction → Traction) (m : Module) :
    (updTraction c f m).memory = m.memory := rfl
@[simp] theorem updTraction_service (c : Fin 2) (f : Traction → Traction) (m : Module) :
    (updTraction c f m).service = m.service := rfl
@[simp] theorem updTraction_traction (c : Fin 2) (f : Traction → Traction) (m : Module) :
    (updTraction c f m).traction = Vector.upd m.traction c f := rfl
@[simp] theorem updTraction_chopper (c : Fin 2) (f : Traction → Traction) (m : Module) :
    (updTraction c f m).chopper = m.chopper := rfl
@[simp] theorem updTraction_feedback (c : Fin 2) (f : Traction → Traction) (m : Module) :
    (updTraction c f m).feedback = m.feedback := rfl
@[simp] theorem updTraction_converter (c : Fin 2) (f : Traction → Traction) (m : Module) :
    (updTraction c f m).converter = m.converter := rfl
@[simp] theorem updTraction_charger (c : Fin 2) (f : Traction → Traction) (m : Module) :
    (updTraction c f m).charger = m.charger := rfl
@[simp] theorem updTraction_islands (c : Fin 2) (f : Traction → Traction) (m : Module) :
    (updTraction c f m).islands = m.islands := rfl
@[simp] theorem updTraction_gate (c : Fin 2) (f : Traction → Traction) (m : Module) :
    (updTraction c f m).gate = m.gate := rfl
@[simp] theorem updTraction_actuators (c : Fin 2) (f : Traction → Traction) (m : Module) :
    (updTraction c f m).actuators = m.actuators := rfl
@[simp] theorem updTraction_afe (c : Fin 2) (f : Traction → Traction) (m : Module) :
    (updTraction c f m).afe = m.afe := rfl
@[simp] theorem updTraction_can (c : Fin 2) (f : Traction → Traction) (m : Module) :
    (updTraction c f m).can = m.can := rfl
@[simp] theorem updTraction_eth (c : Fin 2) (f : Traction → Traction) (m : Module) :
    (updTraction c f m).eth = m.eth := rfl
@[simp] theorem updTraction_isobus (c : Fin 2) (f : Traction → Traction) (m : Module) :
    (updTraction c f m).isobus = m.isobus := rfl
@[simp] theorem updTraction_sys (c : Fin 2) (f : Traction → Traction) (m : Module) :
    (updTraction c f m).sys = m.sys := rfl
@[simp] theorem updTraction_drivenTime (c : Fin 2) (f : Traction → Traction) (m : Module) :
    (updTraction c f m).drivenTime = m.drivenTime := rfl
@[simp] theorem updTraction_free (c : Fin 2) (f : Traction → Traction) (m : Module) :
    (updTraction c f m).free = m.free := rfl
@[simp] theorem updTraction_out (c : Fin 2) (f : Traction → Traction) (m : Module) :
    (updTraction c f m).out = m.out := rfl

/-! ## updFeedback -/

@[simp] theorem updFeedback_time (p : Fin 6) (f : Feedback → Feedback) (m : Module) :
    (updFeedback p f m).time = m.time := rfl
@[simp] theorem updFeedback_supply (p : Fin 6) (f : Feedback → Feedback) (m : Module) :
    (updFeedback p f m).supply = m.supply := rfl
@[simp] theorem updFeedback_straps (p : Fin 6) (f : Feedback → Feedback) (m : Module) :
    (updFeedback p f m).straps = m.straps := rfl
@[simp] theorem updFeedback_dies (p : Fin 6) (f : Feedback → Feedback) (m : Module) :
    (updFeedback p f m).dies = m.dies := rfl
@[simp] theorem updFeedback_epochs (p : Fin 6) (f : Feedback → Feedback) (m : Module) :
    (updFeedback p f m).epochs = m.epochs := rfl
@[simp] theorem updFeedback_live (p : Fin 6) (f : Feedback → Feedback) (m : Module) :
    (updFeedback p f m).live = m.live := rfl
@[simp] theorem updFeedback_interp (p : Fin 6) (f : Feedback → Feedback) (m : Module) :
    (updFeedback p f m).interp = m.interp := rfl
@[simp] theorem updFeedback_faults (p : Fin 6) (f : Feedback → Feedback) (m : Module) :
    (updFeedback p f m).faults = m.faults := rfl
@[simp] theorem updFeedback_regions (p : Fin 6) (f : Feedback → Feedback) (m : Module) :
    (updFeedback p f m).regions = m.regions := rfl
@[simp] theorem updFeedback_hostOut (p : Fin 6) (f : Feedback → Feedback) (m : Module) :
    (updFeedback p f m).hostOut = m.hostOut := rfl
@[simp] theorem updFeedback_crossings (p : Fin 6) (f : Feedback → Feedback) (m : Module) :
    (updFeedback p f m).crossings = m.crossings := rfl
@[simp] theorem updFeedback_landings (p : Fin 6) (f : Feedback → Feedback) (m : Module) :
    (updFeedback p f m).landings = m.landings := rfl
@[simp] theorem updFeedback_published (p : Fin 6) (f : Feedback → Feedback) (m : Module) :
    (updFeedback p f m).published = m.published := rfl
@[simp] theorem updFeedback_exchange (p : Fin 6) (f : Feedback → Feedback) (m : Module) :
    (updFeedback p f m).exchange = m.exchange := rfl
@[simp] theorem updFeedback_publishing (p : Fin 6) (f : Feedback → Feedback) (m : Module) :
    (updFeedback p f m).publishing = m.publishing := rfl
@[simp] theorem updFeedback_checkpoints (p : Fin 6) (f : Feedback → Feedback) (m : Module) :
    (updFeedback p f m).checkpoints = m.checkpoints := rfl
@[simp] theorem updFeedback_lockstep (p : Fin 6) (f : Feedback → Feedback) (m : Module) :
    (updFeedback p f m).lockstep = m.lockstep := rfl
@[simp] theorem updFeedback_memory (p : Fin 6) (f : Feedback → Feedback) (m : Module) :
    (updFeedback p f m).memory = m.memory := rfl
@[simp] theorem updFeedback_service (p : Fin 6) (f : Feedback → Feedback) (m : Module) :
    (updFeedback p f m).service = m.service := rfl
@[simp] theorem updFeedback_traction (p : Fin 6) (f : Feedback → Feedback) (m : Module) :
    (updFeedback p f m).traction = m.traction := rfl
@[simp] theorem updFeedback_chopper (p : Fin 6) (f : Feedback → Feedback) (m : Module) :
    (updFeedback p f m).chopper = m.chopper := rfl
@[simp] theorem updFeedback_feedback (p : Fin 6) (f : Feedback → Feedback) (m : Module) :
    (updFeedback p f m).feedback = Vector.upd m.feedback p f := rfl
@[simp] theorem updFeedback_converter (p : Fin 6) (f : Feedback → Feedback) (m : Module) :
    (updFeedback p f m).converter = m.converter := rfl
@[simp] theorem updFeedback_charger (p : Fin 6) (f : Feedback → Feedback) (m : Module) :
    (updFeedback p f m).charger = m.charger := rfl
@[simp] theorem updFeedback_islands (p : Fin 6) (f : Feedback → Feedback) (m : Module) :
    (updFeedback p f m).islands = m.islands := rfl
@[simp] theorem updFeedback_gate (p : Fin 6) (f : Feedback → Feedback) (m : Module) :
    (updFeedback p f m).gate = m.gate := rfl
@[simp] theorem updFeedback_actuators (p : Fin 6) (f : Feedback → Feedback) (m : Module) :
    (updFeedback p f m).actuators = m.actuators := rfl
@[simp] theorem updFeedback_afe (p : Fin 6) (f : Feedback → Feedback) (m : Module) :
    (updFeedback p f m).afe = m.afe := rfl
@[simp] theorem updFeedback_can (p : Fin 6) (f : Feedback → Feedback) (m : Module) :
    (updFeedback p f m).can = m.can := rfl
@[simp] theorem updFeedback_eth (p : Fin 6) (f : Feedback → Feedback) (m : Module) :
    (updFeedback p f m).eth = m.eth := rfl
@[simp] theorem updFeedback_isobus (p : Fin 6) (f : Feedback → Feedback) (m : Module) :
    (updFeedback p f m).isobus = m.isobus := rfl
@[simp] theorem updFeedback_sys (p : Fin 6) (f : Feedback → Feedback) (m : Module) :
    (updFeedback p f m).sys = m.sys := rfl
@[simp] theorem updFeedback_drivenTime (p : Fin 6) (f : Feedback → Feedback) (m : Module) :
    (updFeedback p f m).drivenTime = m.drivenTime := rfl
@[simp] theorem updFeedback_free (p : Fin 6) (f : Feedback → Feedback) (m : Module) :
    (updFeedback p f m).free = m.free := rfl
@[simp] theorem updFeedback_out (p : Fin 6) (f : Feedback → Feedback) (m : Module) :
    (updFeedback p f m).out = m.out := rfl

/-! ## updIsland -/

@[simp] theorem updIsland_time (i : Fin 36) (f : Island → Island) (m : Module) : (updIsland i f m).time = m.time := rfl
@[simp] theorem updIsland_supply (i : Fin 36) (f : Island → Island) (m : Module) :
    (updIsland i f m).supply = m.supply := rfl
@[simp] theorem updIsland_straps (i : Fin 36) (f : Island → Island) (m : Module) :
    (updIsland i f m).straps = m.straps := rfl
@[simp] theorem updIsland_dies (i : Fin 36) (f : Island → Island) (m : Module) : (updIsland i f m).dies = m.dies := rfl
@[simp] theorem updIsland_epochs (i : Fin 36) (f : Island → Island) (m : Module) :
    (updIsland i f m).epochs = m.epochs := rfl
@[simp] theorem updIsland_live (i : Fin 36) (f : Island → Island) (m : Module) : (updIsland i f m).live = m.live := rfl
@[simp] theorem updIsland_interp (i : Fin 36) (f : Island → Island) (m : Module) :
    (updIsland i f m).interp = m.interp := rfl
@[simp] theorem updIsland_faults (i : Fin 36) (f : Island → Island) (m : Module) :
    (updIsland i f m).faults = m.faults := rfl
@[simp] theorem updIsland_regions (i : Fin 36) (f : Island → Island) (m : Module) :
    (updIsland i f m).regions = m.regions := rfl
@[simp] theorem updIsland_hostOut (i : Fin 36) (f : Island → Island) (m : Module) :
    (updIsland i f m).hostOut = m.hostOut := rfl
@[simp] theorem updIsland_crossings (i : Fin 36) (f : Island → Island) (m : Module) :
    (updIsland i f m).crossings = m.crossings := rfl
@[simp] theorem updIsland_landings (i : Fin 36) (f : Island → Island) (m : Module) :
    (updIsland i f m).landings = m.landings := rfl
@[simp] theorem updIsland_published (i : Fin 36) (f : Island → Island) (m : Module) :
    (updIsland i f m).published = m.published := rfl
@[simp] theorem updIsland_exchange (i : Fin 36) (f : Island → Island) (m : Module) :
    (updIsland i f m).exchange = m.exchange := rfl
@[simp] theorem updIsland_publishing (i : Fin 36) (f : Island → Island) (m : Module) :
    (updIsland i f m).publishing = m.publishing := rfl
@[simp] theorem updIsland_checkpoints (i : Fin 36) (f : Island → Island) (m : Module) :
    (updIsland i f m).checkpoints = m.checkpoints := rfl
@[simp] theorem updIsland_lockstep (i : Fin 36) (f : Island → Island) (m : Module) :
    (updIsland i f m).lockstep = m.lockstep := rfl
@[simp] theorem updIsland_memory (i : Fin 36) (f : Island → Island) (m : Module) :
    (updIsland i f m).memory = m.memory := rfl
@[simp] theorem updIsland_service (i : Fin 36) (f : Island → Island) (m : Module) :
    (updIsland i f m).service = m.service := rfl
@[simp] theorem updIsland_traction (i : Fin 36) (f : Island → Island) (m : Module) :
    (updIsland i f m).traction = m.traction := rfl
@[simp] theorem updIsland_chopper (i : Fin 36) (f : Island → Island) (m : Module) :
    (updIsland i f m).chopper = m.chopper := rfl
@[simp] theorem updIsland_feedback (i : Fin 36) (f : Island → Island) (m : Module) :
    (updIsland i f m).feedback = m.feedback := rfl
@[simp] theorem updIsland_converter (i : Fin 36) (f : Island → Island) (m : Module) :
    (updIsland i f m).converter = m.converter := rfl
@[simp] theorem updIsland_charger (i : Fin 36) (f : Island → Island) (m : Module) :
    (updIsland i f m).charger = m.charger := rfl
@[simp] theorem updIsland_islands (i : Fin 36) (f : Island → Island) (m : Module) :
    (updIsland i f m).islands = Vector.upd m.islands i f := rfl
@[simp] theorem updIsland_gate (i : Fin 36) (f : Island → Island) (m : Module) : (updIsland i f m).gate = m.gate := rfl
@[simp] theorem updIsland_actuators (i : Fin 36) (f : Island → Island) (m : Module) :
    (updIsland i f m).actuators = m.actuators := rfl
@[simp] theorem updIsland_afe (i : Fin 36) (f : Island → Island) (m : Module) : (updIsland i f m).afe = m.afe := rfl
@[simp] theorem updIsland_can (i : Fin 36) (f : Island → Island) (m : Module) : (updIsland i f m).can = m.can := rfl
@[simp] theorem updIsland_eth (i : Fin 36) (f : Island → Island) (m : Module) : (updIsland i f m).eth = m.eth := rfl
@[simp] theorem updIsland_isobus (i : Fin 36) (f : Island → Island) (m : Module) :
    (updIsland i f m).isobus = m.isobus := rfl
@[simp] theorem updIsland_sys (i : Fin 36) (f : Island → Island) (m : Module) : (updIsland i f m).sys = m.sys := rfl
@[simp] theorem updIsland_drivenTime (i : Fin 36) (f : Island → Island) (m : Module) :
    (updIsland i f m).drivenTime = m.drivenTime := rfl
@[simp] theorem updIsland_free (i : Fin 36) (f : Island → Island) (m : Module) : (updIsland i f m).free = m.free := rfl
@[simp] theorem updIsland_out (i : Fin 36) (f : Island → Island) (m : Module) : (updIsland i f m).out = m.out := rfl

/-! ## updActuator -/

@[simp] theorem updActuator_time (a : Fin 4) (f : Actuator → Actuator) (m : Module) :
    (updActuator a f m).time = m.time := rfl
@[simp] theorem updActuator_supply (a : Fin 4) (f : Actuator → Actuator) (m : Module) :
    (updActuator a f m).supply = m.supply := rfl
@[simp] theorem updActuator_straps (a : Fin 4) (f : Actuator → Actuator) (m : Module) :
    (updActuator a f m).straps = m.straps := rfl
@[simp] theorem updActuator_dies (a : Fin 4) (f : Actuator → Actuator) (m : Module) :
    (updActuator a f m).dies = m.dies := rfl
@[simp] theorem updActuator_epochs (a : Fin 4) (f : Actuator → Actuator) (m : Module) :
    (updActuator a f m).epochs = m.epochs := rfl
@[simp] theorem updActuator_live (a : Fin 4) (f : Actuator → Actuator) (m : Module) :
    (updActuator a f m).live = m.live := rfl
@[simp] theorem updActuator_interp (a : Fin 4) (f : Actuator → Actuator) (m : Module) :
    (updActuator a f m).interp = m.interp := rfl
@[simp] theorem updActuator_faults (a : Fin 4) (f : Actuator → Actuator) (m : Module) :
    (updActuator a f m).faults = m.faults := rfl
@[simp] theorem updActuator_regions (a : Fin 4) (f : Actuator → Actuator) (m : Module) :
    (updActuator a f m).regions = m.regions := rfl
@[simp] theorem updActuator_hostOut (a : Fin 4) (f : Actuator → Actuator) (m : Module) :
    (updActuator a f m).hostOut = m.hostOut := rfl
@[simp] theorem updActuator_crossings (a : Fin 4) (f : Actuator → Actuator) (m : Module) :
    (updActuator a f m).crossings = m.crossings := rfl
@[simp] theorem updActuator_landings (a : Fin 4) (f : Actuator → Actuator) (m : Module) :
    (updActuator a f m).landings = m.landings := rfl
@[simp] theorem updActuator_published (a : Fin 4) (f : Actuator → Actuator) (m : Module) :
    (updActuator a f m).published = m.published := rfl
@[simp] theorem updActuator_exchange (a : Fin 4) (f : Actuator → Actuator) (m : Module) :
    (updActuator a f m).exchange = m.exchange := rfl
@[simp] theorem updActuator_publishing (a : Fin 4) (f : Actuator → Actuator) (m : Module) :
    (updActuator a f m).publishing = m.publishing := rfl
@[simp] theorem updActuator_checkpoints (a : Fin 4) (f : Actuator → Actuator) (m : Module) :
    (updActuator a f m).checkpoints = m.checkpoints := rfl
@[simp] theorem updActuator_lockstep (a : Fin 4) (f : Actuator → Actuator) (m : Module) :
    (updActuator a f m).lockstep = m.lockstep := rfl
@[simp] theorem updActuator_memory (a : Fin 4) (f : Actuator → Actuator) (m : Module) :
    (updActuator a f m).memory = m.memory := rfl
@[simp] theorem updActuator_service (a : Fin 4) (f : Actuator → Actuator) (m : Module) :
    (updActuator a f m).service = m.service := rfl
@[simp] theorem updActuator_traction (a : Fin 4) (f : Actuator → Actuator) (m : Module) :
    (updActuator a f m).traction = m.traction := rfl
@[simp] theorem updActuator_chopper (a : Fin 4) (f : Actuator → Actuator) (m : Module) :
    (updActuator a f m).chopper = m.chopper := rfl
@[simp] theorem updActuator_feedback (a : Fin 4) (f : Actuator → Actuator) (m : Module) :
    (updActuator a f m).feedback = m.feedback := rfl
@[simp] theorem updActuator_converter (a : Fin 4) (f : Actuator → Actuator) (m : Module) :
    (updActuator a f m).converter = m.converter := rfl
@[simp] theorem updActuator_charger (a : Fin 4) (f : Actuator → Actuator) (m : Module) :
    (updActuator a f m).charger = m.charger := rfl
@[simp] theorem updActuator_islands (a : Fin 4) (f : Actuator → Actuator) (m : Module) :
    (updActuator a f m).islands = m.islands := rfl
@[simp] theorem updActuator_gate (a : Fin 4) (f : Actuator → Actuator) (m : Module) :
    (updActuator a f m).gate = m.gate := rfl
@[simp] theorem updActuator_actuators (a : Fin 4) (f : Actuator → Actuator) (m : Module) :
    (updActuator a f m).actuators = Vector.upd m.actuators a f := rfl
@[simp] theorem updActuator_afe (a : Fin 4) (f : Actuator → Actuator) (m : Module) :
    (updActuator a f m).afe = m.afe := rfl
@[simp] theorem updActuator_can (a : Fin 4) (f : Actuator → Actuator) (m : Module) :
    (updActuator a f m).can = m.can := rfl
@[simp] theorem updActuator_eth (a : Fin 4) (f : Actuator → Actuator) (m : Module) :
    (updActuator a f m).eth = m.eth := rfl
@[simp] theorem updActuator_isobus (a : Fin 4) (f : Actuator → Actuator) (m : Module) :
    (updActuator a f m).isobus = m.isobus := rfl
@[simp] theorem updActuator_sys (a : Fin 4) (f : Actuator → Actuator) (m : Module) :
    (updActuator a f m).sys = m.sys := rfl
@[simp] theorem updActuator_drivenTime (a : Fin 4) (f : Actuator → Actuator) (m : Module) :
    (updActuator a f m).drivenTime = m.drivenTime := rfl
@[simp] theorem updActuator_free (a : Fin 4) (f : Actuator → Actuator) (m : Module) :
    (updActuator a f m).free = m.free := rfl
@[simp] theorem updActuator_out (a : Fin 4) (f : Actuator → Actuator) (m : Module) :
    (updActuator a f m).out = m.out := rfl

/-! ## updAfe -/

@[simp] theorem updAfe_time (a : Fin 2) (f : Afe → Afe) (m : Module) : (updAfe a f m).time = m.time := rfl
@[simp] theorem updAfe_supply (a : Fin 2) (f : Afe → Afe) (m : Module) : (updAfe a f m).supply = m.supply := rfl
@[simp] theorem updAfe_straps (a : Fin 2) (f : Afe → Afe) (m : Module) : (updAfe a f m).straps = m.straps := rfl
@[simp] theorem updAfe_dies (a : Fin 2) (f : Afe → Afe) (m : Module) : (updAfe a f m).dies = m.dies := rfl
@[simp] theorem updAfe_epochs (a : Fin 2) (f : Afe → Afe) (m : Module) : (updAfe a f m).epochs = m.epochs := rfl
@[simp] theorem updAfe_live (a : Fin 2) (f : Afe → Afe) (m : Module) : (updAfe a f m).live = m.live := rfl
@[simp] theorem updAfe_interp (a : Fin 2) (f : Afe → Afe) (m : Module) : (updAfe a f m).interp = m.interp := rfl
@[simp] theorem updAfe_faults (a : Fin 2) (f : Afe → Afe) (m : Module) : (updAfe a f m).faults = m.faults := rfl
@[simp] theorem updAfe_regions (a : Fin 2) (f : Afe → Afe) (m : Module) : (updAfe a f m).regions = m.regions := rfl
@[simp] theorem updAfe_hostOut (a : Fin 2) (f : Afe → Afe) (m : Module) : (updAfe a f m).hostOut = m.hostOut := rfl
@[simp] theorem updAfe_crossings (a : Fin 2) (f : Afe → Afe) (m : Module) :
    (updAfe a f m).crossings = m.crossings := rfl
@[simp] theorem updAfe_landings (a : Fin 2) (f : Afe → Afe) (m : Module) : (updAfe a f m).landings = m.landings := rfl
@[simp] theorem updAfe_published (a : Fin 2) (f : Afe → Afe) (m : Module) :
    (updAfe a f m).published = m.published := rfl
@[simp] theorem updAfe_exchange (a : Fin 2) (f : Afe → Afe) (m : Module) : (updAfe a f m).exchange = m.exchange := rfl
@[simp] theorem updAfe_publishing (a : Fin 2) (f : Afe → Afe) (m : Module) :
    (updAfe a f m).publishing = m.publishing := rfl
@[simp] theorem updAfe_checkpoints (a : Fin 2) (f : Afe → Afe) (m : Module) :
    (updAfe a f m).checkpoints = m.checkpoints := rfl
@[simp] theorem updAfe_lockstep (a : Fin 2) (f : Afe → Afe) (m : Module) : (updAfe a f m).lockstep = m.lockstep := rfl
@[simp] theorem updAfe_memory (a : Fin 2) (f : Afe → Afe) (m : Module) : (updAfe a f m).memory = m.memory := rfl
@[simp] theorem updAfe_service (a : Fin 2) (f : Afe → Afe) (m : Module) : (updAfe a f m).service = m.service := rfl
@[simp] theorem updAfe_traction (a : Fin 2) (f : Afe → Afe) (m : Module) : (updAfe a f m).traction = m.traction := rfl
@[simp] theorem updAfe_chopper (a : Fin 2) (f : Afe → Afe) (m : Module) : (updAfe a f m).chopper = m.chopper := rfl
@[simp] theorem updAfe_feedback (a : Fin 2) (f : Afe → Afe) (m : Module) : (updAfe a f m).feedback = m.feedback := rfl
@[simp] theorem updAfe_converter (a : Fin 2) (f : Afe → Afe) (m : Module) :
    (updAfe a f m).converter = m.converter := rfl
@[simp] theorem updAfe_charger (a : Fin 2) (f : Afe → Afe) (m : Module) : (updAfe a f m).charger = m.charger := rfl
@[simp] theorem updAfe_islands (a : Fin 2) (f : Afe → Afe) (m : Module) : (updAfe a f m).islands = m.islands := rfl
@[simp] theorem updAfe_gate (a : Fin 2) (f : Afe → Afe) (m : Module) : (updAfe a f m).gate = m.gate := rfl
@[simp] theorem updAfe_actuators (a : Fin 2) (f : Afe → Afe) (m : Module) :
    (updAfe a f m).actuators = m.actuators := rfl
@[simp] theorem updAfe_afe (a : Fin 2) (f : Afe → Afe) (m : Module) : (updAfe a f m).afe = Vector.upd m.afe a f := rfl
@[simp] theorem updAfe_can (a : Fin 2) (f : Afe → Afe) (m : Module) : (updAfe a f m).can = m.can := rfl
@[simp] theorem updAfe_eth (a : Fin 2) (f : Afe → Afe) (m : Module) : (updAfe a f m).eth = m.eth := rfl
@[simp] theorem updAfe_isobus (a : Fin 2) (f : Afe → Afe) (m : Module) : (updAfe a f m).isobus = m.isobus := rfl
@[simp] theorem updAfe_sys (a : Fin 2) (f : Afe → Afe) (m : Module) : (updAfe a f m).sys = m.sys := rfl
@[simp] theorem updAfe_drivenTime (a : Fin 2) (f : Afe → Afe) (m : Module) :
    (updAfe a f m).drivenTime = m.drivenTime := rfl
@[simp] theorem updAfe_free (a : Fin 2) (f : Afe → Afe) (m : Module) : (updAfe a f m).free = m.free := rfl
@[simp] theorem updAfe_out (a : Fin 2) (f : Afe → Afe) (m : Module) : (updAfe a f m).out = m.out := rfl

/-! ## updCan -/

@[simp] theorem updCan_time (p : Fin 4) (f : CanPort → CanPort) (m : Module) : (updCan p f m).time = m.time := rfl
@[simp] theorem updCan_supply (p : Fin 4) (f : CanPort → CanPort) (m : Module) : (updCan p f m).supply = m.supply := rfl
@[simp] theorem updCan_straps (p : Fin 4) (f : CanPort → CanPort) (m : Module) : (updCan p f m).straps = m.straps := rfl
@[simp] theorem updCan_dies (p : Fin 4) (f : CanPort → CanPort) (m : Module) : (updCan p f m).dies = m.dies := rfl
@[simp] theorem updCan_epochs (p : Fin 4) (f : CanPort → CanPort) (m : Module) : (updCan p f m).epochs = m.epochs := rfl
@[simp] theorem updCan_live (p : Fin 4) (f : CanPort → CanPort) (m : Module) : (updCan p f m).live = m.live := rfl
@[simp] theorem updCan_interp (p : Fin 4) (f : CanPort → CanPort) (m : Module) : (updCan p f m).interp = m.interp := rfl
@[simp] theorem updCan_faults (p : Fin 4) (f : CanPort → CanPort) (m : Module) : (updCan p f m).faults = m.faults := rfl
@[simp] theorem updCan_regions (p : Fin 4) (f : CanPort → CanPort) (m : Module) :
    (updCan p f m).regions = m.regions := rfl
@[simp] theorem updCan_hostOut (p : Fin 4) (f : CanPort → CanPort) (m : Module) :
    (updCan p f m).hostOut = m.hostOut := rfl
@[simp] theorem updCan_crossings (p : Fin 4) (f : CanPort → CanPort) (m : Module) :
    (updCan p f m).crossings = m.crossings := rfl
@[simp] theorem updCan_landings (p : Fin 4) (f : CanPort → CanPort) (m : Module) :
    (updCan p f m).landings = m.landings := rfl
@[simp] theorem updCan_published (p : Fin 4) (f : CanPort → CanPort) (m : Module) :
    (updCan p f m).published = m.published := rfl
@[simp] theorem updCan_exchange (p : Fin 4) (f : CanPort → CanPort) (m : Module) :
    (updCan p f m).exchange = m.exchange := rfl
@[simp] theorem updCan_publishing (p : Fin 4) (f : CanPort → CanPort) (m : Module) :
    (updCan p f m).publishing = m.publishing := rfl
@[simp] theorem updCan_checkpoints (p : Fin 4) (f : CanPort → CanPort) (m : Module) :
    (updCan p f m).checkpoints = m.checkpoints := rfl
@[simp] theorem updCan_lockstep (p : Fin 4) (f : CanPort → CanPort) (m : Module) :
    (updCan p f m).lockstep = m.lockstep := rfl
@[simp] theorem updCan_memory (p : Fin 4) (f : CanPort → CanPort) (m : Module) : (updCan p f m).memory = m.memory := rfl
@[simp] theorem updCan_service (p : Fin 4) (f : CanPort → CanPort) (m : Module) :
    (updCan p f m).service = m.service := rfl
@[simp] theorem updCan_traction (p : Fin 4) (f : CanPort → CanPort) (m : Module) :
    (updCan p f m).traction = m.traction := rfl
@[simp] theorem updCan_chopper (p : Fin 4) (f : CanPort → CanPort) (m : Module) :
    (updCan p f m).chopper = m.chopper := rfl
@[simp] theorem updCan_feedback (p : Fin 4) (f : CanPort → CanPort) (m : Module) :
    (updCan p f m).feedback = m.feedback := rfl
@[simp] theorem updCan_converter (p : Fin 4) (f : CanPort → CanPort) (m : Module) :
    (updCan p f m).converter = m.converter := rfl
@[simp] theorem updCan_charger (p : Fin 4) (f : CanPort → CanPort) (m : Module) :
    (updCan p f m).charger = m.charger := rfl
@[simp] theorem updCan_islands (p : Fin 4) (f : CanPort → CanPort) (m : Module) :
    (updCan p f m).islands = m.islands := rfl
@[simp] theorem updCan_gate (p : Fin 4) (f : CanPort → CanPort) (m : Module) : (updCan p f m).gate = m.gate := rfl
@[simp] theorem updCan_actuators (p : Fin 4) (f : CanPort → CanPort) (m : Module) :
    (updCan p f m).actuators = m.actuators := rfl
@[simp] theorem updCan_afe (p : Fin 4) (f : CanPort → CanPort) (m : Module) : (updCan p f m).afe = m.afe := rfl
@[simp] theorem updCan_can (p : Fin 4) (f : CanPort → CanPort) (m : Module) :
    (updCan p f m).can = Vector.upd m.can p f := rfl
@[simp] theorem updCan_eth (p : Fin 4) (f : CanPort → CanPort) (m : Module) : (updCan p f m).eth = m.eth := rfl
@[simp] theorem updCan_isobus (p : Fin 4) (f : CanPort → CanPort) (m : Module) : (updCan p f m).isobus = m.isobus := rfl
@[simp] theorem updCan_sys (p : Fin 4) (f : CanPort → CanPort) (m : Module) : (updCan p f m).sys = m.sys := rfl
@[simp] theorem updCan_drivenTime (p : Fin 4) (f : CanPort → CanPort) (m : Module) :
    (updCan p f m).drivenTime = m.drivenTime := rfl
@[simp] theorem updCan_free (p : Fin 4) (f : CanPort → CanPort) (m : Module) : (updCan p f m).free = m.free := rfl
@[simp] theorem updCan_out (p : Fin 4) (f : CanPort → CanPort) (m : Module) : (updCan p f m).out = m.out := rfl

/-! ## updEth -/

@[simp] theorem updEth_time (e : Fin 2) (f : EthPort → EthPort) (m : Module) : (updEth e f m).time = m.time := rfl
@[simp] theorem updEth_supply (e : Fin 2) (f : EthPort → EthPort) (m : Module) : (updEth e f m).supply = m.supply := rfl
@[simp] theorem updEth_straps (e : Fin 2) (f : EthPort → EthPort) (m : Module) : (updEth e f m).straps = m.straps := rfl
@[simp] theorem updEth_dies (e : Fin 2) (f : EthPort → EthPort) (m : Module) : (updEth e f m).dies = m.dies := rfl
@[simp] theorem updEth_epochs (e : Fin 2) (f : EthPort → EthPort) (m : Module) : (updEth e f m).epochs = m.epochs := rfl
@[simp] theorem updEth_live (e : Fin 2) (f : EthPort → EthPort) (m : Module) : (updEth e f m).live = m.live := rfl
@[simp] theorem updEth_interp (e : Fin 2) (f : EthPort → EthPort) (m : Module) : (updEth e f m).interp = m.interp := rfl
@[simp] theorem updEth_faults (e : Fin 2) (f : EthPort → EthPort) (m : Module) : (updEth e f m).faults = m.faults := rfl
@[simp] theorem updEth_regions (e : Fin 2) (f : EthPort → EthPort) (m : Module) :
    (updEth e f m).regions = m.regions := rfl
@[simp] theorem updEth_hostOut (e : Fin 2) (f : EthPort → EthPort) (m : Module) :
    (updEth e f m).hostOut = m.hostOut := rfl
@[simp] theorem updEth_crossings (e : Fin 2) (f : EthPort → EthPort) (m : Module) :
    (updEth e f m).crossings = m.crossings := rfl
@[simp] theorem updEth_landings (e : Fin 2) (f : EthPort → EthPort) (m : Module) :
    (updEth e f m).landings = m.landings := rfl
@[simp] theorem updEth_published (e : Fin 2) (f : EthPort → EthPort) (m : Module) :
    (updEth e f m).published = m.published := rfl
@[simp] theorem updEth_exchange (e : Fin 2) (f : EthPort → EthPort) (m : Module) :
    (updEth e f m).exchange = m.exchange := rfl
@[simp] theorem updEth_publishing (e : Fin 2) (f : EthPort → EthPort) (m : Module) :
    (updEth e f m).publishing = m.publishing := rfl
@[simp] theorem updEth_checkpoints (e : Fin 2) (f : EthPort → EthPort) (m : Module) :
    (updEth e f m).checkpoints = m.checkpoints := rfl
@[simp] theorem updEth_lockstep (e : Fin 2) (f : EthPort → EthPort) (m : Module) :
    (updEth e f m).lockstep = m.lockstep := rfl
@[simp] theorem updEth_memory (e : Fin 2) (f : EthPort → EthPort) (m : Module) : (updEth e f m).memory = m.memory := rfl
@[simp] theorem updEth_service (e : Fin 2) (f : EthPort → EthPort) (m : Module) :
    (updEth e f m).service = m.service := rfl
@[simp] theorem updEth_traction (e : Fin 2) (f : EthPort → EthPort) (m : Module) :
    (updEth e f m).traction = m.traction := rfl
@[simp] theorem updEth_chopper (e : Fin 2) (f : EthPort → EthPort) (m : Module) :
    (updEth e f m).chopper = m.chopper := rfl
@[simp] theorem updEth_feedback (e : Fin 2) (f : EthPort → EthPort) (m : Module) :
    (updEth e f m).feedback = m.feedback := rfl
@[simp] theorem updEth_converter (e : Fin 2) (f : EthPort → EthPort) (m : Module) :
    (updEth e f m).converter = m.converter := rfl
@[simp] theorem updEth_charger (e : Fin 2) (f : EthPort → EthPort) (m : Module) :
    (updEth e f m).charger = m.charger := rfl
@[simp] theorem updEth_islands (e : Fin 2) (f : EthPort → EthPort) (m : Module) :
    (updEth e f m).islands = m.islands := rfl
@[simp] theorem updEth_gate (e : Fin 2) (f : EthPort → EthPort) (m : Module) : (updEth e f m).gate = m.gate := rfl
@[simp] theorem updEth_actuators (e : Fin 2) (f : EthPort → EthPort) (m : Module) :
    (updEth e f m).actuators = m.actuators := rfl
@[simp] theorem updEth_afe (e : Fin 2) (f : EthPort → EthPort) (m : Module) : (updEth e f m).afe = m.afe := rfl
@[simp] theorem updEth_can (e : Fin 2) (f : EthPort → EthPort) (m : Module) : (updEth e f m).can = m.can := rfl
@[simp] theorem updEth_eth (e : Fin 2) (f : EthPort → EthPort) (m : Module) :
    (updEth e f m).eth = Vector.upd m.eth e f := rfl
@[simp] theorem updEth_isobus (e : Fin 2) (f : EthPort → EthPort) (m : Module) : (updEth e f m).isobus = m.isobus := rfl
@[simp] theorem updEth_sys (e : Fin 2) (f : EthPort → EthPort) (m : Module) : (updEth e f m).sys = m.sys := rfl
@[simp] theorem updEth_drivenTime (e : Fin 2) (f : EthPort → EthPort) (m : Module) :
    (updEth e f m).drivenTime = m.drivenTime := rfl
@[simp] theorem updEth_free (e : Fin 2) (f : EthPort → EthPort) (m : Module) : (updEth e f m).free = m.free := rfl
@[simp] theorem updEth_out (e : Fin 2) (f : EthPort → EthPort) (m : Module) : (updEth e f m).out = m.out := rfl

/-! ## updCrossing -/

@[simp] theorem updCrossing_time (i : Fin 22) (f : Crossing → Crossing) (m : Module) :
    (updCrossing i f m).time = m.time := rfl
@[simp] theorem updCrossing_supply (i : Fin 22) (f : Crossing → Crossing) (m : Module) :
    (updCrossing i f m).supply = m.supply := rfl
@[simp] theorem updCrossing_straps (i : Fin 22) (f : Crossing → Crossing) (m : Module) :
    (updCrossing i f m).straps = m.straps := rfl
@[simp] theorem updCrossing_dies (i : Fin 22) (f : Crossing → Crossing) (m : Module) :
    (updCrossing i f m).dies = m.dies := rfl
@[simp] theorem updCrossing_epochs (i : Fin 22) (f : Crossing → Crossing) (m : Module) :
    (updCrossing i f m).epochs = m.epochs := rfl
@[simp] theorem updCrossing_live (i : Fin 22) (f : Crossing → Crossing) (m : Module) :
    (updCrossing i f m).live = m.live := rfl
@[simp] theorem updCrossing_interp (i : Fin 22) (f : Crossing → Crossing) (m : Module) :
    (updCrossing i f m).interp = m.interp := rfl
@[simp] theorem updCrossing_faults (i : Fin 22) (f : Crossing → Crossing) (m : Module) :
    (updCrossing i f m).faults = m.faults := rfl
@[simp] theorem updCrossing_regions (i : Fin 22) (f : Crossing → Crossing) (m : Module) :
    (updCrossing i f m).regions = m.regions := rfl
@[simp] theorem updCrossing_hostOut (i : Fin 22) (f : Crossing → Crossing) (m : Module) :
    (updCrossing i f m).hostOut = m.hostOut := rfl
@[simp] theorem updCrossing_crossings (i : Fin 22) (f : Crossing → Crossing) (m : Module) :
    (updCrossing i f m).crossings = Vector.upd m.crossings i f := rfl
@[simp] theorem updCrossing_landings (i : Fin 22) (f : Crossing → Crossing) (m : Module) :
    (updCrossing i f m).landings = m.landings := rfl
@[simp] theorem updCrossing_published (i : Fin 22) (f : Crossing → Crossing) (m : Module) :
    (updCrossing i f m).published = m.published := rfl
@[simp] theorem updCrossing_exchange (i : Fin 22) (f : Crossing → Crossing) (m : Module) :
    (updCrossing i f m).exchange = m.exchange := rfl
@[simp] theorem updCrossing_publishing (i : Fin 22) (f : Crossing → Crossing) (m : Module) :
    (updCrossing i f m).publishing = m.publishing := rfl
@[simp] theorem updCrossing_checkpoints (i : Fin 22) (f : Crossing → Crossing) (m : Module) :
    (updCrossing i f m).checkpoints = m.checkpoints := rfl
@[simp] theorem updCrossing_lockstep (i : Fin 22) (f : Crossing → Crossing) (m : Module) :
    (updCrossing i f m).lockstep = m.lockstep := rfl
@[simp] theorem updCrossing_memory (i : Fin 22) (f : Crossing → Crossing) (m : Module) :
    (updCrossing i f m).memory = m.memory := rfl
@[simp] theorem updCrossing_service (i : Fin 22) (f : Crossing → Crossing) (m : Module) :
    (updCrossing i f m).service = m.service := rfl
@[simp] theorem updCrossing_traction (i : Fin 22) (f : Crossing → Crossing) (m : Module) :
    (updCrossing i f m).traction = m.traction := rfl
@[simp] theorem updCrossing_chopper (i : Fin 22) (f : Crossing → Crossing) (m : Module) :
    (updCrossing i f m).chopper = m.chopper := rfl
@[simp] theorem updCrossing_feedback (i : Fin 22) (f : Crossing → Crossing) (m : Module) :
    (updCrossing i f m).feedback = m.feedback := rfl
@[simp] theorem updCrossing_converter (i : Fin 22) (f : Crossing → Crossing) (m : Module) :
    (updCrossing i f m).converter = m.converter := rfl
@[simp] theorem updCrossing_charger (i : Fin 22) (f : Crossing → Crossing) (m : Module) :
    (updCrossing i f m).charger = m.charger := rfl
@[simp] theorem updCrossing_islands (i : Fin 22) (f : Crossing → Crossing) (m : Module) :
    (updCrossing i f m).islands = m.islands := rfl
@[simp] theorem updCrossing_gate (i : Fin 22) (f : Crossing → Crossing) (m : Module) :
    (updCrossing i f m).gate = m.gate := rfl
@[simp] theorem updCrossing_actuators (i : Fin 22) (f : Crossing → Crossing) (m : Module) :
    (updCrossing i f m).actuators = m.actuators := rfl
@[simp] theorem updCrossing_afe (i : Fin 22) (f : Crossing → Crossing) (m : Module) :
    (updCrossing i f m).afe = m.afe := rfl
@[simp] theorem updCrossing_can (i : Fin 22) (f : Crossing → Crossing) (m : Module) :
    (updCrossing i f m).can = m.can := rfl
@[simp] theorem updCrossing_eth (i : Fin 22) (f : Crossing → Crossing) (m : Module) :
    (updCrossing i f m).eth = m.eth := rfl
@[simp] theorem updCrossing_isobus (i : Fin 22) (f : Crossing → Crossing) (m : Module) :
    (updCrossing i f m).isobus = m.isobus := rfl
@[simp] theorem updCrossing_sys (i : Fin 22) (f : Crossing → Crossing) (m : Module) :
    (updCrossing i f m).sys = m.sys := rfl
@[simp] theorem updCrossing_drivenTime (i : Fin 22) (f : Crossing → Crossing) (m : Module) :
    (updCrossing i f m).drivenTime = m.drivenTime := rfl
@[simp] theorem updCrossing_free (i : Fin 22) (f : Crossing → Crossing) (m : Module) :
    (updCrossing i f m).free = m.free := rfl
@[simp] theorem updCrossing_out (i : Fin 22) (f : Crossing → Crossing) (m : Module) :
    (updCrossing i f m).out = m.out := rfl

/-! ## updSys -/

@[simp] theorem updSys_time (f : System → System) (m : Module) : (updSys f m).time = m.time := rfl
@[simp] theorem updSys_supply (f : System → System) (m : Module) : (updSys f m).supply = m.supply := rfl
@[simp] theorem updSys_straps (f : System → System) (m : Module) : (updSys f m).straps = m.straps := rfl
@[simp] theorem updSys_dies (f : System → System) (m : Module) : (updSys f m).dies = m.dies := rfl
@[simp] theorem updSys_epochs (f : System → System) (m : Module) : (updSys f m).epochs = m.epochs := rfl
@[simp] theorem updSys_live (f : System → System) (m : Module) : (updSys f m).live = m.live := rfl
@[simp] theorem updSys_interp (f : System → System) (m : Module) : (updSys f m).interp = m.interp := rfl
@[simp] theorem updSys_faults (f : System → System) (m : Module) : (updSys f m).faults = m.faults := rfl
@[simp] theorem updSys_regions (f : System → System) (m : Module) : (updSys f m).regions = m.regions := rfl
@[simp] theorem updSys_hostOut (f : System → System) (m : Module) : (updSys f m).hostOut = m.hostOut := rfl
@[simp] theorem updSys_crossings (f : System → System) (m : Module) : (updSys f m).crossings = m.crossings := rfl
@[simp] theorem updSys_landings (f : System → System) (m : Module) : (updSys f m).landings = m.landings := rfl
@[simp] theorem updSys_published (f : System → System) (m : Module) : (updSys f m).published = m.published := rfl
@[simp] theorem updSys_exchange (f : System → System) (m : Module) : (updSys f m).exchange = m.exchange := rfl
@[simp] theorem updSys_publishing (f : System → System) (m : Module) : (updSys f m).publishing = m.publishing := rfl
@[simp] theorem updSys_checkpoints (f : System → System) (m : Module) : (updSys f m).checkpoints = m.checkpoints := rfl
@[simp] theorem updSys_lockstep (f : System → System) (m : Module) : (updSys f m).lockstep = m.lockstep := rfl
@[simp] theorem updSys_memory (f : System → System) (m : Module) : (updSys f m).memory = m.memory := rfl
@[simp] theorem updSys_service (f : System → System) (m : Module) : (updSys f m).service = m.service := rfl
@[simp] theorem updSys_traction (f : System → System) (m : Module) : (updSys f m).traction = m.traction := rfl
@[simp] theorem updSys_chopper (f : System → System) (m : Module) : (updSys f m).chopper = m.chopper := rfl
@[simp] theorem updSys_feedback (f : System → System) (m : Module) : (updSys f m).feedback = m.feedback := rfl
@[simp] theorem updSys_converter (f : System → System) (m : Module) : (updSys f m).converter = m.converter := rfl
@[simp] theorem updSys_charger (f : System → System) (m : Module) : (updSys f m).charger = m.charger := rfl
@[simp] theorem updSys_islands (f : System → System) (m : Module) : (updSys f m).islands = m.islands := rfl
@[simp] theorem updSys_gate (f : System → System) (m : Module) : (updSys f m).gate = m.gate := rfl
@[simp] theorem updSys_actuators (f : System → System) (m : Module) : (updSys f m).actuators = m.actuators := rfl
@[simp] theorem updSys_afe (f : System → System) (m : Module) : (updSys f m).afe = m.afe := rfl
@[simp] theorem updSys_can (f : System → System) (m : Module) : (updSys f m).can = m.can := rfl
@[simp] theorem updSys_eth (f : System → System) (m : Module) : (updSys f m).eth = m.eth := rfl
@[simp] theorem updSys_isobus (f : System → System) (m : Module) : (updSys f m).isobus = m.isobus := rfl
@[simp] theorem updSys_sys (f : System → System) (m : Module) : (updSys f m).sys = f m.sys := rfl
@[simp] theorem updSys_drivenTime (f : System → System) (m : Module) : (updSys f m).drivenTime = m.drivenTime := rfl
@[simp] theorem updSys_free (f : System → System) (m : Module) : (updSys f m).free = m.free := rfl
@[simp] theorem updSys_out (f : System → System) (m : Module) : (updSys f m).out = m.out := rfl

/-! ## updIsobus -/

@[simp] theorem updIsobus_time (f : Isobus → Isobus) (m : Module) : (updIsobus f m).time = m.time := rfl
@[simp] theorem updIsobus_supply (f : Isobus → Isobus) (m : Module) : (updIsobus f m).supply = m.supply := rfl
@[simp] theorem updIsobus_straps (f : Isobus → Isobus) (m : Module) : (updIsobus f m).straps = m.straps := rfl
@[simp] theorem updIsobus_dies (f : Isobus → Isobus) (m : Module) : (updIsobus f m).dies = m.dies := rfl
@[simp] theorem updIsobus_epochs (f : Isobus → Isobus) (m : Module) : (updIsobus f m).epochs = m.epochs := rfl
@[simp] theorem updIsobus_live (f : Isobus → Isobus) (m : Module) : (updIsobus f m).live = m.live := rfl
@[simp] theorem updIsobus_interp (f : Isobus → Isobus) (m : Module) : (updIsobus f m).interp = m.interp := rfl
@[simp] theorem updIsobus_faults (f : Isobus → Isobus) (m : Module) : (updIsobus f m).faults = m.faults := rfl
@[simp] theorem updIsobus_regions (f : Isobus → Isobus) (m : Module) : (updIsobus f m).regions = m.regions := rfl
@[simp] theorem updIsobus_hostOut (f : Isobus → Isobus) (m : Module) : (updIsobus f m).hostOut = m.hostOut := rfl
@[simp] theorem updIsobus_crossings (f : Isobus → Isobus) (m : Module) : (updIsobus f m).crossings = m.crossings := rfl
@[simp] theorem updIsobus_landings (f : Isobus → Isobus) (m : Module) : (updIsobus f m).landings = m.landings := rfl
@[simp] theorem updIsobus_published (f : Isobus → Isobus) (m : Module) : (updIsobus f m).published = m.published := rfl
@[simp] theorem updIsobus_exchange (f : Isobus → Isobus) (m : Module) : (updIsobus f m).exchange = m.exchange := rfl
@[simp] theorem updIsobus_publishing (f : Isobus → Isobus) (m : Module) : (updIsobus f m).publishing = m.publishing := rfl
@[simp] theorem updIsobus_checkpoints (f : Isobus → Isobus) (m : Module) : (updIsobus f m).checkpoints = m.checkpoints := rfl
@[simp] theorem updIsobus_lockstep (f : Isobus → Isobus) (m : Module) : (updIsobus f m).lockstep = m.lockstep := rfl
@[simp] theorem updIsobus_memory (f : Isobus → Isobus) (m : Module) : (updIsobus f m).memory = m.memory := rfl
@[simp] theorem updIsobus_service (f : Isobus → Isobus) (m : Module) : (updIsobus f m).service = m.service := rfl
@[simp] theorem updIsobus_traction (f : Isobus → Isobus) (m : Module) : (updIsobus f m).traction = m.traction := rfl
@[simp] theorem updIsobus_chopper (f : Isobus → Isobus) (m : Module) : (updIsobus f m).chopper = m.chopper := rfl
@[simp] theorem updIsobus_feedback (f : Isobus → Isobus) (m : Module) : (updIsobus f m).feedback = m.feedback := rfl
@[simp] theorem updIsobus_converter (f : Isobus → Isobus) (m : Module) : (updIsobus f m).converter = m.converter := rfl
@[simp] theorem updIsobus_charger (f : Isobus → Isobus) (m : Module) : (updIsobus f m).charger = m.charger := rfl
@[simp] theorem updIsobus_islands (f : Isobus → Isobus) (m : Module) : (updIsobus f m).islands = m.islands := rfl
@[simp] theorem updIsobus_gate (f : Isobus → Isobus) (m : Module) : (updIsobus f m).gate = m.gate := rfl
@[simp] theorem updIsobus_actuators (f : Isobus → Isobus) (m : Module) : (updIsobus f m).actuators = m.actuators := rfl
@[simp] theorem updIsobus_afe (f : Isobus → Isobus) (m : Module) : (updIsobus f m).afe = m.afe := rfl
@[simp] theorem updIsobus_can (f : Isobus → Isobus) (m : Module) : (updIsobus f m).can = m.can := rfl
@[simp] theorem updIsobus_eth (f : Isobus → Isobus) (m : Module) : (updIsobus f m).eth = m.eth := rfl
@[simp] theorem updIsobus_isobus (f : Isobus → Isobus) (m : Module) : (updIsobus f m).isobus = f m.isobus := rfl
@[simp] theorem updIsobus_sys (f : Isobus → Isobus) (m : Module) : (updIsobus f m).sys = m.sys := rfl
@[simp] theorem updIsobus_drivenTime (f : Isobus → Isobus) (m : Module) : (updIsobus f m).drivenTime = m.drivenTime := rfl
@[simp] theorem updIsobus_free (f : Isobus → Isobus) (m : Module) : (updIsobus f m).free = m.free := rfl
@[simp] theorem updIsobus_out (f : Isobus → Isobus) (m : Module) : (updIsobus f m).out = m.out := rfl

/-! ## Module.withWaiting -/

@[simp] theorem Module.withWaiting_time (m : Module) (w : Waiting) : (m.withWaiting w).time = m.time := rfl
@[simp] theorem Module.withWaiting_supply (m : Module) (w : Waiting) : (m.withWaiting w).supply = m.supply := rfl
@[simp] theorem Module.withWaiting_straps (m : Module) (w : Waiting) : (m.withWaiting w).straps = m.straps := rfl
@[simp] theorem Module.withWaiting_dies (m : Module) (w : Waiting) : (m.withWaiting w).dies = m.dies := rfl
@[simp] theorem Module.withWaiting_epochs (m : Module) (w : Waiting) : (m.withWaiting w).epochs = m.epochs := rfl
@[simp] theorem Module.withWaiting_live (m : Module) (w : Waiting) : (m.withWaiting w).live = m.live := rfl
@[simp] theorem Module.withWaiting_interp (m : Module) (w : Waiting) :
    (m.withWaiting w).interp = { m.interp with waiting := m.interp.waiting ++ [w] } := rfl
@[simp] theorem Module.withWaiting_faults (m : Module) (w : Waiting) : (m.withWaiting w).faults = m.faults := rfl
@[simp] theorem Module.withWaiting_regions (m : Module) (w : Waiting) : (m.withWaiting w).regions = m.regions := rfl
@[simp] theorem Module.withWaiting_hostOut (m : Module) (w : Waiting) : (m.withWaiting w).hostOut = m.hostOut := rfl
@[simp] theorem Module.withWaiting_crossings (m : Module) (w : Waiting) :
    (m.withWaiting w).crossings = m.crossings := rfl
@[simp] theorem Module.withWaiting_landings (m : Module) (w : Waiting) : (m.withWaiting w).landings = m.landings := rfl
@[simp] theorem Module.withWaiting_published (m : Module) (w : Waiting) :
    (m.withWaiting w).published = m.published := rfl
@[simp] theorem Module.withWaiting_exchange (m : Module) (w : Waiting) : (m.withWaiting w).exchange = m.exchange := rfl
@[simp] theorem Module.withWaiting_publishing (m : Module) (w : Waiting) :
    (m.withWaiting w).publishing = m.publishing := rfl
@[simp] theorem Module.withWaiting_checkpoints (m : Module) (w : Waiting) :
    (m.withWaiting w).checkpoints = m.checkpoints := rfl
@[simp] theorem Module.withWaiting_lockstep (m : Module) (w : Waiting) : (m.withWaiting w).lockstep = m.lockstep := rfl
@[simp] theorem Module.withWaiting_memory (m : Module) (w : Waiting) : (m.withWaiting w).memory = m.memory := rfl
@[simp] theorem Module.withWaiting_service (m : Module) (w : Waiting) : (m.withWaiting w).service = m.service := rfl
@[simp] theorem Module.withWaiting_traction (m : Module) (w : Waiting) : (m.withWaiting w).traction = m.traction := rfl
@[simp] theorem Module.withWaiting_chopper (m : Module) (w : Waiting) : (m.withWaiting w).chopper = m.chopper := rfl
@[simp] theorem Module.withWaiting_feedback (m : Module) (w : Waiting) : (m.withWaiting w).feedback = m.feedback := rfl
@[simp] theorem Module.withWaiting_converter (m : Module) (w : Waiting) :
    (m.withWaiting w).converter = m.converter := rfl
@[simp] theorem Module.withWaiting_charger (m : Module) (w : Waiting) : (m.withWaiting w).charger = m.charger := rfl
@[simp] theorem Module.withWaiting_islands (m : Module) (w : Waiting) : (m.withWaiting w).islands = m.islands := rfl
@[simp] theorem Module.withWaiting_gate (m : Module) (w : Waiting) : (m.withWaiting w).gate = m.gate := rfl
@[simp] theorem Module.withWaiting_actuators (m : Module) (w : Waiting) :
    (m.withWaiting w).actuators = m.actuators := rfl
@[simp] theorem Module.withWaiting_afe (m : Module) (w : Waiting) : (m.withWaiting w).afe = m.afe := rfl
@[simp] theorem Module.withWaiting_can (m : Module) (w : Waiting) : (m.withWaiting w).can = m.can := rfl
@[simp] theorem Module.withWaiting_eth (m : Module) (w : Waiting) : (m.withWaiting w).eth = m.eth := rfl
@[simp] theorem Module.withWaiting_isobus (m : Module) (w : Waiting) : (m.withWaiting w).isobus = m.isobus := rfl
@[simp] theorem Module.withWaiting_sys (m : Module) (w : Waiting) : (m.withWaiting w).sys = m.sys := rfl
@[simp] theorem Module.withWaiting_drivenTime (m : Module) (w : Waiting) :
    (m.withWaiting w).drivenTime = m.drivenTime := rfl
@[simp] theorem Module.withWaiting_free (m : Module) (w : Waiting) : (m.withWaiting w).free = m.free := rfl
@[simp] theorem Module.withWaiting_out (m : Module) (w : Waiting) : (m.withWaiting w).out = m.out := rfl

/-! ## updEpochs -/

@[simp] theorem updEpochs_time (f : Epochs → Epochs) (m : Module) : (updEpochs f m).time = m.time := rfl
@[simp] theorem updEpochs_supply (f : Epochs → Epochs) (m : Module) : (updEpochs f m).supply = m.supply := rfl
@[simp] theorem updEpochs_straps (f : Epochs → Epochs) (m : Module) : (updEpochs f m).straps = m.straps := rfl
@[simp] theorem updEpochs_dies (f : Epochs → Epochs) (m : Module) : (updEpochs f m).dies = m.dies := rfl
@[simp] theorem updEpochs_epochs (f : Epochs → Epochs) (m : Module) : (updEpochs f m).epochs = f m.epochs := rfl
@[simp] theorem updEpochs_live (f : Epochs → Epochs) (m : Module) : (updEpochs f m).live = m.live := rfl
@[simp] theorem updEpochs_interp (f : Epochs → Epochs) (m : Module) : (updEpochs f m).interp = m.interp := rfl
@[simp] theorem updEpochs_faults (f : Epochs → Epochs) (m : Module) : (updEpochs f m).faults = m.faults := rfl
@[simp] theorem updEpochs_regions (f : Epochs → Epochs) (m : Module) : (updEpochs f m).regions = m.regions := rfl
@[simp] theorem updEpochs_hostOut (f : Epochs → Epochs) (m : Module) : (updEpochs f m).hostOut = m.hostOut := rfl
@[simp] theorem updEpochs_crossings (f : Epochs → Epochs) (m : Module) : (updEpochs f m).crossings = m.crossings := rfl
@[simp] theorem updEpochs_landings (f : Epochs → Epochs) (m : Module) : (updEpochs f m).landings = m.landings := rfl
@[simp] theorem updEpochs_published (f : Epochs → Epochs) (m : Module) : (updEpochs f m).published = m.published := rfl
@[simp] theorem updEpochs_exchange (f : Epochs → Epochs) (m : Module) : (updEpochs f m).exchange = m.exchange := rfl
@[simp] theorem updEpochs_publishing (f : Epochs → Epochs) (m : Module) :
    (updEpochs f m).publishing = m.publishing := rfl
@[simp] theorem updEpochs_checkpoints (f : Epochs → Epochs) (m : Module) :
    (updEpochs f m).checkpoints = m.checkpoints := rfl
@[simp] theorem updEpochs_lockstep (f : Epochs → Epochs) (m : Module) : (updEpochs f m).lockstep = m.lockstep := rfl
@[simp] theorem updEpochs_memory (f : Epochs → Epochs) (m : Module) : (updEpochs f m).memory = m.memory := rfl
@[simp] theorem updEpochs_service (f : Epochs → Epochs) (m : Module) : (updEpochs f m).service = m.service := rfl
@[simp] theorem updEpochs_traction (f : Epochs → Epochs) (m : Module) : (updEpochs f m).traction = m.traction := rfl
@[simp] theorem updEpochs_chopper (f : Epochs → Epochs) (m : Module) : (updEpochs f m).chopper = m.chopper := rfl
@[simp] theorem updEpochs_feedback (f : Epochs → Epochs) (m : Module) : (updEpochs f m).feedback = m.feedback := rfl
@[simp] theorem updEpochs_converter (f : Epochs → Epochs) (m : Module) : (updEpochs f m).converter = m.converter := rfl
@[simp] theorem updEpochs_charger (f : Epochs → Epochs) (m : Module) : (updEpochs f m).charger = m.charger := rfl
@[simp] theorem updEpochs_islands (f : Epochs → Epochs) (m : Module) : (updEpochs f m).islands = m.islands := rfl
@[simp] theorem updEpochs_gate (f : Epochs → Epochs) (m : Module) : (updEpochs f m).gate = m.gate := rfl
@[simp] theorem updEpochs_actuators (f : Epochs → Epochs) (m : Module) : (updEpochs f m).actuators = m.actuators := rfl
@[simp] theorem updEpochs_afe (f : Epochs → Epochs) (m : Module) : (updEpochs f m).afe = m.afe := rfl
@[simp] theorem updEpochs_can (f : Epochs → Epochs) (m : Module) : (updEpochs f m).can = m.can := rfl
@[simp] theorem updEpochs_eth (f : Epochs → Epochs) (m : Module) : (updEpochs f m).eth = m.eth := rfl
@[simp] theorem updEpochs_isobus (f : Epochs → Epochs) (m : Module) : (updEpochs f m).isobus = m.isobus := rfl
@[simp] theorem updEpochs_sys (f : Epochs → Epochs) (m : Module) : (updEpochs f m).sys = m.sys := rfl
@[simp] theorem updEpochs_drivenTime (f : Epochs → Epochs) (m : Module) :
    (updEpochs f m).drivenTime = m.drivenTime := rfl
@[simp] theorem updEpochs_free (f : Epochs → Epochs) (m : Module) : (updEpochs f m).free = m.free := rfl
@[simp] theorem updEpochs_out (f : Epochs → Epochs) (m : Module) : (updEpochs f m).out = m.out := rfl

/-! ## updSupply -/

@[simp] theorem updSupply_time (f : Supply → Supply) (m : Module) : (updSupply f m).time = m.time := rfl
@[simp] theorem updSupply_supply (f : Supply → Supply) (m : Module) : (updSupply f m).supply = f m.supply := rfl
@[simp] theorem updSupply_straps (f : Supply → Supply) (m : Module) : (updSupply f m).straps = m.straps := rfl
@[simp] theorem updSupply_dies (f : Supply → Supply) (m : Module) : (updSupply f m).dies = m.dies := rfl
@[simp] theorem updSupply_epochs (f : Supply → Supply) (m : Module) : (updSupply f m).epochs = m.epochs := rfl
@[simp] theorem updSupply_live (f : Supply → Supply) (m : Module) : (updSupply f m).live = m.live := rfl
@[simp] theorem updSupply_interp (f : Supply → Supply) (m : Module) : (updSupply f m).interp = m.interp := rfl
@[simp] theorem updSupply_faults (f : Supply → Supply) (m : Module) : (updSupply f m).faults = m.faults := rfl
@[simp] theorem updSupply_regions (f : Supply → Supply) (m : Module) : (updSupply f m).regions = m.regions := rfl
@[simp] theorem updSupply_hostOut (f : Supply → Supply) (m : Module) : (updSupply f m).hostOut = m.hostOut := rfl
@[simp] theorem updSupply_crossings (f : Supply → Supply) (m : Module) : (updSupply f m).crossings = m.crossings := rfl
@[simp] theorem updSupply_landings (f : Supply → Supply) (m : Module) : (updSupply f m).landings = m.landings := rfl
@[simp] theorem updSupply_published (f : Supply → Supply) (m : Module) : (updSupply f m).published = m.published := rfl
@[simp] theorem updSupply_exchange (f : Supply → Supply) (m : Module) : (updSupply f m).exchange = m.exchange := rfl
@[simp] theorem updSupply_publishing (f : Supply → Supply) (m : Module) :
    (updSupply f m).publishing = m.publishing := rfl
@[simp] theorem updSupply_checkpoints (f : Supply → Supply) (m : Module) :
    (updSupply f m).checkpoints = m.checkpoints := rfl
@[simp] theorem updSupply_lockstep (f : Supply → Supply) (m : Module) : (updSupply f m).lockstep = m.lockstep := rfl
@[simp] theorem updSupply_memory (f : Supply → Supply) (m : Module) : (updSupply f m).memory = m.memory := rfl
@[simp] theorem updSupply_service (f : Supply → Supply) (m : Module) : (updSupply f m).service = m.service := rfl
@[simp] theorem updSupply_traction (f : Supply → Supply) (m : Module) : (updSupply f m).traction = m.traction := rfl
@[simp] theorem updSupply_chopper (f : Supply → Supply) (m : Module) : (updSupply f m).chopper = m.chopper := rfl
@[simp] theorem updSupply_feedback (f : Supply → Supply) (m : Module) : (updSupply f m).feedback = m.feedback := rfl
@[simp] theorem updSupply_converter (f : Supply → Supply) (m : Module) : (updSupply f m).converter = m.converter := rfl
@[simp] theorem updSupply_charger (f : Supply → Supply) (m : Module) : (updSupply f m).charger = m.charger := rfl
@[simp] theorem updSupply_islands (f : Supply → Supply) (m : Module) : (updSupply f m).islands = m.islands := rfl
@[simp] theorem updSupply_gate (f : Supply → Supply) (m : Module) : (updSupply f m).gate = m.gate := rfl
@[simp] theorem updSupply_actuators (f : Supply → Supply) (m : Module) : (updSupply f m).actuators = m.actuators := rfl
@[simp] theorem updSupply_afe (f : Supply → Supply) (m : Module) : (updSupply f m).afe = m.afe := rfl
@[simp] theorem updSupply_can (f : Supply → Supply) (m : Module) : (updSupply f m).can = m.can := rfl
@[simp] theorem updSupply_eth (f : Supply → Supply) (m : Module) : (updSupply f m).eth = m.eth := rfl
@[simp] theorem updSupply_isobus (f : Supply → Supply) (m : Module) : (updSupply f m).isobus = m.isobus := rfl
@[simp] theorem updSupply_sys (f : Supply → Supply) (m : Module) : (updSupply f m).sys = m.sys := rfl
@[simp] theorem updSupply_drivenTime (f : Supply → Supply) (m : Module) :
    (updSupply f m).drivenTime = m.drivenTime := rfl
@[simp] theorem updSupply_free (f : Supply → Supply) (m : Module) : (updSupply f m).free = m.free := rfl
@[simp] theorem updSupply_out (f : Supply → Supply) (m : Module) : (updSupply f m).out = m.out := rfl

/-! ## updTime -/

@[simp] theorem updTime_time (f : Timing → Timing) (m : Module) : (updTime f m).time = f m.time := rfl
@[simp] theorem updTime_supply (f : Timing → Timing) (m : Module) : (updTime f m).supply = m.supply := rfl
@[simp] theorem updTime_straps (f : Timing → Timing) (m : Module) : (updTime f m).straps = m.straps := rfl
@[simp] theorem updTime_dies (f : Timing → Timing) (m : Module) : (updTime f m).dies = m.dies := rfl
@[simp] theorem updTime_epochs (f : Timing → Timing) (m : Module) : (updTime f m).epochs = m.epochs := rfl
@[simp] theorem updTime_live (f : Timing → Timing) (m : Module) : (updTime f m).live = m.live := rfl
@[simp] theorem updTime_interp (f : Timing → Timing) (m : Module) : (updTime f m).interp = m.interp := rfl
@[simp] theorem updTime_faults (f : Timing → Timing) (m : Module) : (updTime f m).faults = m.faults := rfl
@[simp] theorem updTime_regions (f : Timing → Timing) (m : Module) : (updTime f m).regions = m.regions := rfl
@[simp] theorem updTime_hostOut (f : Timing → Timing) (m : Module) : (updTime f m).hostOut = m.hostOut := rfl
@[simp] theorem updTime_crossings (f : Timing → Timing) (m : Module) : (updTime f m).crossings = m.crossings := rfl
@[simp] theorem updTime_landings (f : Timing → Timing) (m : Module) : (updTime f m).landings = m.landings := rfl
@[simp] theorem updTime_published (f : Timing → Timing) (m : Module) : (updTime f m).published = m.published := rfl
@[simp] theorem updTime_exchange (f : Timing → Timing) (m : Module) : (updTime f m).exchange = m.exchange := rfl
@[simp] theorem updTime_publishing (f : Timing → Timing) (m : Module) : (updTime f m).publishing = m.publishing := rfl
@[simp] theorem updTime_checkpoints (f : Timing → Timing) (m : Module) :
    (updTime f m).checkpoints = m.checkpoints := rfl
@[simp] theorem updTime_lockstep (f : Timing → Timing) (m : Module) : (updTime f m).lockstep = m.lockstep := rfl
@[simp] theorem updTime_memory (f : Timing → Timing) (m : Module) : (updTime f m).memory = m.memory := rfl
@[simp] theorem updTime_service (f : Timing → Timing) (m : Module) : (updTime f m).service = m.service := rfl
@[simp] theorem updTime_traction (f : Timing → Timing) (m : Module) : (updTime f m).traction = m.traction := rfl
@[simp] theorem updTime_chopper (f : Timing → Timing) (m : Module) : (updTime f m).chopper = m.chopper := rfl
@[simp] theorem updTime_feedback (f : Timing → Timing) (m : Module) : (updTime f m).feedback = m.feedback := rfl
@[simp] theorem updTime_converter (f : Timing → Timing) (m : Module) : (updTime f m).converter = m.converter := rfl
@[simp] theorem updTime_charger (f : Timing → Timing) (m : Module) : (updTime f m).charger = m.charger := rfl
@[simp] theorem updTime_islands (f : Timing → Timing) (m : Module) : (updTime f m).islands = m.islands := rfl
@[simp] theorem updTime_gate (f : Timing → Timing) (m : Module) : (updTime f m).gate = m.gate := rfl
@[simp] theorem updTime_actuators (f : Timing → Timing) (m : Module) : (updTime f m).actuators = m.actuators := rfl
@[simp] theorem updTime_afe (f : Timing → Timing) (m : Module) : (updTime f m).afe = m.afe := rfl
@[simp] theorem updTime_can (f : Timing → Timing) (m : Module) : (updTime f m).can = m.can := rfl
@[simp] theorem updTime_eth (f : Timing → Timing) (m : Module) : (updTime f m).eth = m.eth := rfl
@[simp] theorem updTime_isobus (f : Timing → Timing) (m : Module) : (updTime f m).isobus = m.isobus := rfl
@[simp] theorem updTime_sys (f : Timing → Timing) (m : Module) : (updTime f m).sys = m.sys := rfl
@[simp] theorem updTime_drivenTime (f : Timing → Timing) (m : Module) : (updTime f m).drivenTime = m.drivenTime := rfl
@[simp] theorem updTime_free (f : Timing → Timing) (m : Module) : (updTime f m).free = m.free := rfl
@[simp] theorem updTime_out (f : Timing → Timing) (m : Module) : (updTime f m).out = m.out := rfl

/-! ## updLockstep -/

@[simp] theorem updLockstep_time (f : Lockstep → Lockstep) (m : Module) : (updLockstep f m).time = m.time := rfl
@[simp] theorem updLockstep_supply (f : Lockstep → Lockstep) (m : Module) : (updLockstep f m).supply = m.supply := rfl
@[simp] theorem updLockstep_straps (f : Lockstep → Lockstep) (m : Module) : (updLockstep f m).straps = m.straps := rfl
@[simp] theorem updLockstep_dies (f : Lockstep → Lockstep) (m : Module) : (updLockstep f m).dies = m.dies := rfl
@[simp] theorem updLockstep_epochs (f : Lockstep → Lockstep) (m : Module) : (updLockstep f m).epochs = m.epochs := rfl
@[simp] theorem updLockstep_live (f : Lockstep → Lockstep) (m : Module) : (updLockstep f m).live = m.live := rfl
@[simp] theorem updLockstep_interp (f : Lockstep → Lockstep) (m : Module) : (updLockstep f m).interp = m.interp := rfl
@[simp] theorem updLockstep_faults (f : Lockstep → Lockstep) (m : Module) : (updLockstep f m).faults = m.faults := rfl
@[simp] theorem updLockstep_regions (f : Lockstep → Lockstep) (m : Module) :
    (updLockstep f m).regions = m.regions := rfl
@[simp] theorem updLockstep_hostOut (f : Lockstep → Lockstep) (m : Module) :
    (updLockstep f m).hostOut = m.hostOut := rfl
@[simp] theorem updLockstep_crossings (f : Lockstep → Lockstep) (m : Module) :
    (updLockstep f m).crossings = m.crossings := rfl
@[simp] theorem updLockstep_landings (f : Lockstep → Lockstep) (m : Module) :
    (updLockstep f m).landings = m.landings := rfl
@[simp] theorem updLockstep_published (f : Lockstep → Lockstep) (m : Module) :
    (updLockstep f m).published = m.published := rfl
@[simp] theorem updLockstep_exchange (f : Lockstep → Lockstep) (m : Module) :
    (updLockstep f m).exchange = m.exchange := rfl
@[simp] theorem updLockstep_publishing (f : Lockstep → Lockstep) (m : Module) :
    (updLockstep f m).publishing = m.publishing := rfl
@[simp] theorem updLockstep_checkpoints (f : Lockstep → Lockstep) (m : Module) :
    (updLockstep f m).checkpoints = m.checkpoints := rfl
@[simp] theorem updLockstep_lockstep (f : Lockstep → Lockstep) (m : Module) :
    (updLockstep f m).lockstep = f m.lockstep := rfl
@[simp] theorem updLockstep_memory (f : Lockstep → Lockstep) (m : Module) : (updLockstep f m).memory = m.memory := rfl
@[simp] theorem updLockstep_service (f : Lockstep → Lockstep) (m : Module) :
    (updLockstep f m).service = m.service := rfl
@[simp] theorem updLockstep_traction (f : Lockstep → Lockstep) (m : Module) :
    (updLockstep f m).traction = m.traction := rfl
@[simp] theorem updLockstep_chopper (f : Lockstep → Lockstep) (m : Module) :
    (updLockstep f m).chopper = m.chopper := rfl
@[simp] theorem updLockstep_feedback (f : Lockstep → Lockstep) (m : Module) :
    (updLockstep f m).feedback = m.feedback := rfl
@[simp] theorem updLockstep_converter (f : Lockstep → Lockstep) (m : Module) :
    (updLockstep f m).converter = m.converter := rfl
@[simp] theorem updLockstep_charger (f : Lockstep → Lockstep) (m : Module) :
    (updLockstep f m).charger = m.charger := rfl
@[simp] theorem updLockstep_islands (f : Lockstep → Lockstep) (m : Module) :
    (updLockstep f m).islands = m.islands := rfl
@[simp] theorem updLockstep_gate (f : Lockstep → Lockstep) (m : Module) : (updLockstep f m).gate = m.gate := rfl
@[simp] theorem updLockstep_actuators (f : Lockstep → Lockstep) (m : Module) :
    (updLockstep f m).actuators = m.actuators := rfl
@[simp] theorem updLockstep_afe (f : Lockstep → Lockstep) (m : Module) : (updLockstep f m).afe = m.afe := rfl
@[simp] theorem updLockstep_can (f : Lockstep → Lockstep) (m : Module) : (updLockstep f m).can = m.can := rfl
@[simp] theorem updLockstep_eth (f : Lockstep → Lockstep) (m : Module) : (updLockstep f m).eth = m.eth := rfl
@[simp] theorem updLockstep_isobus (f : Lockstep → Lockstep) (m : Module) : (updLockstep f m).isobus = m.isobus := rfl
@[simp] theorem updLockstep_sys (f : Lockstep → Lockstep) (m : Module) : (updLockstep f m).sys = m.sys := rfl
@[simp] theorem updLockstep_drivenTime (f : Lockstep → Lockstep) (m : Module) :
    (updLockstep f m).drivenTime = m.drivenTime := rfl
@[simp] theorem updLockstep_free (f : Lockstep → Lockstep) (m : Module) : (updLockstep f m).free = m.free := rfl
@[simp] theorem updLockstep_out (f : Lockstep → Lockstep) (m : Module) : (updLockstep f m).out = m.out := rfl

/-! ## updCharger -/

@[simp] theorem updCharger_time (f : Charger → Charger) (m : Module) : (updCharger f m).time = m.time := rfl
@[simp] theorem updCharger_supply (f : Charger → Charger) (m : Module) : (updCharger f m).supply = m.supply := rfl
@[simp] theorem updCharger_straps (f : Charger → Charger) (m : Module) : (updCharger f m).straps = m.straps := rfl
@[simp] theorem updCharger_dies (f : Charger → Charger) (m : Module) : (updCharger f m).dies = m.dies := rfl
@[simp] theorem updCharger_epochs (f : Charger → Charger) (m : Module) : (updCharger f m).epochs = m.epochs := rfl
@[simp] theorem updCharger_live (f : Charger → Charger) (m : Module) : (updCharger f m).live = m.live := rfl
@[simp] theorem updCharger_interp (f : Charger → Charger) (m : Module) : (updCharger f m).interp = m.interp := rfl
@[simp] theorem updCharger_faults (f : Charger → Charger) (m : Module) : (updCharger f m).faults = m.faults := rfl
@[simp] theorem updCharger_regions (f : Charger → Charger) (m : Module) : (updCharger f m).regions = m.regions := rfl
@[simp] theorem updCharger_hostOut (f : Charger → Charger) (m : Module) : (updCharger f m).hostOut = m.hostOut := rfl
@[simp] theorem updCharger_crossings (f : Charger → Charger) (m : Module) :
    (updCharger f m).crossings = m.crossings := rfl
@[simp] theorem updCharger_landings (f : Charger → Charger) (m : Module) : (updCharger f m).landings = m.landings := rfl
@[simp] theorem updCharger_published (f : Charger → Charger) (m : Module) :
    (updCharger f m).published = m.published := rfl
@[simp] theorem updCharger_exchange (f : Charger → Charger) (m : Module) : (updCharger f m).exchange = m.exchange := rfl
@[simp] theorem updCharger_publishing (f : Charger → Charger) (m : Module) :
    (updCharger f m).publishing = m.publishing := rfl
@[simp] theorem updCharger_checkpoints (f : Charger → Charger) (m : Module) :
    (updCharger f m).checkpoints = m.checkpoints := rfl
@[simp] theorem updCharger_lockstep (f : Charger → Charger) (m : Module) : (updCharger f m).lockstep = m.lockstep := rfl
@[simp] theorem updCharger_memory (f : Charger → Charger) (m : Module) : (updCharger f m).memory = m.memory := rfl
@[simp] theorem updCharger_service (f : Charger → Charger) (m : Module) : (updCharger f m).service = m.service := rfl
@[simp] theorem updCharger_traction (f : Charger → Charger) (m : Module) : (updCharger f m).traction = m.traction := rfl
@[simp] theorem updCharger_chopper (f : Charger → Charger) (m : Module) : (updCharger f m).chopper = m.chopper := rfl
@[simp] theorem updCharger_feedback (f : Charger → Charger) (m : Module) : (updCharger f m).feedback = m.feedback := rfl
@[simp] theorem updCharger_converter (f : Charger → Charger) (m : Module) :
    (updCharger f m).converter = m.converter := rfl
@[simp] theorem updCharger_charger (f : Charger → Charger) (m : Module) : (updCharger f m).charger = f m.charger := rfl
@[simp] theorem updCharger_islands (f : Charger → Charger) (m : Module) : (updCharger f m).islands = m.islands := rfl
@[simp] theorem updCharger_gate (f : Charger → Charger) (m : Module) : (updCharger f m).gate = m.gate := rfl
@[simp] theorem updCharger_actuators (f : Charger → Charger) (m : Module) :
    (updCharger f m).actuators = m.actuators := rfl
@[simp] theorem updCharger_afe (f : Charger → Charger) (m : Module) : (updCharger f m).afe = m.afe := rfl
@[simp] theorem updCharger_can (f : Charger → Charger) (m : Module) : (updCharger f m).can = m.can := rfl
@[simp] theorem updCharger_eth (f : Charger → Charger) (m : Module) : (updCharger f m).eth = m.eth := rfl
@[simp] theorem updCharger_isobus (f : Charger → Charger) (m : Module) : (updCharger f m).isobus = m.isobus := rfl
@[simp] theorem updCharger_sys (f : Charger → Charger) (m : Module) : (updCharger f m).sys = m.sys := rfl
@[simp] theorem updCharger_drivenTime (f : Charger → Charger) (m : Module) :
    (updCharger f m).drivenTime = m.drivenTime := rfl
@[simp] theorem updCharger_free (f : Charger → Charger) (m : Module) : (updCharger f m).free = m.free := rfl
@[simp] theorem updCharger_out (f : Charger → Charger) (m : Module) : (updCharger f m).out = m.out := rfl

/-! ## updNode -/

@[simp] theorem updNode_time (n : Fin 16) (f : Node → Node) (m : Module) : (updNode n f m).time = m.time := rfl
@[simp] theorem updNode_supply (n : Fin 16) (f : Node → Node) (m : Module) : (updNode n f m).supply = m.supply := rfl
@[simp] theorem updNode_straps (n : Fin 16) (f : Node → Node) (m : Module) : (updNode n f m).straps = m.straps := rfl
@[simp] theorem updNode_dies (n : Fin 16) (f : Node → Node) (m : Module) : (updNode n f m).dies = m.dies := rfl
@[simp] theorem updNode_epochs (n : Fin 16) (f : Node → Node) (m : Module) : (updNode n f m).epochs = m.epochs := rfl
@[simp] theorem updNode_live (n : Fin 16) (f : Node → Node) (m : Module) : (updNode n f m).live = m.live := rfl
@[simp] theorem updNode_interp (n : Fin 16) (f : Node → Node) (m : Module) : (updNode n f m).interp = m.interp := rfl
@[simp] theorem updNode_faults (n : Fin 16) (f : Node → Node) (m : Module) : (updNode n f m).faults = m.faults := rfl
@[simp] theorem updNode_regions (n : Fin 16) (f : Node → Node) (m : Module) : (updNode n f m).regions = m.regions := rfl
@[simp] theorem updNode_hostOut (n : Fin 16) (f : Node → Node) (m : Module) : (updNode n f m).hostOut = m.hostOut := rfl
@[simp] theorem updNode_crossings (n : Fin 16) (f : Node → Node) (m : Module) :
    (updNode n f m).crossings = m.crossings := rfl
@[simp] theorem updNode_landings (n : Fin 16) (f : Node → Node) (m : Module) :
    (updNode n f m).landings = m.landings := rfl
@[simp] theorem updNode_published (n : Fin 16) (f : Node → Node) (m : Module) :
    (updNode n f m).published = m.published := rfl
@[simp] theorem updNode_exchange (n : Fin 16) (f : Node → Node) (m : Module) :
    (updNode n f m).exchange = m.exchange := rfl
@[simp] theorem updNode_publishing (n : Fin 16) (f : Node → Node) (m : Module) :
    (updNode n f m).publishing = m.publishing := rfl
@[simp] theorem updNode_checkpoints (n : Fin 16) (f : Node → Node) (m : Module) :
    (updNode n f m).checkpoints = m.checkpoints := rfl
@[simp] theorem updNode_lockstep (n : Fin 16) (f : Node → Node) (m : Module) :
    (updNode n f m).lockstep = m.lockstep := rfl
@[simp] theorem updNode_memory (n : Fin 16) (f : Node → Node) (m : Module) : (updNode n f m).memory = m.memory := rfl
@[simp] theorem updNode_service (n : Fin 16) (f : Node → Node) (m : Module) : (updNode n f m).service = m.service := rfl
@[simp] theorem updNode_traction (n : Fin 16) (f : Node → Node) (m : Module) :
    (updNode n f m).traction = m.traction := rfl
@[simp] theorem updNode_chopper (n : Fin 16) (f : Node → Node) (m : Module) : (updNode n f m).chopper = m.chopper := rfl
@[simp] theorem updNode_feedback (n : Fin 16) (f : Node → Node) (m : Module) :
    (updNode n f m).feedback = m.feedback := rfl
@[simp] theorem updNode_converter (n : Fin 16) (f : Node → Node) (m : Module) :
    (updNode n f m).converter = m.converter := rfl
@[simp] theorem updNode_charger (n : Fin 16) (f : Node → Node) (m : Module) : (updNode n f m).charger = m.charger := rfl
@[simp] theorem updNode_islands (n : Fin 16) (f : Node → Node) (m : Module) : (updNode n f m).islands = m.islands := rfl
@[simp] theorem updNode_gate (n : Fin 16) (f : Node → Node) (m : Module) : (updNode n f m).gate = m.gate := rfl
@[simp] theorem updNode_actuators (n : Fin 16) (f : Node → Node) (m : Module) :
    (updNode n f m).actuators = m.actuators := rfl
@[simp] theorem updNode_afe (n : Fin 16) (f : Node → Node) (m : Module) : (updNode n f m).afe = m.afe := rfl
@[simp] theorem updNode_can (n : Fin 16) (f : Node → Node) (m : Module) : (updNode n f m).can = m.can := rfl
@[simp] theorem updNode_eth (n : Fin 16) (f : Node → Node) (m : Module) : (updNode n f m).eth = m.eth := rfl
@[simp] theorem updNode_isobus (n : Fin 16) (f : Node → Node) (m : Module) : (updNode n f m).isobus = m.isobus := rfl
@[simp] theorem updNode_sys (n : Fin 16) (f : Node → Node) (m : Module) :
    (updNode n f m).sys = { m.sys with nodes := Vector.upd m.sys.nodes n f } := rfl
@[simp] theorem updNode_drivenTime (n : Fin 16) (f : Node → Node) (m : Module) :
    (updNode n f m).drivenTime = m.drivenTime := rfl
@[simp] theorem updNode_free (n : Fin 16) (f : Node → Node) (m : Module) : (updNode n f m).free = m.free := rfl
@[simp] theorem updNode_out (n : Fin 16) (f : Node → Node) (m : Module) : (updNode n f m).out = m.out := rfl

/-! ## updScrubber -/

@[simp] theorem updScrubber_time (s : Fin 5) (f : Scrubber → Scrubber) (m : Module) :
    (updScrubber s f m).time = m.time := rfl
@[simp] theorem updScrubber_supply (s : Fin 5) (f : Scrubber → Scrubber) (m : Module) :
    (updScrubber s f m).supply = m.supply := rfl
@[simp] theorem updScrubber_straps (s : Fin 5) (f : Scrubber → Scrubber) (m : Module) :
    (updScrubber s f m).straps = m.straps := rfl
@[simp] theorem updScrubber_dies (s : Fin 5) (f : Scrubber → Scrubber) (m : Module) :
    (updScrubber s f m).dies = m.dies := rfl
@[simp] theorem updScrubber_epochs (s : Fin 5) (f : Scrubber → Scrubber) (m : Module) :
    (updScrubber s f m).epochs = m.epochs := rfl
@[simp] theorem updScrubber_live (s : Fin 5) (f : Scrubber → Scrubber) (m : Module) :
    (updScrubber s f m).live = m.live := rfl
@[simp] theorem updScrubber_interp (s : Fin 5) (f : Scrubber → Scrubber) (m : Module) :
    (updScrubber s f m).interp = m.interp := rfl
@[simp] theorem updScrubber_faults (s : Fin 5) (f : Scrubber → Scrubber) (m : Module) :
    (updScrubber s f m).faults = m.faults := rfl
@[simp] theorem updScrubber_regions (s : Fin 5) (f : Scrubber → Scrubber) (m : Module) :
    (updScrubber s f m).regions = m.regions := rfl
@[simp] theorem updScrubber_hostOut (s : Fin 5) (f : Scrubber → Scrubber) (m : Module) :
    (updScrubber s f m).hostOut = m.hostOut := rfl
@[simp] theorem updScrubber_crossings (s : Fin 5) (f : Scrubber → Scrubber) (m : Module) :
    (updScrubber s f m).crossings = m.crossings := rfl
@[simp] theorem updScrubber_landings (s : Fin 5) (f : Scrubber → Scrubber) (m : Module) :
    (updScrubber s f m).landings = m.landings := rfl
@[simp] theorem updScrubber_published (s : Fin 5) (f : Scrubber → Scrubber) (m : Module) :
    (updScrubber s f m).published = m.published := rfl
@[simp] theorem updScrubber_exchange (s : Fin 5) (f : Scrubber → Scrubber) (m : Module) :
    (updScrubber s f m).exchange = m.exchange := rfl
@[simp] theorem updScrubber_publishing (s : Fin 5) (f : Scrubber → Scrubber) (m : Module) :
    (updScrubber s f m).publishing = m.publishing := rfl
@[simp] theorem updScrubber_checkpoints (s : Fin 5) (f : Scrubber → Scrubber) (m : Module) :
    (updScrubber s f m).checkpoints = m.checkpoints := rfl
@[simp] theorem updScrubber_lockstep (s : Fin 5) (f : Scrubber → Scrubber) (m : Module) :
    (updScrubber s f m).lockstep = m.lockstep := rfl
@[simp] theorem updScrubber_memory (s : Fin 5) (f : Scrubber → Scrubber) (m : Module) :
    (updScrubber s f m).memory = { m.memory with scrubbers := Vector.upd m.memory.scrubbers s f } := rfl
@[simp] theorem updScrubber_service (s : Fin 5) (f : Scrubber → Scrubber) (m : Module) :
    (updScrubber s f m).service = m.service := rfl
@[simp] theorem updScrubber_traction (s : Fin 5) (f : Scrubber → Scrubber) (m : Module) :
    (updScrubber s f m).traction = m.traction := rfl
@[simp] theorem updScrubber_chopper (s : Fin 5) (f : Scrubber → Scrubber) (m : Module) :
    (updScrubber s f m).chopper = m.chopper := rfl
@[simp] theorem updScrubber_feedback (s : Fin 5) (f : Scrubber → Scrubber) (m : Module) :
    (updScrubber s f m).feedback = m.feedback := rfl
@[simp] theorem updScrubber_converter (s : Fin 5) (f : Scrubber → Scrubber) (m : Module) :
    (updScrubber s f m).converter = m.converter := rfl
@[simp] theorem updScrubber_charger (s : Fin 5) (f : Scrubber → Scrubber) (m : Module) :
    (updScrubber s f m).charger = m.charger := rfl
@[simp] theorem updScrubber_islands (s : Fin 5) (f : Scrubber → Scrubber) (m : Module) :
    (updScrubber s f m).islands = m.islands := rfl
@[simp] theorem updScrubber_gate (s : Fin 5) (f : Scrubber → Scrubber) (m : Module) :
    (updScrubber s f m).gate = m.gate := rfl
@[simp] theorem updScrubber_actuators (s : Fin 5) (f : Scrubber → Scrubber) (m : Module) :
    (updScrubber s f m).actuators = m.actuators := rfl
@[simp] theorem updScrubber_afe (s : Fin 5) (f : Scrubber → Scrubber) (m : Module) :
    (updScrubber s f m).afe = m.afe := rfl
@[simp] theorem updScrubber_can (s : Fin 5) (f : Scrubber → Scrubber) (m : Module) :
    (updScrubber s f m).can = m.can := rfl
@[simp] theorem updScrubber_eth (s : Fin 5) (f : Scrubber → Scrubber) (m : Module) :
    (updScrubber s f m).eth = m.eth := rfl
@[simp] theorem updScrubber_isobus (s : Fin 5) (f : Scrubber → Scrubber) (m : Module) :
    (updScrubber s f m).isobus = m.isobus := rfl
@[simp] theorem updScrubber_sys (s : Fin 5) (f : Scrubber → Scrubber) (m : Module) :
    (updScrubber s f m).sys = m.sys := rfl
@[simp] theorem updScrubber_drivenTime (s : Fin 5) (f : Scrubber → Scrubber) (m : Module) :
    (updScrubber s f m).drivenTime = m.drivenTime := rfl
@[simp] theorem updScrubber_free (s : Fin 5) (f : Scrubber → Scrubber) (m : Module) :
    (updScrubber s f m).free = m.free := rfl
@[simp] theorem updScrubber_out (s : Fin 5) (f : Scrubber → Scrubber) (m : Module) :
    (updScrubber s f m).out = m.out := rfl

/-! ## emit -/

@[simp] theorem emit_time (o : Out) (m : Module) : (emit o m).time = m.time := rfl
@[simp] theorem emit_supply (o : Out) (m : Module) : (emit o m).supply = m.supply := rfl
@[simp] theorem emit_straps (o : Out) (m : Module) : (emit o m).straps = m.straps := rfl
@[simp] theorem emit_dies (o : Out) (m : Module) : (emit o m).dies = m.dies := rfl
@[simp] theorem emit_epochs (o : Out) (m : Module) : (emit o m).epochs = m.epochs := rfl
@[simp] theorem emit_live (o : Out) (m : Module) : (emit o m).live = m.live := rfl
@[simp] theorem emit_interp (o : Out) (m : Module) : (emit o m).interp = m.interp := rfl
@[simp] theorem emit_faults (o : Out) (m : Module) : (emit o m).faults = m.faults := rfl
@[simp] theorem emit_regions (o : Out) (m : Module) : (emit o m).regions = m.regions := rfl
@[simp] theorem emit_hostOut (o : Out) (m : Module) : (emit o m).hostOut = m.hostOut := rfl
@[simp] theorem emit_crossings (o : Out) (m : Module) : (emit o m).crossings = m.crossings := rfl
@[simp] theorem emit_landings (o : Out) (m : Module) : (emit o m).landings = m.landings := rfl
@[simp] theorem emit_published (o : Out) (m : Module) : (emit o m).published = m.published := rfl
@[simp] theorem emit_exchange (o : Out) (m : Module) : (emit o m).exchange = m.exchange := rfl
@[simp] theorem emit_publishing (o : Out) (m : Module) : (emit o m).publishing = m.publishing := rfl
@[simp] theorem emit_checkpoints (o : Out) (m : Module) : (emit o m).checkpoints = m.checkpoints := rfl
@[simp] theorem emit_lockstep (o : Out) (m : Module) : (emit o m).lockstep = m.lockstep := rfl
@[simp] theorem emit_memory (o : Out) (m : Module) : (emit o m).memory = m.memory := rfl
@[simp] theorem emit_service (o : Out) (m : Module) : (emit o m).service = m.service := rfl
@[simp] theorem emit_traction (o : Out) (m : Module) : (emit o m).traction = m.traction := rfl
@[simp] theorem emit_chopper (o : Out) (m : Module) : (emit o m).chopper = m.chopper := rfl
@[simp] theorem emit_feedback (o : Out) (m : Module) : (emit o m).feedback = m.feedback := rfl
@[simp] theorem emit_converter (o : Out) (m : Module) : (emit o m).converter = m.converter := rfl
@[simp] theorem emit_charger (o : Out) (m : Module) : (emit o m).charger = m.charger := rfl
@[simp] theorem emit_islands (o : Out) (m : Module) : (emit o m).islands = m.islands := rfl
@[simp] theorem emit_gate (o : Out) (m : Module) : (emit o m).gate = m.gate := rfl
@[simp] theorem emit_actuators (o : Out) (m : Module) : (emit o m).actuators = m.actuators := rfl
@[simp] theorem emit_afe (o : Out) (m : Module) : (emit o m).afe = m.afe := rfl
@[simp] theorem emit_can (o : Out) (m : Module) : (emit o m).can = m.can := rfl
@[simp] theorem emit_eth (o : Out) (m : Module) : (emit o m).eth = m.eth := rfl
@[simp] theorem emit_isobus (o : Out) (m : Module) : (emit o m).isobus = m.isobus := rfl
@[simp] theorem emit_sys (o : Out) (m : Module) : (emit o m).sys = m.sys := rfl
@[simp] theorem emit_drivenTime (o : Out) (m : Module) : (emit o m).drivenTime = m.drivenTime := rfl
@[simp] theorem emit_free (o : Out) (m : Module) : (emit o m).free = m.free := rfl
@[simp] theorem emit_out (o : Out) (m : Module) : (emit o m).out = m.out ++ [o] := rfl

/-! ## countAccepted -/

@[simp] theorem countAccepted_time (m : Module) : (countAccepted m).time = m.time := rfl
@[simp] theorem countAccepted_supply (m : Module) : (countAccepted m).supply = m.supply := rfl
@[simp] theorem countAccepted_straps (m : Module) : (countAccepted m).straps = m.straps := rfl
@[simp] theorem countAccepted_dies (m : Module) : (countAccepted m).dies = m.dies := rfl
@[simp] theorem countAccepted_epochs (m : Module) : (countAccepted m).epochs = m.epochs := rfl
@[simp] theorem countAccepted_live (m : Module) : (countAccepted m).live = m.live := rfl
@[simp] theorem countAccepted_interp (m : Module) :
    (countAccepted m).interp = { m.interp with accepted := inc32 m.interp.accepted } := rfl
@[simp] theorem countAccepted_faults (m : Module) : (countAccepted m).faults = m.faults := rfl
@[simp] theorem countAccepted_regions (m : Module) : (countAccepted m).regions = m.regions := rfl
@[simp] theorem countAccepted_hostOut (m : Module) : (countAccepted m).hostOut = m.hostOut := rfl
@[simp] theorem countAccepted_crossings (m : Module) : (countAccepted m).crossings = m.crossings := rfl
@[simp] theorem countAccepted_landings (m : Module) : (countAccepted m).landings = m.landings := rfl
@[simp] theorem countAccepted_published (m : Module) : (countAccepted m).published = m.published := rfl
@[simp] theorem countAccepted_exchange (m : Module) : (countAccepted m).exchange = m.exchange := rfl
@[simp] theorem countAccepted_publishing (m : Module) : (countAccepted m).publishing = m.publishing := rfl
@[simp] theorem countAccepted_checkpoints (m : Module) : (countAccepted m).checkpoints = m.checkpoints := rfl
@[simp] theorem countAccepted_lockstep (m : Module) : (countAccepted m).lockstep = m.lockstep := rfl
@[simp] theorem countAccepted_memory (m : Module) : (countAccepted m).memory = m.memory := rfl
@[simp] theorem countAccepted_service (m : Module) : (countAccepted m).service = m.service := rfl
@[simp] theorem countAccepted_traction (m : Module) : (countAccepted m).traction = m.traction := rfl
@[simp] theorem countAccepted_chopper (m : Module) : (countAccepted m).chopper = m.chopper := rfl
@[simp] theorem countAccepted_feedback (m : Module) : (countAccepted m).feedback = m.feedback := rfl
@[simp] theorem countAccepted_converter (m : Module) : (countAccepted m).converter = m.converter := rfl
@[simp] theorem countAccepted_charger (m : Module) : (countAccepted m).charger = m.charger := rfl
@[simp] theorem countAccepted_islands (m : Module) : (countAccepted m).islands = m.islands := rfl
@[simp] theorem countAccepted_gate (m : Module) : (countAccepted m).gate = m.gate := rfl
@[simp] theorem countAccepted_actuators (m : Module) : (countAccepted m).actuators = m.actuators := rfl
@[simp] theorem countAccepted_afe (m : Module) : (countAccepted m).afe = m.afe := rfl
@[simp] theorem countAccepted_can (m : Module) : (countAccepted m).can = m.can := rfl
@[simp] theorem countAccepted_eth (m : Module) : (countAccepted m).eth = m.eth := rfl
@[simp] theorem countAccepted_isobus (m : Module) : (countAccepted m).isobus = m.isobus := rfl
@[simp] theorem countAccepted_sys (m : Module) : (countAccepted m).sys = m.sys := rfl
@[simp] theorem countAccepted_drivenTime (m : Module) : (countAccepted m).drivenTime = m.drivenTime := rfl
@[simp] theorem countAccepted_free (m : Module) : (countAccepted m).free = m.free := rfl
@[simp] theorem countAccepted_out (m : Module) : (countAccepted m).out = m.out := rfl


end Sys2Proof.Machine
end

