-- ==== Sys2Proof/Laws/Commands.lean ====
section
/-!
SUPPORT. What the shared operations of the commands do: the effect of a command, checks in their order, replies and
refusals, the ways of a host command.
-/

namespace Sys2Proof.Machine

/-! ## Checks in order (R517, R530) -/

/-- A list of checks passes exactly where each of them passes. -/
theorem firstFail_none (cs : List Check) : firstFail cs = none ↔ ∀ c ∈ cs, c = none := by
  induction cs with
  | nil => simp [firstFail]
  | cons c cs ih => cases c <;> simp [firstFail, ih]

/-- A list of checks of which one refuses, refuses. -/
theorem firstFail_some (cs : List Check) (c : Check) (h : c ∈ cs) (hc : c ≠ none) : ∃ r, firstFail cs = some r := by
  cases e : firstFail cs with
  | some r => exact ⟨r, rfl⟩
  | none => exact absurd ((firstFail_none cs).1 e c h) hc

theorem firstFail_cons_none (c : Check) (cs : List Check) (h : c = none) : firstFail (c :: cs) = firstFail cs := by
  subst h; rfl

theorem firstFail_cons_some (r : Status × Nat) (cs : List Check) : firstFail (some r :: cs) = some r := rfl

@[simp] theorem failIf_none (b : Bool) (st : Status) (d : Nat) : failIf b st d = none ↔ b = false := by
  cases b <;> simp [failIf]

@[simp] theorem unlessFails_none (v : Verdict) : unlessFails none v = v := rfl

@[simp] theorem unlessFails_some (r : Status × Nat) (v : Verdict) : unlessFails (some r) v = .refuse r.1 r.2 := rfl

/-- The shared checks of a request pass exactly where its five rows do. -/
theorem prelude_none (opcode : Nat) (h : Hdr) (ws : List Word) (ok : Nat → Bool) (t : Timing3) (enc : Bool) (m : Module) :
    prelude opcode h ws ok t enc m = none ↔
      checkLength h ws ok = none ∧ checkEncoding h t enc = none ∧ checkRelayed opcode h m = none ∧
      checkLockstep opcode m = none ∧ checkInstant h ws m = none := by
  simp [prelude, firstFail_none]

/-! ## Sending (R446, R456, R457, R461, R468, R518, R529) -/

theorem sendsOnly_refl (c : CanPort) : sendsOnly c c := ⟨c.tx, c.txFail, rfl⟩

theorem sendsOnly_trans {a b c : CanPort} (h : sendsOnly a b) (k : sendsOnly b c) : sendsOnly a c := by
  obtain ⟨t, n, rfl⟩ := h
  obtain ⟨u, l, rfl⟩ := k
  exact ⟨u, l, rfl⟩

/-- What replaces an element is what it was. -/
theorem upd_self {α : Type} {n : Nat} (v : Vector α n) (i : Fin n) : Vector.upd v i (fun _ => v[i]) = v := by
  ext j hj : 1
  by_cases h : i.val = j <;> simp [Vector.upd, Vector.getElem_set, h]

theorem upd_upd {α : Type} {n : Nat} (v : Vector α n) (i : Fin n) (f g : α → α) :
    Vector.upd (Vector.upd v i f) i g = Vector.upd v i (fun _ => g (f v[i])) := by
  ext j hj : 1
  by_cases h : i.val = j <;> simp [Vector.upd, Vector.getElem_set, h]

/-- What left the module and crossing 12 changed, nothing else. -/
theorem sentOnly_crossing {m : Module} (out : List Out) (x : Crossing) :
    sentOnly m { m with out := out, crossings := Vector.upd m.crossings 12 (fun _ => x) } :=
  ⟨out, x, m.can, m.isobus, m.sys.seqs, rfl, fun _ => sendsOnly_refl _, m.isobus.sending, m.isobus.waiting, rfl⟩

theorem sentOnly_out (m : Module) (out : List Out) : sentOnly m { m with out := out } := by
  have h := sentOnly_crossing (m := m) out (m.crossings[(12 : Fin 22)])
  rwa [upd_self] at h

theorem sentOnly_refl (m : Module) : sentOnly m m := sentOnly_out m m.out

theorem sentOnly_trans {a b c : Module} (h : sentOnly a b) (k : sentOnly b c) : sentOnly a c := by
  obtain ⟨o, x, ca, is, sq, rfl, hc, s, w, rfl⟩ := h
  obtain ⟨o2, x2, ca2, is2, sq2, rfl, hc2, s2, w2, rfl⟩ := k
  refine ⟨o2, x2, ca2, _, sq2, ?_, fun p => sendsOnly_trans (hc p) (hc2 p), s2, w2, rfl⟩
  simp only [upd_upd]

theorem sentOnly_foldl {α : Type} (f : Module → α → Module) (hf : ∀ m a, sentOnly m (f m a)) (l : List α) (m : Module) :
    sentOnly m (l.foldl f m) := by
  induction l generalizing m with
  | nil => exact sentOnly_refl m
  | cons a l ih => exact sentOnly_trans (hf m a) (ih _)

/-- A transmission touches crossing 12 alone. -/
theorem transmit_sentOnly (k : Nat) (m : Module) : sentOnly m (transmit k m) := by
  have : ∃ x : Crossing, transmit k m = { m with crossings := Vector.upd m.crossings 12 (fun _ => x) } := by
    unfold transmit strobe driveControl crossWords updCrossing
    rw [upd_upd]
    exact ⟨_, rfl⟩
  obtain ⟨x, e⟩ := this
  rw [e]
  exact sentOnly_crossing m.out x

theorem emit_sentOnly (o : Out) (m : Module) : sentOnly m (emit o m) := sentOnly_out m _

/-- A port whose transmit objects or count of failed frames alone changed. -/
theorem updCan_sentOnly (p : Fin 4) (f : CanPort → CanPort) (hf : ∀ c, sendsOnly c (f c)) (m : Module) :
    sentOnly m (updCan p f m) := by
  refine ⟨m.out, m.crossings[(12 : Fin 22)], Vector.upd m.can p f, m.isobus, m.sys.seqs, ?_, fun q => ?_,
    m.isobus.sending, m.isobus.waiting, rfl⟩
  · rw [upd_self]; rfl
  · by_cases e : q = p
    · subst e; rw [getElem_upd_self]; exact hf _
    · rw [getElem_upd_other _ _ _ _ e]; exact sendsOnly_refl _

theorem isobus_sentOnly (s : Option TpSend) (w : List (Nat × List Byte)) (m : Module) :
    sentOnly m { m with isobus := { m.isobus with sending := s, waiting := w } } := by
  refine ⟨m.out, m.crossings[(12 : Fin 22)], m.can, _, m.sys.seqs, ?_, fun _ => sendsOnly_refl _, s, w, rfl⟩
  rw [upd_self]

theorem bumpSeq_sentOnly (ident : Nat) (m : Module) : sentOnly m (bumpSeq ident m) := by
  refine ⟨m.out, m.crossings[(12 : Fin 22)], m.can, m.isobus,
    m.sys.seqs.filter (fun p => p.1 != ident) ++ [(ident, (m.seqOf ident + 1) % 256)], ?_,
    fun _ => sendsOnly_refl _, m.isobus.sending, m.isobus.waiting, rfl⟩
  rw [upd_self]
  rfl

theorem offerFrame_sentOnly (p : Fin 4) (lo hi : Nat) (h : FrameHead) (oneShot : Bool) (data : List Byte)
    (instant : Option Tick) (m : Module) : sentOnly m (offerFrame p lo hi h oneShot data instant m) := by
  unfold offerFrame
  split
  · exact sentOnly_refl m
  · exact sentOnly_trans (transmit_sentOnly ..) (updCan_sentOnly _ _ (fun c => ⟨_, c.txFail, rfl⟩) _)

theorem offer_sentOnly (p : Fin 4) (lo hi ident : Nat) (oneShot : Bool) (data : List Byte) (instant : Option Tick)
    (m : Module) : sentOnly m (offer p lo hi ident oneShot data instant m) := offerFrame_sentOnly ..

theorem offerAxle_sentOnly (ident : Nat) (oneShot : Bool) (data : List Byte) (instant : Option Tick) (m : Module) :
    sentOnly m (offerAxle ident oneShot data instant m) := by
  unfold offerAxle
  split
  · exact sentOnly_refl m
  · exact sentOnly_trans (sentOnly_trans (offer_sentOnly ..) (offer_sentOnly ..)) (bumpSeq_sentOnly ..)

theorem openTp_sentOnly (peer : Nat) (bytes : List Byte) (m : Module) : sentOnly m (openTp peer bytes m) :=
  sentOnly_trans (isobus_sentOnly _ m.isobus.waiting m) (offer_sentOnly ..)

theorem replyOnCn0_sentOnly (dest : Nat) (bytes : List Byte) (m : Module) : sentOnly m (replyOnCn0 dest bytes m) := by
  unfold replyOnCn0
  split
  · exact offer_sentOnly ..
  · split
    · exact isobus_sentOnly m.isobus.sending _ m
    · exact openTp_sentOnly ..

theorem replyOnCn1_sentOnly (classical : Bool) (ws : List Word) (m : Module) : sentOnly m (replyOnCn1 classical ws m) :=
  sentOnly_foldl _ (fun _ _ => offerFrame_sentOnly ..) _ _

theorem replyFromNode_sentOnly (ws : List Word) (m : Module) : sentOnly m (replyFromNode ws m) :=
  sentOnly_foldl _ (fun _ _ => offerAxle_sentOnly ..) _ _

theorem replyDatagram_sentOnly (e : Fin 2) (dest : Nat) (v : Via) (ws : List Word) (m : Module) :
    sentOnly m (replyDatagram e dest v ws m) := by
  unfold replyDatagram
  extract_lets own
  split
  · exact sentOnly_refl m
  · split
    · exact sentOnly_refl m
    · exact sentOnly_trans (transmit_sentOnly ..) (emit_sentOnly ..)

/-- Everything the sending of a packet can touch. -/
theorem sendPacket_sentOnly (t : Transport) (dest : Nat) (v : Via) (ws : List Word) (m : Module) :
    sentOnly m (sendPacket t dest v ws m) := by
  cases t
  case cn0 =>
    unfold sendPacket
    dsimp only
    split
    · exact updCan_sentOnly _ _ (fun c => ⟨c.tx, _, rfl⟩) _
    · exact replyOnCn0_sentOnly ..
  case cn1 => exact replyOnCn1_sentOnly ..
  case cn2 => exact replyFromNode_sentOnly ..
  case cn3 => exact replyFromNode_sentOnly ..
  case et0 => exact replyDatagram_sentOnly ..
  case et1 => exact replyDatagram_sentOnly ..
  case sv => exact sentOnly_trans (transmit_sentOnly ..) (emit_sentOnly ..)

theorem sendReply_sentOnly (opcode : Nat) (h : Hdr) (count status detail : Nat) (data : List Word) (m : Module) :
    sentOnly m (sendReply opcode h count status detail data m) := sendPacket_sentOnly ..

/-- A refusal touches what R529 lets it touch. -/
theorem refuse_onlyRefused (opcode : Nat) (h : Hdr) (count : Nat) (st : Status) (detail : Nat) (m : Module) :
    onlyRefused m (refuse opcode h count st detail m) := sendReply_sentOnly ..

theorem refuseRaw_onlyRefused (t : Transport) (sender : Nat) (v : Via) (w0 : Word) (st : Status) (d : Nat) (m : Module) :
    onlyRefused m (refuseRaw t sender v w0 st d m) := sendPacket_sentOnly ..

/-! ## The ways of a command (R87, R167, R523, R547) -/

@[simp] theorem effect_next (dt : Nat) (f : Module → Module) (s : State) :
    effect dt f s = .next { s with mod := f (advance dt s.mod) } := rfl

theorem awake_up {m : Module} (f : Module → Module) (h : m.up = true) : awake f m = f m := by
  simp only [Module.up, decide_eq_true_eq] at h
  unfold awake
  rw [if_neg (by omega)]

theorem awake_down {m : Module} (f : Module → Module) (h : m.up = false) : awake f m = m := by
  simp only [Module.up, decide_eq_false_iff_not] at h
  unfold awake
  rw [if_pos (by omega)]

theorem onDie_runs {d : Fin 46} {m : Module} (f : Module → Module) (h : m.dieRuns d = true) : onDie d f m = f m := by
  unfold onDie
  rw [if_pos h]

/-- A module that attends listens, and no rollback runs. -/
theorem attends_listens {m : Module} (h : m.attends = true) : m.listens = true := by
  unfold Module.attends at h
  simp only [Bool.and_eq_true] at h
  exact h.1.1

theorem attends_rollback {m : Module} (h : m.attends = true) : m.lockstep.rollback = false := by
  unfold Module.attends at h
  simp only [Bool.and_eq_true, Bool.not_eq_true'] at h
  exact h.1.2

/-- No access of a module that attends is stalled. -/
theorem attends_stalled {m : Module} (h : m.attends = true) (d : Nat) : m.stalledDie d = false := by
  unfold Module.attends at h
  simp only [Bool.and_eq_true, List.all_eq_true] at h
  unfold Module.stalledDie
  cases commandCrossing d with
  | none => rfl
  | some i =>
    have k := h.2 (m.crossings[i]) (Vector.mem_toList_iff.mpr (Vector.getElem_mem i.isLt))
    simp only [Option.any_some]
    rw [Option.isNone_iff_eq_none] at k
    exact Option.isSome_eq_false_iff.mpr (by rw [Option.isNone_iff_eq_none]; exact k)

/-- A module that attends holds no request back. -/
theorem attends_request {m : Module} (h : m.attends = true) (opcode : Nat) (ws : List Word) :
    m.holdsRequest opcode ws = false := by
  unfold Module.holdsRequest
  rw [attends_rollback h, Bool.false_or, List.any_eq_false]
  intro d _
  rw [attends_stalled h d]
  decide

theorem attends_packet {m : Module} (h : m.attends = true) (q : QueuedPacket) : m.holdsPacket q = false := by
  unfold Module.holdsPacket
  rw [attends_rollback h, attends_request h]
  simp

theorem hostCommand_attends (opcode : Nat) (h : Hdr) (ws : List Word) (st : Stamps) {m : Module} (hl : m.attends = true) :
    hostCommand opcode h ws st m = runCommand opcode h ws st m := by
  unfold hostCommand
  rw [attends_listens hl, attends_request hl]
  rfl

theorem hostCommand_down (opcode : Nat) (h : Hdr) (ws : List Word) (st : Stamps) {m : Module} (hd : m.up = false) :
    hostCommand opcode h ws st m = m := by
  have l : m.listens = false := by
    unfold Module.listens
    unfold Module.up at hd
    rw [hd]
    rfl
  unfold hostCommand
  rw [l]
  rfl

/-- A command that its checks refuse leaves the module as a refusal does. -/
theorem runCommand_refused (opcode : Nat) (h : Hdr) (ws : List Word) (st : Stamps) (m : Module) (status : Status) (d : Nat)
    (hr : isRestart opcode h ws m = false) (hh : handle opcode h ws st m = .refuse status d) :
    runCommand opcode h ws st m = refuse opcode h ws.length status d m := by
  unfold runCommand
  rw [hr, hh]
  rfl

/-- A decodable packet that finds the module attending is taken at once. -/
theorem packetWords_taken {q : QueuedPacket} {m : Module} (hl : m.attends = true) (hd : decodable q.words = true) :
    packetWords q m = takePacket q m := by
  simp only [decodable, Bool.and_eq_true, decide_eq_true_eq, Bool.not_eq_true'] at hd
  unfold packetWords
  dsimp only
  rw [attends_listens hl, hd.2, if_neg (by decide), if_neg (by simp; omega), if_neg (by decide)]
  unfold arrives
  rw [attends_packet hl]
  rfl

end Sys2Proof.Machine
end

