-- ==== Sys2Proof/Laws/Faults.lean ====
section
/-!
SUPPORT. What the operations of the fault handling can touch: the records of the log, the active table, the safe patterns,
the raising of a fault.
-/

namespace Sys2Proof.Machine

/-- `n` is `m` but for the faults, and the patterns with their origins and releases are those of `m`. -/
def logsOnly (m n : Module) : Prop :=
  ∃ fs : Faults, n = { m with faults := fs } ∧ fs.pattern = m.faults.pattern ∧ fs.patternBy = m.faults.patternBy ∧
    fs.releasing = m.faults.releasing ∧ fs.ring = m.faults.ring

theorem logsOnly_refl (m : Module) : logsOnly m m := ⟨m.faults, rfl, rfl, rfl, rfl, rfl⟩

theorem logsOnly_trans {a b c : Module} (h : logsOnly a b) (k : logsOnly b c) : logsOnly a c := by
  obtain ⟨f, rfl, h1, h2, h3, h4⟩ := h
  obtain ⟨g, rfl, k1, k2, k3, k4⟩ := k
  exact ⟨g, rfl, k1.trans h1, k2.trans h2, k3.trans h3, k4.trans h4⟩

theorem pushRecord_logsOnly (limit : Nat) (r : LogRec) (m : Module) : logsOnly m (pushRecord limit r m) := by
  refine ⟨_, rfl, ?_, ?_, ?_, ?_⟩ <;> (dsimp only; split <;> rfl)

theorem enterFault_logsOnly (limit code detail : Nat) (cond : Bool) (tick : Tick) (m : Module) :
    logsOnly m (enterFault limit code detail cond tick m) :=
  logsOnly_trans (b := { m with faults := { m.faults with
      active := enterTable { code := code, detail := detail, cond := cond } m.faults.active,
      counts := bumpCount code m.faults.counts } })
    ⟨_, rfl, rfl, rfl, rfl, rfl⟩ (pushRecord_logsOnly ..)

theorem noteFull_logsOnly (full : Bool) (tick : Tick) (m : Module) : logsOnly m (noteFull full tick m) := by
  unfold noteFull
  split
  · exact enterFault_logsOnly ..
  · exact logsOnly_refl m

theorem noteOverrun_logsOnly (before : Nat) (tick : Tick) (m : Module) : logsOnly m (noteOverrun before tick m) := by
  unfold noteOverrun
  split
  · exact logsOnly_refl m
  · exact logsOnly_trans (enterFault_logsOnly ..) (noteFull_logsOnly ..)

theorem record_logsOnly (code detail kind func pattern : Nat) (m : Module) :
    logsOnly m (record code detail kind func pattern m) :=
  logsOnly_trans (pushRecord_logsOnly ..) (noteOverrun_logsOnly ..)

theorem clearFault_logsOnly (f : ActiveFault) (m : Module) : logsOnly m (clearFault f m) :=
  logsOnly_trans (b := { m with faults := { m.faults with
      active := m.faults.active.filter (fun g => !(g.code == f.code && g.detail == f.detail)) } })
    ⟨_, rfl, rfl, rfl, rfl, rfl⟩ (record_logsOnly ..)

theorem clearFaults_logsOnly (fs : List ActiveFault) (m : Module) : logsOnly m (clearFaults fs m) := by
  induction fs generalizing m with
  | nil => exact logsOnly_refl m
  | cons f fs ih => exact logsOnly_trans (clearFault_logsOnly f m) (ih _)

theorem setCond_logsOnly (code : Nat) (p : Nat → Bool) (c : Bool) (m : Module) : logsOnly m (setCond code p c m) :=
  ⟨_, rfl, rfl, rfl, rfl, rfl⟩

/-- `n` is `m` but for what the reaction of a fault may touch: the faults and patterns, the causes of EVENT, the loops and
the running operations of the power functions, the crossings. -/
def reactsOnly (m n : Module) : Prop :=
  ∃ (fs : Faults) (sys : System) (tr : Vector Traction 2) (cv : Converter) (cg : Charger) (ax : Vector Actuator 4)
    (cr : Vector Crossing 22),
    n = { m with faults := fs, sys := sys, traction := tr, converter := cv, charger := cg, actuators := ax, crossings := cr }

theorem reactsOnly_refl (m : Module) : reactsOnly m m := ⟨_, _, _, _, _, _, _, rfl⟩

theorem reactsOnly_trans {a b c : Module} (h : reactsOnly a b) (k : reactsOnly b c) : reactsOnly a c := by
  obtain ⟨_, _, _, _, _, _, _, rfl⟩ := h
  obtain ⟨_, _, _, _, _, _, _, rfl⟩ := k
  exact ⟨_, _, _, _, _, _, _, rfl⟩

theorem reactsOnly_of_logsOnly {m n : Module} (h : logsOnly m n) : reactsOnly m n := by
  obtain ⟨_, rfl, _⟩ := h
  exact ⟨_, _, _, _, _, _, _, rfl⟩

theorem noteCause_reactsOnly (b : Nat) (tick : Tick) (m : Module) : reactsOnly m (noteCause b tick m) := by
  unfold noteCause
  split <;> exact ⟨_, _, _, _, _, _, _, rfl⟩

theorem patternEffect_reactsOnly (f : Func) (m : Module) : reactsOnly m (patternEffect f m) := by
  cases f <;> exact ⟨_, _, _, _, _, _, _, rfl⟩

theorem patternEffect_faults (f : Func) (m : Module) : (patternEffect f m).faults = m.faults := by cases f <;> rfl

theorem noteCause_faults (b : Nat) (tick : Tick) (m : Module) : (noteCause b tick m).faults = m.faults := by
  unfold noteCause
  split <;> rfl

theorem markRow1_reactsOnly (f : Func) (m : Module) : reactsOnly m (markRow1 f m) := by
  unfold markRow1
  split
  · split
    · exact ⟨_, _, _, _, _, _, _, rfl⟩
    · exact reactsOnly_refl m
  · exact reactsOnly_refl m

theorem markRow1_faults (f : Func) (m : Module) : (markRow1 f m).faults = m.faults := by
  unfold markRow1
  split
  · split <;> rfl
  · rfl

theorem sendCommand_reactsOnly (i : Fin 22) (m : Module) : reactsOnly m (sendCommand i m) :=
  ⟨_, _, _, _, _, _, _, rfl⟩

theorem putPattern_reactsOnly (f : Func) (p : Pattern) (code detail : Nat) (m : Module) :
    reactsOnly m (putPattern f p code detail m) := by
  unfold putPattern
  refine reactsOnly_trans ?_ (markRow1_reactsOnly ..)
  refine reactsOnly_trans ?_ (patternEffect_reactsOnly ..)
  refine reactsOnly_trans ?_ (reactsOnly_of_logsOnly (record_logsOnly ..))
  dsimp only
  split
  · exact reactsOnly_trans ⟨_, _, _, _, _, _, _, rfl⟩ (noteCause_reactsOnly ..)
  · exact reactsOnly_trans ⟨_, _, _, _, _, _, _, rfl⟩ (noteCause_reactsOnly ..)
  · exact reactsOnly_trans ⟨_, _, _, _, _, _, _, rfl⟩ (noteCause_reactsOnly ..)
  · exact ⟨_, _, _, _, _, _, _, rfl⟩

theorem putPattern_pattern (f : Func) (p : Pattern) (code detail : Nat) (m : Module) :
    (putPattern f p code detail m).faults.pattern = m.faults.pattern.set f.idx.val p f.idx.isLt := by
  unfold putPattern
  dsimp only
  rw [markRow1_faults, patternEffect_faults]
  obtain ⟨fs, h, h1, -⟩ := record_logsOnly code detail 3 f.code p.code (match f with
    | .ta | .tb => noteCause 1 m.time.count { m with faults := { m.faults with
        pattern := m.faults.pattern.set f.idx.val p f.idx.isLt,
        patternBy := m.faults.patternBy.set f.idx.val (code, detail) f.idx.isLt,
        releasing := m.faults.releasing.set f.idx.val false f.idx.isLt } }
    | .cv => noteCause 2 m.time.count { m with faults := { m.faults with
        pattern := m.faults.pattern.set f.idx.val p f.idx.isLt,
        patternBy := m.faults.patternBy.set f.idx.val (code, detail) f.idx.isLt,
        releasing := m.faults.releasing.set f.idx.val false f.idx.isLt } }
    | _ => { m with faults := { m.faults with
        pattern := m.faults.pattern.set f.idx.val p f.idx.isLt,
        patternBy := m.faults.patternBy.set f.idx.val (code, detail) f.idx.isLt,
        releasing := m.faults.releasing.set f.idx.val false f.idx.isLt } })
  refine (congrArg (fun x => x.faults.pattern) h).trans (h1.trans ?_)
  cases f <;> simp [noteCause_faults]

/-- The functions have places of their own in the vectors of the faults. -/
theorem func_idx_inj (f g : Func) (h : f.idx = g.idx) : f = g := by
  have e := Fin.ext_iff.1 h
  cases f <;> cases g <;> simp only [Func.idx] at e ⊢
  all_goals first
    | rfl
    | (exfalso; simp at e; done)
    | (exfalso; simp at e; omega)
    | (congr 1; apply Fin.ext; omega)

/-- The pattern of every function after one was put on `f`. -/
theorem putPattern_patternOf (f g : Func) (p : Pattern) (code detail : Nat) (m : Module) :
    (putPattern f p code detail m).patternOf g = if f = g then p else m.patternOf g := by
  unfold Module.patternOf
  rw [putPattern_pattern]
  by_cases h : f = g
  · subst h; simp
  · rw [if_neg h, Fin.getElem_fin, Vector.getElem_set_ne _ _ (fun e => h (func_idx_inj f g (Fin.ext e)))]
    rfl

theorem setPattern_reactsOnly (f : Func) (p : Pattern) (code detail : Nat) (m : Module) :
    reactsOnly m (setPattern f p code detail m) := by
  unfold setPattern
  split
  · exact reactsOnly_refl m
  · split
    · exact putPattern_reactsOnly ..
    · exact reactsOnly_trans ⟨_, _, _, _, _, _, _, rfl⟩ (markRow1_reactsOnly ..)
    · split
      · exact putPattern_reactsOnly ..
      · exact ⟨_, _, _, _, _, _, _, rfl⟩

theorem markRow1_patternOf (f g : Func) (m : Module) : (markRow1 f m).patternOf g = m.patternOf g := by
  unfold Module.patternOf
  rw [markRow1_faults]

/-- A request for a pattern on `f` leaves the pattern of every other function. -/
theorem setPattern_other (f g : Func) (p : Pattern) (code detail : Nat) (m : Module) (h : f ≠ g) :
    (setPattern f p code detail m).patternOf g = m.patternOf g := by
  unfold setPattern
  split
  · rfl
  · split
    · rw [putPattern_patternOf, if_neg h]
    · exact markRow1_patternOf ..
    · split
      · rw [putPattern_patternOf, if_neg h]
      · rfl

/-- A request for a pattern takes no pattern away. -/
theorem setPattern_keeps (f g : Func) (p : Pattern) (code detail : Nat) (m : Module) (h : m.patternOf g ≠ .none) :
    (setPattern f p code detail m).patternOf g ≠ .none := by
  by_cases e : f = g
  · subst e
    unfold setPattern
    split
    · exact h
    · rename_i hp
      split
      · contradiction
      · rw [markRow1_patternOf]; exact h
      · split
        · rw [putPattern_patternOf, if_pos rfl]; decide
        · exact h
  · rw [setPattern_other _ _ _ _ _ _ e]; exact h

/-- A request for a pattern reaches an enabled function. -/
theorem setPattern_reaches (f : Func) (p : Pattern) (code detail : Nat) (m : Module) (hp : p ≠ .none)
    (he : m.enabled f = true) : (setPattern f p code detail m).patternOf f ≠ .none := by
  by_cases h : m.patternOf f = .none
  · unfold setPattern
    rw [if_neg (by simp [he, hp]), h]
    simp only
    rw [putPattern_patternOf, if_pos rfl]
    exact hp
  · exact setPattern_keeps _ _ _ _ _ _ h

theorem reactsOnly_foldl {α : Type} (f : Module → α → Module) (hf : ∀ m a, reactsOnly m (f m a)) (l : List α) (m : Module) :
    reactsOnly m (l.foldl f m) := by
  induction l generalizing m with
  | nil => exact reactsOnly_refl m
  | cons a l ih => exact reactsOnly_trans (hf m a) (ih _)

/-- Everything the reaction of a fault can touch. -/
theorem react_reactsOnly (code detail : Nat) (m : Module) : reactsOnly m (react code detail m) := by
  unfold react
  split
  · exact reactsOnly_refl m
  · refine reactsOnly_trans ?_ (reactsOnly_foldl _ (fun m f => setPattern_reactsOnly ..) _ _)
    split
    · exact reactsOnly_refl m
    · exact sendCommand_reactsOnly ..

/-- Everything the raising of a fault can touch. -/
theorem raiseAt_reactsOnly (tick : Tick) (code detail : Nat) (cond : Bool) (m : Module) :
    reactsOnly m (raiseAt tick code detail cond m) := by
  unfold raiseAt
  split
  · have hc : reactsOnly m (setCond code (· == detail) cond m) := reactsOnly_of_logsOnly (setCond_logsOnly ..)
    split
    · exact reactsOnly_trans hc (react_reactsOnly ..)
    · exact hc
  · have h3 : ∀ x : Module, reactsOnly m x → reactsOnly m (noteOverrun m.faults.lost tick x) := fun x h =>
      reactsOnly_trans h (reactsOnly_of_logsOnly (noteOverrun_logsOnly ..))
    have h2 : reactsOnly m (noteFull (tableRefuses m.faults.active && code != F.faultTableFull) tick
        (enterFault 512 code detail cond tick m)) :=
      reactsOnly_of_logsOnly (logsOnly_trans (enterFault_logsOnly ..) (noteFull_logsOnly ..))
    refine reactsOnly_trans ?_ (react_reactsOnly ..)
    split
    · exact reactsOnly_trans (h3 _ h2) (noteCause_reactsOnly ..)
    · exact h3 _ h2

theorem raise_reactsOnly (code detail : Nat) (cond : Bool) (m : Module) : reactsOnly m (raise code detail cond m) :=
  raiseAt_reactsOnly ..

/-- A fault that is active again changes only its CONDITION (R577); one that the GDC answers itself sets its pattern again
(R430). -/
theorem raiseAt_again (tick : Tick) (code detail : Nat) (cond : Bool) (m : Module)
    (h : isActive m.faults.active code detail = true) :
    raiseAt tick code detail cond m =
      if gdcReacts code then react code detail (setCond code (· == detail) cond m)
      else setCond code (· == detail) cond m := by
  unfold raiseAt
  rw [if_pos h]
  split <;> rfl

/-- The release of what may be released touches the release marks alone. -/
theorem releaseWhatMay_marks (m : Module) :
    ∃ v : Vector Bool 9, releaseWhatMay m = { m with faults := { m.faults with releasing := v } } := by
  have h : ∀ (l : List Func) (x : Module) (v : Vector Bool 9), x = { m with faults := { m.faults with releasing := v } } →
      ∃ w : Vector Bool 9, l.foldl (fun m f =>
        if m.patterned f && m.releasable f then
          { m with faults := { m.faults with releasing := m.faults.releasing.set f.idx.val true f.idx.isLt } }
        else m) x = { m with faults := { m.faults with releasing := w } } := by
    intro l
    induction l with
    | nil => intro x v h; exact ⟨v, h⟩
    | cons f l ih =>
      intro x v h
      subst h
      rw [List.foldl_cons]
      split
      · exact ih _ _ rfl
      · exact ih _ v rfl
  exact h _ _ m.faults.releasing rfl

end Sys2Proof.Machine
end

