-- ==== Sys2Proof/Laws/Memory.lean ====
section
/-!
SUPPORT. Region memory: its canonical form as three facts about the list, a write and the reload of the checkpoint keep it,
a read after a write, the empty memory.
-/

namespace Sys2Proof.Machine

/-- The canonical form: rising addresses, all inside region memory, no entry that an unlisted word would read. -/
theorem wf_iff (l : List (Nat × Word)) : Memory.wf l = true ↔
    l.Pairwise (fun p q => p.1 < q.1) ∧ (∀ p ∈ l, p.2 ≠ fillWord) ∧ (∀ p ∈ l, p.1 < regionWords) := by
  induction l with
  | nil => simp [Memory.wf]
  | cons p l ih =>
    cases l with
    | nil => simp [Memory.wf]; tauto
    | cons q l =>
      simp only [Memory.wf, Bool.and_eq_true, decide_eq_true_eq, bne_iff_ne, ne_eq, ih]
      constructor
      · rintro ⟨⟨h, hp⟩, s, f, b⟩
        refine ⟨?_, ?_, ?_⟩
        · rw [List.pairwise_cons]
          refine ⟨?_, s⟩
          intro r hr
          rcases List.mem_cons.mp hr with rfl | hr
          · exact h
          · exact lt_trans h ((List.pairwise_cons.mp s).1 r hr)
        · intro r hr
          rcases List.mem_cons.mp hr with rfl | hr
          · exact hp
          · exact f r hr
        · intro r hr
          rcases List.mem_cons.mp hr with rfl | hr
          · exact lt_trans h (b q List.mem_cons_self)
          · exact b r hr
      · rintro ⟨s, f, b⟩
        rw [List.pairwise_cons] at s
        exact ⟨⟨s.1 q List.mem_cons_self, f p List.mem_cons_self⟩, s.2, fun r hr => f r (List.mem_cons_of_mem _ hr),
          fun r hr => b r (List.mem_cons_of_mem _ hr)⟩

/-- Empty memory is in canonical form. -/
@[simp] theorem wf_nil : Memory.wf [] = true := rfl

/-- A part of a memory is a memory. -/
theorem wf_of_sublist {l k : List (Nat × Word)} (s : l.Sublist k) (h : Memory.wf k = true) : Memory.wf l = true := by
  rw [wf_iff] at *
  exact ⟨h.1.sublist s, fun p hp => h.2.1 p (s.subset hp), fun p hp => h.2.2 p (s.subset hp)⟩

/-- Where a written list comes from. -/
theorem mem_memWrite {a : Nat} {w : Word} {l : List (Nat × Word)} {p : Nat × Word} (h : p ∈ memWrite a w l) :
    p ∈ l ∨ (p = (a, w) ∧ w ≠ fillWord) := by
  induction l with
  | nil => unfold memWrite at h; split at h <;> simp_all
  | cons q l ih =>
    unfold memWrite at h
    split at h
    · rcases List.mem_cons.mp h with rfl | h
      · exact .inl List.mem_cons_self
      · exact (ih h).imp (List.mem_cons_of_mem _) id
    · split at h
      · split at h
        · exact .inl (List.mem_cons_of_mem _ h)
        · rcases List.mem_cons.mp h with rfl | h
          · exact .inr ⟨rfl, by assumption⟩
          · exact .inl (List.mem_cons_of_mem _ h)
      · split at h
        · exact .inl h
        · rcases List.mem_cons.mp h with rfl | h
          · exact .inr ⟨rfl, by assumption⟩
          · exact .inl h

/-- A write inside region memory keeps the canonical form. -/
theorem wf_memWrite {a : Nat} {w : Word} {l : List (Nat × Word)} (ha : a < regionWords) (h : Memory.wf l = true) :
    Memory.wf (memWrite a w l) = true := by
  rw [wf_iff] at *
  obtain ⟨s, f, b⟩ := h
  refine ⟨?_, ?_, ?_⟩
  · clear f b
    induction l with
    | nil => unfold memWrite; split <;> simp
    | cons q l ih =>
      rw [List.pairwise_cons] at s
      unfold memWrite
      split
      · rw [List.pairwise_cons]
        refine ⟨?_, ih s.2⟩
        intro p hp
        rcases mem_memWrite hp with hp | ⟨rfl, -⟩
        · exact s.1 p hp
        · assumption
      · split
        · split
          · exact s.2
          · rw [List.pairwise_cons]
            refine ⟨?_, s.2⟩
            intro p hp
            have := s.1 p hp
            omega
        · split
          · rw [List.pairwise_cons]; exact s
          · rw [List.pairwise_cons]
            refine ⟨?_, List.pairwise_cons.mpr s⟩
            intro p hp
            rcases List.mem_cons.mp hp with rfl | hp
            · show a < p.1; omega
            · have := s.1 p hp; show a < p.1; omega
  · intro p hp
    rcases mem_memWrite hp with hp | ⟨rfl, hw⟩
    · exact f p hp
    · exact hw
  · intro p hp
    rcases mem_memWrite hp with hp | ⟨rfl, -⟩
    · exact b p hp
    · exact ha

/-- An address no entry has reads as the fill value. -/
theorem memRead_absent {a : Nat} {l : List (Nat × Word)} (h : ∀ p ∈ l, p.1 ≠ a) : memRead a l = fillWord := by
  unfold memRead
  rw [List.find?_eq_none.mpr (by simpa using h)]

theorem memRead_cons (a : Nat) (p : Nat × Word) (l : List (Nat × Word)) :
    memRead a (p :: l) = if p.1 = a then p.2 else memRead a l := by
  unfold memRead
  rw [List.find?_cons]
  by_cases h : p.1 = a
  · simp [h]
  · simp [h, beq_eq_false_iff_ne.mpr h]

/-- A write is read back at its address and leaves every other address alone. -/
theorem memRead_memWrite (a b : Nat) (w : Word) {l : List (Nat × Word)} (h : Memory.wf l = true) :
    memRead b (memWrite a w l) = if b = a then w else memRead b l := by
  have s := ((wf_iff l).mp h).1
  clear h
  induction l with
  | nil =>
    unfold memWrite
    split
    · rename_i hw
      rw [hw]; simp [memRead]
    · rw [memRead_cons]
      by_cases hb : b = a
      · simp [hb]
      · simp [hb, Ne.symm hb]
  | cons q l ih =>
    rw [List.pairwise_cons] at s
    unfold memWrite
    split
    · rename_i lt
      rw [memRead_cons, memRead_cons, ih s.2]
      by_cases hb : b = a
      · have : ¬ q.1 = b := by omega
        simp [hb, show ¬ q.1 = a by omega]
      · simp [hb]
    · split
      · rename_i e
        split
        · rename_i hw
          rw [memRead_cons]
          by_cases hb : b = a
          · have := memRead_absent (a := b) (l := l) (fun p hp => by have := s.1 p hp; omega)
            rw [hb] at *
            rw [this, hw]; simp
          · simp [hb, show ¬ q.1 = b by omega]
        · rw [memRead_cons, memRead_cons]
          by_cases hb : b = a
          · simp [hb]
          · simp [hb, show ¬ q.1 = b by omega, show ¬ a = b by omega]
      · split
        · rename_i hw
          by_cases hb : b = a
          · have := memRead_absent (a := b) (l := q :: l) (fun p hp => by
              rcases List.mem_cons.mp hp with rfl | hp
              · omega
              · have := s.1 p hp; omega)
            simp [hb, hw] at *
            exact this
          · simp [hb]
        · rw [memRead_cons]
          by_cases hb : b = a
          · simp [hb]
          · simp [hb, show ¬ a = b by omega]

/-- The carried state of a memory is in canonical form, below the end of its area. -/
theorem wf_carriedPart {l : List (Nat × Word)} (h : Memory.wf l = true) : Memory.wf (carriedPart l) = true :=
  wf_of_sublist List.filter_sublist h

theorem carriedPart_all (l : List (Nat × Word)) : (carriedPart l).all (fun p => p.1 < carriedWords) = true := by
  simp [carriedPart, List.all_eq_true]

/-- The reload of a checkpoint (R121) keeps the canonical form. -/
theorem reload_sound {r : Region} (h : r.sound = true) : (reload r).sound = true := by
  simp only [Region.sound, Bool.and_eq_true, List.all_eq_true, decide_eq_true_eq] at *
  obtain ⟨⟨m, s⟩, c⟩ := h
  refine ⟨⟨?_, s⟩, c⟩
  unfold reload
  have k := wf_of_sublist (l := r.memory.filter (fun p => carriedWords ≤ p.1)) List.filter_sublist m
  rw [wf_iff] at *
  refine ⟨?_, ?_, ?_⟩
  · rw [List.pairwise_append]
    refine ⟨s.1, k.1, ?_⟩
    intro p hp q hq
    have := c p hp
    simp only [List.mem_filter, decide_eq_true_eq] at hq
    omega
  · intro p hp
    rcases List.mem_append.mp hp with hp | hp
    · exact s.2.1 p hp
    · exact k.2.1 p hp
  · intro p hp
    rcases List.mem_append.mp hp with hp | hp
    · exact s.2.2 p hp
    · exact k.2.2 p hp

end Sys2Proof.Machine
end

