-- ==== Sys2Proof/Laws/Unit.lean ====
section
/-!
SUPPORT. What the units of a region can do to its memories: nothing. A pass writes region memory as a staged write alone, which
the commit applies (R28, R115), so no operation of a unit changes region memory or the checkpoint.
-/

namespace Sys2Proof.Machine

/-- Two regions hold the same memory and the same checkpoint. -/
def Region.sameStore (a b : Region) : Prop := a.memory = b.memory ∧ a.shadow = b.shadow

theorem sameStore_refl (r : Region) : r.sameStore r := ⟨rfl, rfl⟩

theorem sameStore_trans {a b c : Region} (h : a.sameStore b) (k : b.sameStore c) : a.sameStore c :=
  ⟨h.1.trans k.1, h.2.trans k.2⟩

/-- A region with the memories of a sound one is sound. -/
theorem sound_of_same {a b : Region} (h : a.sameStore b) (k : b.sound = true) : a.sound = true := by
  unfold Region.sound at *
  rw [h.1, h.2]
  exact k

theorem block_same (e : Nat × Tick) (r : Region) : (block e r).sameStore r := ⟨rfl, rfl⟩
theorem spoil_same (e : Nat × Tick) (r : Region) : (spoil e r).sameStore r := ⟨rfl, rfl⟩
theorem setRange_same (e : Nat × Tick) (second : Bool) (r : Region) : (setRange e second r).sameStore r := ⟨rfl, rfl⟩
theorem updUnit_same (u : Nat) (f : UnitRun → UnitRun) (r : Region) : (updUnit u f r).sameStore r := ⟨rfl, rfl⟩
theorem updCluster_same (c : Nat) (f : Cluster → Cluster) (r : Region) : (updCluster c f r).sameStore r := ⟨rfl, rfl⟩
theorem updLanes_same (p : Lane → Bool) (f : Lane → Lane) (r : Region) : (updLanes p f r).sameStore r := ⟨rfl, rfl⟩
theorem changeLane_same (i : Instance) (u : Nat) (second : Bool) (f : Lane → Lane) (r : Region) :
    (changeLane i u second f r).sameStore r := by
  unfold changeLane
  split <;> exact ⟨rfl, rfl⟩
theorem proceed_same (u : Nat) (second : Bool) (pc : Nat) (r : Region) : (proceed u second pc r).sameStore r := ⟨rfl, rfl⟩
theorem upset_same (u n : Nat) (bits : Word) (r : Region) : (upset u n bits r).sameStore r := ⟨rfl, rfl⟩
theorem beginUnits_same (i : Instance) (p : Nat) (table : List (Nat × Word × Word)) (r : Region) :
    (beginUnits i p table r).sameStore r := ⟨rfl, rfl⟩
theorem release_same (r : Region) (es : List (Nat × Tick)) (now : Nat) : (r.release es now).sameStore r := ⟨rfl, rfl⟩
theorem quiet_same (r : Region) : r.quiet.sameStore r := ⟨rfl, rfl⟩
theorem clearSlack_same (r : Region) : r.clearSlack.sameStore r := ⟨rfl, rfl⟩

/-- A write of a pass reaches no memory of the region. -/
theorem writeStore_same (i : Instance) (u : Nat) (second : Bool) (w : Word) (r : Region) (s : Store) :
    (writeStore i u second w r s).sameStore r := by
  cases s <;> simp only [writeStore] <;> (try split) <;> first | exact changeLane_same _ _ _ _ _ | exact ⟨rfl, rfl⟩

theorem enterLane_same (i : Instance) (u : Nat) (second : Bool) (b : Nat) (r : Region) :
    (enterLane i u second b r).sameStore r := by
  unfold enterLane
  extract_lets free mark
  split <;> exact ⟨rfl, rfl⟩

theorem finish_same (i : Instance) (u : Nat) (second : Bool) (d : Store) (v : Word × Bool) (r : Region) :
    (finish i u second d v r).sameStore r := by
  unfold finish
  extract_lets r1
  split
  · exact sameStore_trans (setRange_same _ _ _) (writeStore_same _ _ _ _ _ _)
  · exact writeStore_same _ _ _ _ _ _

theorem runOp_same (i : Instance) (x : UnitRun) (second : Bool) (k : Int) (vs : List Word) (o : MicroOp) (r : Region) :
    (runOp i x second k vs o r).sameStore r := by
  cases o <;> simp only [runOp] <;> (try split) <;>
    first
    | exact sameStore_trans (proceed_same _ _ _ _) (finish_same _ _ _ _ _ _)
    | exact sameStore_trans (proceed_same _ _ _ _) (enterLane_same _ _ _ _ _)
    | (refine sameStore_trans (proceed_same _ _ _ _) ?_
       split <;> first | exact changeLane_same _ _ _ _ _ | exact ⟨rfl, rfl⟩)
    | exact ⟨rfl, rfl⟩

/-- A step of a unit leaves region memory and the checkpoint as they are. -/
theorem stepUnit_same (out : Instance → Outside) (k : Instance → Int) (u : Nat) (second : Bool) (r : Region) :
    (stepUnit out k u second r).sameStore r := by
  unfold stepUnit
  split
  · exact sameStore_refl r
  · split
    · exact sameStore_refl r
    · split
      · exact sameStore_refl r
      · split
        · exact sameStore_refl r
        · extract_lets reads spoiled found
          split
          · exact sameStore_refl r
          · split
            · exact sameStore_trans (proceed_same _ _ _ _) (block_same _ _)
            · refine sameStore_trans (runOp_same _ _ _ _ _ _ _) ?_
              split
              · exact spoil_same _ _
              · exact sameStore_refl r

theorem foldl_same {α : Type} (f : Region → α → Region) (hf : ∀ r a, (f r a).sameStore r) (l : List α) :
    ∀ r : Region, (l.foldl f r).sameStore r := by
  induction l with
  | nil => intro r; exact sameStore_refl r
  | cons a l ih => intro r; exact sameStore_trans (ih _) (hf r a)

/-- All the units do between two commands leaves region memory and the checkpoint as they are. -/
theorem runMoment_same (out : Instance → Outside) (k : Instance → Int) (asked : List (Nat × Bool)) (r : Region) :
    (runMoment out k asked r).sameStore r :=
  foldl_same (fun (r : Region) (p : Nat × Bool) => stepUnit out k p.1 p.2 r)
    (fun r p => stepUnit_same out k p.1 p.2 r) (served r asked) r

theorem beginUnits_sound (i : Instance) (p : Nat) (table : List (Nat × Word × Word)) (r : Region) (h : r.sound = true) :
    (beginUnits i p table r).sound = true := sound_of_same (beginUnits_same i p table r) h

theorem spoil_sound (e : Nat × Tick) (r : Region) (h : r.sound = true) : (spoil e r).sound = true :=
  sound_of_same (spoil_same e r) h

theorem updCluster_sound (c : Nat) (f : Cluster → Cluster) (r : Region) (h : r.sound = true) :
    (updCluster c f r).sound = true := sound_of_same (updCluster_same c f r) h

theorem zeroScratch_same (k addr : Nat) (r : Region) : (zeroScratch k addr r).sameStore r := by
  unfold zeroScratch
  split <;> exact ⟨rfl, rfl⟩

theorem zeroScratch_sound (k addr : Nat) (r : Region) (h : r.sound = true) : (zeroScratch k addr r).sound = true :=
  sound_of_same (zeroScratch_same k addr r) h

theorem Region.release_sound (r : Region) (es : List (Nat × Tick)) (now : Nat) (h : r.sound = true) :
    (r.release es now).sound = true := sound_of_same (release_same r es now) h

theorem Region.quiet_sound (r : Region) (h : r.sound = true) : r.quiet.sound = true := sound_of_same (quiet_same r) h

theorem Region.clearSlack_sound (r : Region) (h : r.sound = true) : r.clearSlack.sound = true :=
  sound_of_same (clearSlack_same r) h

end Sys2Proof.Machine
end

