-- ==== Sys2Proof/Laws/Safe/Basic.lean ====
section
/-!
SUPPORT. The invariant through the shared operations: a module update that leaves the fault table, the pending timed
commands, the supervisor mode, the SPLIT strap and the region memories alone is safe where the module was; the shared
operations that touch one of them keep it.
-/

namespace Sys2Proof.Machine

/-! ## Reading the invariant off a module -/

/-- The invariant of a module written out reads its parts. -/
theorem safe_mk (time supply straps dies epochs live interp faults regions hostOut crossings landings published
    exchange publishing checkpoints lockstep memory service traction chopper feedback converter charger islands gate
    actuators afe can eth isobus sys drivenTime free out) :
    Module.safe (Module.mk time supply straps dies epochs live interp faults regions hostOut crossings landings
      published exchange publishing checkpoints lockstep memory service traction chopper feedback converter charger
      islands gate actuators afe can eth isobus sys drivenTime free out) =
    coreOk faults.active interp.timed lockstep.mode straps.split regions := rfl

/-- The parts of one module are its invariant. -/
theorem coreOk_fold (m : Module) :
    coreOk m.faults.active m.interp.timed m.lockstep.mode m.straps.split m.regions = m.safe := rfl

/-- The invariant of a choice between two modules. -/
theorem safe_ite (c : Prop) [Decidable c] (a b : Module) :
    Module.safe (if c then a else b) = if c then a.safe else b.safe := apply_ite _ _ _ _

/-- The invariant of a region written out. -/
theorem sound_ite (c : Prop) [Decidable c] (a b : Region) :
    Region.sound (if c then a else b) = if c then a.sound else b.sound := apply_ite _ _ _ _

/-- A choice between two modules that keep the invariant. -/
theorem safe_choice {c : Prop} [Decidable c] {a b : Module} (ha : a.safe = true) (hb : b.safe = true) :
    (if c then a else b).safe = true := by split <;> assumption

/-- A fold of operations that keep the invariant keeps it. -/
theorem foldl_safe {α : Type} (f : Module → α → Module) (hf : ∀ m a, m.safe = true → (f m a).safe = true) (l : List α) :
    ∀ m : Module, m.safe = true → (l.foldl f m).safe = true := by
  induction l with
  | nil => intro m h; exact h
  | cons a l ih => intro m h; exact ih _ (hf m a h)

/-! ## Regions -/

/-- A region written out reads its memories. -/
theorem sound_mk (started waiting held stuck failed checkpointValid rebuilding reloadAt fallbacks mismatches lates
    quenches misses skips ranges window windowRaised level records flight requests units lanes clusters memory shadow
    affected samples) :
    Region.sound (Region.mk started waiting held stuck failed checkpointValid rebuilding reloadAt fallbacks mismatches
      lates quenches misses skips ranges window windowRaised level records flight requests units lanes clusters memory
      shadow affected samples) =
    (Memory.wf memory && Memory.wf shadow && shadow.all (fun p => p.1 < carriedWords)) := rfl

/-- The memories of one region are its soundness. -/
theorem sound_fold (r : Region) :
    (Memory.wf r.memory && Memory.wf r.shadow && r.shadow.all (fun p => p.1 < carriedWords)) = r.sound := rfl

/-- A memory in canonical form with a checkpoint taken of it. -/
theorem sound_taken {mem : List (Nat × Word)} (h : Memory.wf mem = true) :
    (Memory.wf mem && Memory.wf (carriedPart mem) && (carriedPart mem).all (fun p => p.1 < carriedWords)) = true := by
  simp only [h, wf_carriedPart h, carriedPart_all, Bool.and_self]

/-- A memory in canonical form beside a region's own checkpoint. -/
theorem sound_kept {r : Region} (h : r.sound = true) {mem : List (Nat × Word)} (w : Memory.wf mem = true) :
    (Memory.wf mem && Memory.wf r.shadow && r.shadow.all (fun p => p.1 < carriedWords)) = true := by
  simp only [Region.sound, Bool.and_eq_true] at *
  exact ⟨⟨w, h.1.2⟩, h.2⟩

/-- Empty memory and an empty checkpoint. -/
theorem sound_empty : (Memory.wf [] && Memory.wf [] && ([] : List (Nat × Word)).all (fun p => p.1 < carriedWords)) = true :=
  rfl

theorem sound_memory {r : Region} (h : r.sound = true) : Memory.wf r.memory = true := by
  simp only [Region.sound, Bool.and_eq_true] at h
  exact h.1.1

theorem regionsOk_iff (rs : Vector Region 8) : regionsOk rs = true ↔ ∀ n : Fin 8, (rs[n]).sound = true := by
  unfold regionsOk
  rw [List.all_eq_true]
  constructor
  · intro h n
    exact h _ (by simp [Vector.mem_toList_iff])
  · intro h r hr
    obtain ⟨i, hi, rfl⟩ := Vector.mem_iff_getElem.mp (Vector.mem_toList_iff.mp hr)
    exact h ⟨i, hi⟩

theorem safe_regions {m : Module} (h : m.safe = true) : regionsOk m.regions = true := by
  unfold Module.safe coreOk at h
  simp only [Bool.and_eq_true] at h
  exact h.2

theorem safe_region {m : Module} (h : m.safe = true) (n : Fin 8) : (m.regions[n]).sound = true :=
  (regionsOk_iff _).mp (safe_regions h) n

/-- Regions replaced by sound ones. -/
theorem safe_withRegions {m : Module} {fs ts mode split} {rs : Vector Region 8}
    (h : coreOk fs ts mode split m.regions = true) (hr : regionsOk rs = true) : coreOk fs ts mode split rs = true := by
  unfold coreOk at *
  simp only [Bool.and_eq_true] at *
  exact ⟨h.1, hr⟩

theorem regionsOk_upd {rs : Vector Region 8} (h : regionsOk rs = true) (n : Fin 8) (f : Region → Region)
    (hf : ∀ r : Region, r.sound = true → (f r).sound = true) : regionsOk (Vector.upd rs n f) = true := by
  rw [regionsOk_iff] at *
  intro k
  simp only [Vector.upd]
  by_cases e : n.val = k.val
  · simpa [Fin.getElem_fin, e] using hf _ (h k)
  · simpa [Fin.getElem_fin, Vector.getElem_set, e] using h k

theorem regionsOk_ofFn (f : Fin 8 → Region) (hf : ∀ n, (f n).sound = true) : regionsOk (Vector.ofFn f) = true := by
  rw [regionsOk_iff]; intro k; simpa using hf k

theorem regionsOk_map {rs : Vector Region 8} (h : regionsOk rs = true) (f : Region → Region)
    (hf : ∀ r : Region, r.sound = true → (f r).sound = true) : regionsOk (rs.map f) = true := by
  rw [regionsOk_iff] at *; intro k; simpa using hf _ (h k)

theorem updRegion_safe {m : Module} (n : Fin 8) (f : Region → Region)
    (hf : ∀ r : Region, r.sound = true → (f r).sound = true) (h : m.safe = true) : (updRegion n f m).safe = true := by
  unfold Module.safe updRegion
  exact safe_withRegions (m := m) h (regionsOk_upd (safe_regions h) n f hf)

/-! ## The fault table (R577, R587) -/

/-- Entries with changed conditions are the same faults. -/
theorem tableOk_map {fs : List ActiveFault} (g : ActiveFault → ActiveFault)
    (hg : ∀ f, (g f).code = f.code ∧ (g f).detail = f.detail) (h : tableOk fs = true) : tableOk (fs.map g) = true := by
  have active : ∀ (l : List ActiveFault) (c d : Nat), isActive (l.map g) c d = isActive l c d := by
    intro l c d
    simp only [isActive, List.any_map]
    congr 1
    funext f
    simp [hg f]
  have inUse : ∀ l : List ActiveFault, entriesInUse (l.map g) = entriesInUse l := by
    intro l
    simp only [entriesInUse, List.filter_map, List.length_map]
    congr 2
    funext f
    simp [hg f]
  have distinct : ∀ l : List ActiveFault, distinctFaults (l.map g) = distinctFaults l := by
    intro l
    induction l with
    | nil => rfl
    | cons f l ih => simp [distinctFaults, ih, active, hg f]
  unfold tableOk at *
  rwa [inUse, distinct]

/-- A fault of a part of the table is a fault of the table. -/
theorem isActive_of_sublist {l k : List ActiveFault} (s : l.Sublist k) {c d : Nat} (h : isActive l c d = true) :
    isActive k c d = true := by
  unfold isActive at *
  rw [List.any_eq_true] at *
  obtain ⟨x, hx, hp⟩ := h
  exact ⟨x, s.subset hx, hp⟩

theorem distinct_of_sublist {l k : List ActiveFault} (s : l.Sublist k) (h : distinctFaults k = true) :
    distinctFaults l = true := by
  induction s with
  | slnil => rfl
  | cons a s ih =>
    simp only [distinctFaults, Bool.and_eq_true] at h
    exact ih h.2
  | cons_cons a s ih =>
    simp only [distinctFaults, Bool.and_eq_true, Bool.not_eq_true'] at *
    refine ⟨?_, ih h.2⟩
    by_contra c
    exact absurd (isActive_of_sublist s (by simpa using c)) (by simp [h.1])

/-- A part of a table is a table. -/
theorem tableOk_of_sublist {l k : List ActiveFault} (s : l.Sublist k) (h : tableOk k = true) : tableOk l = true := by
  unfold tableOk at *
  simp only [Bool.and_eq_true, decide_eq_true_eq] at *
  refine ⟨le_trans ?_ h.1, distinct_of_sublist s h.2⟩
  exact (s.filter _).length_le

theorem distinct_append {l : List ActiveFault} {f : ActiveFault} (h : distinctFaults l = true)
    (n : isActive l f.code f.detail = false) : distinctFaults (l ++ [f]) = true := by
  induction l with
  | nil => rfl
  | cons a l ih =>
    simp only [distinctFaults, Bool.and_eq_true, Bool.not_eq_true', List.cons_append] at *
    simp only [isActive, List.any_cons, Bool.or_eq_false_iff] at n
    refine ⟨?_, ih h.2 n.2⟩
    simp only [isActive, List.any_append, List.any_cons, List.any_nil, Bool.or_false, Bool.or_eq_false_iff]
    refine ⟨h.1, ?_⟩
    have := n.1
    simp only [Bool.and_eq_false_iff, beq_eq_false_iff_ne, ne_eq] at *
    tauto

theorem entriesInUse_append (l : List ActiveFault) (f : ActiveFault) :
    entriesInUse (l ++ [f]) = entriesInUse l + if f.code = F.faultTableFull then 0 else 1 := by
  by_cases h : f.code = F.faultTableFull <;> simp [entriesInUse, List.filter_append, h]

theorem dropOldestC_sublist (l : List ActiveFault) : (dropOldestC l).Sublist l := by
  induction l with
  | nil => exact List.Sublist.slnil
  | cons f l ih =>
    unfold dropOldestC
    split
    · exact List.Sublist.cons _ (List.Sublist.refl _)
    · exact List.Sublist.cons_cons _ ih

/-- FAULT_TABLE_FULL is of class B, so it is never displaced. -/
theorem classOf_tableFull : classOf F.faultTableFull = .b := by decide

theorem entriesInUse_dropOldestC {l : List ActiveFault} (h : l.any (fun g => classOf g.code == .c) = true) :
    entriesInUse (dropOldestC l) + 1 = entriesInUse l := by
  induction l with
  | nil => simp at h
  | cons f l ih =>
    unfold dropOldestC
    by_cases c : classOf f.code == .c
    · have : f.code ≠ F.faultTableFull := by
        intro e; rw [e, classOf_tableFull] at c; exact absurd c (by decide)
      simp [c, entriesInUse, this]
    · simp only [c, List.any_cons, Bool.false_or] at h
      have := ih h
      simp only [c]
      simp only [entriesInUse] at *
      by_cases g : f.code = F.faultTableFull <;> simp [g, this]

/-- A new fault enters the table, displaces the oldest class C fault, or finds no room (R587). -/
theorem enterTable_ok {fs : List ActiveFault} {f : ActiveFault} (h : tableOk fs = true)
    (n : isActive fs f.code f.detail = false) : tableOk (enterTable f fs) = true := by
  unfold enterTable
  have h' := h
  unfold tableOk at h'
  simp only [Bool.and_eq_true, decide_eq_true_eq] at h'
  split
  · rename_i c
    unfold tableOk
    simp only [Bool.and_eq_true, decide_eq_true_eq, entriesInUse_append]
    refine ⟨?_, distinct_append h'.2 n⟩
    split
    · omega
    · rcases c with c | c
      · contradiction
      · omega
  · split
    · rename_i c a
      have s := dropOldestC_sublist fs
      have e := entriesInUse_dropOldestC a
      unfold tableOk
      simp only [Bool.and_eq_true, decide_eq_true_eq, entriesInUse_append]
      refine ⟨?_, distinct_append (distinct_of_sublist s h'.2) ?_⟩
      · split <;> omega
      · by_contra x
        have := isActive_of_sublist s (c := f.code) (d := f.detail) (by simpa using x)
        simp [n] at this
    · exact h

theorem safe_table {m : Module} (h : m.safe = true) : tableOk m.faults.active = true := by
  unfold Module.safe coreOk at h
  simp only [Bool.and_eq_true] at h
  exact h.1.1.1

theorem safe_timed {m : Module} (h : m.safe = true) : timedOk m.interp.timed = true := by
  unfold Module.safe coreOk at h
  simp only [Bool.and_eq_true] at h
  exact h.1.1.2

theorem safe_mode {m : Module} (h : m.safe = true) : modeOk m.lockstep.mode m.straps.split = true := by
  unfold Module.safe coreOk at h
  simp only [Bool.and_eq_true] at h
  exact h.1.2

/-- A module whose fault table alone changed, to a good one. -/
theorem safe_withTable {m : Module} {fs : List ActiveFault} (h : m.safe = true) (ht : tableOk fs = true) :
    coreOk fs m.interp.timed m.lockstep.mode m.straps.split m.regions = true := by
  unfold Module.safe coreOk at h
  unfold coreOk
  simp only [Bool.and_eq_true] at *
  exact ⟨⟨⟨ht, h.1.1.2⟩, h.1.2⟩, h.2⟩

/-- A module whose pending timed commands alone changed. -/
theorem safe_withTimed {m : Module} {ts : List TimedCmd} (h : m.safe = true) (ht : timedOk ts = true) :
    coreOk m.faults.active ts m.lockstep.mode m.straps.split m.regions = true := by
  unfold Module.safe coreOk at h
  unfold coreOk
  simp only [Bool.and_eq_true] at *
  exact ⟨⟨⟨h.1.1.1, ht⟩, h.1.2⟩, h.2⟩

/-- A module whose supervisor mode alone changed. -/
theorem safe_withMode {m : Module} {mode : SupMode} (h : m.safe = true) (ht : modeOk mode m.straps.split = true) :
    coreOk m.faults.active m.interp.timed mode m.straps.split m.regions = true := by
  unfold Module.safe coreOk at h
  unfold coreOk
  simp only [Bool.and_eq_true] at *
  exact ⟨⟨⟨h.1.1.1, h.1.1.2⟩, ht⟩, h.2⟩

theorem setCond_safe {m : Module} (code : Nat) (p : Nat → Bool) (c : Bool) (h : m.safe = true) :
    (setCond code p c m).safe = true := by
  unfold setCond
  rw [safe_mk]
  exact safe_withTable h (tableOk_map _ (by intro f; split <;> simp) (safe_table h))

theorem endCond_safe {m : Module} (code detail : Nat) (h : m.safe = true) : (endCond code detail m).safe = true :=
  setCond_safe _ _ _ h

theorem pushRecord_safe {m : Module} (limit : Nat) (r : LogRec) (h : m.safe = true) : (pushRecord limit r m).safe = true := by
  unfold pushRecord
  dsimp only
  split <;> exact h

theorem pushRecord_active (m : Module) (limit : Nat) (r : LogRec) :
    (pushRecord limit r m).faults.active = m.faults.active := by
  unfold pushRecord
  dsimp only
  split <;> rfl

theorem enterFault_safe {m : Module} (limit code detail : Nat) (cond : Bool) (tick : Tick) (h : m.safe = true)
    (n : isActive m.faults.active code detail = false) : (enterFault limit code detail cond tick m).safe = true := by
  unfold enterFault
  apply pushRecord_safe
  rw [safe_mk]
  exact safe_withTable h (enterTable_ok (safe_table h) n)

theorem noteFull_safe {m : Module} (full : Bool) (tick : Tick) (h : m.safe = true) :
    (noteFull full tick m).safe = true := by
  unfold noteFull
  split
  · rename_i c
    simp only [Bool.and_eq_true, Bool.not_eq_true'] at c
    exact enterFault_safe _ _ _ _ _ h c.2
  · exact h

theorem noteOverrun_safe {m : Module} (before : Nat) (tick : Tick) (h : m.safe = true) :
    (noteOverrun before tick m).safe = true := by
  unfold noteOverrun
  split
  · exact h
  · rename_i c
    exact noteFull_safe _ _ (enterFault_safe _ _ _ _ _ h (by simpa using (not_or.mp c).2))

theorem record_safe {m : Module} (code detail kind func pattern : Nat) (h : m.safe = true) :
    (record code detail kind func pattern m).safe = true :=
  noteOverrun_safe _ _ (pushRecord_safe _ _ h)

theorem clearFault_safe (f : ActiveFault) (m : Module) (h : m.safe = true) : (clearFault f m).safe = true := by
  unfold clearFault
  apply record_safe
  rw [safe_mk]
  exact safe_withTable h (tableOk_of_sublist List.filter_sublist (safe_table h))

end Sys2Proof.Machine
end

