-- ==== Sys2Proof/Laws/Safe/Crossings.lean ====
section
/-!
SUPPORT. The invariant is kept by every operation of Machine/Crossings.lean.
-/

namespace Sys2Proof.Machine

theorem updCrossing_safe (i : Fin 22) (f : Crossing → Crossing) (m : Module) (safe : m.safe = true) : (updCrossing i f m).safe = true := by
  unfold updCrossing
  repeat' (first | with_reducible assumption | extract_lets | split | (simp only [safe_mk, coreOk_fold]) | with_reducible refine safe_choice ?_ ?_ | (dsimp +zetaDelta only))

theorem driveControl_safe (i : Fin 22) (level : Bool) (m : Module) (safe : m.safe = true) : (driveControl i level m).safe = true := by
  unfold driveControl
  repeat' (first | with_reducible assumption | with_reducible apply updCrossing_safe | extract_lets | split | (simp only [safe_mk, coreOk_fold]) | with_reducible refine safe_choice ?_ ?_ | (dsimp +zetaDelta only))

theorem crossWords_safe (i : Fin 22) (k : Nat) (m : Module) (safe : m.safe = true) : (crossWords i k m).safe = true := by
  unfold crossWords
  repeat' (first | with_reducible assumption | with_reducible apply updCrossing_safe | extract_lets | split | (simp only [safe_mk, coreOk_fold]) | with_reducible refine safe_choice ?_ ?_ | (dsimp +zetaDelta only))

theorem strobe_safe (i : Fin 22) (m : Module) (safe : m.safe = true) : (strobe i m).safe = true := by
  unfold strobe
  repeat' (first | with_reducible assumption | with_reducible apply driveControl_safe | extract_lets | split | (simp only [safe_mk, coreOk_fold]) | with_reducible refine safe_choice ?_ ?_ | (dsimp +zetaDelta only))

theorem sendCommand_safe (i : Fin 22) (m : Module) (safe : m.safe = true) : (sendCommand i m).safe = true := by
  unfold sendCommand
  repeat' (first | with_reducible assumption | with_reducible apply strobe_safe | with_reducible apply crossWords_safe | extract_lets | split | (simp only [safe_mk, coreOk_fold]) | with_reducible refine safe_choice ?_ ?_ | (dsimp +zetaDelta only))

theorem noteEvent_safe (i : Fin 22) (m : Module) (safe : m.safe = true) : (noteEvent i m).safe = true := by
  unfold noteEvent
  repeat' (first | with_reducible assumption | with_reducible apply crossWords_safe | with_reducible apply updCrossing_safe | extract_lets | split | (simp only [safe_mk, coreOk_fold]) | with_reducible refine safe_choice ?_ ?_ | (dsimp +zetaDelta only))

theorem noteHp_safe (m : Module) (safe : m.safe = true) : (noteHp m).safe = true := by
  unfold noteHp
  repeat' (first | with_reducible assumption | with_reducible apply crossWords_safe | with_reducible apply updCrossing_safe | extract_lets | split | (simp only [safe_mk, coreOk_fold]) | with_reducible refine safe_choice ?_ ?_ | (dsimp +zetaDelta only))

end Sys2Proof.Machine
end

