-- ==== Sys2Proof/Laws/Safe/Faults.lean ====
section
/-!
SUPPORT. The invariant is kept by every operation of Machine/Faults.lean.
-/

namespace Sys2Proof.Machine

theorem noteCause_safe (b : Nat) (tick : Tick) (m : Module) (safe : m.safe = true) : (noteCause b tick m).safe =
    true := by
  unfold noteCause
  repeat' (first | with_reducible assumption | extract_lets | split | (simp only [safe_mk, coreOk_fold]))

theorem openTraction_safe (c : Fin 2) (m : Module) (safe : m.safe = true) : (openTraction c m).safe = true := by
  unfold openTraction
  repeat' (first | with_reducible assumption | extract_lets | split | (simp only [safe_mk, coreOk_fold]))

theorem markRow1_safe (f : Func) (m : Module) (safe : m.safe = true) : (markRow1 f m).safe = true := by
  unfold markRow1
  repeat' (first | with_reducible assumption | extract_lets | split | (simp only [safe_mk, coreOk_fold]) | with_reducible refine safe_choice ?_ ?_ | (dsimp +zetaDelta only))

theorem unmarkRow1_safe (f : Func) (m : Module) (safe : m.safe = true) : (unmarkRow1 f m).safe = true := by
  unfold unmarkRow1
  repeat' (first | with_reducible assumption | extract_lets | split | (simp only [safe_mk, coreOk_fold]) | with_reducible refine safe_choice ?_ ?_ | (dsimp +zetaDelta only))

theorem patternEffect_safe (f : Func) (m : Module) (safe : m.safe = true) : (patternEffect f m).safe = true := by
  unfold patternEffect
  repeat' (first
    | with_reducible assumption | with_reducible apply openTraction_safe | extract_lets | split
    | (simp only [safe_mk, coreOk_fold]))

theorem putPattern_safe (f : Func) (p : Pattern) (code detail : Nat) (m : Module) (safe : m.safe = true) : (putPattern f p code detail m).safe = true := by
  unfold putPattern
  repeat' (first | with_reducible assumption | with_reducible apply noteCause_safe | with_reducible apply markRow1_safe | with_reducible apply patternEffect_safe | with_reducible apply record_safe | extract_lets | split | (simp only [safe_mk, coreOk_fold]) | with_reducible refine safe_choice ?_ ?_ | (dsimp +zetaDelta only))

theorem setPattern_safe (f : Func) (p : Pattern) (code detail : Nat) (m : Module) (safe : m.safe = true) : (setPattern f p code detail m).safe = true := by
  unfold setPattern
  repeat' (first | with_reducible assumption | with_reducible apply putPattern_safe | with_reducible apply markRow1_safe | extract_lets | split | (simp only [safe_mk, coreOk_fold]) | with_reducible refine safe_choice ?_ ?_ | (dsimp +zetaDelta only))

theorem setPatterns_safe (fs : List Func) (code detail : Nat) (m : Module) (safe : m.safe = true) :
    (setPatterns fs code detail m).safe = true := by
  unfold setPatterns
  repeat' (first
    | with_reducible assumption | with_reducible apply setPattern_safe
    | (with_reducible refine foldl_safe _ ?_ _ _ ?_) | (intro _ _ hh))

theorem react_safe (code detail : Nat) (m : Module) (safe : m.safe = true) : (react code detail m).safe = true := by
  unfold react
  repeat' (first | with_reducible assumption | with_reducible apply setPattern_safe | with_reducible apply sendCommand_safe | (with_reducible refine foldl_safe _ ?_ _ _ ?_) | (intro _ _ hh) | extract_lets | split | (simp only [safe_mk, coreOk_fold]) | with_reducible refine safe_choice ?_ ?_ | (dsimp +zetaDelta only))

theorem raiseAt_safe (tick : Tick) (code detail : Nat) (cond : Bool) (m : Module) (h : m.safe = true) :
    (raiseAt tick code detail cond m).safe = true := by
  unfold raiseAt
  split
  · split
    · exact react_safe _ _ _ (setCond_safe _ _ _ h)
    · exact setCond_safe _ _ _ h
  · rename_i a
    have h1 := enterFault_safe 512 code detail cond tick h (by simpa using a)
    extract_lets full m1 m2 m3
    have h2 : m2.safe = true := noteFull_safe _ _ h1
    have h3 : m3.safe = true := noteOverrun_safe _ _ h2
    apply react_safe
    split
    · exact noteCause_safe _ _ _ h3
    · exact h3

theorem raise_safe (code detail : Nat) (cond : Bool) (m : Module) (safe : m.safe = true) :
    (raise code detail cond m).safe = true := by
  unfold raise
  repeat' (first | with_reducible assumption | with_reducible apply raiseAt_safe)

theorem clearFaults_safe (fs : List ActiveFault) (m : Module) (safe : m.safe = true) : (clearFaults fs m).safe =
    true := by
  unfold clearFaults
  repeat' (first
    | with_reducible assumption | with_reducible apply clearFault_safe
    | (with_reducible refine foldl_safe _ ?_ _ _ ?_) | (intro _ _ hh))

theorem releaseNow_safe (f : Func) (m : Module) (safe : m.safe = true) : (releaseNow f m).safe = true := by
  unfold releaseNow
  repeat' (first | with_reducible assumption | with_reducible apply unmarkRow1_safe | with_reducible apply record_safe | extract_lets | split | (simp only [safe_mk, coreOk_fold]) | with_reducible refine safe_choice ?_ ?_ | (dsimp +zetaDelta only))

theorem releaseWhatMay_safe (m : Module) (safe : m.safe = true) : (releaseWhatMay m).safe = true := by
  unfold releaseWhatMay
  repeat' (first
    | with_reducible assumption | (with_reducible refine foldl_safe _ ?_ _ _ ?_) | (intro _ _ hh) | extract_lets
    | split | (simp only [safe_mk, coreOk_fold]) | with_reducible refine safe_choice ?_ ?_ | (dsimp +zetaDelta only))

end Sys2Proof.Machine
end

