-- ==== Sys2Proof/Laws/Safe/Wire.lean ====
section
/-!
SUPPORT. The invariant is kept by every operation of Machine/Wire.lean.
-/

namespace Sys2Proof.Machine

theorem emit_safe (o : Out) (m : Module) (safe : m.safe = true) : (emit o m).safe = true := by
  unfold emit
  repeat' (first | with_reducible assumption | extract_lets | split | (simp only [safe_mk, coreOk_fold]) | with_reducible refine safe_choice ?_ ?_ | (dsimp +zetaDelta only))

theorem updCan_safe (p : Fin 4) (f : CanPort → CanPort) (m : Module) (safe : m.safe = true) : (updCan p f m).safe = true := by
  unfold updCan
  repeat' (first | with_reducible assumption | extract_lets | split | (simp only [safe_mk, coreOk_fold]) | with_reducible refine safe_choice ?_ ?_ | (dsimp +zetaDelta only))

theorem updSys_safe (f : System → System) (m : Module) (safe : m.safe = true) : (updSys f m).safe = true := by
  unfold updSys
  repeat' (first | with_reducible assumption | extract_lets | split | (simp only [safe_mk, coreOk_fold]) | with_reducible refine safe_choice ?_ ?_ | (dsimp +zetaDelta only))

theorem updIsobus_safe (f : Isobus → Isobus) (m : Module) (safe : m.safe = true) : (updIsobus f m).safe = true := by
  unfold updIsobus
  repeat' (first | with_reducible assumption | extract_lets | split | (simp only [safe_mk, coreOk_fold]) | with_reducible refine safe_choice ?_ ?_ | (dsimp +zetaDelta only))

theorem transmit_safe (k : Nat) (m : Module) (safe : m.safe = true) : (transmit k m).safe = true := by
  unfold transmit
  repeat' (first | with_reducible assumption | with_reducible apply strobe_safe | with_reducible apply crossWords_safe | extract_lets | split | (simp only [safe_mk, coreOk_fold]) | with_reducible refine safe_choice ?_ ?_ | (dsimp +zetaDelta only))

theorem offerFrame_safe (p : Fin 4) (lo hi : Nat) (h : FrameHead) (oneShot : Bool) (data : List Byte) (instant : Option Tick) (m : Module) (safe : m.safe = true) : (offerFrame p lo hi h oneShot data instant m).safe = true := by
  unfold offerFrame
  repeat' (first | with_reducible assumption | with_reducible apply updCan_safe | with_reducible apply transmit_safe | extract_lets | split | (simp only [safe_mk, coreOk_fold]) | with_reducible refine safe_choice ?_ ?_ | (dsimp +zetaDelta only))

theorem offer_safe (p : Fin 4) (lo hi ident : Nat) (oneShot : Bool) (data : List Byte) (instant : Option Tick) (m : Module) (safe : m.safe = true) : (offer p lo hi ident oneShot data instant m).safe = true := by
  unfold offer
  repeat' (first | with_reducible assumption | with_reducible apply offerFrame_safe | extract_lets | split | (simp only [safe_mk, coreOk_fold]) | with_reducible refine safe_choice ?_ ?_ | (dsimp +zetaDelta only))

theorem bumpSeq_safe (ident : Nat) (m : Module) (safe : m.safe = true) : (bumpSeq ident m).safe = true := by
  unfold bumpSeq
  repeat' (first | with_reducible assumption | with_reducible apply updSys_safe)

theorem offerAxle_safe (ident : Nat) (oneShot : Bool) (data : List Byte) (instant : Option Tick) (m : Module)
    (safe : m.safe = true) : (offerAxle ident oneShot data instant m).safe = true := by
  unfold offerAxle
  repeat' (first
    | with_reducible assumption | with_reducible apply bumpSeq_safe | with_reducible apply offer_safe | extract_lets
    | split)

theorem relayTo_safe (node : Nat) (words : List Word) (m : Module) (safe : m.safe = true) :
    (relayTo node words m).safe = true := by
  unfold relayTo
  repeat' (first
    | with_reducible assumption | with_reducible apply offerAxle_safe
    | (with_reducible refine foldl_safe _ ?_ _ _ ?_) | (intro _ _ hh))

theorem replyFromNode_safe (words : List Word) (m : Module) (safe : m.safe = true) : (replyFromNode words m).safe = true := by
  unfold replyFromNode
  repeat' (first | with_reducible assumption | with_reducible apply offerAxle_safe | (with_reducible refine foldl_safe _ ?_ _ _ ?_) | (intro _ _ hh) | extract_lets | split | (simp only [safe_mk, coreOk_fold]) | with_reducible refine safe_choice ?_ ?_ | (dsimp +zetaDelta only))

theorem replyOnCn1_safe (classical : Bool) (words : List Word) (m : Module) (safe : m.safe = true) : (replyOnCn1 classical words m).safe = true := by
  unfold replyOnCn1
  repeat' (first | with_reducible assumption | with_reducible apply offerFrame_safe | (with_reducible refine foldl_safe _ ?_ _ _ ?_) | (intro _ _ hh) | extract_lets | split | (simp only [safe_mk, coreOk_fold]) | with_reducible refine safe_choice ?_ ?_ | (dsimp +zetaDelta only))

theorem offerTp_safe (pf dest : Nat) (data : List Byte) (m : Module) (safe : m.safe = true) : (offerTp pf dest data m).safe = true := by
  unfold offerTp
  repeat' (first | with_reducible assumption | with_reducible apply offer_safe | extract_lets | split | (simp only [safe_mk, coreOk_fold]) | with_reducible refine safe_choice ?_ ?_ | (dsimp +zetaDelta only))

theorem openTp_safe (peer : Nat) (bytes : List Byte) (m : Module) (safe : m.safe = true) : (openTp peer bytes m).safe = true := by
  unfold openTp
  repeat' (first | with_reducible assumption | with_reducible apply offerTp_safe | with_reducible apply updIsobus_safe | extract_lets | split | (simp only [safe_mk, coreOk_fold]) | with_reducible refine safe_choice ?_ ?_ | (dsimp +zetaDelta only))

theorem replyOnCn0_safe (dest : Nat) (bytes : List Byte) (m : Module) (safe : m.safe = true) : (replyOnCn0 dest bytes m).safe = true := by
  unfold replyOnCn0
  repeat' (first | with_reducible assumption | with_reducible apply offer_safe | with_reducible apply updIsobus_safe | with_reducible apply openTp_safe | extract_lets | split | (simp only [safe_mk, coreOk_fold]) | with_reducible refine safe_choice ?_ ?_ | (dsimp +zetaDelta only))

theorem replyDatagram_safe (e : Fin 2) (dest : Nat) (v : Via) (words : List Word) (m : Module) (safe : m.safe = true) : (replyDatagram e dest v words m).safe = true := by
  unfold replyDatagram
  repeat' (first | with_reducible assumption | with_reducible apply emit_safe | with_reducible apply transmit_safe | extract_lets | split | (simp only [safe_mk, coreOk_fold]) | with_reducible refine safe_choice ?_ ?_ | (dsimp +zetaDelta only))

theorem sendPacket_safe (t : Transport) (dest : Nat) (v : Via) (ws : List Word) (m : Module) (safe : m.safe = true) : (sendPacket t dest v ws m).safe = true := by
  unfold sendPacket
  repeat' (first | with_reducible assumption | with_reducible apply updCan_safe | with_reducible apply replyOnCn0_safe | with_reducible apply replyOnCn1_safe | with_reducible apply replyFromNode_safe | with_reducible apply replyDatagram_safe | with_reducible apply emit_safe | with_reducible apply transmit_safe | extract_lets | split | (simp only [safe_mk, coreOk_fold]) | with_reducible refine safe_choice ?_ ?_ | (dsimp +zetaDelta only))

end Sys2Proof.Machine
end

