-- ==== Sys2Proof/Laws/Safe/Ops.lean ====
section
/-!
SUPPORT. The invariant is kept by every operation of Machine/Ops.lean.
-/

namespace Sys2Proof.Machine

/-- What a verdict would make of the module keeps the invariant. -/
def Verdict.safe : Verdict → Bool
  | .refuse _ _ => true
  | .done _ m => m.safe
  | .scheduled _ m => m.safe
  | .waits m => m.safe
  | .pends m => m.safe

theorem unlessFails_safe (c : Check) (v : Verdict) (h : v.safe = true) : (unlessFails c v).safe = true := by
  unfold unlessFails; split
  · rfl
  · exact h


theorem passTime_safe (dt : Nat) (m : Module) (safe : m.safe = true) : (passTime dt m).safe = true := by
  unfold passTime
  repeat' (first | with_reducible assumption | extract_lets | split | (simp only [safe_mk, coreOk_fold]))

theorem sendReply_safe (opcode : Nat) (h : Hdr) (count : Nat) (status detail : Nat) (data : List Word) (m : Module)
    (safe : m.safe = true) : (sendReply opcode h count status detail data m).safe = true := by
  unfold sendReply
  repeat' (first | with_reducible assumption | with_reducible apply sendPacket_safe)

theorem refuse_safe (opcode : Nat) (h : Hdr) (count : Nat) (st : Status) (detail : Nat) (m : Module)
    (safe : m.safe = true) : (refuse opcode h count st detail m).safe = true := by
  unfold refuse
  repeat' (first
    | with_reducible assumption | with_reducible apply sendReply_safe | extract_lets | split
    | (simp only [safe_mk, coreOk_fold]) | with_reducible refine safe_choice ?_ ?_ | (dsimp +zetaDelta only))

theorem countAccepted_safe (m : Module) (safe : m.safe = true) : (countAccepted m).safe = true := by
  unfold countAccepted
  repeat' (first
    | with_reducible assumption | extract_lets | split | (simp only [safe_mk, coreOk_fold])
    | with_reducible refine safe_choice ?_ ?_ | (dsimp +zetaDelta only))

theorem placeTimed_safe (opcode : Nat) (h : Hdr) (ws : List Word) (m : Module) (safe : m.safe = true)
    (room : m.interp.timed.length < 32) : (placeTimed opcode h ws m).safe = true := by
  unfold placeTimed
  rw [safe_mk]
  exact safe_withTimed safe (by simp [timedOk]; omega)

theorem nowOrTimed_safe (opcode : Nat) (h : Hdr) (ws : List Word) (m : Module) (effect : Module → Module)
    (safe : m.safe = true) (now : (effect m).safe = true) : (nowOrTimed opcode h ws m effect).safe = true := by
  unfold nowOrTimed
  split
  · split
    · rfl
    · exact placeTimed_safe _ _ _ _ safe (by omega)
  · exact now

theorem updDie_safe (d : Fin 46) (f : Die → Die) (m : Module) (safe : m.safe = true) : (updDie d f m).safe = true :=
    by
  unfold updDie
  repeat' (first | with_reducible assumption | extract_lets | split | (simp only [safe_mk, coreOk_fold]))

theorem updTraction_safe (c : Fin 2) (f : Traction → Traction) (m : Module) (safe : m.safe = true) :
    (updTraction c f m).safe = true := by
  unfold updTraction
  repeat' (first | with_reducible assumption | extract_lets | split | (simp only [safe_mk, coreOk_fold]))

theorem updFeedback_safe (p : Fin 6) (f : Feedback → Feedback) (m : Module) (safe : m.safe = true) :
    (updFeedback p f m).safe = true := by
  unfold updFeedback
  repeat' (first | with_reducible assumption | extract_lets | split | (simp only [safe_mk, coreOk_fold]))

theorem raisePort_safe (code : Nat) (p : Fin 6) (cond : Bool) (m : Module) (safe : m.safe = true) : (raisePort code p cond m).safe = true := by
  unfold raisePort
  repeat' (first | with_reducible assumption | with_reducible apply noteEvent_safe | with_reducible apply raise_safe | extract_lets | split | (simp only [safe_mk, coreOk_fold]) | with_reducible refine safe_choice ?_ ?_ | (dsimp +zetaDelta only))

theorem restartPort_safe (p : Fin 6) (new : Image) (m : Module) (safe : m.safe = true) : (restartPort p new m).safe = true := by
  unfold restartPort
  repeat' (first | with_reducible assumption | with_reducible apply updFeedback_safe | with_reducible apply endCond_safe | with_reducible apply raisePort_safe | (with_reducible refine foldl_safe _ ?_ _ _ ?_) | (intro _ _ hh) | extract_lets | split | (simp only [safe_mk, coreOk_fold]) | with_reducible refine safe_choice ?_ ?_ | (dsimp +zetaDelta only))

theorem restartPorts_safe (n : Fin 8) (old new : Image) (m : Module) (safe : m.safe = true) : (restartPorts n old new m).safe = true := by
  unfold restartPorts
  repeat' (first | with_reducible assumption | with_reducible apply restartPort_safe | with_reducible apply updFeedback_safe | (with_reducible refine foldl_safe _ ?_ _ _ ?_) | (intro _ _ hh) | extract_lets | split | (simp only [safe_mk, coreOk_fold]) | with_reducible refine safe_choice ?_ ?_ | (dsimp +zetaDelta only))

theorem updIsland_safe (i : Fin 36) (f : Island → Island) (m : Module) (safe : m.safe = true) :
    (updIsland i f m).safe = true := by
  unfold updIsland
  repeat' (first | with_reducible assumption | extract_lets | split | (simp only [safe_mk, coreOk_fold]))

theorem raiseLost_safe (m : Module) (safe : m.safe = true) : (raiseLost m).safe = true := by
  unfold raiseLost
  repeat' (first | with_reducible assumption | with_reducible apply raise_safe | (with_reducible refine foldl_safe _ ?_ _ _ ?_) | (intro _ _ hh) | extract_lets | split | (simp only [safe_mk, coreOk_fold]) | with_reducible refine safe_choice ?_ ?_ | (dsimp +zetaDelta only))

theorem followEnables_safe (m : Module) (safe : m.safe = true) : (followEnables m).safe = true := by
  unfold followEnables
  repeat' (first | with_reducible assumption | with_reducible apply raiseLost_safe | extract_lets | split | (simp only [safe_mk, coreOk_fold]) | with_reducible refine safe_choice ?_ ?_ | (dsimp +zetaDelta only))

theorem updActuator_safe (a : Fin 4) (f : Actuator → Actuator) (m : Module) (safe : m.safe = true) :
    (updActuator a f m).safe = true := by
  unfold updActuator
  repeat' (first | with_reducible assumption | extract_lets | split | (simp only [safe_mk, coreOk_fold]))

theorem updAfe_safe (a : Fin 2) (f : Afe → Afe) (m : Module) (safe : m.safe = true) : (updAfe a f m).safe = true := by
  unfold updAfe
  repeat' (first | with_reducible assumption | extract_lets | split | (simp only [safe_mk, coreOk_fold]))

theorem updEth_safe (e : Fin 2) (f : EthPort → EthPort) (m : Module) (safe : m.safe = true) : (updEth e f m).safe =
    true := by
  unfold updEth
  repeat' (first | with_reducible assumption | extract_lets | split | (simp only [safe_mk, coreOk_fold]))

theorem updNode_safe (n : Fin 16) (f : Node → Node) (m : Module) (safe : m.safe = true) : (updNode n f m).safe =
    true := by
  unfold updNode
  repeat' (first | with_reducible assumption | extract_lets | split | (simp only [safe_mk, coreOk_fold]))

theorem Module.withWaiting_safe (m : Module) (w : Waiting) (safe : m.safe = true) : (Module.withWaiting m w).safe = true := by
  unfold Module.withWaiting
  repeat' (first | with_reducible assumption | extract_lets | split | (simp only [safe_mk, coreOk_fold]) | with_reducible refine safe_choice ?_ ?_ | (dsimp +zetaDelta only))

theorem holdWrites_safe (i : Fin 22) (w : Waiting) (m : Module) (safe : m.safe = true) : (holdWrites i w m).safe = true := by
  unfold holdWrites
  repeat' (first | with_reducible assumption | with_reducible apply sendCommand_safe | with_reducible apply Module.withWaiting_safe | extract_lets | split | (simp only [safe_mk, coreOk_fold]) | with_reducible refine safe_choice ?_ ?_ | (dsimp +zetaDelta only))

theorem updScrubber_safe (s : Fin 5) (f : Scrubber → Scrubber) (m : Module) (safe : m.safe = true) :
    (updScrubber s f m).safe = true := by
  unfold updScrubber
  repeat' (first | with_reducible assumption | extract_lets | split | (simp only [safe_mk, coreOk_fold]))

theorem answer_safe (opcode : Nat) (h : Hdr) (count : Nat) (m : Module) (v : Verdict) (safe : m.safe = true)
    (good : v.safe = true) : (answer opcode h count m v).safe = true := by
  cases v with
  | refuse st d => exact refuse_safe _ _ _ _ _ _ safe
  | done data n => exact sendReply_safe _ _ _ _ _ _ _ (countAccepted_safe _ good)
  | scheduled data n => exact sendReply_safe _ _ _ _ _ _ _ (countAccepted_safe _ good)
  | waits n => exact countAccepted_safe _ good
  | pends n => exact good


end Sys2Proof.Machine
end

