-- ==== Sys2Proof/Laws/Safe/Epoch.lean ====
section
/-!
SUPPORT. The invariant is kept by every operation of Machine/Epoch.lean.
-/

namespace Sys2Proof.Machine

theorem updEpochs_safe (f : Epochs → Epochs) (m : Module) (safe : m.safe = true) : (updEpochs f m).safe = true := by
  unfold updEpochs
  repeat' (first | with_reducible assumption | extract_lets | split | (simp only [safe_mk, coreOk_fold]))

theorem openStaging_safe (h : Hdr) (ws : List Word) (m : Module) (safe : m.safe = true) : (openStaging h ws m).safe
    = true := by
  unfold openStaging
  repeat' (first
    | with_reducible assumption | with_reducible apply unlessFails_safe | with_reducible apply updEpochs_safe
    | with_reducible apply unlessFails_safe | extract_lets | split | simp only [Verdict.safe])

theorem discardStaged_safe (h : Hdr) (ws : List Word) (m : Module) (safe : m.safe = true) :
    (discardStaged h ws m).safe = true := by
  unfold discardStaged
  repeat' (first
    | with_reducible assumption | with_reducible apply unlessFails_safe | with_reducible apply updEpochs_safe
    | with_reducible apply unlessFails_safe | extract_lets | split | simp only [Verdict.safe])

theorem stageParam_safe (h : Hdr) (ws : List Word) (m : Module) (safe : m.safe = true) : (stageParam h ws m).safe =
    true := by
  unfold stageParam
  repeat' (first
    | with_reducible assumption | with_reducible apply unlessFails_safe | with_reducible apply updEpochs_safe
    | with_reducible apply unlessFails_safe | extract_lets | split | simp only [Verdict.safe])

theorem stageLaunch_safe (h : Hdr) (ws : List Word) (m : Module) (safe : m.safe = true) : (stageLaunch h ws m).safe
    = true := by
  unfold stageLaunch
  repeat' (first
    | with_reducible assumption | with_reducible apply unlessFails_safe | with_reducible apply updEpochs_safe
    | with_reducible apply unlessFails_safe | (with_reducible refine foldl_safe _ ?_ _ _ ?_) | (intro _ _ hh)
    | extract_lets | split | simp only [Verdict.safe])

theorem readLaunch_safe (h : Hdr) (ws : List Word) (m : Module) (safe : m.safe = true) : (readLaunch h ws m).safe =
    true := by
  unfold readLaunch
  repeat' (first
    | with_reducible assumption | with_reducible apply unlessFails_safe | with_reducible apply unlessFails_safe
    | extract_lets | split | simp only [Verdict.safe])

theorem makePending_safe (revert : Bool) (instant : Tick) (wide : Bool) (m : Module) (safe : m.safe = true) :
    (makePending revert instant wide m).safe = true := by
  unfold makePending
  repeat' (first
    | with_reducible assumption | with_reducible apply updEpochs_safe | with_reducible apply raise_safe
    | extract_lets | split)

theorem commitOrRevert_safe (revert : Bool) (h : Hdr) (ws : List Word) (m : Module) (safe : m.safe = true) :
    (commitOrRevert revert h ws m).safe = true := by
  unfold commitOrRevert
  repeat' (first
    | with_reducible assumption | with_reducible apply unlessFails_safe | with_reducible apply updEpochs_safe
    | with_reducible apply relayTo_safe | with_reducible apply makePending_safe
    | with_reducible apply unlessFails_safe | (with_reducible refine foldl_safe _ ?_ _ _ ?_) | (intro _ _ hh)
    | extract_lets | split | simp only [Verdict.safe] | (simp only [safe_mk, coreOk_fold])
    | with_reducible refine safe_choice ?_ ?_ | (dsimp +zetaDelta only))

theorem epochConfirm_safe (h : Hdr) (ws : List Word) (m : Module) (safe : m.safe = true) :
    (epochConfirm h ws m).safe = true := by
  unfold epochConfirm
  repeat' (first
    | with_reducible assumption | with_reducible apply unlessFails_safe | with_reducible apply refuse_safe
    | with_reducible apply makePending_safe | with_reducible apply updEpochs_safe
    | with_reducible apply unlessFails_safe | extract_lets | split | simp only [Verdict.safe])

theorem clampLive_safe (m : Module) (safe : m.safe = true) : (clampLive m).safe = true := by
  unfold clampLive
  repeat' (first | with_reducible assumption | extract_lets | split | (simp only [safe_mk, coreOk_fold]))

theorem settlePending_safe (m : Module) (safe : m.safe = true) : (settlePending m).safe = true := by
  unfold settlePending
  repeat' (first | with_reducible assumption | with_reducible apply updEpochs_safe | extract_lets | split)

theorem configure_safe (m : Module) (safe : m.safe = true) : (configure m).safe = true := by
  unfold configure
  repeat' (first | with_reducible assumption | with_reducible apply sendCommand_safe | extract_lets | split | (simp only [safe_mk, coreOk_fold]) | with_reducible refine safe_choice ?_ ?_ | (dsimp +zetaDelta only))

theorem switchEpoch_safe (m : Module) (safe : m.safe = true) : (switchEpoch m).safe = true := by
  have k : ∀ (f : Epochs → Epochs),
      (updEpochs f { m with regions := m.regions.map (fun r => if r.alive then r else r.clearSlack) }).safe = true := by
    intro f
    apply updEpochs_safe
    rw [safe_mk]
    refine safe_withRegions (m := m) safe (regionsOk_map (safe_regions safe) _ fun r hr => ?_)
    split
    · exact hr
    · exact Region.clearSlack_sound _ hr
  unfold switchEpoch
  split
  · exact safe
  · split
    · exact safe
    · extract_lets old slot new m1 mode ports
      have hm : ∀ c x, x.safe = true → (mode c x).safe = true := by
        intro c x hx
        simp only [mode]
        split <;> exact hx
      apply settlePending_safe
      apply configure_safe
      apply followEnables_safe
      simp only [ports]
      refine foldl_safe _ (fun x n hx => restartPorts_safe _ _ _ _ hx) _ _ (hm _ _ (hm _ _ ?_))
      split
      · exact k _
      · exact clampLive_safe _ (k _)

theorem flashDone_safe (m : Module) (safe : m.safe = true) : (flashDone m).safe = true := by
  unfold flashDone
  repeat' (first | with_reducible assumption | with_reducible apply updEpochs_safe | extract_lets | split)

theorem flashFail_safe (m : Module) (safe : m.safe = true) : (flashFail m).safe = true := by
  unfold flashFail
  repeat' (first
    | with_reducible assumption | with_reducible apply raise_safe | with_reducible apply updEpochs_safe
    | extract_lets | split)

theorem resolveWaiting_safe (opcodes : List Nat) (target : Nat → Bool) (status detail : Nat) (data : List Word)
    (m : Module) (safe : m.safe = true) : (resolveWaiting opcodes target status detail data m).safe = true := by
  unfold resolveWaiting
  repeat' (first
    | with_reducible assumption | extract_lets | split | (simp only [safe_mk, coreOk_fold])
    | with_reducible refine safe_choice ?_ ?_ | (dsimp +zetaDelta only))

theorem commitVote_safe (m : Module) (safe : m.safe = true) : (commitVote m).safe = true := by
  unfold commitVote
  repeat' (first
    | with_reducible assumption | with_reducible apply relayTo_safe | with_reducible apply resolveWaiting_safe
    | with_reducible apply makePending_safe | with_reducible apply updEpochs_safe | with_reducible apply raise_safe
    | (with_reducible refine foldl_safe _ ?_ _ _ ?_) | (intro _ _ hh) | extract_lets | split)

theorem confirmDeadline_safe (m : Module) (safe : m.safe = true) : (confirmDeadline m).safe = true := by
  unfold confirmDeadline
  repeat' (first | with_reducible assumption | with_reducible apply updEpochs_safe | extract_lets | split)

end Sys2Proof.Machine
end

