-- ==== Sys2Proof/Laws/Safe/Fabric.lean ====
section
/-!
SUPPORT. The invariant is kept by every operation of Machine/Fabric.lean.
-/

namespace Sys2Proof.Machine

theorem Region.updRec_sound (r : Region) (e : Nat) (f : EntryRec → EntryRec) (h : r.sound = true) :
    (r.updRec e f).sound = true := by
  unfold Region.updRec
  rw [sound_mk, sound_fold]
  exact h

theorem Region.restart_sound (r : Region) (h : r.sound = true) : r.restart.sound = true := by
  unfold Region.restart
  first | rfl | (rw [sound_mk, sound_fold]; exact h)

theorem Region.stop_sound (r : Region) (h : r.sound = true) : r.stop.sound = true := by
  unfold Region.stop
  first | rfl | (rw [sound_mk, sound_fold]; exact h)


theorem mapRegions_safe (d : Nat) (f : Region → Region) (m : Module) (safe : m.safe = true)
    (good : ∀ r : Region, r.sound = true → (f r).sound = true) : (mapRegions d f m).safe = true := by
  unfold mapRegions
  rw [safe_mk]
  refine safe_withRegions (m := m) safe (regionsOk_ofFn _ fun n => ?_)
  split
  · exact good _ (safe_region safe n)
  · exact safe_region safe n


theorem Saved.view_safe (s : Saved) (m : Module) (safe : m.safe = true) : (Saved.view s m).safe = true := by
  unfold Saved.view
  repeat' (first | with_reducible assumption | extract_lets | split | (simp only [safe_mk, coreOk_fold]))

theorem restoreCarried_safe (n : Fin 8) (c : Saved) (m : Module) (safe : m.safe = true) :
    (restoreCarried n c m).safe = true := by
  unfold restoreCarried
  repeat' (first
    | with_reducible assumption | with_reducible apply updTraction_safe | extract_lets | split
    | (simp only [safe_mk, coreOk_fold]) | with_reducible refine safe_choice ?_ ?_ | (dsimp +zetaDelta only))

theorem keepCheckpoint_safe (n : Fin 8) (m : Module) (safe : m.safe = true) : (keepCheckpoint n m).safe = true := by
  unfold keepCheckpoint
  repeat' (first | with_reducible assumption | extract_lets | split | (simp only [safe_mk, coreOk_fold]))

theorem tapToggle_safe (n : Fin 8) (m : Module) (safe : m.safe = true) : (tapToggle n m).safe = true := by
  unfold tapToggle
  repeat' (first | with_reducible assumption | with_reducible apply strobe_safe | extract_lets | split | (simp only [safe_mk, coreOk_fold]) | with_reducible refine safe_choice ?_ ?_ | (dsimp +zetaDelta only))

theorem startInstance_safe (n : Fin 8) (e : Nat) (w0 w1 : Word) (m : Module) (safe : m.safe = true) :
    (startInstance n e w0 w1 m).safe = true := by
  unfold startInstance
  repeat' (first
    | with_reducible assumption | with_reducible apply launch_safe | with_reducible apply updRegion_safe
    | with_reducible apply tapToggle_safe | with_reducible apply beginUnits_sound | (intro _ hr)
    | (simp only [sound_mk, sound_fold]) | extract_lets | split)

theorem launch_safe (n : Fin 8) (e : Nat) (m : Module) (safe : m.safe = true) : (launch n e m).safe = true := by
  unfold launch
  repeat' (first
    | with_reducible assumption | with_reducible apply updRegion_safe | with_reducible apply startInstance_safe
    | (intro _ hr) | (simp only [sound_mk, sound_fold]) | extract_lets | split)

theorem sampleArrives_safe (n : Fin 8) (key : Nat) (w : Word) (m : Module) (safe : m.safe = true) :
    (sampleArrives n key w m).safe = true := by
  unfold sampleArrives
  repeat' (first
    | with_reducible assumption | with_reducible apply updRegion_safe | (intro _ hr)
    | (simp only [sound_mk, sound_fold]))

theorem request_safe (n : Fin 8) (input : Nat) (e : Nat × Tick) (item : Item) (m : Module) (safe : m.safe = true) :
    (request n input e item m).safe = true := by
  unfold request
  repeat' (first
    | with_reducible assumption | with_reducible apply updRegion_safe | (intro _ hr)
    | (simp only [sound_mk, sound_fold]) | extract_lets | split)

theorem accept_safe (n : Fin 8) (m : Module) (safe : m.safe = true) : (accept n m).safe = true := by
  unfold accept
  repeat' (first
    | with_reducible assumption | with_reducible apply updRegion_safe | (intro _ hr)
    | (simp only [sound_mk, sound_fold]) | extract_lets | split)

theorem noteSlack_safe (n : Fin 8) (samples : List Nat) (i : Instance) (m : Module) (safe : m.safe = true) :
    (noteSlack n samples i m).safe = true := by
  unfold noteSlack
  repeat' (first
    | with_reducible assumption | with_reducible apply updRegion_safe | with_reducible apply raise_safe
    | with_reducible apply Region.updRec_sound | (intro _ hr) | (simp only [sound_mk, sound_fold]) | extract_lets
    | split)

theorem countOutcome_safe (n : Fin 8) (i : Instance) (o : Outcome) (m : Module) (safe : m.safe = true) :
    (countOutcome n i o m).safe = true := by
  unfold countOutcome
  extract_lets m1 m2 m3
  have h1 : m1.safe = true := by
    refine updRegion_safe _ _ (fun r hr => ?_) safe
    extract_lets r1 r2 r3
    have k1 : r1.sound = true := by
      simp only [r1]
      split <;> first | exact hr | (rw [sound_mk, sound_fold]; exact hr)
    have k2 : r2.sound = true := by
      simp only [r2]
      split
      · rw [sound_mk, sound_fold]; exact k1
      · exact k1
    have k3 : r3.sound = true := by
      simp only [r3]
      split
      · rw [sound_mk, sound_fold]; exact k2
      · exact k2
    repeat' split
    · exact Region.updRec_sound _ _ _ k3
    · exact Region.updRec_sound _ _ _ k3
    · exact k3
  have h2 : m2.safe = true := by
    simp only [m2]
    split
    · exact raise_safe _ _ _ _ h1
    · exact h1
  have h3 : m3.safe = true := by
    simp only [m3]
    split
    · exact raise_safe _ _ _ _ h2
    · exact h2
  split
  · exact endCond_safe _ _ h3
  · exact h3


theorem rollback_safe (n : Fin 8) (m : Module) (safe : m.safe = true) : (rollback n m).safe = true := by
  unfold rollback
  repeat' (first
    | with_reducible assumption | with_reducible apply updRegion_safe | with_reducible apply restoreCarried_safe
    | with_reducible apply Region.release_sound | with_reducible apply reload_sound | (intro _ hr)
    | (simp only [sound_mk, sound_fold]) | with_reducible exact sound_empty | with_reducible apply sound_taken
    | with_reducible apply sound_memory | with_reducible apply sound_kept | extract_lets | split
    | (simp only [safe_mk, coreOk_fold]))

/-- Staged writes stay inside region memory and keep its form. -/
theorem wf_foldl_memWrite (ws : List Deliver) (good : ∀ d ∈ ws, d.place < regionWords) :
    ∀ mem : List (Nat × Word), Memory.wf mem = true →
      Memory.wf (ws.foldl (fun mm d => memWrite d.place d.value mm) mem) = true := by
  induction ws with
  | nil => intro mem h; exact h
  | cons d ws ih =>
    intro mem h
    exact ih (fun e he => good e (List.mem_cons_of_mem _ he)) _ (wf_memWrite (good d List.mem_cons_self) h)

theorem applyStaged_safe (n : Fin 8) (i : Instance) (m : Module) (safe : m.safe = true) :
    (applyStaged n i m).safe = true := by
  unfold applyStaged
  refine updRegion_safe _ _ (fun r hr => ?_) safe
  extract_lets ws mem
  have k := hr
  simp only [Region.sound, Bool.and_eq_true] at k
  have w : Memory.wf mem = true := wf_foldl_memWrite ws (fun d hd => by
    simp only [ws, List.mem_filter, Bool.and_eq_true, decide_eq_true_eq] at hd; exact hd.2.2) r.memory k.1.1
  rw [sound_mk]
  split
  · simp only [w, wf_carriedPart w, carriedPart_all, Bool.and_self]
  · simp only [w, k.1.2, k.2, Bool.and_self]


theorem keepOutputs_safe (n : Fin 8) (i : Instance) (m : Module) (safe : m.safe = true) : (keepOutputs n i m).safe =
    true := by
  unfold keepOutputs
  repeat' (first
    | with_reducible assumption | with_reducible apply updRegion_safe | with_reducible apply Region.updRec_sound
    | (intro _ hr))

theorem windowsEnd_safe (m : Module) (safe : m.safe = true) : (windowsEnd m).safe = true := by
  unfold windowsEnd
  rw [safe_mk]
  refine safe_withRegions (m := m) safe (regionsOk_map (safe_regions safe) _ fun r hr => ?_)
  rw [sound_mk, sound_fold]
  exact hr


theorem windowBegin_safe (m : Module) (safe : m.safe = true) : (windowBegin m).safe = true := by
  unfold windowBegin
  repeat' (first
    | with_reducible assumption | with_reducible apply windowsEnd_safe | extract_lets | split
    | (simp only [safe_mk, coreOk_fold]))

theorem checkRate_safe (n : Fin 8) (m : Module) (safe : m.safe = true) : (checkRate n m).safe = true := by
  unfold checkRate
  repeat' (first
    | with_reducible assumption | with_reducible apply raise_safe | with_reducible apply updRegion_safe
    | (intro _ hr) | (simp only [sound_mk, sound_fold]) | extract_lets | split)

theorem unitStuck_safe (n : Fin 8) (u : Fin 16) (m : Module) (safe : m.safe = true) : (unitStuck n u m).safe = true
    := by
  unfold unitStuck
  repeat' (first
    | with_reducible assumption | with_reducible apply raise_safe | with_reducible apply updRegion_safe
    | (intro _ hr) | (simp only [sound_mk, sound_fold]))

theorem readSlackV_safe (h : Hdr) (ws : List Word) (m : Module) (safe : m.safe = true) : (readSlackV h ws m).safe =
    true := by
  unfold readSlackV
  repeat' (first
    | with_reducible assumption | with_reducible apply unlessFails_safe | with_reducible apply updRegion_safe
    | with_reducible apply unlessFails_safe | (intro _ hr) | (simp only [sound_mk, sound_fold]) | extract_lets
    | split | simp only [Verdict.safe])

end Sys2Proof.Machine
end

