-- ==== Sys2Proof/Laws/Safe/Traction.lean ====
section
/-!
SUPPORT. The invariant is kept by every operation of Machine/Traction.lean.
-/

namespace Sys2Proof.Machine

theorem notePhases_safe (c : Fin 2) (m : Module) (safe : m.safe = true) : (notePhases c m).safe = true := by
  unfold notePhases
  repeat' (first | with_reducible assumption | with_reducible apply updTraction_safe | extract_lets | split | (simp only [safe_mk, coreOk_fold]) | with_reducible refine safe_choice ?_ ?_ | (dsimp +zetaDelta only))

theorem noteSample_safe (n : Fin 8) (key : Nat) (m : Module) (safe : m.safe = true) : (noteSample n key m).safe = true := by
  unfold noteSample
  repeat' (first | with_reducible assumption | with_reducible apply updTraction_safe | with_reducible apply notePhases_safe | extract_lets | split | (simp only [safe_mk, coreOk_fold]) | with_reducible refine safe_choice ?_ ?_ | (dsimp +zetaDelta only))

theorem commitDecision_safe (c : Fin 2) (period : Nat) (branch : Option Nat) (vdc : Word) (v m : Module) (safe : m.safe = true) : (commitDecision c period branch vdc v m).safe = true := by
  unfold commitDecision
  repeat' (first | with_reducible assumption | with_reducible apply updTraction_safe | extract_lets | split | (simp only [safe_mk, coreOk_fold]) | with_reducible refine safe_choice ?_ ?_ | (dsimp +zetaDelta only))

theorem fallbackDecision_safe (c : Fin 2) (m : Module) (safe : m.safe = true) : (fallbackDecision c m).safe = true
    := by
  unfold fallbackDecision
  repeat' (first | with_reducible assumption | with_reducible apply updTraction_safe)

theorem commitLatch_safe (c : Fin 2) (period : Nat) (v m : Module) (safe : m.safe = true) :
    (commitLatch c period v m).safe = true := by
  unfold commitLatch
  repeat' (first | with_reducible assumption | with_reducible apply updTraction_safe)

theorem commitStatistics_safe (c : Fin 2) (v m : Module) (safe : m.safe = true) : (commitStatistics c v m).safe =
    true := by
  unfold commitStatistics
  repeat' (first | with_reducible assumption | with_reducible apply updTraction_safe)

theorem flyingStart_safe (c : Fin 2) (m : Module) (safe : m.safe = true) : (flyingStart c m).safe = true := by
  unfold flyingStart
  repeat' (first | with_reducible assumption | with_reducible apply updTraction_safe | extract_lets | split | (simp only [safe_mk, coreOk_fold]) | with_reducible refine safe_choice ?_ ?_ | (dsimp +zetaDelta only))

theorem endStart_safe (c : Fin 2) (o : Nat × Word × Word) (m : Module) (safe : m.safe = true) :
    (endStart c o m).safe = true := by
  unfold endStart
  repeat' (first | with_reducible assumption | with_reducible apply updTraction_safe)

theorem startUpdate_safe (c : Fin 2) (v m : Module) (safe : m.safe = true) : (startUpdate c v m).safe = true := by
  unfold startUpdate
  repeat' (first
    | with_reducible assumption | with_reducible apply endStart_safe | with_reducible apply updTraction_safe
    | extract_lets | split)

theorem checkOverspeed_safe (c : Fin 2) (v m : Module) (safe : m.safe = true) : (checkOverspeed c v m).safe = true := by
  unfold checkOverspeed
  repeat' (first | with_reducible assumption | with_reducible apply raise_safe | with_reducible apply endCond_safe | extract_lets | split | (simp only [safe_mk, coreOk_fold]) | with_reducible refine safe_choice ?_ ?_ | (dsimp +zetaDelta only))

theorem commitReference_safe (c : Fin 2) (period : Nat) (v m : Module) (safe : m.safe = true) : (commitReference c period v m).safe = true := by
  unfold commitReference
  repeat' (first | with_reducible assumption | with_reducible apply updTraction_safe | with_reducible apply checkOverspeed_safe | with_reducible apply startUpdate_safe | with_reducible apply raise_safe | with_reducible apply endCond_safe | extract_lets | split | (simp only [safe_mk, coreOk_fold]) | with_reducible refine safe_choice ?_ ?_ | (dsimp +zetaDelta only))

theorem takeLoop_safe (c : Fin 2) (m : Module) (safe : m.safe = true) : (takeLoop c m).safe = true := by
  unfold takeLoop
  repeat' (first
    | with_reducible assumption | with_reducible apply keepCheckpoint_safe | with_reducible apply updTraction_safe
    | extract_lets | split)

theorem positionLost_safe (c : Fin 2) (m : Module) (safe : m.safe = true) : (positionLost c m).safe = true := by
  unfold positionLost
  repeat' (first | with_reducible assumption | with_reducible apply updTraction_safe | extract_lets | split)

theorem plausFault_safe (c : Fin 2) (k : TrCheck) (m : Module) (safe : m.safe = true) : (plausFault c k m).safe =
    true := by
  unfold plausFault
  repeat' (first | with_reducible assumption | with_reducible apply raise_safe | extract_lets | split)

theorem plausCheck_safe (c : Fin 2) (k : TrCheck) (v m : Module) (safe : m.safe = true) : (plausCheck c k v m).safe
    = true := by
  unfold plausCheck
  repeat' (first
    | with_reducible assumption | with_reducible apply updTraction_safe | with_reducible apply endCond_safe
    | with_reducible apply plausFault_safe | extract_lets | split)

theorem plausPredict_safe (c : Fin 2) (v m : Module) (safe : m.safe = true) : (plausPredict c v m).safe = true := by
  unfold plausPredict
  repeat' (first | with_reducible assumption | with_reducible apply updTraction_safe)

theorem commitPlausTraction_safe (v m : Module) (safe : m.safe = true) : (commitPlausTraction v m).safe = true := by
  unfold commitPlausTraction
  repeat' (first
    | with_reducible assumption | with_reducible apply plausPredict_safe | with_reducible apply plausCheck_safe
    | (with_reducible refine foldl_safe _ ?_ _ _ ?_) | (intro _ _ hh))

theorem preselect_safe (c : Fin 2) (m : Module) (safe : m.safe = true) : (preselect c m).safe = true := by
  unfold preselect
  repeat' (first | with_reducible assumption | with_reducible apply updTraction_safe)

theorem preselectAll_safe (m : Module) (safe : m.safe = true) : (preselectAll m).safe = true := by
  unfold preselectAll
  repeat' (first | with_reducible assumption | with_reducible apply preselect_safe)

theorem reevaluate_safe (c : Fin 2) (m : Module) (safe : m.safe = true) : (reevaluate c m).safe = true := by
  unfold reevaluate
  repeat' (first
    | with_reducible assumption | with_reducible apply updTraction_safe | with_reducible apply putPattern_safe
    | extract_lets | split | (simp only [safe_mk, coreOk_fold]) | with_reducible refine safe_choice ?_ ?_
    | (dsimp +zetaDelta only))

theorem writePattern_safe (c : Fin 2) (m : Module) (safe : m.safe = true) : (writePattern c m).safe = true := by
  unfold writePattern
  repeat' (first | with_reducible assumption | with_reducible apply updTraction_safe)

theorem setMode_safe (c : Fin 2) (speed : Bool) (m : Module) (safe : m.safe = true) : (setMode c speed m).safe =
    true := by
  unfold setMode
  repeat' (first | with_reducible assumption | with_reducible apply updTraction_safe)

end Sys2Proof.Machine
end

