-- ==== Sys2Proof/Laws/Safe/Converter.lean ====
section
/-!
SUPPORT. The invariant is kept by every operation of Machine/Converter.lean.
-/

namespace Sys2Proof.Machine

theorem takeDcSamples_safe (m : Module) (safe : m.safe = true) : (takeDcSamples m).safe = true := by
  unfold takeDcSamples
  repeat' (first | with_reducible assumption | extract_lets | split | (simp only [safe_mk, coreOk_fold]))

theorem showDc_safe (m : Module) (safe : m.safe = true) : (showDc m).safe = true := by
  unfold showDc
  repeat' (first | with_reducible assumption | extract_lets | split | (simp only [safe_mk, coreOk_fold]) | with_reducible refine safe_choice ?_ ?_ | (dsimp +zetaDelta only))

theorem regulateDc_safe (period : Nat) (v m : Module) (safe : m.safe = true) : (regulateDc period v m).safe = true := by
  unfold regulateDc
  repeat' (first | with_reducible assumption | with_reducible apply takeDcSamples_safe | extract_lets | split | (simp only [safe_mk, coreOk_fold]) | with_reducible refine safe_choice ?_ ?_ | (dsimp +zetaDelta only))

theorem commitDc_safe (period : Nat) (v m : Module) (safe : m.safe = true) : (commitDc period v m).safe = true := by
  unfold commitDc
  repeat' (first | with_reducible assumption | with_reducible apply regulateDc_safe | with_reducible apply showDc_safe | with_reducible apply takeDcSamples_safe | extract_lets | split | (simp only [safe_mk, coreOk_fold]) | with_reducible refine safe_choice ?_ ?_ | (dsimp +zetaDelta only))

theorem takeDc_safe (m : Module) (safe : m.safe = true) : (takeDc m).safe = true := by
  unfold takeDc
  repeat' (first
    | with_reducible assumption | with_reducible apply keepCheckpoint_safe | extract_lets | split
    | (simp only [safe_mk, coreOk_fold]))

theorem cycleStart_safe (j : Fin 4) (m : Module) (safe : m.safe = true) : (cycleStart j m).safe = true := by
  unfold cycleStart
  repeat' (first | with_reducible assumption | extract_lets | split | (simp only [safe_mk, coreOk_fold]))

theorem diTrip_safe (j : Fin 4) (levels : List Word) (m : Module) (safe : m.safe = true) : (diTrip j levels m).safe
    = true := by
  unfold diTrip
  repeat' (first
    | with_reducible assumption | with_reducible apply noteEvent_safe | extract_lets | split
    | (simp only [safe_mk, coreOk_fold]))

theorem dutyMaxEnd_safe (j : Fin 4) (m : Module) (safe : m.safe = true) : (dutyMaxEnd j m).safe = true := by
  unfold dutyMaxEnd
  repeat' (first | with_reducible assumption | extract_lets | split | (simp only [safe_mk, coreOk_fold]))

theorem endDcExport_safe (m : Module) (safe : m.safe = true) : (endDcExport m).safe = true := by
  unfold endDcExport
  repeat' (first | with_reducible assumption | extract_lets | split | (simp only [safe_mk, coreOk_fold]))

theorem dcExportEnd_safe (k : OutletEnd) (m : Module) (safe : m.safe = true) : (dcExportEnd k m).safe = true := by
  unfold dcExportEnd
  repeat' (first
    | with_reducible assumption | with_reducible apply raise_safe | with_reducible apply endDcExport_safe
    | extract_lets | split)

theorem enableIslands_safe (p : Nat → Bool) (m : Module) (safe : m.safe = true) : (enableIslands p m).safe = true :=
    by
  unfold enableIslands
  repeat' (first | with_reducible assumption | extract_lets | split | (simp only [safe_mk, coreOk_fold]))

theorem endOutletConds_safe (m : Module) (safe : m.safe = true) : (endOutletConds m).safe = true := by
  unfold endOutletConds
  repeat' (first
    | with_reducible assumption | with_reducible apply endCond_safe | extract_lets | split
    | (simp only [safe_mk, coreOk_fold]) | with_reducible refine safe_choice ?_ ?_)

theorem commitSupervision_safe (v m : Module) (safe : m.safe = true) : (commitSupervision v m).safe = true := by
  unfold commitSupervision
  repeat' (first | with_reducible assumption | with_reducible apply showDc_safe | with_reducible apply endOutletConds_safe | with_reducible apply enableIslands_safe | extract_lets | split | (simp only [safe_mk, coreOk_fold]) | with_reducible refine safe_choice ?_ ?_ | (dsimp +zetaDelta only))

theorem openCheck_safe (duty : Word) (sw : Nat) (vdc : Word) (current : Option Word) (m : Module)
    (safe : m.safe = true) : (openCheck duty sw vdc current m).safe = true := by
  unfold openCheck
  repeat' (first
    | with_reducible assumption | with_reducible apply raise_safe | extract_lets | split
    | (simp only [safe_mk, coreOk_fold]) | with_reducible refine safe_choice ?_ ?_ | (dsimp +zetaDelta only))

theorem resistorModel_safe (duty vdc : Word) (m : Module) (safe : m.safe = true) : (resistorModel duty vdc m).safe =
    true := by
  unfold resistorModel
  repeat' (first | with_reducible assumption | extract_lets | split | (simp only [safe_mk, coreOk_fold]))

theorem takeEnded_safe (m : Module) (safe : m.safe = true) : (takeEnded m).safe = true := by
  unfold takeEnded
  repeat' (first
    | with_reducible assumption | with_reducible apply openCheck_safe | with_reducible apply resistorModel_safe
    | (with_reducible refine foldl_safe _ ?_ _ _ ?_) | (intro _ _ hh) | extract_lets | split
    | (simp only [safe_mk, coreOk_fold]))

theorem commitChopper_safe (v m : Module) (safe : m.safe = true) : (commitChopper v m).safe = true := by
  unfold commitChopper
  repeat' (first
    | with_reducible assumption | with_reducible apply takeEnded_safe | with_reducible apply raise_safe
    | with_reducible apply endCond_safe | extract_lets | split | (simp only [safe_mk, coreOk_fold])
    | with_reducible refine safe_choice ?_ ?_ | (dsimp +zetaDelta only))

theorem chopperPeriod_safe (vdc : Word) (current : Option Word) (m : Module) (safe : m.safe = true) :
    (chopperPeriod vdc current m).safe = true := by
  unfold chopperPeriod
  repeat' (first | with_reducible assumption | extract_lets | split | (simp only [safe_mk, coreOk_fold]))

theorem noteLink_safe (code : Nat) (m : Module) (safe : m.safe = true) : (noteLink code m).safe = true := by
  unfold noteLink
  repeat' (first | with_reducible assumption | with_reducible apply setCond_safe | with_reducible apply endCond_safe | extract_lets | split | (simp only [safe_mk, coreOk_fold]) | with_reducible refine safe_choice ?_ ?_ | (dsimp +zetaDelta only))

theorem chopperShort_safe (m : Module) (safe : m.safe = true) : (chopperShort m).safe = true := by
  unfold chopperShort
  repeat' (first
    | with_reducible assumption | with_reducible apply raise_safe | extract_lets | split
    | (simp only [safe_mk, coreOk_fold]))

theorem dclOv1_safe (m : Module) (safe : m.safe = true) : (dclOv1 m).safe = true := by
  unfold dclOv1
  repeat' (first | with_reducible assumption | with_reducible apply raise_safe | extract_lets | split)

theorem dclOv2_safe (m : Module) (safe : m.safe = true) : (dclOv2 m).safe = true := by
  unfold dclOv2
  repeat' (first | with_reducible assumption | with_reducible apply raise_safe | extract_lets | split)

theorem chopperBackstop_safe (m : Module) (safe : m.safe = true) : (chopperBackstop m).safe = true := by
  unfold chopperBackstop
  repeat' (first | with_reducible assumption | extract_lets | split | (simp only [safe_mk, coreOk_fold]))

theorem clearChopperMarks_safe (m : Module) (safe : m.safe = true) : (clearChopperMarks m).safe = true := by
  unfold clearChopperMarks
  repeat' (first | with_reducible assumption | extract_lets | split | (simp only [safe_mk, coreOk_fold]))

end Sys2Proof.Machine
end

