-- ==== Sys2Proof/Laws/Safe/Charger.lean ====
section
/-!
SUPPORT. The invariant is kept by every operation of Machine/Charger.lean.
-/

namespace Sys2Proof.Machine

theorem updCharger_safe (f : Charger → Charger) (m : Module) (safe : m.safe = true) : (updCharger f m).safe = true
    := by
  unfold updCharger
  repeat' (first | with_reducible assumption | extract_lets | split | (simp only [safe_mk, coreOk_fold]))

theorem noteSource_safe (m : Module) (safe : m.safe = true) : (noteSource m).safe = true := by
  unfold noteSource
  repeat' (first | with_reducible assumption | with_reducible apply updCharger_safe)

theorem enterState_safe (s : Nat) (m : Module) (safe : m.safe = true) : (enterState s m).safe = true := by
  unfold enterState
  repeat' (first | with_reducible assumption | with_reducible apply updCharger_safe)

theorem toIdle_safe (m : Module) (safe : m.safe = true) : (toIdle m).safe = true := by
  unfold toIdle
  repeat' (first
    | with_reducible assumption | with_reducible apply enterState_safe | with_reducible apply updCharger_safe)

theorem toWait_safe (m : Module) (safe : m.safe = true) : (toWait m).safe = true := by
  unfold toWait
  repeat' (first
    | with_reducible assumption | with_reducible apply enterState_safe | with_reducible apply updCharger_safe)

theorem startHandover_safe (atOnce ending : Bool) (m : Module) (safe : m.safe = true) :
    (startHandover atOnce ending m).safe = true := by
  unfold startHandover
  repeat' (first
    | with_reducible assumption | with_reducible apply enterState_safe | with_reducible apply updCharger_safe)

theorem stopSession_safe (m : Module) (safe : m.safe = true) : (stopSession m).safe = true := by
  unfold stopSession
  repeat' (first
    | with_reducible assumption | with_reducible apply startHandover_safe | with_reducible apply updCharger_safe
    | with_reducible apply toIdle_safe | extract_lets | split)

theorem stopExport_safe (m : Module) (safe : m.safe = true) : (stopExport m).safe = true := by
  unfold stopExport
  repeat' (first | with_reducible assumption | with_reducible apply enterState_safe | with_reducible apply updCharger_safe | extract_lets | split | (simp only [safe_mk, coreOk_fold]) | with_reducible refine safe_choice ?_ ?_ | (dsimp +zetaDelta only))

theorem loseSource_safe (m : Module) (safe : m.safe = true) : (loseSource m).safe = true := by
  unfold loseSource
  repeat' (first | with_reducible assumption | with_reducible apply updCharger_safe | with_reducible apply raise_safe | with_reducible apply startHandover_safe | with_reducible apply toIdle_safe | with_reducible apply toWait_safe | extract_lets | split | (simp only [safe_mk, coreOk_fold]) | with_reducible refine safe_choice ?_ ?_ | (dsimp +zetaDelta only))

theorem showCh_safe (m : Module) (safe : m.safe = true) : (showCh m).safe = true := by
  unfold showCh
  repeat' (first | with_reducible assumption | with_reducible apply updCharger_safe | extract_lets | split | (simp only [safe_mk, coreOk_fold]) | with_reducible refine safe_choice ?_ ?_ | (dsimp +zetaDelta only))

theorem sourceLost_safe (m : Module) (safe : m.safe = true) : (sourceLost m).safe = true := by
  unfold sourceLost
  repeat' (first | with_reducible assumption | with_reducible apply keepCheckpoint_safe | with_reducible apply showCh_safe | with_reducible apply loseSource_safe | extract_lets | split | (simp only [safe_mk, coreOk_fold]) | with_reducible refine safe_choice ?_ ?_ | (dsimp +zetaDelta only))

theorem pilotClassify_safe (p : PilotLine) (m : Module) (safe : m.safe = true) : (pilotClassify p m).safe = true := by
  unfold pilotClassify
  repeat' (first
    | with_reducible assumption | with_reducible apply updCharger_safe | with_reducible apply endCond_safe
    | with_reducible apply noteSource_safe | with_reducible apply stopExport_safe | with_reducible apply raise_safe
    | extract_lets | split)

theorem proximityClassify_safe (r : Word) (m : Module) (safe : m.safe = true) : (proximityClassify r m).safe = true
    := by
  unfold proximityClassify
  repeat' (first
    | with_reducible assumption | with_reducible apply updCharger_safe | with_reducible apply endCond_safe
    | with_reducible apply noteSource_safe | with_reducible apply stopSession_safe | with_reducible apply raise_safe
    | extract_lets | split)

theorem pilotEnds_safe (m : Module) (safe : m.safe = true) : (pilotEnds m).safe = true := by
  unfold pilotEnds
  repeat' (first | with_reducible assumption | with_reducible apply endCond_safe | with_reducible apply stopExport_safe | with_reducible apply raise_safe | with_reducible apply stopSession_safe | extract_lets | split | (simp only [safe_mk, coreOk_fold]) | with_reducible refine safe_choice ?_ ?_ | (dsimp +zetaDelta only))

theorem timerTick_safe (m : Module) (safe : m.safe = true) : (timerTick m).safe = true := by
  unfold timerTick
  repeat' (first
    | with_reducible assumption | with_reducible apply updCharger_safe | with_reducible apply raise_safe
    | with_reducible apply stopSession_safe | extract_lets | split)

theorem busStart_safe (m : Module) (safe : m.safe = true) : (busStart m).safe = true := by
  unfold busStart
  repeat' (first | with_reducible assumption | with_reducible apply updCharger_safe)

theorem chargeLaw_safe (m : Module) (safe : m.safe = true) : (chargeLaw m).safe = true := by
  unfold chargeLaw
  repeat' (first | with_reducible assumption | with_reducible apply updCharger_safe)

theorem handoverTick_safe (m : Module) (safe : m.safe = true) : (handoverTick m).safe = true := by
  unfold handoverTick
  repeat' (first
    | with_reducible assumption | with_reducible apply updCharger_safe | with_reducible apply toIdle_safe
    | with_reducible apply toWait_safe | extract_lets | split)

theorem endHandover_safe (m : Module) (safe : m.safe = true) : (endHandover m).safe = true := by
  unfold endHandover
  repeat' (first | with_reducible assumption | with_reducible apply enterState_safe | with_reducible apply updCharger_safe | extract_lets | split | (simp only [safe_mk, coreOk_fold]) | with_reducible refine safe_choice ?_ ?_ | (dsimp +zetaDelta only))

theorem exportOff_safe (m : Module) (safe : m.safe = true) : (exportOff m).safe = true := by
  unfold exportOff
  repeat' (first | with_reducible assumption | with_reducible apply raise_safe | with_reducible apply putPattern_safe | extract_lets | split | (simp only [safe_mk, coreOk_fold]) | with_reducible refine safe_choice ?_ ?_ | (dsimp +zetaDelta only))

theorem exportTick_safe (m : Module) (safe : m.safe = true) : (exportTick m).safe = true := by
  unfold exportTick
  repeat' (first | with_reducible assumption | with_reducible apply exportOff_safe | with_reducible apply stopExport_safe | with_reducible apply raise_safe | extract_lets | split | (simp only [safe_mk, coreOk_fold]) | with_reducible refine safe_choice ?_ ?_ | (dsimp +zetaDelta only))

theorem exportRamp_safe (m : Module) (safe : m.safe = true) : (exportRamp m).safe = true := by
  unfold exportRamp
  repeat' (first
    | with_reducible assumption | with_reducible apply updCharger_safe | with_reducible apply toIdle_safe
    | extract_lets | split)

theorem stateTick_safe (m : Module) (safe : m.safe = true) : (stateTick m).safe = true := by
  unfold stateTick
  repeat' (first
    | with_reducible assumption | with_reducible apply stopSession_safe | with_reducible apply enterState_safe
    | with_reducible apply busStart_safe | with_reducible apply raise_safe | with_reducible apply toIdle_safe
    | with_reducible apply updCharger_safe | with_reducible apply chargeLaw_safe
    | with_reducible apply startHandover_safe | with_reducible apply handoverTick_safe | extract_lets | split)

theorem chEvaluate_safe (m : Module) (safe : m.safe = true) : (chEvaluate m).safe = true := by
  unfold chEvaluate
  repeat' (first | with_reducible assumption | with_reducible apply timerTick_safe | with_reducible apply updCharger_safe | with_reducible apply exportTick_safe | with_reducible apply keepCheckpoint_safe | with_reducible apply showCh_safe | with_reducible apply exportRamp_safe | with_reducible apply stateTick_safe | extract_lets | split | (simp only [safe_mk, coreOk_fold]) | with_reducible refine safe_choice ?_ ?_ | (dsimp +zetaDelta only))

theorem fallbackCh_safe (m : Module) (safe : m.safe = true) : (fallbackCh m).safe = true := by
  unfold fallbackCh
  repeat' (first | with_reducible assumption | with_reducible apply updCharger_safe)

theorem commitCh_safe (period : Nat) (v m : Module) (safe : m.safe = true) : (commitCh period v m).safe = true := by
  unfold commitCh
  repeat' (first | with_reducible assumption | with_reducible apply showCh_safe | with_reducible apply noteSource_safe | with_reducible apply pilotEnds_safe | with_reducible apply updCharger_safe | extract_lets | split | (simp only [safe_mk, coreOk_fold]) | with_reducible refine safe_choice ?_ ?_ | (dsimp +zetaDelta only))

theorem commitPf_safe (period : Nat) (v m : Module) (safe : m.safe = true) : (commitPf period v m).safe = true := by
  unfold commitPf
  repeat' (first
    | with_reducible assumption | with_reducible apply updCharger_safe
    | (with_reducible refine foldl_safe _ ?_ _ _ ?_) | (intro _ _ hh) | extract_lets | split)

theorem commitDb_safe (period : Nat) (v m : Module) (safe : m.safe = true) : (commitDb period v m).safe = true := by
  unfold commitDb
  repeat' (first | with_reducible assumption | with_reducible apply updCharger_safe | extract_lets | split)

theorem commitPv_safe (period : Nat) (v m : Module) (safe : m.safe = true) : (commitPv period v m).safe = true := by
  unfold commitPv
  repeat' (first | with_reducible assumption | with_reducible apply updCharger_safe | extract_lets | split)

theorem takeCharger_safe (m : Module) (safe : m.safe = true) : (takeCharger m).safe = true := by
  unfold takeCharger
  repeat' (first | with_reducible assumption | with_reducible apply updCharger_safe | with_reducible apply keepCheckpoint_safe | with_reducible apply endHandover_safe | extract_lets | split | (simp only [safe_mk, coreOk_fold]) | with_reducible refine safe_choice ?_ ?_ | (dsimp +zetaDelta only))

theorem chargeStart_safe (h : Hdr) (ws : List Word) (m : Module) (safe : m.safe = true) : (chargeStart h ws m).safe = true := by
  unfold chargeStart
  repeat' (first | with_reducible assumption | with_reducible apply unlessFails_safe | with_reducible apply keepCheckpoint_safe | with_reducible apply enterState_safe | with_reducible apply updCharger_safe | with_reducible apply unlessFails_safe | extract_lets | split | simp only [Verdict.safe] | (simp only [safe_mk, coreOk_fold]) | with_reducible refine safe_choice ?_ ?_ | (dsimp +zetaDelta only))

theorem chargeStop_safe (h : Hdr) (ws : List Word) (m : Module) (safe : m.safe = true) : (chargeStop h ws m).safe =
    true := by
  unfold chargeStop
  repeat' (first
    | with_reducible assumption | with_reducible apply unlessFails_safe | with_reducible apply stopSession_safe
    | with_reducible apply unlessFails_safe | extract_lets | split | simp only [Verdict.safe])

theorem exportStartAc_safe (h : Hdr) (ws : List Word) (m : Module) (safe : m.safe = true) :
    (exportStartAc h ws m).safe = true := by
  unfold exportStartAc
  repeat' (first
    | with_reducible assumption | with_reducible apply unlessFails_safe | with_reducible apply enterState_safe
    | with_reducible apply busStart_safe | with_reducible apply updCharger_safe
    | with_reducible apply unlessFails_safe | extract_lets | split | simp only [Verdict.safe])

theorem exportStartDc_safe (h : Hdr) (ws : List Word) (m : Module) (safe : m.safe = true) :
    (exportStartDc h ws m).safe = true := by
  unfold exportStartDc
  repeat' (first
    | with_reducible assumption | with_reducible apply unlessFails_safe | with_reducible apply unlessFails_safe
    | extract_lets | split | simp only [Verdict.safe] | (simp only [safe_mk, coreOk_fold]))

theorem exportStopAc_safe (h : Hdr) (ws : List Word) (m : Module) (safe : m.safe = true) :
    (exportStopAc h ws m).safe = true := by
  unfold exportStopAc
  repeat' (first
    | with_reducible assumption | with_reducible apply unlessFails_safe | with_reducible apply stopExport_safe
    | with_reducible apply unlessFails_safe | extract_lets | split | simp only [Verdict.safe])

theorem exportStopDc_safe (h : Hdr) (ws : List Word) (m : Module) (safe : m.safe = true) :
    (exportStopDc h ws m).safe = true := by
  unfold exportStopDc
  repeat' (first
    | with_reducible assumption | with_reducible apply unlessFails_safe | with_reducible apply endDcExport_safe
    | with_reducible apply unlessFails_safe | extract_lets | split | simp only [Verdict.safe])

theorem CvCheck.setOutside_safe (k : CvCheck) (x : Nat) (m : Module) (safe : m.safe = true) :
    (CvCheck.setOutside k x m).safe = true := by
  unfold CvCheck.setOutside
  repeat' (first
    | with_reducible assumption | with_reducible apply updCharger_safe | extract_lets | split
    | (simp only [safe_mk, coreOk_fold]))

theorem cvFault_safe (k : CvCheck) (m : Module) (safe : m.safe = true) : (cvFault k m).safe = true := by
  unfold cvFault
  repeat' (first | with_reducible assumption | with_reducible apply raise_safe | extract_lets | split)

theorem cvCheck_safe (k : CvCheck) (v m : Module) (safe : m.safe = true) : (cvCheck k v m).safe = true := by
  unfold cvCheck
  repeat' (first
    | with_reducible assumption | with_reducible apply setCond_safe | with_reducible apply CvCheck.setOutside_safe
    | with_reducible apply cvFault_safe | extract_lets | split)

theorem commitPlausConverter_safe (v m : Module) (safe : m.safe = true) : (commitPlausConverter v m).safe = true := by
  unfold commitPlausConverter
  repeat' (first
    | with_reducible assumption | with_reducible apply cvCheck_safe | (with_reducible refine foldl_safe _ ?_ _ _ ?_)
    | (intro _ _ hh))

end Sys2Proof.Machine
end

