-- ==== Sys2Proof/Laws/Safe/Gate.lean ====
section
/-!
SUPPORT. The invariant is kept by every operation of Machine/Gate.lean.
-/

namespace Sys2Proof.Machine

theorem latch_safe (i : Fin 36) (cause : Nat) (soft : Bool) (m : Module) (safe : m.safe = true) :
    (latch i cause soft m).safe = true := by
  unfold latch
  repeat' (first | with_reducible assumption | with_reducible apply updIsland_safe | extract_lets | split)

theorem reportIsland_safe (i : Fin 36) (m : Module) (safe : m.safe = true) : (reportIsland i m).safe = true := by
  unfold reportIsland
  repeat' (first | with_reducible assumption | with_reducible apply raise_safe | with_reducible apply updIsland_safe | (with_reducible refine foldl_safe _ ?_ _ _ ?_) | (intro _ _ hh) | extract_lets | split | (simp only [safe_mk, coreOk_fold]) | with_reducible refine safe_choice ?_ ?_ | (dsimp +zetaDelta only))

theorem followCond_safe (i : Fin 36) (m : Module) (safe : m.safe = true) : (followCond i m).safe = true := by
  unfold followCond
  repeat' (first | with_reducible assumption | with_reducible apply setCond_safe | with_reducible apply updIsland_safe | (with_reducible refine foldl_safe _ ?_ _ _ ?_) | (intro _ _ hh) | extract_lets | split | (simp only [safe_mk, coreOk_fold]) | with_reducible refine safe_choice ?_ ?_ | (dsimp +zetaDelta only))

theorem followGate_safe (since : Nat) (i : Fin 36) (m : Module) (safe : m.safe = true) : (followGate since i m).safe = true := by
  unfold followGate
  repeat' (first | with_reducible assumption | with_reducible apply updIsland_safe | extract_lets | split | (simp only [safe_mk, coreOk_fold]) | with_reducible refine safe_choice ?_ ?_ | (dsimp +zetaDelta only))

theorem countLinkError_safe (i : Fin 36) (m : Module) (safe : m.safe = true) : (countLinkError i m).safe = true := by
  unfold countLinkError
  repeat' (first | with_reducible assumption | with_reducible apply updIsland_safe | with_reducible apply raise_safe | extract_lets | split | (simp only [safe_mk, coreOk_fold]) | with_reducible refine safe_choice ?_ ?_ | (dsimp +zetaDelta only))

theorem islandFrame_safe (i : Fin 36) (good : Bool) (m : Module) (safe : m.safe = true) : (islandFrame i good m).safe = true := by
  unfold islandFrame
  repeat' (first | with_reducible assumption | with_reducible apply followCond_safe | with_reducible apply followGate_safe | with_reducible apply updIsland_safe | with_reducible apply countLinkError_safe | extract_lets | split | (simp only [safe_mk, coreOk_fold]) | with_reducible refine safe_choice ?_ ?_ | (dsimp +zetaDelta only))

theorem islandStatusFrame_safe (i : Fin 36) (good : Bool) (m : Module) (safe : m.safe = true) : (islandStatusFrame i good m).safe = true := by
  unfold islandStatusFrame
  repeat' (first | with_reducible assumption | with_reducible apply countLinkError_safe | with_reducible apply followCond_safe | with_reducible apply updIsland_safe | with_reducible apply reportIsland_safe | extract_lets | split | (simp only [safe_mk, coreOk_fold]) | with_reducible refine safe_choice ?_ ?_ | (dsimp +zetaDelta only))

theorem linkLost_safe (i : Fin 36) (atGdc : Bool) (m : Module) (safe : m.safe = true) : (linkLost i atGdc m).safe = true := by
  unfold linkLost
  repeat' (first | with_reducible assumption | with_reducible apply reportIsland_safe | with_reducible apply followCond_safe | with_reducible apply latch_safe | with_reducible apply updIsland_safe | extract_lets | split | (simp only [safe_mk, coreOk_fold]) | with_reducible refine safe_choice ?_ ?_ | (dsimp +zetaDelta only))

theorem setRail_safe (i : Fin 36) (pos ok : Bool) (m : Module) (safe : m.safe = true) : (setRail i pos ok m).safe =
    true := by
  unfold setRail
  repeat' (first | with_reducible assumption | with_reducible apply updIsland_safe)

theorem uvlo_safe (i : Fin 36) (pos : Bool) (m : Module) (safe : m.safe = true) : (uvlo i pos m).safe = true := by
  unfold uvlo
  repeat' (first | with_reducible assumption | with_reducible apply updIsland_safe | with_reducible apply setRail_safe | with_reducible apply followCond_safe | with_reducible apply latch_safe | extract_lets | split | (simp only [safe_mk, coreOk_fold]) | with_reducible refine safe_choice ?_ ?_ | (dsimp +zetaDelta only))

theorem uvloRecovery_safe (i : Fin 36) (pos : Bool) (m : Module) (safe : m.safe = true) : (uvloRecovery i pos m).safe = true := by
  unfold uvloRecovery
  repeat' (first | with_reducible assumption | with_reducible apply followCond_safe | with_reducible apply setRail_safe | extract_lets | split | (simp only [safe_mk, coreOk_fold]) | with_reducible refine safe_choice ?_ ?_ | (dsimp +zetaDelta only))

theorem railTimeout_safe (i : Fin 36) (m : Module) (safe : m.safe = true) : (railTimeout i m).safe = true := by
  unfold railTimeout
  repeat' (first | with_reducible assumption | with_reducible apply followCond_safe | with_reducible apply latch_safe | extract_lets | split | (simp only [safe_mk, coreOk_fold]) | with_reducible refine safe_choice ?_ ?_ | (dsimp +zetaDelta only))

theorem desat_safe (i : Fin 36) (m : Module) (safe : m.safe = true) : (desat i m).safe = true := by
  unfold desat
  repeat' (first | with_reducible assumption | with_reducible apply latch_safe | extract_lets | split)

theorem hardShort_safe (i : Fin 36) (m : Module) (safe : m.safe = true) : (hardShort i m).safe = true := by
  unfold hardShort
  repeat' (first
    | with_reducible assumption | with_reducible apply latch_safe | with_reducible apply updIsland_safe
    | extract_lets | split)

theorem softStage_safe (i : Fin 36) (m : Module) (safe : m.safe = true) : (softStage i m).safe = true := by
  unfold softStage
  repeat' (first | with_reducible assumption | with_reducible apply updIsland_safe | with_reducible apply followCond_safe | extract_lets | split | (simp only [safe_mk, coreOk_fold]) | with_reducible refine safe_choice ?_ ?_ | (dsimp +zetaDelta only))

theorem outputsOff_safe (m : Module) (safe : m.safe = true) : (outputsOff m).safe = true := by
  unfold outputsOff
  repeat' (first | with_reducible assumption | extract_lets | split | (simp only [safe_mk, coreOk_fold]))

theorem enFall_safe (m : Module) (safe : m.safe = true) : (enFall m).safe = true := by
  unfold enFall
  repeat' (first
    | with_reducible assumption | with_reducible apply outputsOff_safe | with_reducible apply raise_safe
    | with_reducible apply setPattern_safe | (with_reducible refine foldl_safe _ ?_ _ _ ?_) | (intro _ _ hh)
    | extract_lets | split | (simp only [safe_mk, coreOk_fold]) | with_reducible refine safe_choice ?_ ?_
    | (dsimp +zetaDelta only))

theorem clearIsland_safe (low : Nat) (m : Module) (i : Fin 36) (safe : m.safe = true) : (clearIsland low m i).safe = true := by
  unfold clearIsland
  repeat' (first | with_reducible assumption | with_reducible apply clearFault_safe | with_reducible apply updIsland_safe | (with_reducible refine foldl_safe _ ?_ _ _ ?_) | (intro _ _ hh) | extract_lets | split | (simp only [safe_mk, coreOk_fold]) | with_reducible refine safe_choice ?_ ?_ | (dsimp +zetaDelta only))

theorem enRise_safe (m : Module) (safe : m.safe = true) : (enRise m).safe = true := by
  unfold enRise
  repeat' (first | with_reducible assumption | with_reducible apply clearIsland_safe | (with_reducible refine foldl_safe _ ?_ _ _ ?_) | (intro _ _ hh) | extract_lets | split | (simp only [safe_mk, coreOk_fold]) | with_reducible refine safe_choice ?_ ?_ | (dsimp +zetaDelta only))

theorem startIslandTest_safe (i : Fin 36) (m : Module) (safe : m.safe = true) : (startIslandTest i m).safe = true :=
    by
  unfold startIslandTest
  repeat' (first
    | with_reducible assumption | with_reducible apply updIsland_safe | extract_lets | split
    | (simp only [safe_mk, coreOk_fold]))

theorem selftestIsland_safe (h : Hdr) (i : Fin 36) (m : Module) (safe : m.safe = true) : (selftestIsland h i m).safe = true := by
  unfold selftestIsland
  repeat' (first | with_reducible assumption | with_reducible apply unlessFails_safe | with_reducible apply holdWrites_safe | with_reducible apply unlessFails_safe | extract_lets | split | simp only [Verdict.safe] | (simp only [safe_mk, coreOk_fold]) | with_reducible refine safe_choice ?_ ?_ | (dsimp +zetaDelta only))

theorem islandSelftestDone_safe (desat hard pos neg sto : Bool) (m : Module) (safe : m.safe = true) : (islandSelftestDone desat hard pos neg sto m).safe = true := by
  unfold islandSelftestDone
  repeat' (first | with_reducible assumption | with_reducible apply desat_safe | with_reducible apply crossWords_safe | with_reducible apply resolveWaiting_safe | with_reducible apply updIsland_safe | with_reducible apply selftest_safe | with_reducible apply reportIsland_safe | with_reducible apply followCond_safe | with_reducible apply latch_safe | extract_lets | split | (simp only [safe_mk, coreOk_fold]) | with_reducible refine safe_choice ?_ ?_ | (dsimp +zetaDelta only))

theorem startGateDiag_safe (channel : Nat) (m : Module) (safe : m.safe = true) : (startGateDiag channel m).safe =
    true := by
  unfold startGateDiag
  repeat' (first | with_reducible assumption | extract_lets | split | (simp only [safe_mk, coreOk_fold]))

theorem gateDiag_safe (h : Hdr) (ws : List Word) (m : Module) (safe : m.safe = true) : (gateDiag h ws m).safe = true := by
  unfold gateDiag
  repeat' (first | with_reducible assumption | with_reducible apply unlessFails_safe | with_reducible apply holdWrites_safe | with_reducible apply unlessFails_safe | extract_lets | split | simp only [Verdict.safe] | (simp only [safe_mk, coreOk_fold]) | with_reducible refine safe_choice ?_ ?_ | (dsimp +zetaDelta only))

theorem gateDiagStep_safe (u v w : Word) (m : Module) (safe : m.safe = true) : (gateDiagStep u v w m).safe = true := by
  unfold gateDiagStep
  repeat' (first | with_reducible assumption | with_reducible apply crossWords_safe | with_reducible apply resolveWaiting_safe | extract_lets | split | (simp only [safe_mk, coreOk_fold]) | with_reducible refine safe_choice ?_ ?_ | (dsimp +zetaDelta only))

theorem patternVerify_safe (i : Fin 36) (on : Bool) (m : Module) (safe : m.safe = true) :
    (patternVerify i on m).safe = true := by
  unfold patternVerify
  repeat' (first
    | with_reducible assumption | with_reducible apply updIsland_safe | with_reducible apply raise_safe
    | extract_lets | split | (simp only [safe_mk, coreOk_fold]))

end Sys2Proof.Machine
end

