-- ==== Sys2Proof/Laws/Safe/Edges.lean ====
section
/-!
SUPPORT. The invariant is kept by every operation of Machine/Edges.lean.
-/

namespace Sys2Proof.Machine

theorem runLeg_safe (dt : Nat) (m : Module) (g : LegOf) (safe : m.safe = true) : (runLeg dt m g).safe = true := by
  unfold runLeg
  repeat' (first | with_reducible assumption | with_reducible apply updIsland_safe | extract_lets | split)

theorem runGates_safe (dt : Nat) (m : Module) (safe : m.safe = true) : (runGates dt m).safe = true := by
  unfold runGates
  repeat' (first
    | with_reducible assumption | with_reducible apply runLeg_safe | (with_reducible refine foldl_safe _ ?_ _ _ ?_))

theorem followGates_safe (dt : Nat) (m : Module) (safe : m.safe = true) : (followGates dt m).safe = true := by
  unfold followGates
  repeat' (first | with_reducible assumption | with_reducible apply followGate_safe | (with_reducible refine foldl_safe _ ?_ _ _ ?_) | (intro _ _ hh) | extract_lets | split | (simp only [safe_mk, coreOk_fold]) | with_reducible refine safe_choice ?_ ?_ | (dsimp +zetaDelta only))

end Sys2Proof.Machine
end

