-- ==== Sys2Proof/Laws/Safe/Feedback.lean ====
section
/-!
SUPPORT. The invariant is kept by every operation of Machine/Feedback.lean.
-/

namespace Sys2Proof.Machine

theorem portError_safe (p : Fin 6) (m : Module) (safe : m.safe = true) : (portError p m).safe = true := by
  unfold portError
  repeat' (first
    | with_reducible assumption | with_reducible apply updFeedback_safe | with_reducible apply raisePort_safe
    | extract_lets | split)

theorem quadEdge_safe (p : Fin 6) (down : Bool) (m : Module) (safe : m.safe = true) : (quadEdge p down m).safe =
    true := by
  unfold quadEdge
  repeat' (first | with_reducible assumption | with_reducible apply updFeedback_safe)

theorem hallEdge_safe (p : Fin 6) (state k : Nat) (down : Bool) (m : Module) (safe : m.safe = true) :
    (hallEdge p state k down m).safe = true := by
  unfold hallEdge
  repeat' (first | with_reducible assumption | with_reducible apply updFeedback_safe)

theorem hallChange_safe (p : Fin 6) (s : Nat) (m0 : Module) (safe : m0.safe = true) : (hallChange p s m0).safe =
    true := by
  unfold hallChange
  repeat' (first
    | with_reducible assumption | with_reducible apply updFeedback_safe | with_reducible apply portError_safe
    | with_reducible apply endCond_safe | with_reducible apply hallEdge_safe | extract_lets | split)

theorem fbEdge_safe (p : Fin 6) (e : PortEdge) (held : Nat) (m : Module) (safe : m.safe = true) : (fbEdge p e held m).safe = true := by
  unfold fbEdge
  repeat' (first | with_reducible assumption | with_reducible apply quadEdge_safe | with_reducible apply portError_safe | with_reducible apply updFeedback_safe | with_reducible apply hallChange_safe | extract_lets | split | (simp only [safe_mk, coreOk_fold]) | with_reducible refine safe_choice ?_ ?_ | (dsimp +zetaDelta only))

theorem takeIndex_safe (p : Fin 6) (aHigh bHigh : Bool) (m : Module) (safe : m.safe = true) : (takeIndex p aHigh bHigh m).safe = true := by
  unfold takeIndex
  repeat' (first | with_reducible assumption | with_reducible apply updFeedback_safe | with_reducible apply raisePort_safe | extract_lets | split | (simp only [safe_mk, coreOk_fold]) | with_reducible refine safe_choice ?_ ?_ | (dsimp +zetaDelta only))

theorem fbIndex_safe (p : Fin 6) (aHigh bHigh : Bool) (held : Nat) (m : Module) (safe : m.safe = true) : (fbIndex p aHigh bHigh held m).safe = true := by
  unfold fbIndex
  repeat' (first | with_reducible assumption | with_reducible apply updFeedback_safe | extract_lets | split | (simp only [safe_mk, coreOk_fold]) | with_reducible refine safe_choice ?_ ?_ | (dsimp +zetaDelta only))

theorem fbHallInvalid_safe (p : Fin 6) (m : Module) (safe : m.safe = true) : (fbHallInvalid p m).safe = true := by
  unfold fbHallInvalid
  repeat' (first
    | with_reducible assumption | with_reducible apply raisePort_safe | with_reducible apply updFeedback_safe
    | extract_lets | split)

theorem ssiFrame_safe (p : Fin 6) (w : Word) (lineBad : Bool) (m : Module) (safe : m.safe = true) :
    (ssiFrame p w lineBad m).safe = true := by
  unfold ssiFrame
  repeat' (first
    | with_reducible assumption | with_reducible apply updFeedback_safe | with_reducible apply portError_safe
    | with_reducible apply raisePort_safe | with_reducible apply endCond_safe | extract_lets | split)

theorem useSsi_safe (p : Fin 6) (s : SsiFrame) (frac : Nat) (m : Module) (safe : m.safe = true) : (useSsi p s frac m).safe = true := by
  unfold useSsi
  repeat' (first | with_reducible assumption | with_reducible apply updFeedback_safe | with_reducible apply raisePort_safe | extract_lets | split | (simp only [safe_mk, coreOk_fold]) | with_reducible refine safe_choice ?_ ?_ | (dsimp +zetaDelta only))

theorem ssiInvalid_safe (p : Fin 6) (m : Module) (safe : m.safe = true) : (ssiInvalid p m).safe = true := by
  unfold ssiInvalid
  repeat' (first | with_reducible assumption | with_reducible apply portError_safe | with_reducible apply updFeedback_safe | with_reducible apply raisePort_safe | extract_lets | split | (simp only [safe_mk, coreOk_fold]) | with_reducible refine safe_choice ?_ ?_ | (dsimp +zetaDelta only))

theorem ssiAngleWord_safe (p : Fin 6) (s : SsiFrame) (frac : Nat) (m : Module) (safe : m.safe = true) : (ssiAngleWord p s frac m).safe = true := by
  unfold ssiAngleWord
  repeat' (first | with_reducible assumption | with_reducible apply updFeedback_safe | extract_lets | split | (simp only [safe_mk, coreOk_fold]) | with_reducible refine safe_choice ?_ ?_ | (dsimp +zetaDelta only))

theorem ssiRead_safe (p : Fin 6) (s : SsiFrame) (m : Module) (safe : m.safe = true) : (ssiRead p s m).safe = true := by
  unfold ssiRead
  repeat' (first | with_reducible assumption | with_reducible apply updFeedback_safe | with_reducible apply ssiInvalid_safe | with_reducible apply endCond_safe | with_reducible apply ssiAngleWord_safe | with_reducible apply useSsi_safe | extract_lets | split | (simp only [safe_mk, coreOk_fold]) | with_reducible refine safe_choice ?_ ?_ | (dsimp +zetaDelta only))

theorem readFrames_safe (m : Module) (safe : m.safe = true) : (readFrames m).safe = true := by
  unfold readFrames
  repeat' (first | with_reducible assumption | with_reducible apply ssiRead_safe | (with_reducible refine foldl_safe _ ?_ _ _ ?_) | (intro _ _ hh) | extract_lets | split | (simp only [safe_mk, coreOk_fold]) | with_reducible refine safe_choice ?_ ?_ | (dsimp +zetaDelta only))

theorem settlePort_safe (p : Fin 6) (m : Module) (safe : m.safe = true) : (settlePort p m).safe = true := by
  unfold settlePort
  repeat' (first | with_reducible assumption | with_reducible apply takeIndex_safe | with_reducible apply updFeedback_safe | with_reducible apply useSsi_safe | extract_lets | split | (simp only [safe_mk, coreOk_fold]) | with_reducible refine safe_choice ?_ ?_ | (dsimp +zetaDelta only))

theorem capture_safe (p : Fin 6) (m : Module) (safe : m.safe = true) : (capture p m).safe = true := by
  unfold capture
  repeat' (first | with_reducible assumption | with_reducible apply updFeedback_safe | extract_lets | split)

theorem fbStandstill_safe (p : Fin 6) (m : Module) (safe : m.safe = true) : (fbStandstill p m).safe = true := by
  unfold fbStandstill
  repeat' (first | with_reducible assumption | with_reducible apply updFeedback_safe | extract_lets | split)

theorem lineBreak_safe (p : Fin 6) (l : Fin 5) (m : Module) (safe : m.safe = true) : (lineBreak p l m).safe = true
    := by
  unfold lineBreak
  repeat' (first
    | with_reducible assumption | with_reducible apply updFeedback_safe | with_reducible apply raisePort_safe
    | extract_lets | split)

theorem lineRestored_safe (p : Fin 6) (l : Fin 5) (m : Module) (safe : m.safe = true) : (lineRestored p l m).safe =
    true := by
  unfold lineRestored
  repeat' (first
    | with_reducible assumption | with_reducible apply updFeedback_safe | with_reducible apply endCond_safe
    | extract_lets | split)

theorem portCleared_safe (code : Nat) (p : Fin 6) (m : Module) (safe : m.safe = true) : (portCleared code p m).safe
    = true := by
  unfold portCleared
  repeat' (first | with_reducible assumption | with_reducible apply updFeedback_safe | extract_lets | split)

theorem followEp_safe (dt : Nat) (p : Fin 2) (m : Module) (safe : m.safe = true) : (followEp dt p m).safe = true := by
  unfold followEp
  repeat' (first | with_reducible assumption | with_reducible apply updFeedback_safe | extract_lets | split)

theorem epOverrun_safe (p : Fin 2) (m : Module) (safe : m.safe = true) : (epOverrun p m).safe = true := by
  unfold epOverrun
  repeat' (first | with_reducible assumption | with_reducible apply raisePort_safe | extract_lets | split)

end Sys2Proof.Machine
end

