-- ==== Sys2Proof/Laws/Safe/Actuators.lean ====
section
/-!
SUPPORT. The invariant is kept by every operation of Machine/Actuators.lean.
-/

namespace Sys2Proof.Machine

theorem lgdOff_safe (m : Module) (safe : m.safe = true) : (lgdOff m).safe = true := by
  unfold lgdOff
  repeat' (first | with_reducible assumption | extract_lets | split | (simp only [safe_mk, coreOk_fold]))

theorem followLow_safe (a : Fin 4) (m : Module) (safe : m.safe = true) : (followLow a m).safe = true := by
  unfold followLow
  repeat' (first | with_reducible assumption | with_reducible apply updActuator_safe | extract_lets | split | (simp only [safe_mk, coreOk_fold]) | with_reducible refine safe_choice ?_ ?_ | (dsimp +zetaDelta only))

theorem commutate_safe (a : Fin 4) (m0 : Module) (safe : m0.safe = true) : (commutate a m0).safe = true := by
  unfold commutate
  repeat' (first | with_reducible assumption | with_reducible apply followLow_safe | with_reducible apply updActuator_safe | extract_lets | split | (simp only [safe_mk, coreOk_fold]) | with_reducible refine safe_choice ?_ ?_ | (dsimp +zetaDelta only))

theorem turnValley_safe (a : Fin 4) (counts : Vector Nat 3) (next : Vector Bool 3) (vax : Word) (m : Module) (safe : m.safe = true) : (turnValley a counts next vax m).safe = true := by
  unfold turnValley
  repeat' (first | with_reducible assumption | with_reducible apply commutate_safe | with_reducible apply updActuator_safe | extract_lets | split | (simp only [safe_mk, coreOk_fold]) | with_reducible refine safe_choice ?_ ?_ | (dsimp +zetaDelta only))

theorem carrierValley_safe (a : Fin 4) (iu iv iw vax : Word) (m0 : Module) (safe : m0.safe = true) : (carrierValley a iu iv iw vax m0).safe = true := by
  unfold carrierValley
  repeat' (first | with_reducible assumption | with_reducible apply endCond_safe | with_reducible apply updActuator_safe | with_reducible apply followLow_safe | with_reducible apply turnValley_safe | with_reducible apply raise_safe | extract_lets | split | (simp only [safe_mk, coreOk_fold]) | with_reducible refine safe_choice ?_ ?_ | (dsimp +zetaDelta only))

theorem bootUvlo_safe (a : Fin 4) (leg : Fin 3) (m : Module) (safe : m.safe = true) : (bootUvlo a leg m).safe = true
    := by
  unfold bootUvlo
  repeat' (first
    | with_reducible assumption | with_reducible apply raise_safe | with_reducible apply updActuator_safe
    | extract_lets | split)

theorem bootRelease_safe (a : Fin 4) (leg : Fin 3) (m : Module) (safe : m.safe = true) : (bootRelease a leg m).safe
    = true := by
  unfold bootRelease
  repeat' (first
    | with_reducible assumption | with_reducible apply updActuator_safe | with_reducible apply endCond_safe
    | extract_lets | split)

theorem axPositionLost_safe (a : Fin 4) (m : Module) (safe : m.safe = true) : (axPositionLost a m).safe = true := by
  unfold axPositionLost
  repeat' (first
    | with_reducible assumption | with_reducible apply raise_safe | with_reducible apply updActuator_safe
    | extract_lets | split)

theorem axAfterPort_safe (p : Fin 6) (before m : Module) (safe : m.safe = true) :
    (axAfterPort p before m).safe = true := by
  unfold axAfterPort
  repeat' (first | with_reducible assumption | with_reducible apply axPositionLost_safe | extract_lets | split)

theorem noteHallEdge_safe (p : Fin 6) (before m : Module) (safe_before : before.safe = true)
    (safe_m : m.safe = true) : (noteHallEdge p before m).safe = true := by
  unfold noteHallEdge
  repeat' (first | with_reducible assumption | with_reducible apply updActuator_safe | extract_lets | split)

theorem axSupplied_safe (m : Module) (safe : m.safe = true) : (axSupplied m).safe = true := by
  unfold axSupplied
  repeat' (first | with_reducible assumption | extract_lets | split | (simp only [safe_mk, coreOk_fold]) | with_reducible refine safe_choice ?_ ?_ | (dsimp +zetaDelta only))

theorem axEnterReady_safe (m : Module) (safe : m.safe = true) : (axEnterReady m).safe = true := by
  unfold axEnterReady
  repeat' (first | with_reducible assumption | with_reducible apply updActuator_safe | (with_reducible refine foldl_safe _ ?_ _ _ ?_) | (intro _ _ hh) | extract_lets | split | (simp only [safe_mk, coreOk_fold]) | with_reducible refine safe_choice ?_ ?_ | (dsimp +zetaDelta only))

theorem moveResult_safe (m : Module) (safe : m.safe = true) : (moveResult m).safe = true := by
  unfold moveResult
  repeat' (first | with_reducible assumption | with_reducible apply keepCheckpoint_safe | extract_lets | split | (simp only [safe_mk, coreOk_fold]) | with_reducible refine safe_choice ?_ ?_ | (dsimp +zetaDelta only))

theorem homingStall_safe (a : Fin 4) (m : Module) (safe : m.safe = true) : (homingStall a m).safe = true := by
  unfold homingStall
  repeat' (first | with_reducible assumption | with_reducible apply moveResult_safe | with_reducible apply updActuator_safe | extract_lets | split | (simp only [safe_mk, coreOk_fold]) | with_reducible refine safe_choice ?_ ?_ | (dsimp +zetaDelta only))

theorem stopMove_safe (a : Fin 4) (m : Module) (safe : m.safe = true) : (stopMove a m).safe = true := by
  unfold stopMove
  repeat' (first
    | with_reducible assumption | with_reducible apply raise_safe | with_reducible apply updActuator_safe)

theorem axMoveTimeout_safe (a : Fin 4) (m : Module) (safe : m.safe = true) : (axMoveTimeout a m).safe = true := by
  unfold axMoveTimeout
  repeat' (first | with_reducible assumption | with_reducible apply moveResult_safe | with_reducible apply raise_safe | with_reducible apply updActuator_safe | with_reducible apply stopMove_safe | extract_lets | split | (simp only [safe_mk, coreOk_fold]) | with_reducible refine safe_choice ?_ ?_ | (dsimp +zetaDelta only))

theorem moveComplete_safe (a : Fin 4) (m : Module) (safe : m.safe = true) : (moveComplete a m).safe = true := by
  unfold moveComplete
  repeat' (first | with_reducible assumption | with_reducible apply moveResult_safe | with_reducible apply updActuator_safe | extract_lets | split | (simp only [safe_mk, coreOk_fold]) | with_reducible refine safe_choice ?_ ?_ | (dsimp +zetaDelta only))

theorem axLoop_safe (period : Nat) (v m : Module) (a : Fin 4) (safe : m.safe = true) : (axLoop period v m a).safe =
    true := by
  unfold axLoop
  repeat' (first | with_reducible assumption | with_reducible apply updActuator_safe | extract_lets | split)

theorem commitAxLoops_safe (period : Nat) (v m : Module) (safe : m.safe = true) : (commitAxLoops period v m).safe =
    true := by
  unfold commitAxLoops
  repeat' (first
    | with_reducible assumption | with_reducible apply axLoop_safe | (with_reducible refine foldl_safe _ ?_ _ _ ?_))

theorem axMove_safe (v m : Module) (a : Fin 4) (safe : m.safe = true) : (axMove v m a).safe = true := by
  unfold axMove
  repeat' (first
    | with_reducible assumption | with_reducible apply updActuator_safe | with_reducible apply stopMove_safe
    | extract_lets | split)

theorem commitAxMoves_safe (v m : Module) (safe : m.safe = true) : (commitAxMoves v m).safe = true := by
  unfold commitAxMoves
  repeat' (first | with_reducible assumption | with_reducible apply axMove_safe | (with_reducible refine foldl_safe _ ?_ _ _ ?_) | (intro _ _ hh) | extract_lets | split | (simp only [safe_mk, coreOk_fold]) | with_reducible refine safe_choice ?_ ?_ | (dsimp +zetaDelta only))

theorem fallbackAxMoves_safe (m : Module) (safe : m.safe = true) : (fallbackAxMoves m).safe = true := by
  unfold fallbackAxMoves
  repeat' (first | with_reducible assumption | extract_lets | split | (simp only [safe_mk, coreOk_fold]) | with_reducible refine safe_choice ?_ ?_ | (dsimp +zetaDelta only))

theorem startMove_safe (a : Fin 4) (gear : Nat) (m : Module) (safe : m.safe = true) : (startMove a gear m).safe = true := by
  unfold startMove
  repeat' (first | with_reducible assumption | with_reducible apply moveResult_safe | with_reducible apply updActuator_safe | extract_lets | split | (simp only [safe_mk, coreOk_fold]) | with_reducible refine safe_choice ?_ ?_ | (dsimp +zetaDelta only))

theorem takeAxLoop_safe (a : Fin 4) (m : Module) (safe : m.safe = true) : (takeAxLoop a m).safe = true := by
  unfold takeAxLoop
  repeat' (first | with_reducible assumption | with_reducible apply updActuator_safe | extract_lets | split)

theorem takeAxMove_safe (a : Fin 4) (m : Module) (safe : m.safe = true) : (takeAxMove a m).safe = true := by
  unfold takeAxMove
  repeat' (first | with_reducible assumption | with_reducible apply startMove_safe | extract_lets | split)

theorem takeActuators_safe (m : Module) (safe : m.safe = true) : (takeActuators m).safe = true := by
  unfold takeActuators
  repeat' (first
    | with_reducible assumption | with_reducible apply takeAxMove_safe | with_reducible apply takeAxLoop_safe
    | with_reducible apply keepCheckpoint_safe | (with_reducible refine foldl_safe _ ?_ _ _ ?_) | (intro _ _ hh)
    | extract_lets | split)

theorem moveRequest_safe (park : Bool) (h : Hdr) (ws : List Word) (m : Module) (safe : m.safe = true) :
    (moveRequest park h ws m).safe = true := by
  unfold moveRequest
  repeat' (first
    | with_reducible assumption | with_reducible apply unlessFails_safe | with_reducible apply nowOrTimed_safe
    | with_reducible apply startMove_safe)

end Sys2Proof.Machine
end

