-- ==== Sys2Proof/Laws/Safe/Afe.lean ====
section
/-!
SUPPORT. The invariant is kept by every operation of Machine/Afe.lean.
-/

namespace Sys2Proof.Machine

theorem recapture_safe (p : Fin 6) (m : Module) (safe : m.safe = true) : (recapture p m).safe = true := by
  unfold recapture
  repeat' (first | with_reducible assumption | with_reducible apply capture_safe | with_reducible apply updAfe_safe | extract_lets | split | (simp only [safe_mk, coreOk_fold]) | with_reducible refine safe_choice ?_ ?_ | (dsimp +zetaDelta only))

theorem recaptureChanged_safe (n : Fin 8) (old new : Image) (m : Module) (safe : m.safe = true) : (recaptureChanged n old new m).safe = true := by
  unfold recaptureChanged
  repeat' (first | with_reducible assumption | with_reducible apply recapture_safe | (with_reducible refine foldl_safe _ ?_ _ _ ?_) | (intro _ _ hh) | extract_lets | split | (simp only [safe_mk, coreOk_fold]) | with_reducible refine safe_choice ?_ ?_ | (dsimp +zetaDelta only))

theorem withCapture_safe (p : Fin 6) (f : Module → Module) (m : Module) (safe : m.safe = true) (good : ∀ m : Module, m.safe = true → (f m).safe = true) : (withCapture p f m).safe = true := by
  unfold withCapture
  repeat' (first | with_reducible assumption | with_reducible apply recapture_safe | with_reducible apply updFeedback_safe | with_reducible apply good | extract_lets | split | (simp only [safe_mk, coreOk_fold]) | with_reducible refine safe_choice ?_ ?_ | (dsimp +zetaDelta only))

theorem settleTick_safe (m : Module) (safe : m.safe = true) : (settleTick m).safe = true := by
  unfold settleTick
  repeat' (first | with_reducible assumption | with_reducible apply withCapture_safe | with_reducible apply settlePort_safe | (with_reducible refine foldl_safe _ ?_ _ _ ?_) | (intro _ _ hh) | extract_lets | split | (simp only [safe_mk, coreOk_fold]) | with_reducible refine safe_choice ?_ ?_ | (dsimp +zetaDelta only))

theorem noteOpenWire_safe (a : Fin 2) (c : Fin 32) (w : Word) (m : Module) (safe : m.safe = true) :
    (noteOpenWire a c w m).safe = true := by
  unfold noteOpenWire
  repeat' (first
    | with_reducible assumption | with_reducible apply updAfe_safe | with_reducible apply endCond_safe
    | with_reducible apply raise_safe | extract_lets | split)

/-- The words of a trigger's converter inputs leave the invariant alone. -/
theorem sarWords_safe (a : Fin 2) (t : Nat) (cs : List (Nat × Fin 32)) : ∀ (vs : List (BitVec 16)) (m : Module),
    m.safe = true → (sarWords a t cs vs m).2.safe = true := by
  induction cs with
  | nil => intro vs m safe; exact safe
  | cons c cs ih =>
    intro vs m safe
    exact ih _ _ (noteOpenWire_safe _ _ _ _ (updAfe_safe _ _ _ safe))

theorem fireTrigger_safe (a : Fin 2) (t : Fin 64) (sar pv : List (BitVec 16)) (sd : List Nat) (m : Module)
    (safe : m.safe = true) : (fireTrigger a t sar pv sd m).safe = true := by
  unfold fireTrigger
  split
  · exact safe
  · exact updAfe_safe _ _ _ (sarWords_safe _ _ _ _ _ (foldl_safe _ (fun _ _ h => capture_safe _ _ h) _ _ safe))


theorem queueEntry_safe (a : Fin 2) (m : Module) (safe : m.safe = true) : (queueEntry a m).safe = true := by
  unfold queueEntry
  repeat' (first
    | with_reducible assumption | with_reducible apply updAfe_safe | with_reducible apply raise_safe | extract_lets
    | split)

theorem watchLink_safe (d : Fin 2) (code : Nat) (m : Module) (safe : m.safe = true) : (watchLink d code m).safe =
    true := by
  unfold watchLink
  repeat' (first | with_reducible assumption | extract_lets | split | (simp only [safe_mk, coreOk_fold]))

theorem sampleWordArrival_safe (a : Fin 2) (d : Fin 2) (m : Module) (safe : m.safe = true) : (sampleWordArrival a d m).safe = true := by
  unfold sampleWordArrival
  repeat' (first | with_reducible assumption | with_reducible apply updCrossing_safe | with_reducible apply updAfe_safe | with_reducible apply noteLink_safe | with_reducible apply watchLink_safe | with_reducible apply noteSample_safe | with_reducible apply sampleArrives_safe | (with_reducible refine foldl_safe _ ?_ _ _ ?_) | (intro _ _ hh) | extract_lets | split | (simp only [safe_mk, coreOk_fold]) | with_reducible refine safe_choice ?_ ?_ | (dsimp +zetaDelta only))

theorem sliceRotation_safe (a : Fin 2) (m : Module) (safe : m.safe = true) : (sliceRotation a m).safe = true := by
  unfold sliceRotation
  repeat' (first | with_reducible assumption | with_reducible apply updAfe_safe | extract_lets | split)

theorem sliceCalibrated_safe (a : Fin 2) (i : Fin 20) (gain offset inl : Word) (m : Module) (safe : m.safe = true) :
    (sliceCalibrated a i gain offset inl m).safe = true := by
  unfold sliceCalibrated
  repeat' (first
    | with_reducible assumption | with_reducible apply updAfe_safe | with_reducible apply raise_safe | extract_lets
    | split)

theorem startSweep_safe (a : Fin 2) (m : Module) (safe : m.safe = true) : (startSweep a m).safe = true := by
  unfold startSweep
  repeat' (first | with_reducible assumption | with_reducible apply updAfe_safe | extract_lets | split | (simp only [safe_mk, coreOk_fold]) | with_reducible refine safe_choice ?_ ?_ | (dsimp +zetaDelta only))

theorem calibrate_safe (h : Hdr) (ws : List Word) (m : Module) (safe : m.safe = true) : (calibrate h ws m).safe = true := by
  unfold calibrate
  repeat' (first | with_reducible assumption | with_reducible apply unlessFails_safe | with_reducible apply holdWrites_safe | with_reducible apply unlessFails_safe | extract_lets | split | simp only [Verdict.safe] | (simp only [safe_mk, coreOk_fold]) | with_reducible refine safe_choice ?_ ?_ | (dsimp +zetaDelta only))

theorem sdLost_safe (a : Fin 2) (i : Fin 4) (m : Module) (safe : m.safe = true) : (sdLost a i m).safe = true := by
  unfold sdLost
  repeat' (first
    | with_reducible assumption | with_reducible apply updAfe_safe | with_reducible apply raise_safe | extract_lets
    | split)

theorem sdRecovered_safe (a : Fin 2) (i : Fin 4) (m : Module) (safe : m.safe = true) : (sdRecovered a i m).safe =
    true := by
  unfold sdRecovered
  repeat' (first | with_reducible assumption | with_reducible apply endCond_safe | with_reducible apply updAfe_safe)

theorem updDetector_safe (a : Fin 2) (k : Fin 8) (g : Member → Member) (m : Module) (safe : m.safe = true) :
    (updDetector a k g m).safe = true := by
  unfold updDetector
  repeat' (first | with_reducible assumption | with_reducible apply updAfe_safe)

theorem updComparator_safe (a : Fin 2) (k : Fin 32) (g : Member → Member) (m : Module) (safe : m.safe = true) :
    (updComparator a k g m).safe = true := by
  unfold updComparator
  repeat' (first | with_reducible assumption | with_reducible apply updAfe_safe)

theorem reportTrip_safe (f : Nat × Nat) (m : Module) (safe : m.safe = true) : (reportTrip f m).safe = true := by
  unfold reportTrip
  repeat' (first | with_reducible assumption | with_reducible apply noteEvent_safe | with_reducible apply raise_safe | extract_lets | split | (simp only [safe_mk, coreOk_fold]) | with_reducible refine safe_choice ?_ ?_ | (dsimp +zetaDelta only))

theorem detectorTrip_safe (a : Fin 2) (k : Fin 8) (window : Nat) (m : Module) (safe : m.safe = true) : (detectorTrip a k window m).safe = true := by
  unfold detectorTrip
  repeat' (first | with_reducible assumption | with_reducible apply updDetector_safe | with_reducible apply reportTrip_safe | extract_lets | split | (simp only [safe_mk, coreOk_fold]) | with_reducible refine safe_choice ?_ ?_ | (dsimp +zetaDelta only))

theorem comparatorTrip_safe (a : Fin 2) (k : Fin 32) (levels : List Word) (m : Module) (safe : m.safe = true) : (comparatorTrip a k levels m).safe = true := by
  unfold comparatorTrip
  repeat' (first | with_reducible assumption | with_reducible apply updComparator_safe | with_reducible apply reportTrip_safe | extract_lets | split | (simp only [safe_mk, coreOk_fold]) | with_reducible refine safe_choice ?_ ?_ | (dsimp +zetaDelta only))

theorem settleTrip_safe (a : Fin 2) (detector : Bool) (k : Nat) (m : Module) (safe : m.safe = true) : (settleTrip a detector k m).safe = true := by
  unfold settleTrip
  repeat' (first | with_reducible assumption | with_reducible apply endCond_safe | extract_lets | split | (simp only [safe_mk, coreOk_fold]) | with_reducible refine safe_choice ?_ ?_ | (dsimp +zetaDelta only))

theorem comparatorRelease_safe (a : Fin 2) (k : Fin 32) (levels : List Word) (m : Module) (safe : m.safe = true) : (comparatorRelease a k levels m).safe = true := by
  unfold comparatorRelease
  repeat' (first | with_reducible assumption | with_reducible apply settleTrip_safe | with_reducible apply updComparator_safe | extract_lets | split | (simp only [safe_mk, coreOk_fold]) | with_reducible refine safe_choice ?_ ?_ | (dsimp +zetaDelta only))

theorem detectorRelease_safe (a : Fin 2) (k : Fin 8) (window : Nat) (m : Module) (safe : m.safe = true) : (detectorRelease a k window m).safe = true := by
  unfold detectorRelease
  repeat' (first | with_reducible assumption | with_reducible apply settleTrip_safe | with_reducible apply updDetector_safe | extract_lets | split | (simp only [safe_mk, coreOk_fold]) | with_reducible refine safe_choice ?_ ?_ | (dsimp +zetaDelta only))

theorem markTest_safe (a : Fin 2) (detector : Bool) (k : Nat) (m : Module) (safe : m.safe = true) :
    (markTest a detector k m).safe = true := by
  unfold markTest
  repeat' (first | with_reducible assumption | with_reducible apply updAfe_safe)

theorem selftestTwin_safe (h : Hdr) (a : Fin 2) (detector : Bool) (idle : Option Nat) (m : Module) (safe : m.safe = true) : (selftestTwin h a detector idle m).safe = true := by
  unfold selftestTwin
  repeat' (first | with_reducible assumption | with_reducible apply unlessFails_safe | with_reducible apply refuse_safe | with_reducible apply holdWrites_safe | with_reducible apply unlessFails_safe | extract_lets | split | simp only [Verdict.safe] | (simp only [safe_mk, coreOk_fold]) | with_reducible refine safe_choice ?_ ?_ | (dsimp +zetaDelta only))

theorem openWindow_safe (a : Fin 2) (m : Module) (safe : m.safe = true) : (openWindow a m).safe = true := by
  unfold openWindow
  repeat' (first | with_reducible assumption | with_reducible apply updAfe_safe | with_reducible apply reportTrip_safe | extract_lets | split | (simp only [safe_mk, coreOk_fold]) | with_reducible refine safe_choice ?_ ?_ | (dsimp +zetaDelta only))

theorem twinTestDone_safe (a : Fin 2) (reads : List Bool) (m : Module) (safe : m.safe = true) : (twinTestDone a reads m).safe = true := by
  unfold twinTestDone
  repeat' (first | with_reducible assumption | with_reducible apply crossWords_safe | with_reducible apply resolveWaiting_safe | with_reducible apply endCond_safe | with_reducible apply settleTrip_safe | with_reducible apply updAfe_safe | with_reducible apply raise_safe | extract_lets | split | (simp only [safe_mk, coreOk_fold]) | with_reducible refine safe_choice ?_ ?_ | (dsimp +zetaDelta only))

theorem twinOverdue_safe (a : Fin 2) (detector : Bool) (pair : Nat) (m : Module) (safe : m.safe = true) :
    (twinOverdue a detector pair m).safe = true := by
  unfold twinOverdue
  repeat' (first | with_reducible assumption | with_reducible apply raise_safe | extract_lets | split)

theorem regulationDecision_safe (j : Fin 4) (d : Nat) (m : Module) (safe : m.safe = true) :
    (regulationDecision j d m).safe = true := by
  unfold regulationDecision
  repeat' (first | with_reducible assumption | with_reducible apply updComparator_safe)

end Sys2Proof.Machine
end

