-- ==== Sys2Proof/Laws/Safe/Commit.lean ====
section
/-!
SUPPORT. The invariant is kept by every operation of Machine/Commit.lean.
-/

namespace Sys2Proof.Machine

theorem Region.resume_sound (r : Region) (h : r.sound = true) : r.resume.sound = true := by
  unfold Region.resume
  repeat' (first | exact h)


theorem countMiss_safe (c : Fin 2) (m : Module) (safe : m.safe = true) : (countMiss c m).safe = true := by
  unfold countMiss
  repeat' (first
    | with_reducible assumption | with_reducible apply updTraction_safe | with_reducible apply raise_safe
    | extract_lets | split)

theorem commitScan_safe (img : Image) (period : Nat) (m : Module) (safe : m.safe = true) : (commitScan img period m).safe = true := by
  unfold commitScan
  repeat' (first | with_reducible assumption | extract_lets | split | (simp only [safe_mk, coreOk_fold]) | with_reducible refine safe_choice ?_ ?_ | (dsimp +zetaDelta only))

theorem commitHost_safe (i : Instance) (m : Module) (safe : m.safe = true) : (commitHost i m).safe = true := by
  unfold commitHost
  repeat' (first
    | with_reducible assumption | (with_reducible refine foldl_safe _ ?_ _ _ ?_) | (intro _ _ hh) | extract_lets
    | split | (simp only [safe_mk, coreOk_fold]))

theorem commitFunction_safe (n : Fin 8) (i : Instance) (v m : Module) (safe : m.safe = true) :
    (commitFunction n i v m).safe = true := by
  unfold commitFunction
  extract_lets lib
  generalize lib = l
  refine safe_choice (commitHost_safe _ _ safe) ?_
  refine safe_choice (commitScan_safe _ _ _ safe) ?_
  refine safe_choice (commitPlausTraction_safe _ _ safe) ?_
  refine safe_choice (commitPlausConverter_safe _ _ safe) ?_
  refine safe_choice (updSys_safe _ _ safe) ?_
  cases channelOf n with
  | some c =>
    refine safe_choice (commitDecision_safe _ _ _ _ _ _ safe) ?_
    refine safe_choice (commitReference_safe _ _ _ _ safe) ?_
    refine safe_choice (commitLatch_safe _ _ _ _ safe) ?_
    exact safe_choice (commitStatistics_safe _ _ _ safe) safe
  | none =>
    refine safe_choice (commitDc_safe _ _ _ safe) ?_
    refine safe_choice (commitChopper_safe _ _ safe) ?_
    refine safe_choice (commitSupervision_safe _ _ safe) ?_
    refine safe_choice (commitPf_safe _ _ _ safe) ?_
    refine safe_choice (commitDb_safe _ _ _ safe) ?_
    refine safe_choice (commitPv_safe _ _ _ safe) ?_
    refine safe_choice (commitCh_safe _ _ _ safe) ?_
    refine safe_choice (commitAxLoops_safe _ _ _ safe) ?_
    exact safe_choice (commitAxMoves_safe _ _ safe) safe

theorem fallbackFunction_safe (n : Fin 8) (i : Instance) (m : Module) (safe : m.safe = true) : (fallbackFunction n i m).safe = true := by
  unfold fallbackFunction
  repeat' (first | with_reducible assumption | with_reducible apply fallbackCh_safe | with_reducible apply fallbackAxMoves_safe | with_reducible apply updSys_safe | with_reducible apply fallbackDecision_safe | extract_lets | split | (simp only [safe_mk, coreOk_fold]) | with_reducible refine safe_choice ?_ ?_ | (dsimp +zetaDelta only))

theorem sendCommitted_safe (n : Fin 8) (i : Instance) (m : Module) (safe : m.safe = true) : (sendCommitted n i m).safe = true := by
  unfold sendCommitted
  repeat' (first | with_reducible assumption | with_reducible apply crossWords_safe | with_reducible apply updCrossing_safe | extract_lets | split | (simp only [safe_mk, coreOk_fold]) | with_reducible refine safe_choice ?_ ?_ | (dsimp +zetaDelta only))

theorem pushLanding_safe (n : Fin 8) (clean : Bool) (i : Instance) (m : Module) (safe : m.safe = true) :
    (pushLanding n clean i m).safe = true := by
  unfold pushLanding
  repeat' (first | with_reducible assumption | extract_lets | split | (simp only [safe_mk, coreOk_fold]))



theorem withhold_safe (old new : Module) (safe_old : old.safe = true) (safe_new : new.safe = true) : (withhold old new).safe = true := by
  unfold withhold
  repeat' (first | with_reducible assumption | extract_lets | split | (simp only [safe_mk, coreOk_fold]) | with_reducible refine safe_choice ?_ ?_ | (dsimp +zetaDelta only))

theorem land_safe (l : Landing) (m : Module) (safe : m.safe = true) : (land l m).safe = true := by
  unfold land
  repeat' (first | with_reducible assumption | with_reducible apply withhold_safe | with_reducible apply fallbackFunction_safe | with_reducible apply commitFunction_safe | with_reducible apply Landing.view_safe | with_reducible apply Saved.view_safe | with_reducible apply restoreCarried_safe | with_reducible apply keepCheckpoint_safe | extract_lets | split | (simp only [safe_mk, coreOk_fold]) | with_reducible refine safe_choice ?_ ?_ | (dsimp +zetaDelta only))

theorem publish_safe (p : Publication) (m : Module) (safe : m.safe = true) : (publish p m).safe = true := by
  unfold publish
  repeat' (first
    | with_reducible assumption | (with_reducible refine foldl_safe _ ?_ _ _ ?_) | (intro _ _ hh) | extract_lets
    | split | (simp only [safe_mk, coreOk_fold]))

theorem settleDue_safe (m : Module) (safe : m.safe = true) : (settleDue m).safe = true := by
  unfold settleDue
  repeat' (first
    | with_reducible assumption | with_reducible apply land_safe | with_reducible apply publish_safe
    | (with_reducible refine foldl_safe _ ?_ _ _ ?_) | (intro _ _ hh) | extract_lets | split
    | (simp only [safe_mk, coreOk_fold]))

theorem narrowWrites_safe (n : Fin 8) (i : Instance) (m : Module) (safe : m.safe = true) : (narrowWrites n i m).safe
    = true := by
  unfold narrowWrites
  repeat' (first
    | with_reducible assumption | with_reducible apply updScrubber_safe
    | (with_reducible refine foldl_safe _ ?_ _ _ ?_) | (intro _ _ hh) | extract_lets | split)

theorem commitClean_safe (n : Fin 8) (i : Instance) (m : Module) (safe : m.safe = true) : (commitClean n i m).safe =
    true := by
  unfold commitClean
  repeat' (first
    | with_reducible assumption | with_reducible apply countOutcome_safe | with_reducible apply noteSlack_safe
    | with_reducible apply keepOutputs_safe | with_reducible apply applyStaged_safe
    | with_reducible apply narrowWrites_safe | with_reducible apply pushLanding_safe
    | with_reducible apply sendCommitted_safe | extract_lets | split)

theorem commitFallback_safe (n : Fin 8) (i : Instance) (o : Outcome) (m : Module) (safe : m.safe = true) :
    (commitFallback n i o m).safe = true := by
  unfold commitFallback
  repeat' (first
    | with_reducible assumption | with_reducible apply countOutcome_safe | with_reducible apply noteSlack_safe
    | with_reducible apply pushLanding_safe | with_reducible apply sendCommitted_safe)

theorem deferInstance_safe (n : Fin 8) (i : Instance) (m : Module) (safe : m.safe = true) :
    (deferInstance n i m).safe = true := by
  unfold deferInstance
  repeat' (first
    | with_reducible assumption | with_reducible apply updRegion_safe | with_reducible apply countOutcome_safe
    | with_reducible apply countMiss_safe | with_reducible apply beginUnits_sound | (intro _ hr)
    | (simp only [sound_mk, sound_fold]) | extract_lets | split)

theorem settleInstance_safe (n : Fin 8) (i : Instance) (m : Module) (safe : m.safe = true) :
    (settleInstance n i m).safe = true := by
  unfold settleInstance
  repeat' (first
    | with_reducible assumption | with_reducible apply commitClean_safe | with_reducible apply deferInstance_safe
    | with_reducible apply commitFallback_safe | extract_lets | split)

theorem evaluate_safe (n : Fin 8) (deferred : Bool) (m : Module) (safe : m.safe = true) :
    (evaluate n deferred m).safe = true := by
  unfold evaluate
  repeat' (first
    | with_reducible assumption | with_reducible apply updRegion_safe | with_reducible apply tapToggle_safe
    | with_reducible apply settleInstance_safe | with_reducible apply rollback_safe
    | with_reducible apply checkRate_safe | with_reducible apply Region.release_sound
    | (with_reducible refine foldl_safe _ ?_ _ _ ?_) | (intro _ _ hh) | (intro _ hr)
    | (simp only [sound_mk, sound_fold]) | extract_lets | split)

theorem runUnits_safe (n : Fin 8) (moments : List (List (Nat × Bool))) (upsets : List (Nat × Nat × Word)) (m : Module)
    (safe : m.safe = true) : (runUnits n moments upsets m).safe = true := by
  unfold runUnits
  refine updRegion_safe _ _ (fun r hr => ?_) safe
  refine sound_of_same (sameStore_trans (foldl_same _ (fun r asked => ?_) _ _)
    (foldl_same _ (fun r u => ?_) _ _)) hr
  · exact runMoment_same _ _ _ _
  · exact upset_same _ _ _ _


theorem collectorAccept_safe (n : Fin 8) (moments : List (List (Nat × Bool))) (upsets : List (Nat × Nat × Word))
    (m : Module) (safe : m.safe = true) : (collectorAccept n moments upsets m).safe = true := by
  unfold collectorAccept
  repeat' (first
    | with_reducible assumption | with_reducible apply accept_safe | with_reducible apply runUnits_safe
    | extract_lets | split)

theorem laneComplete_safe (n : Fin 8) (unit : Fin 16) (e : Nat) (second : Bool) (branch : Nat) (m : Module) (safe : m.safe = true) : (laneComplete n unit e second branch m).safe = true := by
  unfold laneComplete
  repeat' (first | with_reducible assumption | with_reducible apply request_safe | extract_lets | split | (simp only [safe_mk, coreOk_fold]) | with_reducible refine safe_choice ?_ ?_ | (dsimp +zetaDelta only))

theorem resolveKey_safe (n : Fin 8) (unit : Fin 16) (e : Nat) (second : Bool) (key : Fin 32) (m : Module) (safe : m.safe = true) : (resolveKey n unit e second key m).safe = true := by
  unfold resolveKey
  repeat' (first | with_reducible assumption | with_reducible apply Instance.underEpoch_safe | with_reducible apply request_safe | extract_lets | split | (simp only [safe_mk, coreOk_fold]) | with_reducible refine safe_choice ?_ ?_ | (dsimp +zetaDelta only))

theorem checkpointError_safe (n : Fin 8) (m : Module) (safe : m.safe = true) : (checkpointError n m).safe = true := by
  unfold checkpointError
  repeat' (first
    | with_reducible assumption | with_reducible apply raise_safe | with_reducible apply updRegion_safe
    | (intro _ hr) | (simp only [sound_mk, sound_fold]) | extract_lets | split)

theorem checkpointRebuilt_safe (n : Fin 8) (m : Module) (safe : m.safe = true) : (checkpointRebuilt n m).safe = true
    := by
  unfold checkpointRebuilt
  repeat' (first
    | with_reducible assumption | with_reducible apply updRegion_safe | with_reducible apply endCond_safe
    | with_reducible apply keepCheckpoint_safe | (intro _ hr) | (simp only [sound_mk, sound_fold])
    | with_reducible exact sound_empty | with_reducible apply sound_taken | with_reducible apply sound_memory
    | with_reducible apply sound_kept | extract_lets | split)

theorem zeroOutputs_safe (n : Fin 8) (m : Module) (safe : m.safe = true) : (zeroOutputs n m).safe = true := by
  unfold zeroOutputs
  repeat' (first
    | with_reducible assumption | with_reducible apply updTraction_safe | extract_lets | split
    | (simp only [safe_mk, coreOk_fold]) | with_reducible refine safe_choice ?_ ?_ | (dsimp +zetaDelta only))

theorem initCarried_safe (n : Fin 8) (m : Module) (safe : m.safe = true) : (initCarried n m).safe = true := by
  unfold initCarried
  repeat' (first
    | with_reducible assumption | with_reducible apply restoreCarried_safe | extract_lets | split
    | (simp only [safe_mk, coreOk_fold]) | with_reducible refine safe_choice ?_ ?_)

theorem zeroRegions_safe (d : Nat) (m : Module) (safe : m.safe = true) : (zeroRegions d m).safe = true := by
  unfold zeroRegions
  repeat' (first
    | with_reducible assumption | with_reducible apply zeroOutputs_safe
    | (with_reducible refine foldl_safe _ ?_ _ _ ?_) | (intro _ _ hh))

theorem selftestFabric_safe (h : Hdr) (d : Fin 2) (m : Module) (safe : m.safe = true) : (selftestFabric h d m).safe
    = true := by
  unfold selftestFabric
  repeat' (first
    | with_reducible assumption | with_reducible apply unlessFails_safe | with_reducible apply zeroRegions_safe
    | with_reducible apply mapRegions_safe | with_reducible apply unlessFails_safe
    | with_reducible apply Region.stop_sound | (intro _ hr) | (simp only [sound_mk, sound_fold]) | extract_lets
    | split | simp only [Verdict.safe])

theorem checkpointFilled_safe (n : Fin 8) (m : Module) (safe : m.safe = true) : (checkpointFilled n m).safe = true
    := by
  unfold checkpointFilled
  repeat' (first | with_reducible assumption | with_reducible apply endCond_safe)

theorem restartRegions_safe (d : Nat) (m : Module) (safe : m.safe = true) : (restartRegions d m).safe = true := by
  unfold restartRegions
  repeat' (first
    | with_reducible assumption | with_reducible apply checkpointFilled_safe | with_reducible apply initCarried_safe
    | with_reducible apply zeroRegions_safe | with_reducible apply mapRegions_safe
    | with_reducible apply Region.restart_sound | (with_reducible refine foldl_safe _ ?_ _ _ ?_) | (intro _ _ hh))

theorem fabricBistDone_safe (d : Fin 2) (failed : Nat) (m : Module) (safe : m.safe = true) :
    (fabricBistDone d failed m).safe = true := by
  unfold fabricBistDone
  repeat' (first
    | with_reducible assumption | with_reducible apply updDie_safe | with_reducible apply updRegion_safe
    | with_reducible apply raise_safe | with_reducible apply Region.resume_sound
    | (with_reducible refine foldl_safe _ ?_ _ _ ?_) | (intro _ _ hh) | (intro _ hr)
    | (simp only [sound_mk, sound_fold]) | with_reducible exact sound_empty | with_reducible apply sound_taken
    | with_reducible apply sound_memory | with_reducible apply sound_kept | extract_lets | split)

theorem setLive_safe (id : Nat) (w : Word) (m : Module) (safe : m.safe = true) : (setLive id w m).safe = true := by
  unfold setLive
  repeat' (first
    | with_reducible assumption | with_reducible apply setMode_safe | extract_lets | split
    | (simp only [safe_mk, coreOk_fold]))

theorem takeLive_safe (n : Fin 8) (m : Module) (safe : m.safe = true) : (takeLive n m).safe = true := by
  unfold takeLive
  repeat' (first
    | with_reducible assumption | with_reducible apply keepCheckpoint_safe | with_reducible apply setLive_safe
    | (with_reducible refine foldl_safe _ ?_ _ _ ?_) | (intro _ _ hh) | extract_lets | split
    | (simp only [safe_mk, coreOk_fold]) | with_reducible refine safe_choice ?_ ?_ | (dsimp +zetaDelta only))

theorem freshEntry_safe (n : Fin 8) (lib : Nat) (m : Module) (safe : m.safe = true) :
    (freshEntry n lib m).safe = true := by
  unfold freshEntry
  by_cases h : n.val < 2
  · rw [dif_pos h]
    exact updTraction_safe _ _ _ safe
  · rw [dif_neg h]
    repeat' (with_reducible refine safe_choice ?_ ?_)
    all_goals exact safe

theorem keepLandings_safe (n : Fin 8) (m : Module) (safe : m.safe = true) : (keepLandings n m).safe = true := by
  unfold keepLandings
  repeat' (first | with_reducible assumption | extract_lets | split | (simp only [safe_mk, coreOk_fold]) | with_reducible refine safe_choice ?_ ?_ | (dsimp +zetaDelta only))

theorem switchRegion_safe (n : Fin 8) (m : Module) (safe : m.safe = true) : (switchRegion n m).safe = true := by
  unfold switchRegion
  repeat' (first | with_reducible assumption | with_reducible apply recaptureChanged_safe | with_reducible apply restartPorts_safe | with_reducible apply keepLandings_safe | with_reducible apply updRegion_safe | with_reducible apply updEpochs_safe | with_reducible apply restoreCarried_safe | with_reducible apply freshEntry_safe | with_reducible apply updTraction_safe | with_reducible apply setMode_safe | with_reducible apply keepCheckpoint_safe | with_reducible apply settlePending_safe | with_reducible apply followEnables_safe | with_reducible apply clampLive_safe | with_reducible apply reload_sound | with_reducible apply Region.clearSlack_sound | (with_reducible refine foldl_safe _ ?_ _ _ ?_) | (intro _ _ hh) | (intro _ hr) | (simp only [sound_mk, sound_fold]) | with_reducible exact sound_empty | with_reducible apply sound_taken | with_reducible apply sound_memory | with_reducible apply sound_kept | extract_lets | split | (simp only [safe_mk, coreOk_fold]) | with_reducible refine safe_choice ?_ ?_ | (dsimp +zetaDelta only))

theorem takeReleases_safe (n : Fin 8) (m : Module) (safe : m.safe = true) : (takeReleases n m).safe = true := by
  unfold takeReleases
  repeat' (first
    | with_reducible assumption | with_reducible apply releaseNow_safe
    | (with_reducible refine foldl_safe _ ?_ _ _ ?_) | (intro _ _ hh) | extract_lets | split)

theorem takeLoops_safe (n : Fin 8) (m : Module) (safe : m.safe = true) : (takeLoops n m).safe = true := by
  unfold takeLoops
  repeat' (first
    | with_reducible assumption | with_reducible apply takeLoop_safe | with_reducible apply positionLost_safe
    | with_reducible apply takeDc_safe | with_reducible apply takeCharger_safe
    | with_reducible apply takeActuators_safe | extract_lets | split)

theorem startRegion_safe (n : Fin 8) (m : Module) (safe : m.safe = true) : (startRegion n m).safe = true := by
  unfold startRegion
  repeat' (first
    | with_reducible assumption | with_reducible apply updRegion_safe | with_reducible apply rollback_safe
    | (intro _ hr) | (simp only [sound_mk, sound_fold]) | extract_lets | split)

theorem periodBoundary_safe (n : Fin 8) (m : Module) (safe : m.safe = true) : (periodBoundary n m).safe = true := by
  unfold periodBoundary
  repeat' (first
    | with_reducible assumption | with_reducible apply switchRegion_safe | with_reducible apply takeLive_safe
    | with_reducible apply takeReleases_safe | with_reducible apply updRegion_safe
    | with_reducible apply takeLoops_safe | with_reducible apply startRegion_safe
    | with_reducible apply Region.stop_sound | (intro _ hr) | (simp only [sound_mk, sound_fold]) | extract_lets
    | split)

end Sys2Proof.Machine
end

