-- ==== Sys2Proof/Laws/Safe/Redundancy.lean ====
section
/-!
SUPPORT. The invariant is kept by every operation of Machine/Redundancy.lean.
-/

namespace Sys2Proof.Machine

theorem updLockstep_safe (f : Lockstep → Lockstep) (m : Module) (safe : m.safe = true)
    (same : (f m.lockstep).mode = m.lockstep.mode) : (updLockstep f m).safe = true := by
  unfold updLockstep
  rw [safe_mk, same]
  exact safe

/-- The mode changes, to split mode from nothing else and from it to nothing else. -/
theorem updMode_safe (f : Lockstep → Lockstep) (m : Module) (safe : m.safe = true)
    (kept : (f m.lockstep).mode = .split ↔ m.lockstep.mode = .split) : (updLockstep f m).safe = true := by
  unfold updLockstep
  rw [safe_mk]
  refine safe_withMode safe ?_
  have h := safe_mode safe
  unfold modeOk at *
  rw [beq_iff_eq] at *
  rw [← h]
  by_cases c : m.lockstep.mode = .split
  · rw [kept.mpr c, c]
  · have d : (f m.lockstep).mode ≠ .split := fun e => c (kept.mp e)
    rw [beq_eq_false_iff_ne.mpr c, beq_eq_false_iff_ne.mpr d]


theorem lockstepLost_safe (detail : Nat) (m : Module) (safe : m.safe = true) : (lockstepLost detail m).safe = true
    := by
  unfold lockstepLost
  refine raise_safe _ _ _ _ (updMode_safe _ _ safe ?_)
  dsimp only
  split <;> simp_all


theorem stopForCompareLost_safe (m : Module) (safe : m.safe = true) : (stopForCompareLost m).safe = true := by
  unfold stopForCompareLost
  repeat' (first
    | with_reducible assumption | with_reducible apply stopSession_safe | with_reducible apply endDcExport_safe
    | with_reducible apply stopExport_safe | extract_lets | split)

theorem noteTests_safe (main fallback parity atCheckpoint : Bool) (m : Module) (safe : m.safe = true) :
    (noteTests main fallback parity atCheckpoint m).safe = true := by
  unfold noteTests
  repeat' (first
    | with_reducible assumption | with_reducible apply updLockstep_safe | with_reducible apply raise_safe
    | with_reducible apply stopForCompareLost_safe | rfl | extract_lets | split | (simp only [safe_mk, coreOk_fold])
    | with_reducible refine safe_choice ?_ ?_)

theorem endRollback_safe (m : Module) (safe : m.safe = true) : (endRollback m).safe = true := by
  unfold endRollback
  repeat' (first
    | with_reducible assumption | with_reducible apply raiseAt_safe | with_reducible apply updLockstep_safe
    | with_reducible apply rollback_safe | with_reducible apply raise_safe | rfl | extract_lets | split)

theorem mismatch_safe (core : Fin 2) (addr : Nat) (parity : Bool) (m : Module) (safe : m.safe = true) :
    (mismatch core addr parity m).safe = true := by
  unfold mismatch
  split
  · exact safe
  · extract_lets d m1
    have h1 : m1.safe = true := updLockstep_safe _ _ safe rfl
    split
    · exact lockstepLost_safe _ _ h1
    · exact updLockstep_safe _ _ h1 rfl

/-- The mode of the pair is none of what a retirement touches. -/
theorem retire0_mode (r held : Retired) (l : Lockstep) : (retire0 r held l).mode = l.mode := by
  unfold retire0
  split <;> rfl

theorem storeSram_mode (t : Transaction) (l : Lockstep) : (storeSram t l).mode = l.mode := by
  unfold storeSram
  split <;> rfl

theorem issue_mode (r : Retired) (l : Lockstep) : (issue r l).mode = l.mode := by
  unfold issue
  split
  · rfl
  · split <;> exact storeSram_mode _ _

theorem alone_mode (results : Retired → Lockstep → Lockstep) (r : Retired) (l : Lockstep)
    (h : ∀ r l, (results r l).mode = l.mode) : (alone results r l).mode = l.mode := by
  unfold alone
  extract_lets data l1
  split
  · exact (storeSram_mode _ _).trans (h _ _)
  · exact h _ _

theorem matched_mode (d : DelayReg) (r : Retired) (l : Lockstep) : (matched d r l).mode = l.mode := issue_mode _ _

theorem retire_safe (x : Retirement) (p : Bool × Module) (safe : p.2.safe = true) : (retire x p).2.safe = true := by
  unfold retire
  extract_lets m l
  cases x with
  | core0 r held =>
    dsimp only
    split
    · exact updLockstep_safe _ _ safe (retire0_mode _ _ _)
    · split
      · exact safe
      · exact updLockstep_safe _ _ safe (alone_mode _ _ _ fun _ _ => rfl)
  | core1 r =>
    dsimp only
    split
    · exact updLockstep_safe _ _ safe (alone_mode _ _ _ fun _ _ => rfl)
    split
    · exact safe
    · split
      · exact safe
      · split
        · exact mismatch_safe _ _ _ _ safe
        · split
          · exact lockstepLost_safe _ _ safe
          · exact updLockstep_safe _ _ safe (matched_mode _ _ _)

theorem retireAll_safe (xs : List Retirement) : ∀ p : Bool × Module, p.2.safe = true → (retireAll xs p).2.safe =
    true := by
  induction xs with
  | nil => intro p safe; exact safe
  | cons x xs ih =>
    intro p safe
    unfold retireAll
    extract_lets q
    split
    · exact retire_safe _ _ safe
    · exact ih _ (retire_safe _ _ safe)


theorem saveCheckpoint_safe (m : Module) (safe : m.safe = true) : (saveCheckpoint m).safe = true := by
  unfold saveCheckpoint
  repeat' (first | with_reducible assumption | with_reducible apply updLockstep_safe | rfl)

theorem checkpoint_safe (main fallback parity : Bool) (ran : List Retirement) (m : Module) (safe : m.safe = true) :
    (checkpoint main fallback parity ran m).safe = true := by
  unfold checkpoint
  extract_lets p m1 m2
  have h1 : m1.safe = true := retireAll_safe _ _ safe
  split
  · exact h1
  · have h2 : m2.safe = true := noteTests_safe _ _ _ _ _ h1
    split
    · exact mismatch_safe _ _ _ _ h2
    · refine saveCheckpoint_safe _ ?_
      split
      · exact endRollback_safe _ h2
      · exact h2


theorem runPair_safe (ran : List Retirement) (m : Module) (safe : m.safe = true) : (runPair ran m).safe = true :=
  retireAll_safe _ _ safe


theorem retryFailed_safe (ran : List Retirement) (m : Module) (safe : m.safe = true) : (retryFailed ran m).safe =
    true := by
  unfold retryFailed
  repeat' (first | with_reducible assumption | with_reducible apply runPair_safe | extract_lets | split)

theorem selftestSup_safe (h : Hdr) (m : Module) (safe : m.safe = true) : (selftestSup h m).safe = true := by
  unfold selftestSup
  repeat' (first
    | with_reducible assumption | with_reducible apply unlessFails_safe | with_reducible apply updLockstep_safe
    | with_reducible apply unlessFails_safe | rfl | extract_lets | split | simp only [Verdict.safe])

theorem resumePair_mode (now : Tick) (l : Lockstep) : (resumePair now l).mode = l.mode := by
  unfold resumePair
  split <;> rfl

theorem supBistDone_safe (core main fallback parity : Bool) (m : Module) (safe : m.safe = true) :
    (supBistDone core main fallback parity m).safe = true := by
  unfold supBistDone
  extract_lets phase more bad m1 m2 m3
  split
  · exact safe
  · have h1 : m1.safe = true := updLockstep_safe _ _ safe (resumePair_mode m.time.count _)
    have h2 : m2.safe = true := by
      simp only [m2]
      split
      · exact h1
      · exact updDie_safe _ _ _ h1
    have h3 : m3.safe = true := by
      simp only [m3]
      split
      · exact noteTests_safe _ _ _ _ _ h2
      · exact h2
    split
    · exact lockstepLost_safe _ _ h3
    · exact h3

theorem debugAttach_safe (h : Hdr) (ws : List Word) (m : Module) (safe : m.safe = true) :
    (debugAttach h ws m).safe = true := by
  unfold debugAttach
  apply unlessFails_safe
  simp only [Verdict.safe]
  refine updMode_safe _ _ safe ?_
  dsimp only
  split <;> simp_all


end Sys2Proof.Machine
end

