-- ==== Sys2Proof/Laws/Safe/Memory.lean ====
section
/-!
SUPPORT. The invariant is kept by every operation of Machine/Memory.lean.
-/

namespace Sys2Proof.Machine

theorem noteCorrected_safe (b addr : Nat) (m : Module) (safe : m.safe = true) : (noteCorrected b addr m).safe = true
    := by
  unfold noteCorrected
  repeat' (first
    | with_reducible assumption | with_reducible apply updScrubber_safe | with_reducible apply raise_safe
    | extract_lets | split)

theorem noteRepair_safe (b addr : Nat) (repaired : Bool) (m : Module) (safe : m.safe = true) : (noteRepair b addr repaired m).safe = true := by
  unfold noteRepair
  repeat' (first | with_reducible assumption | with_reducible apply raise_safe | extract_lets | split | (simp only [safe_mk, coreOk_fold]) | with_reducible refine safe_choice ?_ ?_ | (dsimp +zetaDelta only))

theorem objectEcc_safe (p : Fin 4) (object : Nat) (m : Module) (safe : m.safe = true) : (objectEcc p object m).safe
    = true := by
  unfold objectEcc
  repeat' (first | with_reducible assumption | with_reducible apply raise_safe | with_reducible apply updCan_safe)

theorem markBad_safe (b addr : Nat) (m : Module) (safe : m.safe = true) : (markBad b addr m).safe = true := by
  unfold markBad
  repeat' (first | with_reducible assumption | extract_lets | split | (simp only [safe_mk, coreOk_fold]))

theorem clearBad_safe (p : Nat → Bool) (m : Module) (safe : m.safe = true) : (clearBad p m).safe = true := by
  unfold clearBad
  repeat' (first | with_reducible assumption | extract_lets | split | (simp only [safe_mk, coreOk_fold]))

theorem fabricUncorrectable_safe (b addr : Nat) (scrub : Bool) (entry : Nat) (m : Module) (safe : m.safe = true) : (fabricUncorrectable b addr scrub entry m).safe = true := by
  unfold fabricUncorrectable
  repeat' (first | with_reducible assumption | with_reducible apply noteRepair_safe | with_reducible apply checkpointError_safe | with_reducible apply markBad_safe | with_reducible apply scrub_safe | with_reducible apply updRegion_safe | with_reducible apply raise_safe | with_reducible apply spoil_sound | with_reducible apply zeroScratch_sound | (intro _ hr) | (simp only [sound_mk, sound_fold]) | with_reducible exact sound_empty | with_reducible apply sound_taken | with_reducible apply sound_memory | with_reducible apply sound_kept | extract_lets | split | (simp only [safe_mk, coreOk_fold]) | with_reducible refine safe_choice ?_ ?_ | (dsimp +zetaDelta only))

theorem uncorrectable_safe (b addr : Nat) (scrub : Bool) (entry : Nat) (m : Module) (safe : m.safe = true) : (uncorrectable b addr scrub entry m).safe = true := by
  unfold uncorrectable
  repeat' (first | with_reducible assumption | with_reducible apply updScrubber_safe | with_reducible apply raise_safe | with_reducible apply markBad_safe | with_reducible apply scrub_safe | with_reducible apply mismatch_safe | with_reducible apply objectEcc_safe | with_reducible apply noteRepair_safe | with_reducible apply updAfe_safe | with_reducible apply fabricUncorrectable_safe | extract_lets | split | (simp only [safe_mk, coreOk_fold]) | with_reducible refine safe_choice ?_ ?_ | (dsimp +zetaDelta only))

theorem readError_safe (b addr : Nat) (bad scrub : Bool) (entry : Nat) (m : Module) (safe : m.safe = true) :
    (readError b addr bad scrub entry m).safe = true := by
  unfold readError
  repeat' (first
    | with_reducible assumption | with_reducible apply uncorrectable_safe | with_reducible apply scrub_safe
    | with_reducible apply noteCorrected_safe | extract_lets | split)

theorem wordRewrite_safe (b addr : Nat) (m : Module) (safe : m.safe = true) : (wordRewrite b addr m).safe = true := by
  unfold wordRewrite
  repeat' (first
    | with_reducible assumption | with_reducible apply updRegion_safe | (intro _ hr)
    | (simp only [sound_mk, sound_fold]) | with_reducible exact sound_empty | with_reducible apply sound_taken
    | with_reducible apply sound_memory | with_reducible apply sound_kept | extract_lets | split
    | (simp only [safe_mk, coreOk_fold]))

theorem fillMemory_safe (h : Hdr) (ws : List Word) (m : Module) (safe : m.safe = true) : (fillMemory h ws m).safe =
    true := by
  unfold fillMemory
  repeat' (first
    | with_reducible assumption | with_reducible apply unlessFails_safe | with_reducible apply zeroRegions_safe
    | with_reducible apply mapRegions_safe | with_reducible apply unlessFails_safe
    | with_reducible apply Region.stop_sound | (intro _ hr) | (simp only [sound_mk, sound_fold])
    | with_reducible exact sound_empty | with_reducible apply sound_taken | with_reducible apply sound_memory
    | with_reducible apply sound_kept | extract_lets | split | simp only [Verdict.safe]
    | (simp only [safe_mk, coreOk_fold]))

theorem filled_safe (b : Nat) (m : Module) (safe : m.safe = true) : (filled b m).safe = true := by
  unfold filled
  repeat' (first
    | with_reducible assumption | with_reducible apply endCond_safe | with_reducible apply clearBad_safe
    | with_reducible apply updAfe_safe | with_reducible apply initCarried_safe | with_reducible apply updRegion_safe
    | with_reducible apply checkpointFilled_safe | with_reducible apply keepCheckpoint_safe
    | with_reducible apply updCluster_sound | (intro _ hr) | (simp only [sound_mk, sound_fold])
    | with_reducible exact sound_empty | with_reducible apply sound_taken | with_reducible apply sound_memory
    | with_reducible apply sound_kept | extract_lets | split | (simp only [safe_mk, coreOk_fold]))

theorem fillDone_safe (d : Fin 46) (m : Module) (safe : m.safe = true) : (fillDone d m).safe = true := by
  unfold fillDone
  extract_lets blocks m1
  split
  · exact safe
  · have h1 : m1.safe = true := foldl_safe _ (fun _ _ h => filled_safe _ _ h) _ _ safe
    rw [safe_mk]
    refine safe_withRegions (m := m1) h1 (regionsOk_ofFn _ fun n => ?_)
    split
    · exact Region.resume_sound _ (safe_region h1 n)
    · exact safe_region h1 n


theorem checkLap_safe (s : Fin 5) (lap : Nat) (completed : Bool) (m : Module) (safe : m.safe = true) :
    (checkLap s lap completed m).safe = true := by
  unfold checkLap
  repeat' (first
    | with_reducible assumption | with_reducible apply raise_safe | with_reducible apply endCond_safe | extract_lets
    | split)

theorem scrubStep_safe (s : Fin 5) (filling : List Nat) (m : Module) (safe : m.safe = true) :
    (scrubStep s filling m).safe = true := by
  unfold scrubStep
  repeat' (first
    | with_reducible assumption | with_reducible apply updScrubber_safe | with_reducible apply checkLap_safe
    | extract_lets | split)

theorem scrub_safe (s : Fin 5) (m : Module) (safe : m.safe = true) : (scrub s m).safe = true := by
  unfold scrub
  repeat' (first | with_reducible assumption | with_reducible apply scrubStep_safe | extract_lets | split)

theorem scrubLap_safe (s : Fin 5) (m : Module) (safe : m.safe = true) : (scrubLap s m).safe = true := by
  unfold scrubLap
  repeat' (first | with_reducible assumption | with_reducible apply checkLap_safe | extract_lets | split)

theorem restartLap_safe (s : Fin 5) (m : Module) (safe : m.safe = true) : (restartLap s m).safe = true := by
  unfold restartLap
  repeat' (first | with_reducible assumption | with_reducible apply updScrubber_safe | extract_lets | split | (simp only [safe_mk, coreOk_fold]) | with_reducible refine safe_choice ?_ ?_ | (dsimp +zetaDelta only))

theorem scrubControl_safe (h : Hdr) (ws : List Word) (m : Module) (safe : m.safe = true) : (scrubControl h ws m).safe = true := by
  unfold scrubControl
  repeat' (first | with_reducible assumption | with_reducible apply unlessFails_safe | with_reducible apply restartLap_safe | with_reducible apply holdWrites_safe | with_reducible apply unlessFails_safe | extract_lets | split | simp only [Verdict.safe] | (simp only [safe_mk, coreOk_fold]) | with_reducible refine safe_choice ?_ ?_ | (dsimp +zetaDelta only))

theorem setLevel_safe (d : Fin 46) (new : Nat) (m : Module) (safe : m.safe = true) : (setLevel d new m).safe = true
    := by
  unfold setLevel
  repeat' (first
    | with_reducible assumption | with_reducible apply updDie_safe | with_reducible apply raise_safe
    | with_reducible apply endCond_safe | (with_reducible refine foldl_safe _ ?_ _ _ ?_) | (intro _ _ hh)
    | extract_lets | split)

theorem answerAllTemps_safe (m : Module) (safe : m.safe = true) : (answerAllTemps m).safe = true := by
  unfold answerAllTemps
  repeat' (first | with_reducible assumption | extract_lets | split | (simp only [safe_mk, coreOk_fold]) | with_reducible refine safe_choice ?_ ?_ | (dsimp +zetaDelta only))

theorem answerTemps_safe (d : Fin 46) (m : Module) (safe : m.safe = true) : (answerTemps d m).safe = true := by
  unfold answerTemps
  repeat' (first | with_reducible assumption | with_reducible apply answerAllTemps_safe | extract_lets | split | (simp only [safe_mk, coreOk_fold]) | with_reducible refine safe_choice ?_ ?_ | (dsimp +zetaDelta only))

theorem tempMeasured_safe (d : Fin 46) (v10 v100 t : Word) (m : Module) (safe : m.safe = true) : (tempMeasured d v10 v100 t m).safe = true := by
  unfold tempMeasured
  repeat' (first | with_reducible assumption | with_reducible apply updDie_safe | with_reducible apply endCond_safe | with_reducible apply raise_safe | with_reducible apply setLevel_safe | with_reducible apply answerTemps_safe | with_reducible apply crossWords_safe | extract_lets | split | (simp only [safe_mk, coreOk_fold]) | with_reducible refine safe_choice ?_ ?_ | (dsimp +zetaDelta only))

theorem measureTemp_safe (h : Hdr) (ws : List Word) (m : Module) (safe : m.safe = true) : (measureTemp h ws m).safe = true := by
  unfold measureTemp
  repeat' (first | with_reducible assumption | with_reducible apply unlessFails_safe | with_reducible apply sendCommand_safe | with_reducible apply Module.withWaiting_safe | with_reducible apply unlessFails_safe | (with_reducible refine foldl_safe _ ?_ _ _ ?_) | (intro _ _ hh) | extract_lets | split | simp only [Verdict.safe] | (simp only [safe_mk, coreOk_fold]) | with_reducible refine safe_choice ?_ ?_ | (dsimp +zetaDelta only))

theorem thermStale_safe (d : Fin 46) (m : Module) (safe : m.safe = true) : (thermStale d m).safe = true := by
  unfold thermStale
  repeat' (first | with_reducible assumption | with_reducible apply raise_safe | extract_lets | split)

theorem freshFabric_safe (d : Nat) (m : Module) (safe : m.safe = true) : (freshFabric d m).safe = true := by
  unfold freshFabric
  repeat' (first
    | with_reducible assumption | with_reducible apply restartRegions_safe | with_reducible apply mapRegions_safe
    | with_reducible apply clearBad_safe | with_reducible apply endCond_safe
    | (with_reducible refine foldl_safe _ ?_ _ _ ?_) | (intro _ _ hh) | (intro _ hr)
    | (simp only [sound_mk, sound_fold]) | extract_lets | split | (simp only [safe_mk, coreOk_fold]))

theorem freshAfe_safe (a : Fin 2) (m : Module) (safe : m.safe = true) : (freshAfe a m).safe = true := by
  unfold freshAfe
  repeat' (first
    | with_reducible assumption | with_reducible apply endCond_safe | with_reducible apply clearBad_safe
    | with_reducible apply updAfe_safe)

theorem freshGdc_safe (m : Module) (safe : m.safe = true) : (freshGdc m).safe = true := by
  unfold freshGdc
  repeat' (first
    | with_reducible assumption | with_reducible apply raisePort_safe | with_reducible refine foldl_safe _ ?_ _ _ ?_
    | (intro _ _ hh) | extract_lets | split | (simp only [safe_mk, coreOk_fold]))

theorem freshDie_safe (d : Fin 46) (m : Module) (safe : m.safe = true) : (freshDie d m).safe = true := by
  unfold freshDie
  repeat' (first
    | with_reducible assumption | with_reducible apply freshFabric_safe | with_reducible apply freshAfe_safe
    | with_reducible apply freshGdc_safe | extract_lets | split | (simp only [safe_mk, coreOk_fold]))

theorem freshCrossings_safe (d : Nat) (m : Module) (safe : m.safe = true) : (freshCrossings d m).safe = true := by
  unfold freshCrossings
  repeat' (first | with_reducible assumption | extract_lets | split | (simp only [safe_mk, coreOk_fold]))

theorem stallAccesses_safe (d : Nat) (m : Module) (safe : m.safe = true) : (stallAccesses d m).safe = true := by
  unfold stallAccesses
  repeat' (first
    | with_reducible assumption | with_reducible apply updCrossing_safe | extract_lets | split
    | (simp only [safe_mk, coreOk_fold]) | with_reducible refine safe_choice ?_ ?_ | (dsimp +zetaDelta only))

theorem holdDie_safe (d : Fin 46) (m : Module) (safe : m.safe = true) : (holdDie d m).safe = true := by
  unfold holdDie
  repeat' (first | with_reducible assumption | with_reducible apply stallAccesses_safe | with_reducible apply updDie_safe | with_reducible apply freshCrossings_safe | with_reducible apply withhold_safe | with_reducible apply zeroRegions_safe | with_reducible apply mapRegions_safe | with_reducible apply lgdOff_safe | with_reducible apply Region.stop_sound | (intro _ hr) | (simp only [sound_mk, sound_fold]) | extract_lets | split | (simp only [safe_mk, coreOk_fold]) | with_reducible refine safe_choice ?_ ?_ | (dsimp +zetaDelta only))

theorem sendResetFrames_safe (d : Fin 46) (m : Module) (safe : m.safe = true) : (sendResetFrames d m).safe = true := by
  unfold sendResetFrames
  repeat' (first | with_reducible assumption | extract_lets | split | (simp only [safe_mk, coreOk_fold]) | with_reducible refine safe_choice ?_ ?_ | (dsimp +zetaDelta only))

theorem releaseDie_safe (d : Fin 46) (m : Module) (safe : m.safe = true) : (releaseDie d m).safe = true := by
  unfold releaseDie
  repeat' (first
    | with_reducible assumption | with_reducible apply freshDie_safe | with_reducible apply freshCrossings_safe
    | with_reducible apply updDie_safe)

theorem unstick_safe (d : Fin 46) (m : Module) (safe : m.safe = true) : (unstick d m).safe = true := by
  unfold unstick
  repeat' (first | with_reducible assumption | with_reducible apply mapRegions_safe | (intro _ hr) | (simp only [sound_mk, sound_fold]) | extract_lets | split | (simp only [safe_mk, coreOk_fold]) | with_reducible refine safe_choice ?_ ?_ | (dsimp +zetaDelta only))

theorem resetDie_safe (h : Hdr) (ws : List Word) (m : Module) (safe : m.safe = true) : (resetDie h ws m).safe = true := by
  unfold resetDie
  repeat' (first | with_reducible assumption | with_reducible apply unlessFails_safe | with_reducible apply holdDie_safe | with_reducible apply sendResetFrames_safe | with_reducible apply unstick_safe | with_reducible apply Module.withWaiting_safe | with_reducible apply unlessFails_safe | extract_lets | split | simp only [Verdict.safe] | (simp only [safe_mk, coreOk_fold]) | with_reducible refine safe_choice ?_ ?_ | (dsimp +zetaDelta only))

theorem dieResetRelease_safe (d : Fin 46) (m : Module) (safe : m.safe = true) : (dieResetRelease d m).safe = true :=
    by
  unfold dieResetRelease
  repeat' (first
    | with_reducible assumption | with_reducible apply resolveWaiting_safe | with_reducible apply releaseDie_safe
    | extract_lets | split)

theorem dieSupply_safe (d : Fin 46) (ok : Bool) (m : Module) (safe : m.safe = true) : (dieSupply d ok m).safe = true
    := by
  unfold dieSupply
  repeat' (first
    | with_reducible assumption | with_reducible apply resolveWaiting_safe | with_reducible apply releaseDie_safe
    | with_reducible apply updDie_safe | with_reducible apply updIsland_safe | with_reducible apply holdDie_safe
    | extract_lets | split)

end Sys2Proof.Machine
end

