-- ==== Sys2Proof/Laws/Safe/System.lean ====
section
/-!
SUPPORT. The invariant is kept by every operation of Machine/System.lean.
-/

namespace Sys2Proof.Machine

theorem checkpointAfterStep_safe (m : Module) (safe : m.safe = true) : (checkpointAfterStep m).safe = true := by
  unfold checkpointAfterStep
  repeat' (first
    | with_reducible assumption | extract_lets | split | (simp only [safe_mk, coreOk_fold])
    | with_reducible refine safe_choice ?_ ?_ | (dsimp +zetaDelta only))

theorem stepCount_safe (m : Module) (safe : m.safe = true) : (stepCount m).safe = true := by
  unfold stepCount
  repeat' (first
    | with_reducible assumption | with_reducible apply windowsEnd_safe
    | with_reducible apply checkpointAfterStep_safe | with_reducible apply updSys_safe | extract_lets | split
    | (simp only [safe_mk, coreOk_fold]))

theorem servo_safe (m : Module) (safe : m.safe = true) : (servo m).safe = true := by
  have h : (takeFree m).2.safe = true := safe
  unfold servo
  generalize takeFree m = p at h
  obtain ⟨w, m1⟩ := p
  dsimp only
  split
  · exact safe
  · exact updSys_safe _ _ h


theorem loseAdmission_safe (code detail : Nat) (m : Module) (safe : m.safe = true) :
    (loseAdmission code detail m).safe = true := by
  unfold loseAdmission
  repeat' (first
    | with_reducible assumption | with_reducible apply raise_safe | with_reducible apply updSys_safe
    | with_reducible apply setPatterns_safe | extract_lets | split)

theorem enterTime_safe (s : TimeState) (m : Module) (safe : m.safe = true) : (enterTime s m).safe = true := by
  unfold enterTime
  repeat' (first
    | with_reducible assumption | with_reducible apply updSys_safe | with_reducible apply endCond_safe
    | with_reducible apply loseAdmission_safe | extract_lets | split)

theorem judgeOffset_safe (seq : Nat) (m : Module) (safe : m.safe = true) : (judgeOffset seq m).safe = true := by
  unfold judgeOffset
  repeat' (first
    | with_reducible assumption | with_reducible apply updSys_safe | with_reducible apply enterTime_safe
    | extract_lets | split)

theorem offsetSample_safe (p : Fin 2) (seq : Nat) (rx tx : Tick) (m : Module) (safe : m.safe = true) :
    (offsetSample p seq rx tx m).safe = true := by
  unfold offsetSample
  repeat' (first
    | with_reducible assumption | with_reducible apply servo_safe | with_reducible apply judgeOffset_safe
    | with_reducible apply updSys_safe | extract_lets | split)

theorem syncArrives_safe (p : Fin 2) (seq : Nat) (rx : Tick) (m : Module) (safe : m.safe = true) :
    (syncArrives p seq rx m).safe = true := by
  unfold syncArrives
  repeat' (first
    | with_reducible assumption | with_reducible apply stepCount_safe | with_reducible apply updSys_safe
    | extract_lets | split)

theorem syncFuArrives_safe (p : Fin 2) (of_ : Nat) (tx : Tick) (m : Module) (safe : m.safe = true) :
    (syncFuArrives p of_ tx m).safe = true := by
  unfold syncFuArrives
  repeat' (first
    | with_reducible assumption | with_reducible apply updSys_safe | with_reducible apply offsetSample_safe
    | extract_lets | split)

theorem wiredEdge_safe (edge : Nat) (m0 : Module) (safe : m0.safe = true) : (wiredEdge edge m0).safe = true := by
  unfold wiredEdge
  repeat' (first
    | with_reducible assumption | with_reducible apply noteEvent_safe | with_reducible apply updSys_safe
    | with_reducible apply enterTime_safe | extract_lets | split)

theorem wiredMissing_safe (m : Module) (safe : m.safe = true) : (wiredMissing m).safe = true := by
  unfold wiredMissing
  repeat' (first
    | with_reducible assumption | with_reducible apply updSys_safe | with_reducible apply enterTime_safe
    | extract_lets | split)

theorem syncHoldover_safe (m : Module) (safe : m.safe = true) : (syncHoldover m).safe = true := by
  unfold syncHoldover
  repeat' (first
    | with_reducible assumption | with_reducible apply enterTime_safe | with_reducible apply updSys_safe
    | extract_lets | split)

theorem syncSend_safe (m : Module) (safe : m.safe = true) : (syncSend m).safe = true := by
  unfold syncSend
  repeat' (first | with_reducible assumption | with_reducible apply offerAxle_safe | with_reducible apply emit_safe | with_reducible apply strobe_safe | with_reducible apply updSys_safe | extract_lets | split | (simp only [safe_mk, coreOk_fold]) | with_reducible refine safe_choice ?_ ?_ | (dsimp +zetaDelta only))

theorem syncFu_safe (p : Fin 4) (seq : Byte) (stamp : Tick) (m : Module) (safe : m.safe = true) : (syncFu p seq stamp m).safe = true := by
  unfold syncFu
  repeat' (first | with_reducible assumption | with_reducible apply offer_safe | with_reducible apply updSys_safe | with_reducible apply bumpSeq_safe | extract_lets | split | (simp only [safe_mk, coreOk_fold]) | with_reducible refine safe_choice ?_ ?_ | (dsimp +zetaDelta only))

theorem startMeasure_safe (ns : List Nat) (m : Module) (safe : m.safe = true) : (startMeasure ns m).safe = true := by
  unfold startMeasure
  repeat' (first | with_reducible assumption | with_reducible apply updSys_safe | extract_lets | split)

theorem delayProbe_safe (k : ProbeStep) (m : Module) (safe : m.safe = true) : (delayProbe k m).safe = true := by
  unfold delayProbe
  repeat' (first
    | with_reducible assumption | with_reducible apply bumpSeq_safe | with_reducible apply offer_safe
    | with_reducible apply updSys_safe | with_reducible apply emit_safe | extract_lets | split)

theorem probeReply_safe (node k : Nat) (data : List Word) (t4 : Tick) (m : Module) (safe : m.safe = true) :
    (probeReply node k data t4 m).safe = true := by
  unfold probeReply
  repeat' (first | with_reducible assumption | with_reducible apply updSys_safe | extract_lets | split)

theorem timeSync_safe (h : Hdr) (ws : List Word) (m : Module) (safe : m.safe = true) : (timeSync h ws m).safe = true
    := by
  unfold timeSync
  repeat' (first
    | with_reducible assumption | with_reducible apply unlessFails_safe | with_reducible apply startMeasure_safe
    | with_reducible apply unlessFails_safe | extract_lets | split | simp only [Verdict.safe])

theorem timeSyncProbe_safe (h : Hdr) (t2 t3 : Tick) (m : Module) (safe : m.safe = true) :
    (timeSyncProbe h t2 t3 m).safe = true := by
  unfold timeSyncProbe
  repeat' (first
    | with_reducible assumption | with_reducible apply unlessFails_safe | with_reducible apply unlessFails_safe
    | extract_lets | split | simp only [Verdict.safe])

theorem becomeAdmitted_safe (m : Module) (safe : m.safe = true) : (becomeAdmitted m).safe = true := by
  unfold becomeAdmitted
  repeat' (first
    | with_reducible assumption | with_reducible apply updSys_safe | extract_lets | split
    | (simp only [safe_mk, coreOk_fold]))

theorem enterSet_safe (n : Fin 16) (m : Module) (safe : m.safe = true) : (enterSet n m).safe = true := by
  unfold enterSet
  repeat' (first | with_reducible assumption | with_reducible apply updNode_safe | with_reducible apply updSys_safe | split)

theorem admitTailstock_safe (h : Hdr) (ws : List Word) (m : Module) (safe : m.safe = true) :
    (admitTailstock h ws m).safe = true := by
  unfold admitTailstock
  repeat' (first
    | with_reducible assumption | with_reducible apply unlessFails_safe | with_reducible apply refuse_safe
    | with_reducible apply relayTo_safe | with_reducible apply nowOrTimed_safe
    | with_reducible apply becomeAdmitted_safe | with_reducible apply unlessFails_safe | extract_lets | split
    | simp only [Verdict.safe] | (simp only [safe_mk, coreOk_fold]) | with_reducible refine safe_choice ?_ ?_
    | (dsimp +zetaDelta only))

theorem releaseNode_safe (n : Fin 16) (m : Module) (safe : m.safe = true) : (releaseNode n m).safe = true := by
  unfold releaseNode
  repeat' (first | with_reducible assumption | with_reducible apply updNode_safe | with_reducible apply updSys_safe)

theorem takeRelease_safe (n : Fin 16) (m : Module) (safe : m.safe = true) : (takeRelease n m).safe = true := by
  unfold takeRelease
  repeat' (first
    | with_reducible assumption | with_reducible apply releaseNode_safe | with_reducible apply updSys_safe
    | extract_lets | split)

theorem releaseTailstock_safe (h : Hdr) (ws : List Word) (m : Module) (safe : m.safe = true) :
    (releaseTailstock h ws m).safe = true := by
  unfold releaseTailstock
  repeat' (first
    | with_reducible assumption | with_reducible apply unlessFails_safe | with_reducible apply nowOrTimed_safe
    | with_reducible apply relayTo_safe | with_reducible apply takeRelease_safe
    | with_reducible apply unlessFails_safe | extract_lets | split)

theorem sendAllocation_safe (a : Allocation) (m : Module) (safe : m.safe = true) : (sendAllocation a m).safe = true
    := by
  unfold sendAllocation
  repeat' (first
    | with_reducible assumption | with_reducible apply offerAxle_safe | extract_lets | split
    | (simp only [safe_mk, coreOk_fold]) | with_reducible refine safe_choice ?_ ?_)

theorem allocateTorque_safe (h : Hdr) (ws : List Word) (m : Module) (safe : m.safe = true) :
    (allocateTorque h ws m).safe = true := by
  unfold allocateTorque
  repeat' (first
    | with_reducible assumption | with_reducible apply unlessFails_safe | with_reducible apply updSys_safe
    | with_reducible apply sendAllocation_safe | with_reducible apply unlessFails_safe | extract_lets | split
    | simp only [Verdict.safe])

theorem allocArrives_safe (high : Bool) (mask : Nat) (instant : Tick) (shares : List (Word × Word)) (m : Module)
    (safe : m.safe = true) : (allocArrives high mask instant shares m).safe = true := by
  unfold allocArrives
  repeat' (first
    | with_reducible assumption | with_reducible apply raise_safe | with_reducible apply updSys_safe | extract_lets
    | split)

theorem takeShares_safe (a : Word) (b : Word) (m : Module) (safe : m.safe = true) : (takeShares a b m).safe = true
    := by
  unfold takeShares
  repeat' (first | with_reducible assumption | extract_lets | split | (simp only [safe_mk, coreOk_fold]))

theorem allocationInstant_safe (m : Module) (safe : m.safe = true) : (allocationInstant m).safe = true := by
  unfold allocationInstant
  repeat' (first
    | with_reducible assumption | with_reducible apply updSys_safe | with_reducible apply endCond_safe
    | with_reducible apply takeShares_safe | extract_lets | split)

theorem allocStale_safe (m : Module) (safe : m.safe = true) : (allocStale m).safe = true := by
  unfold allocStale
  repeat' (first
    | with_reducible assumption | with_reducible apply raise_safe | with_reducible apply takeShares_safe
    | with_reducible apply updSys_safe | extract_lets | split)

theorem removeNode_safe (n : Fin 16) (cause : Tick) (m : Module) (safe : m.safe = true) :
    (removeNode n cause m).safe = true := by
  unfold removeNode
  repeat' (first
    | with_reducible assumption | with_reducible apply updSys_safe | with_reducible apply updEpochs_safe
    | with_reducible apply raise_safe | with_reducible apply sendAllocation_safe
    | (with_reducible refine foldl_safe _ ?_ _ _ ?_) | (intro _ _ hh) | extract_lets | split)

theorem nodeSilent_safe (n : Fin 16) (m : Module) (safe : m.safe = true) : (nodeSilent n m).safe = true := by
  unfold nodeSilent
  repeat' (first | with_reducible assumption | with_reducible apply removeNode_safe | extract_lets | split)

theorem removeAll_safe (m : Module) (safe : m.safe = true) : (removeAll m).safe = true := by
  unfold removeAll
  repeat' (first
    | with_reducible assumption | with_reducible apply removeNode_safe
    | (with_reducible refine foldl_safe _ ?_ _ _ ?_) | (intro _ _ hh))

theorem admissionLoss_safe (c : LossCause) (m : Module) (safe : m.safe = true) : (admissionLoss c m).safe = true := by
  unfold admissionLoss
  repeat' (first | with_reducible assumption | with_reducible apply loseAdmission_safe | extract_lets | split)

theorem epochCompare_safe (head : Option Word) (m : Module) (safe : m.safe = true) : (epochCompare head m).safe =
    true := by
  unfold epochCompare
  repeat' (first
    | with_reducible assumption | with_reducible apply updSys_safe | with_reducible apply endCond_safe
    | with_reducible apply loseAdmission_safe | extract_lets | split)

theorem listenEnd_safe (m : Module) (safe : m.safe = true) : (listenEnd m).safe = true := by
  unfold listenEnd
  repeat' (first | with_reducible assumption | with_reducible apply updSys_safe | extract_lets | split)

theorem statusSend_safe (m : Module) (safe : m.safe = true) : (statusSend m).safe = true := by
  unfold statusSend
  repeat' (first
    | with_reducible assumption | with_reducible apply endCond_safe | with_reducible apply updNode_safe
    | with_reducible apply updSys_safe | with_reducible apply offerAxle_safe | extract_lets | split
    | (simp only [safe_mk, coreOk_fold]) | with_reducible refine safe_choice ?_ ?_)

theorem eventSend_safe (m : Module) (safe : m.safe = true) : (eventSend m).safe = true := by
  unfold eventSend
  repeat' (first
    | with_reducible assumption | with_reducible apply updSys_safe | with_reducible apply offerAxle_safe
    | extract_lets | split)

theorem headHeard_safe (m : Module) (safe : m.safe = true) : (headHeard m).safe = true := by
  unfold headHeard
  repeat' (first | with_reducible assumption | with_reducible apply endCond_safe | with_reducible apply updSys_safe)

theorem foreignSync_safe (m : Module) (safe : m.safe = true) : (foreignSync m).safe = true := by
  unfold foreignSync
  repeat' (first
    | with_reducible assumption | with_reducible apply raise_safe | with_reducible apply updSys_safe | extract_lets
    | split)

theorem ownStatus_safe (m : Module) (safe : m.safe = true) : (ownStatus m).safe = true := by
  unfold ownStatus
  repeat' (first
    | with_reducible assumption | with_reducible apply updNode_safe | with_reducible apply updSys_safe
    | with_reducible apply loseAdmission_safe | with_reducible apply raise_safe | extract_lets | split)

theorem noteStatus_safe (n : Fin 16) (flags : BitVec 8) (epoch : Word) (setCrc : Option Word) (m : Module)
    (safe : m.safe = true) : (noteStatus n flags epoch setCrc m).safe = true := by
  unfold noteStatus
  repeat' (first
    | with_reducible assumption | with_reducible apply updNode_safe | with_reducible apply startMeasure_safe
    | with_reducible apply removeNode_safe | with_reducible apply headHeard_safe | with_reducible apply updSys_safe
    | with_reducible apply endCond_safe | extract_lets | split | (simp only [safe_mk, coreOk_fold])
    | with_reducible refine safe_choice ?_ ?_)

theorem nodeEvent_safe (n : Fin 16) (causes : Nat) (instant : Tick) (m : Module) (safe : m.safe = true) :
    (nodeEvent n causes instant m).safe = true := by
  unfold nodeEvent
  repeat' (first | with_reducible assumption | with_reducible apply removeNode_safe | extract_lets | split)

theorem noteCopy_safe (ident sender seq : Nat) (m : Module) (safe : m.safe = true) :
    (noteCopy ident sender seq m).safe = true := by
  unfold noteCopy
  repeat' (first | with_reducible assumption | with_reducible apply updSys_safe)

theorem hearFrame_safe (p : Fin 2) (n : Fin 16) (m : Module) (safe : m.safe = true) : (hearFrame p n m).safe = true
    := by
  unfold hearFrame
  repeat' (first
    | with_reducible assumption | with_reducible apply updCan_safe | with_reducible apply endCond_safe
    | with_reducible apply setCond_safe | with_reducible apply updNode_safe | extract_lets | split
    | (simp only [safe_mk, coreOk_fold]) | with_reducible refine safe_choice ?_ ?_)

theorem axlePayload_safe (p : Fin 2) (n : Fin 16) (seq : Byte) (k : AxlePayload) (m : Module) (safe : m.safe = true)
    : (axlePayload p n seq k m).safe = true := by
  unfold axlePayload
  repeat' (first
    | with_reducible assumption | with_reducible apply nodeEvent_safe | with_reducible apply headHeard_safe
    | with_reducible apply foreignSync_safe | with_reducible apply syncArrives_safe
    | with_reducible apply syncFu_safe | with_reducible apply syncFuArrives_safe
    | with_reducible apply allocArrives_safe | with_reducible apply ownStatus_safe
    | with_reducible apply noteStatus_safe | extract_lets | split)

theorem axleFrame_safe (p : Fin 2) (n : Fin 16) (seq : Byte) (k : AxlePayload) (m : Module) (safe : m.safe = true) :
    (axleFrame p n seq k m).safe = true := by
  unfold axleFrame
  repeat' (first
    | with_reducible assumption | with_reducible apply hearFrame_safe | with_reducible apply axlePayload_safe
    | with_reducible apply noteCopy_safe | extract_lets | split)

theorem syncReceived_safe (p : Fin 2) (n : Fin 16) (seq of_ : Byte) (rx tx : Tick) (gap : Nat) (m : Module)
    (safe : m.safe = true) : (syncReceived p n seq of_ rx tx gap m).safe = true := by
  unfold syncReceived
  repeat' (first
    | with_reducible assumption | with_reducible apply syncArrives_safe | with_reducible apply headHeard_safe
    | with_reducible apply hearFrame_safe | with_reducible apply syncFuArrives_safe | extract_lets | split)

theorem portDown_safe (p : Fin 2) (m : Module) (safe : m.safe = true) : (portDown p m).safe = true := by
  unfold portDown
  repeat' (first | with_reducible assumption | with_reducible apply raise_safe | with_reducible apply updSys_safe | with_reducible apply updCan_safe | with_reducible apply loseAdmission_safe | with_reducible apply removeAll_safe | extract_lets | split | (simp only [safe_mk, coreOk_fold]) | with_reducible refine safe_choice ?_ ?_ | (dsimp +zetaDelta only))

theorem relay_safe (h : Hdr) (ws : List Word) (m : Module) (safe : m.safe = true) : (relay h ws m).safe = true := by
  unfold relay
  repeat' (first
    | with_reducible assumption | with_reducible apply unlessFails_safe | with_reducible apply relayTo_safe
    | with_reducible apply unlessFails_safe | extract_lets | split | simp only [Verdict.safe]
    | (simp only [safe_mk, coreOk_fold]) | with_reducible refine safe_choice ?_ ?_ | (dsimp +zetaDelta only))

theorem touchWaiting_safe (p : Waiting → Bool) (f : Waiting → Waiting) (m : Module) (safe : m.safe = true) :
    (touchWaiting p f m).safe = true := by
  unfold touchWaiting
  repeat' (first
    | with_reducible assumption | extract_lets | split | (simp only [safe_mk, coreOk_fold])
    | with_reducible refine safe_choice ?_ ?_ | (dsimp +zetaDelta only))

theorem settleAdmit_safe (p : Waiting → Bool) (status detail : Nat) (m : Module) (safe : m.safe = true) :
    (settleAdmit p status detail m).safe = true := by
  unfold settleAdmit
  repeat' (first
    | with_reducible assumption | with_reducible apply touchWaiting_safe | with_reducible apply countAccepted_safe
    | extract_lets | split | (simp only [safe_mk, coreOk_fold]) | with_reducible refine safe_choice ?_ ?_
    | (dsimp +zetaDelta only))

/-- Settling an ADMIT leaves the pending timed commands alone. -/
theorem settleAdmit_timed (p : Waiting → Bool) (status detail : Nat) (m : Module) :
    (settleAdmit p status detail m).interp.timed = m.interp.timed := by
  unfold settleAdmit
  extract_lets m1
  split <;> rfl

theorem admitAnswer_safe (x : Waiting) (status detail : Nat) (data : List Word) (m : Module) (safe : m.safe = true) :
    (admitAnswer x status detail data m).safe = true := by
  unfold admitAnswer
  extract_lets p n m1 d m2
  have h1 : m1.safe = true := updNode_safe _ _ _ safe
  have h2 : m2.safe = true := settleAdmit_safe _ _ _ _ safe
  split
  · split
    · exact settleAdmit_safe _ _ _ _ safe
    · split
      · exact settleAdmit_safe _ _ _ _ h1
      · exact relayTo_safe _ _ _ (touchWaiting_safe _ _ _ h1)
  · split
    · exact settleAdmit_safe _ _ _ _ safe
    · rename_i full
      split
      · exact h2
      · rename_i ok
        split
        · rename_i timed
          refine placeTimed_safe _ _ _ _ h2 ?_
          simp only [m2, settleAdmit_timed]
          simp only [timed, Bool.and_true, Bool.and_eq_true, decide_eq_true_eq, not_and, not_le] at full
          exact full (by omega)
        · exact enterSet_safe _ _ h2


theorem replyFrom_safe (n : Fin 16) (words : List Word) (stamp : Tick) (m : Module) (safe : m.safe = true) :
    (replyFrom n words stamp m).safe = true := by
  unfold replyFrom
  repeat' (first
    | with_reducible assumption | with_reducible apply touchWaiting_safe | with_reducible apply admitAnswer_safe
    | with_reducible apply probeReply_safe | with_reducible apply updEpochs_safe | extract_lets | split)

theorem replyTimeout_safe (m : Module) (safe : m.safe = true) : (replyTimeout m).safe = true := by
  unfold replyTimeout
  repeat' (first
    | with_reducible assumption | with_reducible apply touchWaiting_safe | with_reducible apply settleAdmit_safe
    | extract_lets | split)

end Sys2Proof.Machine
end

