-- ==== Sys2Proof/Laws/Safe/Bus.lean ====
section
/-!
SUPPORT. The invariant is kept by every operation of Machine/Bus.lean.
-/

namespace Sys2Proof.Machine

theorem clearToSend_safe (s : TpSession) (m : Module) (safe : m.safe = true) : (clearToSend s m).safe = true := by
  unfold clearToSend
  repeat' (first | with_reducible assumption | with_reducible apply updIsobus_safe | with_reducible apply offerTp_safe | extract_lets | split | (simp only [safe_mk, coreOk_fold]) | with_reducible refine safe_choice ?_ ?_ | (dsimp +zetaDelta only))

theorem tpRequest_safe (extended : Bool) (peer size : Nat) (m : Module) (safe : m.safe = true) : (tpRequest extended peer size m).safe = true := by
  unfold tpRequest
  repeat' (first | with_reducible assumption | with_reducible apply offerTp_safe | with_reducible apply clearToSend_safe | extract_lets | split | (simp only [safe_mk, coreOk_fold]) | with_reducible refine safe_choice ?_ ?_ | (dsimp +zetaDelta only))

theorem tpPacket_safe (number : Nat) (bytes : List Byte) (s : TpSession) (m : Module) (safe : m.safe = true) : (tpPacket number bytes s m).safe = true := by
  unfold tpPacket
  repeat' (first | with_reducible assumption | with_reducible apply clearToSend_safe | with_reducible apply updIsobus_safe | with_reducible apply offerTp_safe | extract_lets | split | (simp only [safe_mk, coreOk_fold]) | with_reducible refine safe_choice ?_ ?_ | (dsimp +zetaDelta only))

theorem nextTp_safe (m : Module) (safe : m.safe = true) : (nextTp m).safe = true := by
  unfold nextTp
  repeat' (first | with_reducible assumption | with_reducible apply updIsobus_safe | with_reducible apply openTp_safe | extract_lets | split | (simp only [safe_mk, coreOk_fold]) | with_reducible refine safe_choice ?_ ?_ | (dsimp +zetaDelta only))

theorem tpSendFrom_safe (n first : Nat) (x : TpSend) (m : Module) (safe : m.safe = true) : (tpSendFrom n first x m).safe = true := by
  unfold tpSendFrom
  repeat' (first | with_reducible assumption | with_reducible apply offerTp_safe | with_reducible apply updIsobus_safe | (with_reducible refine foldl_safe _ ?_ _ _ ?_) | (intro _ _ hh) | extract_lets | split | (simp only [safe_mk, coreOk_fold]) | with_reducible refine safe_choice ?_ ?_ | (dsimp +zetaDelta only))

theorem tpFrame_safe (f : CanFrame) (m : Module) (safe : m.safe = true) : (tpFrame f m).safe = true := by
  unfold tpFrame
  repeat' (first | with_reducible assumption | with_reducible apply tpPacket_safe | with_reducible apply tpRequest_safe | with_reducible apply updIsobus_safe | with_reducible apply tpSendFrom_safe | with_reducible apply nextTp_safe | extract_lets | split | (simp only [safe_mk, coreOk_fold]) | with_reducible refine safe_choice ?_ ?_ | (dsimp +zetaDelta only))

theorem offerClaim_safe (m : Module) (safe : m.safe = true) : (offerClaim m).safe = true := by
  unfold offerClaim
  repeat' (first | with_reducible assumption | with_reducible apply offer_safe | extract_lets | split | (simp only [safe_mk, coreOk_fold]) | with_reducible refine safe_choice ?_ ?_ | (dsimp +zetaDelta only))

theorem loseAddress_safe (m : Module) (safe : m.safe = true) : (loseAddress m).safe = true := by
  unfold loseAddress
  repeat' (first | with_reducible assumption | with_reducible apply updCan_safe | with_reducible apply updIsobus_safe | extract_lets | split | (simp only [safe_mk, coreOk_fold]) | with_reducible refine safe_choice ?_ ?_ | (dsimp +zetaDelta only))

theorem claimFrame_safe (f : CanFrame) (m : Module) (safe : m.safe = true) : (claimFrame f m).safe = true := by
  unfold claimFrame
  repeat' (first | with_reducible assumption | with_reducible apply updIsobus_safe | with_reducible apply offerClaim_safe | with_reducible apply loseAddress_safe | extract_lets | split | (simp only [safe_mk, coreOk_fold]) | with_reducible refine safe_choice ?_ ?_ | (dsimp +zetaDelta only))

theorem isobusFrame_safe (fifo : Nat) (f : CanFrame) (m : Module) (safe : m.safe = true) : (isobusFrame fifo f m).safe = true := by
  unfold isobusFrame
  repeat' (first | with_reducible assumption | with_reducible apply tpFrame_safe | with_reducible apply updIsobus_safe | with_reducible apply claimFrame_safe | extract_lets | split | (simp only [safe_mk, coreOk_fold]) | with_reducible refine safe_choice ?_ ?_ | (dsimp +zetaDelta only))

theorem canReceived_safe (p : Fin 4) (f : CanFrame) (stamp : Tick) (taken : Nat) (m : Module) (safe : m.safe = true) : (canReceived p f stamp taken m).safe = true := by
  unfold canReceived
  repeat' (first | with_reducible assumption | with_reducible apply updCan_safe | with_reducible apply endCond_safe | with_reducible apply setCond_safe | with_reducible apply raise_safe | with_reducible apply noteEvent_safe | with_reducible apply isobusFrame_safe | extract_lets | split | (simp only [safe_mk, coreOk_fold]) | with_reducible refine safe_choice ?_ ?_ | (dsimp +zetaDelta only))

theorem hpFrame_safe (p : Fin 2) (n : Fin 16) (stamp : Tick) (data : List Byte) (taken : Nat) (m : Module) (safe : m.safe = true) : (hpFrame p n stamp data taken m).safe = true := by
  unfold hpFrame
  repeat' (first | with_reducible assumption | with_reducible apply noteHp_safe | with_reducible apply updCan_safe | with_reducible apply hearFrame_safe | with_reducible apply raise_safe | extract_lets | split | (simp only [safe_mk, coreOk_fold]) | with_reducible refine safe_choice ?_ ?_ | (dsimp +zetaDelta only))

theorem busOffP_safe (p : Fin 4) (m : Module) (safe : m.safe = true) : (busOffP p m).safe = true := by
  unfold busOffP
  repeat' (first
    | with_reducible assumption | with_reducible apply raise_safe | with_reducible apply updCan_safe
    | with_reducible apply portDown_safe | extract_lets | split)

theorem sendError_safe (p : Fin 4) (m : Module) (safe : m.safe = true) : (sendError p m).safe = true := by
  unfold sendError
  repeat' (first | with_reducible assumption | with_reducible apply updCan_safe | with_reducible apply busOffP_safe | extract_lets | split | (simp only [safe_mk, coreOk_fold]) | with_reducible refine safe_choice ?_ ?_ | (dsimp +zetaDelta only))

theorem canTransmitted_safe (p : Fin 4) (stamp : Tick) (error : Bool) (m : Module) (safe : m.safe = true) : (canTransmitted p stamp error m).safe = true := by
  unfold canTransmitted
  repeat' (first | with_reducible assumption | with_reducible apply sendError_safe | with_reducible apply updCan_safe | with_reducible apply noteEvent_safe | with_reducible apply emit_safe | with_reducible apply syncFu_safe | extract_lets | split | (simp only [safe_mk, coreOk_fold]) | with_reducible refine safe_choice ?_ ?_ | (dsimp +zetaDelta only))

theorem oneShotFail_safe (p : Fin 4) (error : Bool) (m : Module) (safe : m.safe = true) : (oneShotFail p error m).safe = true := by
  unfold oneShotFail
  repeat' (first | with_reducible assumption | with_reducible apply updCan_safe | with_reducible apply sendError_safe | extract_lets | split | (simp only [safe_mk, coreOk_fold]) | with_reducible refine safe_choice ?_ ?_ | (dsimp +zetaDelta only))

theorem busOffRecovery_safe (p : Fin 4) (seen : Nat) (m : Module) (safe : m.safe = true) : (busOffRecovery p seen m).safe = true := by
  unfold busOffRecovery
  repeat' (first | with_reducible assumption | with_reducible apply updCan_safe | with_reducible apply endCond_safe | with_reducible apply setCond_safe | extract_lets | split | (simp only [safe_mk, coreOk_fold]) | with_reducible refine safe_choice ?_ ?_ | (dsimp +zetaDelta only))

theorem takePort_safe (m : Module) (p : Fin 4) (safe : m.safe = true) : (takePort m p).safe = true := by
  unfold takePort
  repeat' (first | with_reducible assumption | with_reducible apply updCan_safe | with_reducible apply endCond_safe | with_reducible apply setCond_safe | extract_lets | split | (simp only [safe_mk, coreOk_fold]) | with_reducible refine safe_choice ?_ ?_ | (dsimp +zetaDelta only))

theorem takeBusEnable_safe (m : Module) (safe : m.safe = true) : (takeBusEnable m).safe = true := by
  unfold takeBusEnable
  repeat' (first | with_reducible assumption | with_reducible apply takePort_safe | (with_reducible refine foldl_safe _ ?_ _ _ ?_) | (intro _ _ hh) | extract_lets | split | (simp only [safe_mk, coreOk_fold]) | with_reducible refine safe_choice ?_ ?_ | (dsimp +zetaDelta only))

theorem addressClaim_safe (a : Option (Fin 254)) (m : Module) (safe : m.safe = true) : (addressClaim a m).safe = true := by
  unfold addressClaim
  repeat' (first | with_reducible assumption | with_reducible apply endCond_safe | with_reducible apply offerClaim_safe | with_reducible apply updIsobus_safe | with_reducible apply raise_safe | with_reducible apply loseAddress_safe | extract_lets | split | (simp only [safe_mk, coreOk_fold]) | with_reducible refine safe_choice ?_ ?_ | (dsimp +zetaDelta only))

theorem offerDm1_safe (bytes : List Byte) (m : Module) (safe : m.safe = true) : (offerDm1 bytes m).safe = true := by
  unfold offerDm1
  repeat' (first | with_reducible assumption | with_reducible apply offer_safe | with_reducible apply offerTp_safe | (with_reducible refine foldl_safe _ ?_ _ _ ?_) | (intro _ _ hh) | extract_lets | split | (simp only [safe_mk, coreOk_fold]) | with_reducible refine safe_choice ?_ ?_ | (dsimp +zetaDelta only))

theorem dm1Send_safe (m : Module) (safe : m.safe = true) : (dm1Send m).safe = true := by
  unfold dm1Send
  repeat' (first | with_reducible assumption | with_reducible apply offerDm1_safe | with_reducible apply updIsobus_safe | extract_lets | split | (simp only [safe_mk, coreOk_fold]) | with_reducible refine safe_choice ?_ ?_ | (dsimp +zetaDelta only))

theorem tpTimeout_safe (m : Module) (safe : m.safe = true) : (tpTimeout m).safe = true := by
  unfold tpTimeout
  repeat' (first | with_reducible assumption | with_reducible apply offerTp_safe | with_reducible apply updIsobus_safe | with_reducible apply nextTp_safe | extract_lets | split | (simp only [safe_mk, coreOk_fold]) | with_reducible refine safe_choice ?_ ?_ | (dsimp +zetaDelta only))

theorem etLinkDown_safe (e : Fin 2) (m : Module) (safe : m.safe = true) : (etLinkDown e m).safe = true := by
  unfold etLinkDown
  repeat' (first
    | with_reducible assumption | with_reducible apply updEth_safe | with_reducible apply raise_safe | extract_lets
    | split)

theorem etLinkUp_safe (e : Fin 2) (sqi : Fin 8) (m : Module) (safe : m.safe = true) : (etLinkUp e sqi m).safe = true
    := by
  unfold etLinkUp
  repeat' (first
    | with_reducible assumption | with_reducible apply endCond_safe | with_reducible apply updEth_safe
    | extract_lets | split)

end Sys2Proof.Machine
end

