-- ==== Sys2Proof/Laws/Safe/Power.lean ====
section
/-!
SUPPORT. The invariant is kept by every operation of Machine/Power.lean.
-/

namespace Sys2Proof.Machine

theorem updSupply_safe (f : Supply → Supply) (m : Module) (safe : m.safe = true) : (updSupply f m).safe = true := by
  unfold updSupply
  repeat' (first | with_reducible assumption | extract_lets | split | (simp only [safe_mk, coreOk_fold]))

theorem programLog_safe (m : Module) (safe : m.safe = true) : (programLog m).safe = true := by
  unfold programLog
  repeat' (first
    | with_reducible assumption | extract_lets | split | (simp only [safe_mk, coreOk_fold])
    | with_reducible refine safe_choice ?_ ?_ | (dsimp +zetaDelta only))

theorem programTime_safe (m : Module) (safe : m.safe = true) : (programTime m).safe = true := by
  unfold programTime
  repeat' (first | with_reducible assumption | extract_lets | split | (simp only [safe_mk, coreOk_fold]))

theorem operatingTimeProgram_safe (m : Module) (safe : m.safe = true) : (operatingTimeProgram m).safe = true := by
  unfold operatingTimeProgram
  repeat' (first | with_reducible assumption | with_reducible apply programTime_safe | extract_lets | split)

/-- A start leaves an empty fault table, no pending timed command and the mode of the strap (R553, R554, R174). -/
theorem bootTo_safe (b : Boot) (count : Tick) (wake locked : Bool) (m : Module) :
    (bootTo b count wake locked m).safe = true := by
  unfold bootTo
  extract_lets s now
  split
  rename_i e bad heq
  extract_lets img ch m1 m2
  have h1 : m1.safe = true := by
    simp only [m1]
    rw [safe_mk]
    unfold coreOk
    have mode : modeOk (Lockstep.init s.split).mode s.split = true := by
      cases s.split <;> rfl
    have regions : regionsOk (Vector.replicate 8 Region.init) = true := by decide
    simp only [mode, regions, Bool.and_true]
    decide
  have h2 : m2.safe = true := record_safe _ _ _ _ _ h1
  split
  · exact raise_safe _ _ _ _ h2
  · exact h2


theorem wakeUp_safe (b : Boot) (m : Module) (safe : m.safe = true) : (wakeUp b m).safe = true := by
  unfold wakeUp
  repeat' (first | with_reducible assumption | with_reducible apply bootTo_safe)

theorem startUp_safe (b : Boot) (lvin : Word) (m : Module) (safe : m.safe = true) : (startUp b lvin m).safe = true
    := by
  unfold startUp
  repeat' (first
    | with_reducible assumption | with_reducible apply bootTo_safe | with_reducible apply updSupply_safe
    | extract_lets | split)

theorem busWake_safe (p : Fin 4) (c : WakeCause) (b : Boot) (m : Module) (safe : m.safe = true) : (busWake p c b m).safe = true := by
  unfold busWake
  repeat' (first | with_reducible assumption | with_reducible apply updSupply_safe | with_reducible apply wakeUp_safe | extract_lets | split | (simp only [safe_mk, coreOk_fold]) | with_reducible refine safe_choice ?_ ?_ | (dsimp +zetaDelta only))

theorem restartNow_safe (b : Boot) (m : Module) (safe : m.safe = true) : (restartNow b m).safe = true := by
  unfold restartNow
  repeat' (first
    | with_reducible assumption | with_reducible apply programLog_safe | with_reducible apply bootTo_safe)

theorem sendNew_safe (before m : Module) (safe_before : before.safe = true) (safe_m : m.safe = true) : (sendNew before m).safe = true := by
  unfold sendNew
  repeat' (first | with_reducible assumption | with_reducible apply emit_safe | (with_reducible refine foldl_safe _ ?_ _ _ ?_) | (intro _ _ hh) | extract_lets | split | (simp only [safe_mk, coreOk_fold]) | with_reducible refine safe_choice ?_ ?_ | (dsimp +zetaDelta only))

theorem moduleRestart_safe (h : Hdr) (b : Boot) (m : Module) (safe : m.safe = true) : (moduleRestart h b m).safe = true := by
  unfold moduleRestart
  repeat' (first | with_reducible assumption | with_reducible apply refuse_safe | with_reducible apply restartNow_safe | with_reducible apply sendNew_safe | with_reducible apply sendReply_safe | with_reducible apply countAccepted_safe | extract_lets | split | (simp only [safe_mk, coreOk_fold]) | with_reducible refine safe_choice ?_ ?_ | (dsimp +zetaDelta only))

theorem goOff_safe (m : Module) (safe : m.safe = true) : (goOff m).safe = true := by
  unfold goOff
  extract_lets m1 m2
  have h1 : m1.safe = true := by
    simp only [m1]
    split
    · exact programTime_safe _ (programLog_safe _ safe)
    · exact safe
  have h2 : m2.safe = true := updSupply_safe _ _ h1
  rw [safe_mk]
  exact safe_withRegions (m := m2) h2 (regionsOk_map (safe_regions h2) _ Region.stop_sound)


theorem lvinLost_safe (lvin : Word) (m : Module) (safe : m.safe = true) : (lvinLost lvin m).safe = true := by
  unfold lvinLost
  repeat' (first
    | with_reducible assumption | with_reducible apply updSupply_safe | with_reducible apply goOff_safe
    | with_reducible apply raise_safe | extract_lets | split)

theorem lvinReturn_safe (lvin : Word) (m : Module) (safe : m.safe = true) : (lvinReturn lvin m).safe = true := by
  unfold lvinReturn
  repeat' (first
    | with_reducible assumption | with_reducible apply endCond_safe | with_reducible apply updSupply_safe
    | extract_lets | split)

theorem hvauxLost_safe (hvaux : Word) (m : Module) (safe : m.safe = true) : (hvauxLost hvaux m).safe = true := by
  unfold hvauxLost
  repeat' (first
    | with_reducible assumption | with_reducible apply updSupply_safe | with_reducible apply goOff_safe
    | extract_lets | split)

theorem hvauxReturn_safe (hvaux : Word) (m : Module) (safe : m.safe = true) : (hvauxReturn hvaux m).safe = true := by
  unfold hvauxReturn
  repeat' (first | with_reducible assumption | with_reducible apply updSupply_safe)

theorem holdupCharged_safe (m : Module) (safe : m.safe = true) : (holdupCharged m).safe = true := by
  unfold holdupCharged
  repeat' (first | with_reducible assumption | with_reducible apply updSupply_safe | extract_lets | split)

theorem disableIslands_safe (m : Module) (safe : m.safe = true) : (disableIslands m).safe = true := by
  unfold disableIslands
  repeat' (first | with_reducible assumption | extract_lets | split | (simp only [safe_mk, coreOk_fold]))

theorem supplyReady_safe (m : Module) (safe : m.safe = true) : (supplyReady m).safe = true := by
  unfold supplyReady
  repeat' (first | with_reducible assumption | with_reducible apply freshCrossings_safe | with_reducible apply followCond_safe | with_reducible apply axSupplied_safe | with_reducible apply freshGdc_safe | with_reducible apply freshAfe_safe | with_reducible apply freshFabric_safe | (with_reducible refine foldl_safe _ ?_ _ _ ?_) | (intro _ _ hh) | extract_lets | split | (simp only [safe_mk, coreOk_fold]) | with_reducible refine safe_choice ?_ ?_ | (dsimp +zetaDelta only))

theorem unsupplyReady_safe (m0 : Module) (safe : m0.safe = true) : (unsupplyReady m0).safe = true := by
  unfold unsupplyReady
  extract_lets m
  have h : m.safe = true := foldl_safe _ (fun _ _ h => stallAccesses_safe _ _ h) _ _
    (foldl_safe _ (fun _ _ h => freshCrossings_safe _ _ h) _ _ safe)
  rw [safe_mk]
  exact safe_withRegions (m := m) h (regionsOk_map (safe_regions h) _ Region.stop_sound)


theorem leaveRun_safe (m : Module) (safe : m.safe = true) : (leaveRun m).safe = true := by
  unfold leaveRun
  repeat' (first
    | with_reducible assumption | with_reducible apply endDcExport_safe | with_reducible apply stopExport_safe
    | with_reducible apply stopSession_safe | extract_lets | split | (simp only [safe_mk, coreOk_fold]))

theorem leaveArmed_safe (m : Module) (safe : m.safe = true) : (leaveArmed m).safe = true := by
  unfold leaveArmed
  repeat' (first | with_reducible assumption | extract_lets | split | (simp only [safe_mk, coreOk_fold]))

theorem beginLeg_safe (target dest : Power) (m : Module) (safe : m.safe = true) : (beginLeg target dest m).safe =
    true := by
  unfold beginLeg
  repeat' (first
    | with_reducible assumption | with_reducible apply updSupply_safe | with_reducible apply supplyReady_safe
    | with_reducible apply leaveRun_safe | with_reducible apply leaveArmed_safe | extract_lets | split
    | (simp only [safe_mk, coreOk_fold]))

theorem abandon_safe (detail : Nat) (m : Module) (safe : m.safe = true) : (abandon detail m).safe = true := by
  unfold abandon
  repeat' (first
    | with_reducible assumption | with_reducible apply updSupply_safe | with_reducible apply unsupplyReady_safe
    | with_reducible apply disableIslands_safe | with_reducible apply raise_safe | extract_lets | split
    | (simp only [safe_mk, coreOk_fold]))

theorem finishLeg_safe (t : Transition) (m : Module) (safe : m.safe = true) : (finishLeg t m).safe = true := by
  unfold finishLeg
  repeat' (first | with_reducible assumption | with_reducible apply updSupply_safe | with_reducible apply noteCause_safe | with_reducible apply axEnterReady_safe | with_reducible apply beginLeg_safe | extract_lets | split | (simp only [safe_mk, coreOk_fold]) | with_reducible refine safe_choice ?_ ?_ | (dsimp +zetaDelta only))

theorem powerProgress_safe (b : Boot) (m : Module) (safe : m.safe = true) : (powerProgress b m).safe = true := by
  unfold powerProgress
  repeat' (first
    | with_reducible assumption | with_reducible apply abandon_safe | with_reducible apply updSupply_safe
    | with_reducible apply finishLeg_safe | with_reducible apply enableIslands_safe
    | with_reducible apply disableIslands_safe | with_reducible apply lgdOff_safe
    | with_reducible apply programTime_safe | with_reducible apply unsupplyReady_safe
    | with_reducible apply programLog_safe | with_reducible apply wakeUp_safe | extract_lets | split
    | (simp only [safe_mk, coreOk_fold]))

theorem prechargeComplete_safe (m : Module) (safe : m.safe = true) : (prechargeComplete m).safe = true := by
  unfold prechargeComplete
  repeat' (first
    | with_reducible assumption | with_reducible apply updSupply_safe | extract_lets | split
    | (simp only [safe_mk, coreOk_fold]))

theorem prechargeFail_safe (m : Module) (safe : m.safe = true) : (prechargeFail m).safe = true := by
  unfold prechargeFail
  repeat' (first
    | with_reducible assumption | with_reducible apply abandon_safe | with_reducible apply raise_safe | extract_lets
    | split)

theorem transitionFail_safe (m : Module) (safe : m.safe = true) : (transitionFail m).safe = true := by
  unfold transitionFail
  repeat' (first | with_reducible assumption | with_reducible apply abandon_safe | extract_lets | split)

theorem enFallen_safe (m : Module) (safe : m.safe = true) : (enFallen m).safe = true := by
  unfold enFallen
  repeat' (first
    | with_reducible assumption | with_reducible apply enFall_safe | with_reducible apply abandon_safe
    | extract_lets | split)

theorem setPowerState_safe (h : Hdr) (ws : List Word) (m : Module) (safe : m.safe = true) :
    (setPowerState h ws m).safe = true := by
  unfold setPowerState
  repeat' (first
    | with_reducible assumption | with_reducible apply unlessFails_safe | with_reducible apply beginLeg_safe
    | with_reducible apply unlessFails_safe | extract_lets | split | simp only [Verdict.safe])

theorem hvilChange_safe (current : Word) (m : Module) (safe : m.safe = true) : (hvilChange current m).safe = true :=
    by
  unfold hvilChange
  repeat' (first
    | with_reducible assumption | with_reducible apply endCond_safe | with_reducible apply updSupply_safe
    | with_reducible apply loseAdmission_safe | with_reducible apply dcExportEnd_safe
    | with_reducible apply noteCause_safe | extract_lets | split)

theorem fbSupplyLimit_safe (s : PortSupply) (m : Module) (safe : m.safe = true) : (fbSupplyLimit s m).safe = true :=
    by
  unfold fbSupplyLimit
  repeat' (first
    | with_reducible assumption | with_reducible apply lineBreak_safe | with_reducible apply updSupply_safe
    | with_reducible apply sdLost_safe | (with_reducible refine foldl_safe _ ?_ _ _ ?_) | (intro _ _ hh)
    | extract_lets | split)

theorem fbSupplyRecovery_safe (s : PortSupply) (m : Module) (safe : m.safe = true) : (fbSupplyRecovery s m).safe =
    true := by
  unfold fbSupplyRecovery
  repeat' (first
    | with_reducible assumption | with_reducible apply lineRestored_safe | with_reducible apply updSupply_safe
    | with_reducible apply sdRecovered_safe | (with_reducible refine foldl_safe _ ?_ _ _ ?_) | (intro _ _ hh)
    | extract_lets | split)

theorem svRateChange_safe (m : Module) (safe : m.safe = true) : (svRateChange m).safe = true := by
  unfold svRateChange
  repeat' (first | with_reducible assumption | with_reducible apply updSupply_safe)

theorem updTime_safe (f : Timing → Timing) (m : Module) (safe : m.safe = true) : (updTime f m).safe = true := by
  unfold updTime
  repeat' (first | with_reducible assumption | extract_lets | split | (simp only [safe_mk, coreOk_fold]))

theorem tsRefLost_safe (m : Module) (safe : m.safe = true) : (tsRefLost m).safe = true := by
  unfold tsRefLost
  repeat' (first
    | with_reducible assumption | with_reducible apply updTime_safe | with_reducible apply raise_safe | extract_lets
    | split)

theorem xtalLost_safe (m : Module) (safe : m.safe = true) : (xtalLost m).safe = true := by
  unfold xtalLost
  repeat' (first
    | with_reducible assumption | with_reducible apply updTime_safe | with_reducible apply raise_safe | extract_lets
    | split)

theorem spindleLost_safe (m : Module) (safe : m.safe = true) : (spindleLost m).safe = true := by
  unfold spindleLost
  repeat' (first
    | with_reducible assumption | with_reducible apply raise_safe | with_reducible apply updTime_safe | extract_lets
    | split)

theorem tsRecovered_safe (crystal : Bool) (m : Module) (safe : m.safe = true) : (tsRecovered crystal m).safe = true := by
  unfold tsRecovered
  repeat' (first | with_reducible assumption | with_reducible apply updTime_safe | with_reducible apply endCond_safe | extract_lets | split | (simp only [safe_mk, coreOk_fold]) | with_reducible refine safe_choice ?_ ?_ | (dsimp +zetaDelta only))

theorem takeReference_safe (m : Module) (safe : m.safe = true) : (takeReference m).safe = true := by
  unfold takeReference
  repeat' (first
    | with_reducible assumption | with_reducible apply updTime_safe | with_reducible apply raise_safe | extract_lets
    | split)

end Sys2Proof.Machine
end

