-- ==== Sys2Proof/Laws/Safe/FaultCmds.lean ====
section
/-!
SUPPORT. The invariant is kept by every operation of Machine/FaultCmds.lean.
-/

namespace Sys2Proof.Machine

theorem readFaults_safe (h : Hdr) (ws : List Word) (m : Module) (safe : m.safe = true) : (readFaults h ws m).safe =
    true := by
  unfold readFaults
  repeat' (first
    | with_reducible assumption | with_reducible apply unlessFails_safe | with_reducible apply clearFaults_safe
    | with_reducible apply unlessFails_safe | extract_lets | split | simp only [Verdict.safe])

theorem afterClear_safe (m : Module) (f : ActiveFault) (safe : m.safe = true) : (afterClear m f).safe = true := by
  unfold afterClear
  repeat' (first | with_reducible assumption | with_reducible apply portCleared_safe | extract_lets | split)

theorem clearCrossings_safe (m : Module) (safe : m.safe = true) : (clearCrossings m).safe = true := by
  unfold clearCrossings
  repeat' (first | with_reducible assumption | extract_lets | split | (simp only [safe_mk, coreOk_fold]))

theorem acknowledge_safe (code : Nat) (m : Module) (safe : m.safe = true) : (acknowledge code m).safe = true := by
  unfold acknowledge
  repeat' (first
    | with_reducible assumption | with_reducible apply afterClear_safe | with_reducible apply clearFaults_safe
    | with_reducible apply releaseWhatMay_safe | with_reducible apply clearCrossings_safe
    | with_reducible apply clearChopperMarks_safe | (with_reducible refine foldl_safe _ ?_ _ _ ?_) | (intro _ _ hh)
    | extract_lets | split)

theorem ackFaults_safe (h : Hdr) (ws : List Word) (m : Module) (safe : m.safe = true) : (ackFaults h ws m).safe =
    true := by
  unfold ackFaults
  repeat' (first
    | with_reducible assumption | with_reducible apply acknowledge_safe | with_reducible apply unlessFails_safe
    | with_reducible apply unlessFails_safe | extract_lets | split | simp only [Verdict.safe])

theorem flogProgram_safe (ok : Bool) (m : Module) (safe : m.safe = true) : (flogProgram ok m).safe = true := by
  unfold flogProgram
  repeat' (first
    | with_reducible assumption | with_reducible apply endCond_safe | with_reducible apply programLog_safe
    | with_reducible apply raise_safe | extract_lets | split)

theorem flogEraseDone_safe (m : Module) (safe : m.safe = true) : (flogEraseDone m).safe = true := by
  unfold flogEraseDone
  repeat' (first
    | with_reducible assumption | with_reducible apply record_safe | extract_lets | split
    | (simp only [safe_mk, coreOk_fold]) | with_reducible refine safe_choice ?_ ?_ | (dsimp +zetaDelta only))

theorem eventOverflow_safe (i : Fin 22) (m : Module) (safe : m.safe = true) : (eventOverflow i m).safe = true := by
  unfold eventOverflow
  repeat' (first
    | with_reducible assumption | with_reducible apply raise_safe | with_reducible apply updCrossing_safe
    | extract_lets | split)

theorem undoAccess_safe (d : Nat) (m : Module) (safe : m.safe = true) : (undoAccess d m).safe = true := by
  unfold undoAccess
  repeat' (first | with_reducible assumption | with_reducible apply updAfe_safe | extract_lets | split | (simp only [safe_mk, coreOk_fold]) | with_reducible refine safe_choice ?_ ?_ | (dsimp +zetaDelta only))

theorem stallTimeout_safe (d : Fin 46) (m : Module) (safe : m.safe = true) : (stallTimeout d m).safe = true := by
  unfold stallTimeout
  repeat' (first | with_reducible assumption | with_reducible apply undoAccess_safe | with_reducible apply updCrossing_safe | extract_lets | split | (simp only [safe_mk, coreOk_fold]) | with_reducible refine safe_choice ?_ ?_ | (dsimp +zetaDelta only))

theorem setSupply_safe (d : Fin 2) (w : Word) (m : Module) (safe : m.safe = true) : (setSupply d w m).safe = true :=
    by
  unfold setSupply
  repeat' (first | with_reducible assumption | extract_lets | split | (simp only [safe_mk, coreOk_fold]))

theorem supplyDone_safe (d : Fin 2) (m : Module) (safe : m.safe = true) : (supplyDone d m).safe = true := by
  unfold supplyDone
  repeat' (first | with_reducible assumption | extract_lets | split | (simp only [safe_mk, coreOk_fold]))

end Sys2Proof.Machine
end

