-- ==== Sys2Proof/Laws/Safe/Interp.lean ====
section
/-!
SUPPORT. The invariant is kept by every operation of Machine/Interp.lean.
-/

namespace Sys2Proof.Machine

theorem getStatus_safe (h : Hdr) (ws : List Word) (m : Module) (safe : m.safe = true) : (getStatus h ws m).safe =
    true := by
  unfold getStatus
  repeat' (first
    | with_reducible assumption | with_reducible apply unlessFails_safe | with_reducible apply unlessFails_safe
    | extract_lets | split | simp only [Verdict.safe])

theorem echo_safe (h : Hdr) (ws : List Word) (m : Module) (safe : m.safe = true) : (echo h ws m).safe = true := by
  unfold echo
  repeat' (first
    | with_reducible assumption | with_reducible apply unlessFails_safe | with_reducible apply unlessFails_safe
    | extract_lets | split | simp only [Verdict.safe])

theorem readParam_safe (h : Hdr) (ws : List Word) (m : Module) (safe : m.safe = true) : (readParam h ws m).safe =
    true := by
  unfold readParam
  repeat' (first
    | with_reducible assumption | with_reducible apply unlessFails_safe | with_reducible apply unlessFails_safe
    | extract_lets | split | simp only [Verdict.safe])

theorem readParamBlock_safe (h : Hdr) (ws : List Word) (m : Module) (safe : m.safe = true) :
    (readParamBlock h ws m).safe = true := by
  unfold readParamBlock
  repeat' (first
    | with_reducible assumption | with_reducible apply unlessFails_safe | with_reducible apply unlessFails_safe
    | extract_lets | split | simp only [Verdict.safe])

theorem applyLive_safe (at_ : Option Tick) (m : Module) (p : Word × Word) (safe : m.safe = true) :
    (applyLive at_ m p).safe = true := by
  unfold applyLive
  repeat' (first
    | with_reducible assumption | with_reducible apply setSupply_safe | extract_lets | split
    | (simp only [safe_mk, coreOk_fold]) | with_reducible refine safe_choice ?_ ?_ | (dsimp +zetaDelta only))

theorem applyPairs_safe (at_ : Option Tick) (ps : List (Word × Word)) (m : Module) (safe : m.safe = true) :
    (applyPairs at_ ps m).safe = true := by
  unfold applyPairs
  repeat' (first
    | with_reducible assumption | with_reducible apply applyLive_safe
    | (with_reducible refine foldl_safe _ ?_ _ _ ?_))

theorem writeLive_safe (h : Hdr) (ws : List Word) (m : Module) (safe : m.safe = true) : (writeLive h ws m).safe =
    true := by
  unfold writeLive
  repeat' (first
    | with_reducible assumption | with_reducible apply unlessFails_safe | with_reducible apply nowOrTimed_safe
    | with_reducible apply applyPairs_safe)

theorem setpoint_safe (speed : Bool) (h : Hdr) (ws : List Word) (m : Module) (safe : m.safe = true) :
    (setpoint speed h ws m).safe = true := by
  unfold setpoint
  repeat' (first
    | with_reducible assumption | with_reducible apply unlessFails_safe | with_reducible apply nowOrTimed_safe
    | with_reducible apply applyPairs_safe)

theorem openLoop_safe (m : Module) (l : Nat) (safe : m.safe = true) : (openLoop m l).safe = true := by
  unfold openLoop
  repeat' (first
    | with_reducible assumption | with_reducible apply updTraction_safe | with_reducible apply updActuator_safe
    | extract_lets | split | (simp only [safe_mk, coreOk_fold]) | with_reducible refine safe_choice ?_ ?_
    | (dsimp +zetaDelta only))

theorem loopOpenCmd_safe (h : Hdr) (ws : List Word) (m : Module) (safe : m.safe = true) : (loopOpenCmd h ws m).safe
    = true := by
  unfold loopOpenCmd
  repeat' (first
    | with_reducible assumption | with_reducible apply unlessFails_safe | with_reducible apply openLoop_safe
    | with_reducible apply unlessFails_safe | (with_reducible refine foldl_safe _ ?_ _ _ ?_) | (intro _ _ hh)
    | extract_lets | split | simp only [Verdict.safe])

theorem closeLoop_safe (m : Module) (l : Nat) (safe : m.safe = true) : (closeLoop m l).safe = true := by
  unfold closeLoop
  repeat' (first
    | with_reducible assumption | with_reducible apply updTraction_safe | with_reducible apply updActuator_safe
    | extract_lets | split | (simp only [safe_mk, coreOk_fold]))

theorem loopCloseCmd_safe (h : Hdr) (ws : List Word) (m : Module) (safe : m.safe = true) :
    (loopCloseCmd h ws m).safe = true := by
  unfold loopCloseCmd
  repeat' (first
    | with_reducible assumption | with_reducible apply unlessFails_safe | with_reducible apply closeLoop_safe
    | with_reducible apply unlessFails_safe | (with_reducible refine foldl_safe _ ?_ _ _ ?_) | (intro _ _ hh)
    | extract_lets | split | simp only [Verdict.safe])

theorem selftest_safe (h : Hdr) (ws : List Word) (m : Module) (safe : m.safe = true) : (selftest h ws m).safe = true
    := by
  unfold selftest
  repeat' (first
    | with_reducible assumption | with_reducible apply unlessFails_safe | with_reducible apply refuse_safe
    | with_reducible apply selftestSup_safe | with_reducible apply selftestFabric_safe
    | with_reducible apply selftestIsland_safe | with_reducible apply selftestTwin_safe
    | with_reducible apply unlessFails_safe | extract_lets | split | simp only [Verdict.safe])

theorem exportStart_safe (h : Hdr) (ws : List Word) (m : Module) (safe : m.safe = true) : (exportStart h ws m).safe
    = true := by
  unfold exportStart
  repeat' (first
    | with_reducible assumption | with_reducible apply exportStartDc_safe | with_reducible apply exportStartAc_safe
    | with_reducible apply unlessFails_safe | extract_lets | split)

theorem exportStop_safe (h : Hdr) (ws : List Word) (m : Module) (safe : m.safe = true) : (exportStop h ws m).safe =
    true := by
  unfold exportStop
  repeat' (first
    | with_reducible assumption | with_reducible apply exportStopDc_safe | with_reducible apply exportStopAc_safe
    | with_reducible apply unlessFails_safe | extract_lets | split)

theorem handle_safe (opcode : Nat) (h : Hdr) (ws : List Word) (s : Stamps) (m : Module) (safe : m.safe = true) :
    (handle opcode h ws s m).safe = true := by
  unfold handle
  repeat' (first
    | with_reducible assumption | with_reducible apply getStatus_safe | with_reducible apply echo_safe
    | with_reducible apply readParam_safe | with_reducible apply stageParam_safe
    | with_reducible apply readParamBlock_safe | with_reducible apply writeLive_safe
    | with_reducible apply openStaging_safe | with_reducible apply commitOrRevert_safe
    | with_reducible apply discardStaged_safe | with_reducible apply stageLaunch_safe
    | with_reducible apply readLaunch_safe | with_reducible apply epochConfirm_safe
    | with_reducible apply setPowerState_safe | with_reducible apply setpoint_safe
    | with_reducible apply loopOpenCmd_safe | with_reducible apply loopCloseCmd_safe
    | with_reducible apply moveRequest_safe | with_reducible apply chargeStart_safe
    | with_reducible apply chargeStop_safe | with_reducible apply exportStart_safe
    | with_reducible apply exportStop_safe | with_reducible apply measureTemp_safe
    | with_reducible apply selftest_safe | with_reducible apply calibrate_safe
    | with_reducible apply readFaults_safe | with_reducible apply ackFaults_safe
    | with_reducible apply fillMemory_safe | with_reducible apply scrubControl_safe
    | with_reducible apply readSlackV_safe | with_reducible apply gateDiag_safe
    | with_reducible apply admitTailstock_safe | with_reducible apply releaseTailstock_safe
    | with_reducible apply timeSyncProbe_safe | with_reducible apply timeSync_safe
    | with_reducible apply allocateTorque_safe | with_reducible apply relay_safe
    | with_reducible apply debugAttach_safe | with_reducible apply resetDie_safe | with_reducible apply refuse_safe
    | with_reducible apply unlessFails_safe | extract_lets | split | simp only [Verdict.safe])

theorem runCommand_safe (opcode : Nat) (h : Hdr) (ws : List Word) (s : Stamps) (m : Module) (safe : m.safe = true) :
    (runCommand opcode h ws s m).safe = true := by
  unfold runCommand
  repeat' (first
    | with_reducible assumption | with_reducible apply moduleRestart_safe | with_reducible apply answer_safe
    | with_reducible apply handle_safe | extract_lets | split)

theorem countUndecodable_safe (m : Module) (safe : m.safe = true) : (countUndecodable m).safe = true := by
  unfold countUndecodable
  repeat' (first
    | with_reducible assumption | extract_lets | split | (simp only [safe_mk, coreOk_fold])
    | with_reducible refine safe_choice ?_ ?_ | (dsimp +zetaDelta only))

theorem refuseRaw_safe (t : Transport) (sender : Nat) (v : Via) (w0 : Word) (st : Status) (d : Nat) (m : Module) (safe : m.safe = true) : (refuseRaw t sender v w0 st d m).safe = true := by
  unfold refuseRaw
  repeat' (first | with_reducible assumption | with_reducible apply sendPacket_safe | extract_lets | split | (simp only [safe_mk, coreOk_fold]) | with_reducible refine safe_choice ?_ ?_ | (dsimp +zetaDelta only))

theorem takePacket_safe (q : QueuedPacket) (m : Module) (safe : m.safe = true) : (takePacket q m).safe = true := by
  unfold takePacket
  repeat' (first | with_reducible assumption | with_reducible apply refuseRaw_safe | with_reducible apply runCommand_safe | extract_lets | split | (simp only [safe_mk, coreOk_fold]) | with_reducible refine safe_choice ?_ ?_ | (dsimp +zetaDelta only))

theorem enqueue_safe (q : QueuedPacket) (m : Module) (safe : m.safe = true) : (enqueue q m).safe = true := by
  unfold enqueue
  repeat' (first
    | with_reducible assumption | extract_lets | split | (simp only [safe_mk, coreOk_fold])
    | with_reducible refine safe_choice ?_ ?_ | (dsimp +zetaDelta only))

/-- Every packet that waited is taken, or waits on. -/
theorem takeQueue_safe (k : Nat) : ∀ m : Module, m.safe = true → (takeQueue k m).safe = true := by
  induction k with
  | zero => intro m safe; exact safe
  | succ k ih =>
    intro m safe
    unfold takeQueue
    split
    · exact safe
    · extract_lets i m1
      have h1 : m1.safe = true := by
        simp only [m1, i]
        rw [safe_mk]
        exact safe
      clear_value m1
      refine ih _ ?_
      split
      · exact enqueue_safe _ _ h1
      · exact takePacket_safe _ _ h1

theorem drainQueue_safe (m : Module) (safe : m.safe = true) : (drainQueue m).safe = true := by
  unfold drainQueue
  split
  · exact safe
  · exact takeQueue_safe _ _ safe


theorem arrives_safe (q : QueuedPacket) (m : Module) (safe : m.safe = true) : (arrives q m).safe = true := by
  unfold arrives
  repeat' (first | with_reducible assumption | with_reducible apply refuseRaw_safe | with_reducible apply enqueue_safe | with_reducible apply takePacket_safe | extract_lets | split | (simp only [safe_mk, coreOk_fold]) | with_reducible refine safe_choice ?_ ?_ | (dsimp +zetaDelta only))

theorem packetWords_safe (q : QueuedPacket) (m : Module) (safe : m.safe = true) : (packetWords q m).safe = true := by
  unfold packetWords
  repeat' (first
    | with_reducible assumption | with_reducible apply countUndecodable_safe | with_reducible apply replyFrom_safe
    | with_reducible apply arrives_safe | extract_lets | split)

theorem packetBytes_safe (t : Transport) (sender : Nat) (v : Via) (fromHead : Bool) (bytes : List Byte) (s : Stamps) (m : Module) (safe : m.safe = true) : (packetBytes t sender v fromHead bytes s m).safe = true := by
  unfold packetBytes
  repeat' (first | with_reducible assumption | with_reducible apply countUndecodable_safe | with_reducible apply packetWords_safe | extract_lets | split | (simp only [safe_mk, coreOk_fold]) | with_reducible refine safe_choice ?_ ?_ | (dsimp +zetaDelta only))

theorem hostCommand_safe (opcode : Nat) (h : Hdr) (ws : List Word) (s : Stamps) (m : Module) (safe : m.safe = true)
    : (hostCommand opcode h ws s m).safe = true := by
  unfold hostCommand
  repeat' (first
    | with_reducible assumption | with_reducible apply arrives_safe | with_reducible apply runCommand_safe
    | extract_lets | split)

theorem queueFull_safe (q : QueuedPacket) (m : Module) (safe : m.safe = true) : (queueFull q m).safe = true := by
  unfold queueFull
  repeat' (first | with_reducible assumption | with_reducible apply refuseRaw_safe | extract_lets | split | (simp only [safe_mk, coreOk_fold]) | with_reducible refine safe_choice ?_ ?_ | (dsimp +zetaDelta only))

theorem dropSegment_safe (t : Transport) (sender : Nat) (m : Module) (safe : m.safe = true) :
    (dropSegment t sender m).safe = true := by
  unfold dropSegment
  repeat' (first
    | with_reducible assumption | with_reducible apply countUndecodable_safe | extract_lets | split
    | (simp only [safe_mk, coreOk_fold]) | with_reducible refine safe_choice ?_ ?_ | (dsimp +zetaDelta only))

theorem extend_safe (t : Transport) (sender : Nat) (fromHead last : Bool) (r : Reassembly) (data : List Byte) (s : Stamps) (m : Module) (safe : m.safe = true) : (extend t sender fromHead last r data s m).safe = true := by
  unfold extend
  repeat' (first | with_reducible assumption | with_reducible apply dropSegment_safe | with_reducible apply packetBytes_safe | extract_lets | split | (simp only [safe_mk, coreOk_fold]) | with_reducible refine safe_choice ?_ ?_ | (dsimp +zetaDelta only))

theorem takeSegment_safe (t : Transport) (sender : Nat) (v : Via) (fromHead : Bool) (bytes : List Byte) (s : Stamps) (m : Module) (safe : m.safe = true) : (takeSegment t sender v fromHead bytes s m).safe = true := by
  unfold takeSegment
  repeat' (first | with_reducible assumption | with_reducible apply dropSegment_safe | with_reducible apply extend_safe | extract_lets | split | (simp only [safe_mk, coreOk_fold]) | with_reducible refine safe_choice ?_ ?_ | (dsimp +zetaDelta only))

theorem segmentFrame_safe (t : Transport) (sender : Nat) (v : Via) (fromHead : Bool) (bytes : List Byte) (s : Stamps) (m : Module) (safe : m.safe = true) : (segmentFrame t sender v fromHead bytes s m).safe = true := by
  unfold segmentFrame
  repeat' (first | with_reducible assumption | with_reducible apply takeSegment_safe | with_reducible apply hearFrame_safe | with_reducible apply headHeard_safe | with_reducible apply noteCopy_safe | extract_lets | split | (simp only [safe_mk, coreOk_fold]) | with_reducible refine safe_choice ?_ ?_ | (dsimp +zetaDelta only))

theorem segmentTimeout_safe (m : Module) (safe : m.safe = true) : (segmentTimeout m).safe = true := by
  unfold segmentTimeout
  repeat' (first
    | with_reducible assumption | with_reducible apply dropSegment_safe
    | (with_reducible refine foldl_safe _ ?_ _ _ ?_) | (intro _ _ hh))

theorem canFrame_safe (p : Fin 4) (f : CanFrame) (stamp : Tick) (taken : Nat) (m : Module) (safe : m.safe = true) : (canFrame p f stamp taken m).safe = true := by
  unfold canFrame
  repeat' (first | with_reducible assumption | with_reducible apply canReceived_safe | with_reducible apply packetBytes_safe | with_reducible apply updIsobus_safe | extract_lets | split | (simp only [safe_mk, coreOk_fold]) | with_reducible refine safe_choice ?_ ?_ | (dsimp +zetaDelta only))

theorem svFrame_safe (bytes : List Byte) (m : Module) (safe : m.safe = true) : (svFrame bytes m).safe = true := by
  unfold svFrame
  repeat' (first | with_reducible assumption | with_reducible apply countUndecodable_safe | with_reducible apply packetBytes_safe | extract_lets | split | (simp only [safe_mk, coreOk_fold]) | with_reducible refine safe_choice ?_ ?_ | (dsimp +zetaDelta only))

theorem discardEth_safe (e : Fin 2) (m : Module) (safe : m.safe = true) : (discardEth e m).safe = true := by
  unfold discardEth
  repeat' (first | with_reducible assumption | with_reducible apply updEth_safe)

theorem ethernetFrame_safe (e : Fin 2) (f : EthFrame) (m : Module) (safe : m.safe = true) : (ethernetFrame e f m).safe = true := by
  unfold ethernetFrame
  repeat' (first | with_reducible assumption | with_reducible apply emit_safe | with_reducible apply transmit_safe | with_reducible apply echo_safe | with_reducible apply discardEth_safe | with_reducible apply packetBytes_safe | extract_lets | split | (simp only [safe_mk, coreOk_fold]) | with_reducible refine safe_choice ?_ ?_ | (dsimp +zetaDelta only))

theorem replySend_safe (i : Nat) (m : Module) (safe : m.safe = true) : (replySend i m).safe = true := by
  unfold replySend
  repeat' (first
    | with_reducible assumption | with_reducible apply sendReply_safe | extract_lets | split
    | (simp only [safe_mk, coreOk_fold]) | with_reducible refine safe_choice ?_ ?_ | (dsimp +zetaDelta only))

theorem timedEffect_safe (t : TimedCmd) (m : Module) (safe : m.safe = true) : (timedEffect t m).safe = true := by
  unfold timedEffect
  repeat' (first
    | with_reducible assumption | with_reducible apply applyPairs_safe | with_reducible apply updActuator_safe
    | with_reducible apply enterSet_safe | with_reducible apply becomeAdmitted_safe
    | with_reducible apply takeRelease_safe | extract_lets | split)

/-- A timed command leaves the pending ones before it acts. -/
theorem takeTimed_safe (t : TimedCmd) (m : Module) (safe : m.safe = true) :
    Module.safe { m with interp := { m.interp with timed := m.interp.timed.erase t } } = true := by
  rw [safe_mk]
  refine safe_withTimed safe ?_
  have := safe_timed safe
  simp only [timedOk, decide_eq_true_eq] at *
  exact le_trans (List.length_erase_le) this

theorem timedDue_safe (m : Module) (safe : m.safe = true) : (timedDue m).safe = true := by
  unfold timedDue
  split
  · exact safe
  · rename_i t heq
    have h1 := takeTimed_safe t m safe
    split
    · exact timedEffect_safe _ _ h1
    · refine raise_safe _ _ _ _ ?_
      rw [safe_mk] at *
      exact h1


theorem awake_safe (f : Module → Module) (m : Module) (safe : m.safe = true)
    (good : ∀ m : Module, m.safe = true → (f m).safe = true) : (awake f m).safe = true := by
  unfold awake
  repeat' (first | with_reducible assumption | with_reducible apply good | extract_lets | split)

theorem onDie_safe (d : Fin 46) (f : Module → Module) (m : Module) (safe : m.safe = true)
    (good : ∀ m : Module, m.safe = true → (f m).safe = true) : (onDie d f m).safe = true := by
  unfold onDie
  repeat' (first | with_reducible assumption | with_reducible apply good | extract_lets | split)

theorem onIsland_safe (i : Fin 36) (f : Module → Module) (m : Module) (safe : m.safe = true)
    (good : ∀ m : Module, m.safe = true → (f m).safe = true) : (onIsland i f m).safe = true :=
  awake_safe _ _ safe fun _ h => by
    split
    · exact good _ h
    · exact h


theorem atPort_safe (p : Fin 6) (f : Module → Module) (m : Module) (safe : m.safe = true)
    (good : ∀ m : Module, m.safe = true → (f m).safe = true) : (atPort p f m).safe = true := by
  unfold atPort
  repeat' (first
    | with_reducible assumption | with_reducible apply axAfterPort_safe | with_reducible apply noteHallEdge_safe
    | with_reducible apply good)

theorem restartCommand_safe (h : Hdr) (b : Boot) (m : Module) (safe : m.safe = true) : (restartCommand h b m).safe =
    true := by
  unfold restartCommand
  repeat' (first
    | with_reducible assumption | with_reducible apply arrives_safe | with_reducible apply moduleRestart_safe
    | extract_lets | split)

theorem legCycle_safe (j : Fin 4) (m : Module) (safe : m.safe = true) : (legCycle j m).safe = true := by
  unfold legCycle
  repeat' (first
    | with_reducible assumption | with_reducible apply cycleStart_safe
    | with_reducible apply regulationDecision_safe | extract_lets | split)

theorem legTrip_safe (j : Fin 4) (levels : List Word) (m : Module) (safe : m.safe = true) :
    (legTrip j levels m).safe = true := by
  unfold legTrip
  repeat' (first
    | with_reducible assumption | with_reducible apply diTrip_safe | with_reducible apply regulationDecision_safe
    | extract_lets | split)

theorem checkpointDrain_safe (main fallback parity : Bool) (ran : List Retirement) (m : Module)
    (safe : m.safe = true) : (checkpointDrain main fallback parity ran m).safe = true := by
  unfold checkpointDrain
  repeat' (first
    | with_reducible assumption | with_reducible apply drainQueue_safe | with_reducible apply checkpoint_safe)

theorem epochSwitch_safe (head : Option Word) (m : Module) (safe : m.safe = true) : (epochSwitch head m).safe = true
    := by
  unfold epochSwitch
  repeat' (first
    | with_reducible assumption | with_reducible apply switchEpoch_safe | with_reducible apply takeReference_safe
    | with_reducible apply takeBusEnable_safe | with_reducible apply epochCompare_safe | extract_lets | split
    | (simp only [safe_mk, coreOk_fold]) | with_reducible refine safe_choice ?_ ?_)

theorem mismatchDrain_safe (ran : List Retirement) (m : Module) (safe : m.safe = true) : (mismatchDrain ran m).safe
    = true := by
  unfold mismatchDrain
  repeat' (first
    | with_reducible assumption | with_reducible apply drainQueue_safe | with_reducible apply runPair_safe)

theorem retryFailedDrain_safe (ran : List Retirement) (m : Module) (safe : m.safe = true) :
    (retryFailedDrain ran m).safe = true := by
  unfold retryFailedDrain
  repeat' (first
    | with_reducible assumption | with_reducible apply drainQueue_safe | with_reducible apply retryFailed_safe)

theorem readErrorDrain_safe (b addr : Nat) (bad scrub : Bool) (entry : Nat) (m : Module) (safe : m.safe = true) :
    (readErrorDrain b addr bad scrub entry m).safe = true := by
  unfold readErrorDrain
  repeat' (first
    | with_reducible assumption | with_reducible apply drainQueue_safe | with_reducible apply readError_safe)

theorem stallTimeoutDrain_safe (d : Fin 46) (m : Module) (safe : m.safe = true) : (stallTimeoutDrain d m).safe =
    true := by
  unfold stallTimeoutDrain
  repeat' (first
    | with_reducible assumption | with_reducible apply drainQueue_safe | with_reducible apply stallTimeout_safe)

theorem faultRaised_safe (code detail : Nat) (cond : Bool) (m : Module) (safe : m.safe = true) :
    (faultRaised code detail cond m).safe = true := by
  unfold faultRaised
  repeat' (first | with_reducible assumption | with_reducible apply raise_safe | extract_lets | split)

theorem memberRelease_safe (a : Fin 2) (levels : List Word) (window : Nat) (k : MemberId) (m : Module)
    (safe : m.safe = true) : (memberRelease a levels window k m).safe = true := by
  cases k with
  | comparator k => exact comparatorRelease_safe _ _ _ _ safe
  | detector k => exact detectorRelease_safe _ _ _ _ safe

theorem onBus_safe (f : Module → Module) (m : Module) (safe : m.safe = true)
    (good : ∀ m : Module, m.safe = true → (f m).safe = true) : (onBus f m).safe = true :=
  awake_safe _ _ safe fun _ h => onDie_safe _ _ _ h fun _ k => onDie_safe _ _ _ k good

theorem onFlash_safe (f : Module → Module) (m : Module) (safe : m.safe = true)
    (good : ∀ m : Module, m.safe = true → (f m).safe = true) : (onFlash f m).safe = true :=
  awake_safe _ _ safe fun _ h => onDie_safe _ _ _ h good


end Sys2Proof.Machine
end

