-- ==== Sys2Proof/Laws/Safe/Landing.lean ====
section
/-!
SUPPORT. The invariant is kept by every operation of Machine/Landing.lean.
-/

namespace Sys2Proof.Machine

theorem applyHeld_safe (w : Waiting) (m : Module) (safe : m.safe = true) : (applyHeld w m).safe = true := by
  unfold applyHeld
  repeat' (first | with_reducible assumption | with_reducible apply startGateDiag_safe | with_reducible apply sendReply_safe | with_reducible apply startSweep_safe | with_reducible apply restartLap_safe | with_reducible apply markTest_safe | with_reducible apply startIslandTest_safe | extract_lets | split | (simp only [safe_mk, coreOk_fold]) | with_reducible refine safe_choice ?_ ?_ | (dsimp +zetaDelta only))

theorem applyDue_safe (m0 : Module) (safe : m0.safe = true) : (applyDue m0).safe = true := by
  unfold applyDue
  repeat' (first | with_reducible assumption | with_reducible apply applyAnswered_safe | with_reducible apply applyHeld_safe | (with_reducible refine foldl_safe _ ?_ _ _ ?_) | (intro _ _ hh) | extract_lets | split | (simp only [safe_mk, coreOk_fold]) | with_reducible refine safe_choice ?_ ?_ | (dsimp +zetaDelta only))

theorem stretch_safe (dt : Nat) (m : Module) (safe : m.safe = true) : (stretch dt m).safe = true := by
  unfold stretch
  repeat' (first | with_reducible assumption | with_reducible apply passTime_safe | with_reducible apply runGates_safe | with_reducible apply followEp_safe | with_reducible apply followGates_safe | with_reducible apply openWindow_safe | with_reducible apply readFrames_safe | with_reducible apply applyDue_safe | with_reducible apply settleDue_safe | extract_lets | split | (simp only [safe_mk, coreOk_fold]) | with_reducible refine safe_choice ?_ ?_ | (dsimp +zetaDelta only))

theorem passUntil_safe (k : Nat) : ∀ (limit : Nat) (m : Module), m.safe = true → (passUntil k limit m).safe = true
    := by
  induction k with
  | zero => intro limit m safe; exact stretch_safe _ _ safe
  | succ k ih =>
    intro limit m safe
    unfold passUntil
    split
    · exact ih _ _ (stretch_safe _ _ safe)
    · exact stretch_safe _ _ safe

/-- Real time keeps the invariant. -/
theorem advance_safe (dt : Nat) (m : Module) (safe : m.safe = true) : (advance dt m).safe = true := by
  unfold advance
  split
  · exact passTime_safe _ _ safe
  · extract_lets m0 m1
    refine passUntil_safe _ _ _ ?_
    simp only [m1]
    split
    · exact safe
    · exact settleTick_safe _ safe

end Sys2Proof.Machine
end

