-- ==== Sys2Proof/Laws/Safe/Effect.lean ====
section
/-!
SUPPORT. The invariant is kept by every operation of Machine/Effect.lean.
-/

namespace Sys2Proof.Machine

theorem preselectFor_safe (i : Fin 36) (m : Module) (safe : m.safe = true) : (preselectFor i m).safe = true := by
  unfold preselectFor
  repeat' (first | with_reducible assumption | with_reducible apply preselect_safe | extract_lets | split)

theorem onRegion_safe (n : Fin 8) (f : Module → Module) (m : Module) (safe : m.safe = true)
    (good : ∀ m : Module, m.safe = true → (f m).safe = true) : (onRegion n f m).safe = true :=
  awake_safe _ _ safe fun _ h => onDie_safe _ _ _ h good

theorem onGdc_safe (f : Module → Module) (m : Module) (safe : m.safe = true)
    (good : ∀ m : Module, m.safe = true → (f m).safe = true) : (onGdc f m).safe = true :=
  awake_safe _ _ safe fun _ h => onDie_safe _ _ _ h good

theorem onPort_safe (p : Fin 6) (f : Module → Module) (m : Module) (safe : m.safe = true)
    (good : ∀ m : Module, m.safe = true → (f m).safe = true) : (onPort p f m).safe = true :=
  onGdc_safe _ _ safe fun _ h => atPort_safe _ _ _ h fun _ k => withCapture_safe _ _ _ k good

theorem onLines_safe (p : Fin 6) (f : Module → Module) (m : Module) (safe : m.safe = true)
    (good : ∀ m : Module, m.safe = true → (f m).safe = true) : (onLines p f m).safe = true := by
  unfold onLines
  split
  · exact onPort_safe _ _ _ safe good
  · exact awake_safe _ _ safe good

theorem supplyLimit_safe (p : PortSupply) (m : Module) (safe : m.safe = true) : (supplyLimit p m).safe = true := by
  cases p with
  | fb q => exact atPort_safe _ _ _ safe fun _ h => fbSupplyLimit_safe _ _ h
  | cs i => exact fbSupplyLimit_safe _ _ safe

/-- The invariant holds of a command's next state where its effect keeps it. -/
theorem effect_safe (dt : Nat) (f : Module → Module) (s t : State) (safe : s.safe = true)
    (good : ∀ m : Module, m.safe = true → (f m).safe = true) (h : effect dt f s = .next t) : t.safe = true := by
  unfold effect at h
  cases h
  exact good _ (advance_safe _ _ safe)


end Sys2Proof.Machine
end

