-- ==== Sys2Proof/Laws/Time.lean ====
section
/-!
SUPPORT. What the passing of real time does: in OFF and SLEEP the clocks alone go on; where nothing is due it is one stretch;
where nothing is under way that stretch leaves the regions as they are.
-/

namespace Sys2Proof.Machine

/-- In OFF and SLEEP the clocks alone go on (R547). -/
theorem advance_down {m : Module} (dt : Nat) (h : m.label.code < 2) : advance dt m = passTime dt m := if_pos h

@[simp] theorem passTime_label (dt : Nat) (m : Module) : (passTime dt m).label = m.label := rfl
@[simp] theorem passTime_elapsed (dt : Nat) (m : Module) : (passTime dt m).time.elapsed = m.time.elapsed + dt := rfl
@[simp] theorem passTime_valid (dt : Nat) (m : Module) : (passTime dt m).time.valid = m.time.valid := rfl
@[simp] theorem passTime_running (dt : Nat) (m : Module) : (passTime dt m).time.running = m.time.running := rfl
@[simp] theorem passTime_bootCount (dt : Nat) (m : Module) :
    (passTime dt m).service.bootCount = m.service.bootCount := rfl
@[simp] theorem passTime_out (dt : Nat) (m : Module) : (passTime dt m).out = [] := rfl
@[simp] theorem passTime_supply (dt : Nat) (m : Module) : (passTime dt m).supply = m.supply := rfl
@[simp] theorem passTime_straps (dt : Nat) (m : Module) : (passTime dt m).straps = m.straps := rfl
@[simp] theorem passTime_dies (dt : Nat) (m : Module) : (passTime dt m).dies = m.dies := rfl
@[simp] theorem passTime_epochs (dt : Nat) (m : Module) : (passTime dt m).epochs = m.epochs := rfl
@[simp] theorem passTime_live (dt : Nat) (m : Module) : (passTime dt m).live = m.live := rfl
@[simp] theorem passTime_interp (dt : Nat) (m : Module) : (passTime dt m).interp = m.interp := rfl
@[simp] theorem passTime_faults (dt : Nat) (m : Module) : (passTime dt m).faults = m.faults := rfl
@[simp] theorem passTime_regions (dt : Nat) (m : Module) : (passTime dt m).regions = m.regions := rfl
@[simp] theorem passTime_hostOut (dt : Nat) (m : Module) : (passTime dt m).hostOut = m.hostOut := rfl
@[simp] theorem passTime_landings (dt : Nat) (m : Module) : (passTime dt m).landings = m.landings := rfl
@[simp] theorem passTime_published (dt : Nat) (m : Module) : (passTime dt m).published = m.published := rfl
@[simp] theorem passTime_exchange (dt : Nat) (m : Module) : (passTime dt m).exchange = m.exchange := rfl
@[simp] theorem passTime_publishing (dt : Nat) (m : Module) : (passTime dt m).publishing = m.publishing := rfl
@[simp] theorem passTime_checkpoints (dt : Nat) (m : Module) : (passTime dt m).checkpoints = m.checkpoints := rfl
@[simp] theorem passTime_lockstep (dt : Nat) (m : Module) : (passTime dt m).lockstep = m.lockstep := rfl
@[simp] theorem passTime_memory (dt : Nat) (m : Module) : (passTime dt m).memory = m.memory := rfl
@[simp] theorem passTime_traction (dt : Nat) (m : Module) : (passTime dt m).traction = m.traction := rfl
@[simp] theorem passTime_chopper (dt : Nat) (m : Module) : (passTime dt m).chopper = m.chopper := rfl
@[simp] theorem passTime_feedback (dt : Nat) (m : Module) : (passTime dt m).feedback = m.feedback := rfl
@[simp] theorem passTime_converter (dt : Nat) (m : Module) : (passTime dt m).converter = m.converter := rfl
@[simp] theorem passTime_charger (dt : Nat) (m : Module) : (passTime dt m).charger = m.charger := rfl
@[simp] theorem passTime_islands (dt : Nat) (m : Module) : (passTime dt m).islands = m.islands := rfl
@[simp] theorem passTime_gate (dt : Nat) (m : Module) : (passTime dt m).gate = m.gate := rfl
@[simp] theorem passTime_actuators (dt : Nat) (m : Module) : (passTime dt m).actuators = m.actuators := rfl
@[simp] theorem passTime_afe (dt : Nat) (m : Module) : (passTime dt m).afe = m.afe := rfl
@[simp] theorem passTime_can (dt : Nat) (m : Module) : (passTime dt m).can = m.can := rfl
@[simp] theorem passTime_eth (dt : Nat) (m : Module) : (passTime dt m).eth = m.eth := rfl
@[simp] theorem passTime_isobus (dt : Nat) (m : Module) : (passTime dt m).isobus = m.isobus := rfl
@[simp] theorem passTime_sys (dt : Nat) (m : Module) : (passTime dt m).sys = m.sys := rfl
@[simp] theorem passTime_free (dt : Nat) (m : Module) : (passTime dt m).free = m.free := rfl

/-- The label of a module in OFF or SLEEP stays while time passes. -/
theorem advance_label_down {m : Module} (dt : Nat) (h : m.label.code < 2) : (advance dt m).label = m.label := by
  rw [advance_down dt h, passTime_label]

/-- Where no clock is due nothing is next. -/
theorem nextDue_quiet {m : Module} (limit : Nat) (h : m.dueClocks = []) : m.nextDue limit = none := by
  simp [Module.nextDue, h]

theorem passUntil_quiet {m : Module} (k limit : Nat) (h : m.dueClocks = []) :
    passUntil k limit m = stretch (limit - m.time.elapsed) m := by
  cases k with
  | zero => rfl
  | succ k => simp only [passUntil, nextDue_quiet limit h]

/-- No port has anything of its tick left to settle. -/
def Module.portsQuiet (m : Module) : Prop := ∀ p : Fin 6, m.feedback[p].waits = false

/-- Where no port waits for the end of its tick, the end of the tick changes nothing. -/
theorem settleTick_quiet {m : Module} (h : m.portsQuiet) : settleTick m = m := by
  have go : ∀ l : List (Fin 6),
      l.foldl (fun (m : Module) p => if m.feedback[p].waits then withCapture p (settlePort p) m else m) m = m := by
    intro l
    induction l with
    | nil => rfl
    | cons p l ih => rw [List.foldl_cons, h p, if_neg Bool.false_ne_true, ih]
  exact go _

/-- Where nothing is due and no port waits, the time before a command is one stretch. -/
theorem advance_quiet {m : Module} (dt : Nat) (up : 2 ≤ m.label.code) (h : m.dueClocks = []) (q : m.portsQuiet) :
    advance dt m = stretch dt { m with out := [] } := by
  have e : ({ m with out := [] } : Module).dueClocks = [] := h
  have s : settleTick { m with out := [] } = { m with out := [] } := settleTick_quiet (m := { m with out := [] }) q
  unfold advance
  rw [if_neg (by omega)]
  simp only [s, ite_self]
  rw [passUntil_quiet _ _ e, Nat.add_sub_cancel_left]

/-- A fold of steps that change the islands alone changes the islands alone. -/
theorem foldl_islands {ι : Type} {f : Module → ι → Module} (h : ∀ m k, ∃ x, f m k = { m with islands := x }) :
    ∀ (l : List ι) (m : Module), ∃ x, l.foldl f m = { m with islands := x }
  | [], m => ⟨m.islands, rfl⟩
  | k :: l, m => by
    obtain ⟨x, e⟩ := h m k
    obtain ⟨y, e'⟩ := foldl_islands h l (f m k)
    exact ⟨y, by rw [List.foldl_cons, e', e]⟩

/-- The gates over a gap of time change the islands alone. -/
theorem runGates_islands (dt : Nat) (m : Module) : ∃ x, runGates dt m = { m with islands := x } :=
  foldl_islands (fun m g => by
    unfold runLeg
    extract_lets
    split
    · exact ⟨m.islands, rfl⟩
    · split
      · exact ⟨_, rfl⟩
      · exact ⟨_, rfl⟩) _ m

/-- So do the outputs that follow them. -/
theorem followGates_islands (dt : Nat) (m : Module) : ∃ x, followGates dt m = { m with islands := x } := by
  unfold followGates
  split
  · exact foldl_islands (fun _ _ => ⟨_, rfl⟩) _ m
  · exact ⟨m.islands, rfl⟩

/-- What a change of one feedback port leaves as it is in that port stays in every port. -/
theorem upd_keeps {α : Type} (get : Feedback → α) (p : Fin 6) {f : Feedback → Feedback} (h : ∀ x, get (f x) = get x)
    (v : Vector Feedback 6) (q : Fin 6) : get (Vector.upd v p f)[q] = get v[q] := by
  by_cases e : p = q
  · subst e; simp [Vector.upd, h]
  · simp [Vector.upd, Fin.val_inj, e]

/-- The emulated edges of a gap change the feedback ports alone, and no word that is being read. -/
theorem followEp_feedback (dt : Nat) (p : Fin 2) (m : Module) :
    ∃ x, followEp dt p m = { m with feedback := x } ∧ ∀ q : Fin 6, x[q].ssiReading = m.feedback[q].ssiReading := by
  unfold followEp
  extract_lets
  split
  · exact ⟨m.feedback, rfl, fun _ => rfl⟩
  · split
    · exact ⟨_, rfl, upd_keeps Feedback.ssiReading _ (by intro; rfl) _⟩
    · exact ⟨_, rfl, fun r => (upd_keeps Feedback.ssiReading _ (by intro; rfl) _ r).trans
        (upd_keeps Feedback.ssiReading _ (by intro; rfl) _ r)⟩

/-- With nothing to land and nothing to publish, nothing settles. -/
theorem settleDue_idle {m : Module} (ls : m.landings = []) (ps : m.publishing = []) : settleDue m = m := by
  obtain ⟨⟩ := m
  subst ls ps
  rfl

/-- With nothing waiting, no held write is due. -/
theorem applyDue_idle {m : Module} (ws : m.interp.waiting = []) : applyDue m = m := by
  obtain ⟨time, supply, straps, dies, epochs, live, ⟨a, b, c, d, e, f, waiting, q, r, l⟩⟩ := m
  subst ws
  rfl

/-- With no word being read, none is finished. -/
theorem readFrames_idle {m : Module} (r : ∀ p : Fin 6, m.feedback[p].ssiReading = none) : readFrames m = m := by
  unfold readFrames
  split
  · rfl
  · suffices go : ∀ l : List (Fin 6), l.foldl (fun m p => match m.feedback[p].ssiReading with
        | some s => if s.readyAt ≤ m.time.elapsed then ssiRead p s m else m
        | none => m) m = m from go _
    intro l
    induction l with
    | nil => rfl
    | cons p l ih => rw [List.foldl_cons, r p]; exact ih

/-- Without a test of a twin no window opens. -/
theorem openWindow_idle {m : Module} (a : Fin 2) (t : m.afe[a].test = none) : openWindow a m = m := by
  unfold openWindow
  rw [t]

/-- With nothing under way, the end of a stretch changes nothing. -/
theorem stretchEnd_idle {m : Module} (ls : m.landings = []) (ps : m.publishing = []) (ws : m.interp.waiting = [])
    (r : ∀ p : Fin 6, m.feedback[p].ssiReading = none) (t : ∀ a : Fin 2, m.afe[a].test = none) :
    openWindow 1 (openWindow 0 (readFrames (applyDue (settleDue m)))) = m := by
  rw [settleDue_idle ls ps, applyDue_idle ws, readFrames_idle r, openWindow_idle 0 (t 0), openWindow_idle 1 (t 1)]

/-- With nothing under way, what follows the edges leaves the regions as they are. -/
theorem follow_regions {m : Module} (dt : Nat) (ls : m.landings = []) (ps : m.publishing = [])
    (ws : m.interp.waiting = []) (r : ∀ p : Fin 6, m.feedback[p].ssiReading = none)
    (t : ∀ a : Fin 2, m.afe[a].test = none) :
    (openWindow 1 (openWindow 0 (readFrames (applyDue (settleDue
      (followEp dt 1 (followEp dt 0 (followGates dt m)))))))).regions = m.regions := by
  obtain ⟨y, ey⟩ := followGates_islands dt m
  obtain ⟨f, ef, kf⟩ := followEp_feedback dt 0 (followGates dt m)
  obtain ⟨g, eg, kg⟩ := followEp_feedback dt 1 (followEp dt 0 (followGates dt m))
  have rg : ∀ p : Fin 6, g[p].ssiReading = none := fun p => by
    rw [kg, ef]
    exact (kf p).trans (by rw [ey]; exact r p)
  rw [stretchEnd_idle (by rw [eg, ef, ey]; exact ls) (by rw [eg, ef, ey]; exact ps) (by rw [eg, ef, ey]; exact ws)
    (by rw [eg]; exact rg) (by rw [eg, ef, ey]; exact t), eg, ef, ey]

/-- Where nothing is under way, a stretch of time leaves the regions as they are. -/
theorem stretch_regions {m : Module} (dt : Nat) (ls : m.landings = []) (ps : m.publishing = [])
    (ws : m.interp.waiting = []) (r : ∀ p : Fin 6, m.feedback[p].ssiReading = none)
    (t : ∀ a : Fin 2, m.afe[a].test = none) : (stretch dt m).regions = m.regions := by
  obtain ⟨x, ex⟩ := runGates_islands dt m
  unfold stretch
  refine (follow_regions dt (m := { passTime dt (runGates dt m) with out := m.out }) (by rw [ex]; exact ls)
    (by rw [ex]; exact ps) (by rw [ex]; exact ws) (by rw [ex]; exact r) (by rw [ex]; exact t)).trans ?_
  rw [ex]
  rfl

end Sys2Proof.Machine
end

