-- ==== Sys2Proof/WellFormed.lean ====
section
/-!
DEFINITION. Well-formed commands: operands the hardware can present. Operands whose type already bounds them need no check.
-/

namespace Sys2Proof

open Machine

/-- The senders of a transport (R518, R519): an address on CN0, a node on the axle link, an IPv4 address on Ethernet. Only a
packet of the axle link can come from the Headstock. -/
def senderOk (t : Transport) (sender : Nat) (fromHead : Bool) : Bool :=
  match t with
  | .cn0 => decide (sender < 254) && !fromHead
  | .cn1 => sender == 0 && !fromHead
  | .cn2 => decide (sender < 16)
  | .cn3 => decide (sender < 16)
  | .et0 => decide (sender < 2 ^ 32) && !fromHead
  | .et1 => decide (sender < 2 ^ 32) && !fromHead
  | .sv => sender == 0 && !fromHead

/-- A header whose sender is one of its transport. -/
def Hdr.wf (h : Hdr) : Bool := senderOk h.transport h.sender h.fromHead

/-- A request: COUNT is 0 … 62 (R513). -/
def Req.wf (r : Req) : Bool := r.hdr.wf && decide (r.words.length ≤ 62)

/-- A start: the PLL locks no more than 8 ms after LVIN, or a wake (R553 step 2). -/
def Boot.wf (b : Boot) : Bool := decide (b.lock ≤ 3200000)

/-- A frame that can carry a segment of a packet (R520): on CN1 at most 64 bytes, on the axle link at most 112. -/
def frameOk (t : Transport) (bytes : List Byte) : Bool :=
  match t with
  | .cn1 => decide (1 ≤ bytes.length) && decide (bytes.length ≤ 64)
  | .cn2 => decide (2 ≤ bytes.length) && decide (bytes.length ≤ 112)
  | .cn3 => decide (2 ≤ bytes.length) && decide (bytes.length ≤ 112)
  | _ => false

/-- A CAN frame (R440): identifier and length its format can have; SEC exists in CAN XL only. -/
def CanFrame.wf (f : CanFrame) : Bool :=
  let identOk := decide (f.ident < if f.extended then 2 ^ 29 else 2 ^ 11)
  match f.format with
  | .classical => identOk && !f.sec && decide (f.data.length ≤ 8)
  | .fd => identOk && !f.sec && (decide (f.data.length ≤ 8) || [12, 16, 20, 24, 32, 48, 64].contains f.data.length)
  | .xl => identOk && !f.extended && decide (1 ≤ f.data.length) && decide (f.data.length ≤ 2048)

/-- The content of an axle-link frame: an allocation lists the shares of its eight nodes (R463). -/
def AxlePayload.wf : AxlePayload → Bool
  | .event _ _ => true
  | .sync _ => true
  | .syncFu _ _ => true
  | .alloc _ _ _ shares => shares.length == 8
  | .status _ _ _ _ _ _ => true

/-- An Ethernet frame: a datagram without fragments carries at most 1,472 bytes (R468). -/
def EthFrame.wf : EthFrame → Bool
  | .arp _ => true
  | .echo _ _ _ => true
  | .udp _ _ _ _ bytes => decide (bytes.length ≤ 1472)
  | .excluded => true

/-- A retirement of a core (R158 … R160): one of 32 registers, addresses of 32 bits, four byte enables. -/
def Retired.wf (r : Retired) : Bool :=
  decide (r.address < 2 ^ 32) && decide (r.next < 2 ^ 32) && (match r.write with | some w => decide (w.1 < 32) | none => true) &&
    (match r.tcm with | some w => decide (w.2.1 < 2 ^ 32) | none => true) &&
    (match r.bus with | some t => decide (t.address < 2 ^ 32) && decide (t.enables < 16) | none => true)

/-- A retirement of either core. -/
def Retirement.wf : Retirement → Bool
  | .core0 r held => r.wf && held.wf
  | .core1 r => r.wf

/-- The operands of a command are such as the hardware can present. -/
def Instr.wf : Instr → Bool
  | .getStatus _ r => r.wf
  | .echo _ r => r.wf
  | .readParam _ r => r.wf
  | .readParamBlock _ r => r.wf
  | .stageParam _ r => r.wf
  | .writeLive _ r => r.wf
  | .fabricSupplyWrite _ h _ _ _ => h.wf
  | .fabricSupplyChangeDone _ _ => true
  | .flogRecordSelect _ h _ _ => h.wf
  | .flogCountSelect _ h _ _ => h.wf
  | .flogErase _ h _ => h.wf
  | .flogEraseDone _ => true
  | .openStaging _ r => r.wf
  | .commitEpochAt _ r => r.wf
  | .discardStaged _ r => r.wf
  | .revertEpoch _ r => r.wf
  | .stageLaunch _ r => r.wf
  | .readLaunch _ r => r.wf
  | .epochConfirm _ r => r.wf
  | .setPowerState _ r => r.wf
  | .torqueSetpoint _ r => r.wf
  | .speedSetpoint _ r => r.wf
  | .loopOpen _ r => r.wf
  | .loopClose _ r => r.wf
  | .shiftRequest _ r => r.wf
  | .parkLock _ r => r.wf
  | .chargeStart _ r => r.wf
  | .chargeStop _ r => r.wf
  | .exportStartAc _ h => h.wf
  | .exportStartDc _ h => h.wf
  | .exportStopAc _ h => h.wf
  | .exportStopDc _ h => h.wf
  | .measureTemp _ r => r.wf
  | .selftestSup _ h => h.wf
  | .selftestFabric _ h _ => h.wf
  | .selftestIsland _ h _ => h.wf
  | .selftestComparatorPair _ h _ _ => h.wf
  | .selftestDetectorPair _ h _ _ => h.wf
  | .calibrate _ r => r.wf
  | .readFaults _ r => r.wf
  | .ackFaults _ r => r.wf
  | .fillMemory _ r => r.wf
  | .scrubControl _ h _ => h.wf
  | .scrubRestart _ h _ => h.wf
  | .readSlack _ r => r.wf
  | .readSlackClear _ r => r.wf
  | .gateDiag _ r => r.wf
  | .admitTailstock _ r => r.wf
  | .releaseTailstock _ r => r.wf
  | .timeSync _ r => r.wf
  | .timeSyncProbe _ h _ _ => h.wf
  | .allocateTorque _ r => r.wf
  | .relay _ r => r.wf
  | .debugAttach _ r => r.wf
  | .resetDie _ r => r.wf
  | .moduleRestart _ h b => h.wf && b.wf
  | .dieResetRelease _ _ => true
  | .packetReceived _ t sender _ fromHead words _ => senderOk t sender fromHead && 2 ≤ words.length && words.length ≤ 64
  | .packetUndecodable _ => true
  | .transportQueueFull _ t sender _ fromHead words _ => senderOk t sender fromHead && 2 ≤ words.length && words.length ≤ 64
  | .segmentFrame _ t sender _ fromHead bytes _ => senderOk t sender fromHead && frameOk t bytes
  | .segmentTimeout _ => true
  | .svFrame _ bytes => !bytes.contains 0xC0
  | .replySend _ _ => true
  | .timedCommandDue _ => true
  | .periodBoundary _ _ => true
  | .launch _ _ _ => true
  | .sampleWordArrival _ _ _ => true
  | .laneComplete _ _ _ entry _ branch => entry < 512 && branch < 24
  | .resolveKey _ _ _ entry _ _ => entry < 512
  | .collectorAccept _ _ moments upsets =>
      moments.all (fun ms => ms.all (fun x => x.1 < 512)) && upsets.all (fun x => x.1 < 512)
  | .commitInstant _ _ => true
  | .deferredCommit _ _ => true
  | .fabricUnitStuck _ _ _ => true
  | .fabricFallbackRate _ _ => true
  | .countWindowEnd _ => true
  | .fabricCheckpointError _ _ => true
  | .checkpointRebuilt _ _ => true
  | .fabricBistDone _ _ failed => failed < 65536
  | .supBistDone _ _ _ _ _ => true
  | .xingEventOverflow _ _ => true
  | .crossingStallTimeout _ _ => true
  | .spindleTsRefLost _ => true
  | .spindleRefLost _ => true
  | .spindleLost _ => true
  | .lockstepCheckpoint _ _ _ _ ran => ran.all Retirement.wf
  | .lockstepMismatch _ ran => ran.all Retirement.wf
  | .supLockstepLost _ ran => ran.all Retirement.wf
  | .flyingStart _ _ => true
  | .trPlausDwellExpiry _ _ _ => true
  | .preselectUpdate _ => true
  | .islandHealthChange _ _ => true
  | .patternReevaluation _ _ => true
  | .patternWriteToRegion _ _ => true
  | .chopperPeriod _ _ _ => true
  | .chSwitchShort _ => true
  | .chopperBackstop _ => true
  | .dclOv1 _ => true
  | .dclOv2 _ => true
  | .fbEdge _ _ _ _ => true
  | .fbIndex _ _ _ _ _ => true
  | .fbHallInvalid _ _ => true
  | .ssiFrame _ _ _ _ => true
  | .fbStandstillTimeout _ _ => true
  | .fbLineBreak _ _ _ => true
  | .fbEpOverrun _ _ => true
  | .converterCycleStart _ _ => true
  | .diComparatorTrip _ _ levels => levels.length ≤ 8
  | .dutyMaxEnd _ _ => true
  | .prechargeComplete _ => true
  | .cvPrechargeFail _ => true
  | .dcExportEnd _ _ => true
  | .pilotClassify _ _ => true
  | .proximityClassify _ _ => true
  | .sourceLost _ => true
  | .chStateEvaluation _ => true
  | .cvCgPlausDwellExpiry _ _ => true
  | .islandFrame _ _ _ => true
  | .islandStatusFrame _ _ _ => true
  | .gdLinkLost _ _ _ => true
  | .enFall _ => true
  | .enRise _ => true
  | .gdUvlo _ _ _ => true
  | .islandRailTimeout _ _ => true
  | .gdDesat _ _ => true
  | .gdHardShort _ _ => true
  | .softTurnOffStage _ _ => true
  | .islandSelftestDone _ _ _ _ _ _ => true
  | .gateDiagStep _ _ _ _ => true
  | .hallCommutation _ _ => true
  | .actuatorCarrierValley _ _ _ _ _ _ => true
  | .axBootUvlo _ _ _ => true
  | .axPositionLost _ _ => true
  | .homingStall _ _ => true
  | .axMoveTimeout _ _ => true
  | .moveComplete _ _ => true
  | .afeTrigger _ _ _ sar pv sd => sar.length ≤ 32 && pv.length ≤ 6 && sd.length ≤ 4
  | .queueEntry _ _ => true
  | .sliceRotation _ _ => true
  | .sliceCalibrationDone _ _ _ _ _ _ => true
  | .afeSdLost _ _ _ => true
  | .sdDetectorTrip _ _ _ window => window < 32768
  | .protectionComparatorTrip _ _ _ levels => levels.length ≤ 8
  | .comparatorRelease _ _ _ levels window => levels.length ≤ 8 && window < 32768
  | .twinTestDone _ _ _ => true
  | .canFrameReceived _ _ f _ _ => f.wf
  | .canFrameTransmitted _ _ _ _ => true
  | .oneShotFail _ _ _ => true
  | .busObjectEcc _ _ _ => true
  | .hpBufferFrame _ _ _ _ data _ => data.length ≤ 2048
  | .busOff _ _ => true
  | .busOffRecovery _ _ _ => true
  | .busWake _ _ _ b => b.wf
  | .addressClaim _ _ => true
  | .dm1Send _ => true
  | .axleLinkFrame _ _ _ _ k => k.wf
  | .alPortDown _ _ => true
  | .ethernetDatagram _ _ f => f.wf
  | .etLinkDown _ _ => true
  | .syncSend _ => true
  | .syncReceived _ _ _ _ _ _ _ _ => true
  | .wiredSyncEdge _ _ => true
  | .syncHoldoverExpiry _ => true
  | .listenPeriodEnd _ => true
  | .statusSend _ => true
  | .eventSend _ => true
  | .admissionLoss _ _ => true
  | .nodeRemoval _ _ => true
  | .allocationInstant _ => true
  | .sysAllocStale _ => true
  | .commitVoteDeadline _ => true
  | .commitConfirmDeadline _ => true
  | .epochSwitch _ _ => true
  | .epochFlashDone _ => true
  | .epochFlashFail _ => true
  | .pwrTransitionFail _ => true
  | .startUp _ b _ => b.wf
  | .lvinLost _ _ => true
  | .lvinReturn _ _ => true
  | .hvauxLost _ _ => true
  | .hvilChange _ _ => true
  | .fbSupplyLimit _ _ => true
  | .svRateChange _ => true
  | .patternVerify _ _ _ => true
  | .faultRaised _ code detail _ => (faultInfo code).isSome && detail < 65536
  | .flogProgram _ _ => true
  | .twinTestOverdue _ _ detector pair => pair < (if detector then 4 else 16)
  | .memoryReadError _ block addr _ _ entry => blockValid block && addr < blockWords block && entry < 512
  | .scrubTick _ _ => true
  | .memScrubLap _ _ => true
  | .fillDone _ _ => true
  | .tempMeasurement _ _ _ _ _ => true
  | .thermStale _ _ => true
  | .powerTransitionProgress _ b => b.wf
  | .hvauxReturn _ _ => true
  | .holdupStoreCharged _ => true
  | .dieSupplyChange _ _ _ => true
  | .referenceRecovery _ _ => true
  | .fbLineRestored _ _ _ => true
  | .fbSupplyRecovery _ _ => true
  | .sdModulatorRecovery _ _ _ => true
  | .uvloRecovery _ _ _ => true
  | .bootUvloRelease _ _ _ => true
  | .etLinkUp _ _ _ => true
  | .tpSessionTimeout _ => true
  | .wiredSyncPulseMissing _ => true
  | .delayProbe _ _ => true
  | .tailstockReplyTimeout _ => true
  | .wordRewrite _ block addr => blockValid block && addr < blockWords block
  | .operatingTimeProgram _ => true

end Sys2Proof
end

