-- ==== Sys2Proof/Tests/Slice0.lean ====
section
/-!
SUPPORT. Tests: states that meet the hypotheses of every clause of every statement, terms that WellFormed refuses, and the
worked examples of the manual.
-/

namespace Sys2Proof.Machine

-- One theorem after the other: a kernel decision waits for every proof before it, and would hold a thread meanwhile.
set_option Elab.async false

/-! ## States the witnesses start from -/

/-- An image that enables every function: traction, converter, chopper, charger, actuators. -/
def tImage (n : Nat) : Image := { factoryImage with number := word n }

def tBase : Module :=
  { Module.reset with
    time := { Timing.reset with count := 8000000000, elapsed := 8000000000, running := true, valid := true },
    can := Vector.replicate 4 (CanPort.init 1), service := { bootCount := 1, operatingTime := 0, unprogrammed := 0 },
    sys := { System.init true 0 0 with listening := false, statusAt := some 0 } }

def tStandby : Module :=
  { tBase with
    supply := { Supply.reset with label := .standby, lvinOk := true, hvauxOk := true, en := true, hvil := true },
    dies := Vector.ofFn (fun d => Die.init (if standbyDie d.val then 1 else 0)) }

def tReady : Module :=
  { tBase with
    supply := { Supply.reset with label := .ready, lvinOk := true, hvauxOk := true, en := true, hvil := true },
    dies := Vector.replicate 46 (Die.init 1), regions := Vector.replicate 8 { Region.init with started := true },
    islands := Vector.replicate 36 { Island.init with railPosOk := true, railNegOk := true, railsSeen := true } }

def tHdr : Hdr :=
  { transport := .sv, sender := 0, fromHead := false, tag := 0x2A, timed := false, relayed := false, data := true }
def tHeadHdr : Hdr := { tHdr with transport := .cn2, fromHead := true, relayed := true }
def tReq (ws : List Word) : Req := { hdr := tHdr, words := ws }
def tTimedReq (ws : List Word) : Req := { hdr := { tHdr with timed := true }, words := ws }
def tHeadReq (ws : List Word) : Req := { hdr := tHeadHdr, words := ws }
def tTimedHeadReq (ws : List Word) : Req := { hdr := { tHeadHdr with timed := true }, words := ws }
/-- An instant ten seconds ahead. -/
def tLater : Tick := 12000000000

def tStaged : Module :=
  { tReady with epochs := { tReady.epochs with staged := some (tImage 9), cellar := some (tImage 8) } }
/-- The module as an admitted Tailstock at node 5. -/
def tTail (m : Module) : Module :=
  { m with straps := { headstock := false, split := false, node := 5, invalid := 0 },
           sys := { m.sys with admitted := true } }
/-- A Headstock with node 1 in the admitted set. -/
def tLeader (m : Module) : Module := { m with sys := { m.sys with admittedMask := 3 } }
def tProvisional : Provisional := { revert := false, instant := tLater, confirmed := false, asked := 0, replies := [] }
def tProv : Module := { tStaged with epochs := { tStaged.epochs with provisional := some tProvisional } }
/-- Every function enabled; two gears of the actuators taught, the second actuator a park lock. -/
def tWork : Image :=
  [(P.trEnable, 1), (P.trEnable + 0x1000, 1), (P.cvEnable, 1), (P.doEnable, 1), (P.doVref, 0x442F0000),
   (P.chEnable, 1), (P.cgEnable, 1), (P.exAcEnable, 1), (P.axEnable, 1), (P.axGearPos + 1, 100),
   (P.axEnable + 0x40, 1), (P.axRole + 0x40, 1), (P.axGearPos + 0x41, 100)].foldl
    (fun i p => i.write p.1 p.2) factoryImage
def tRun : Module :=
  { tReady with
    supply := { tReady.supply with label := .run }, epochs := { tReady.epochs with active := tWork },
    islands := tReady.islands.map (fun x => { x with state := .enabled }) }
def tMoves : Module :=
  { tRun with actuators := tRun.actuators.map (fun a => { a with closed := true, homed := true, clean := true }) }
def tCharge : Module :=
  { tRun with
    converter := { tRun.converter with closed := true, vbat := 0x43C80000 },
    charger := { tRun.charger with quietSince := some 0 } }
/-- Sigma-delta input 0 of AFE 0 in use. -/
def tSd : Module :=
  { tReady with epochs := { tReady.epochs with active := factoryImage.write P.afeSdTrip 0x42C80000 } }
def tHead : Module :=
  { tReady with
    sys := { tReady.sys with
      admittedMask := 3,
      nodes := Vector.ofFn (fun n =>
        if n.val = 1 ∨ n.val = 5 then
          { Node.init with heardAt := some 8000000000, statusAt := some 8000000000, porch := true, timeLocked := true, hvil := true, power := 3 }
        else Node.init) } }
def tTailReady : Module :=
  { tTail tReady with
    sys := { System.init false 5 0 with
      listening := false, statusAt := some 0, timeState := .linkLock, headEpoch := some 0,
      headSetCrc := some factoryImage.setCrc, headAt := some 8000000000 } }
def tTailAdmitted : Module := { tTailReady with sys := { tTailReady.sys with admitted := true } }
def tInner : List Word := [0x012B0020, crc32c [0x012B0020]]
def tBoot : Boot :=
  { straps := Straps.reset, lock := 1000000, activeBad := false, cellarBad := false, roleBad := false }
/-- GET_STATUS. -/
def tStatusPacket : List Word := [0x012A0020, crc32c [0x012A0020]]
def tQueue : Module :=
  { tReady with
    interp := { Interp.init with
      queue := List.replicate 16 { transport := .sv, sender := 0, fromHead := false, words := tStatusPacket, stamps := noStamps } } }
def tReassembly : Reassembly :=
  { transport := .cn1, sender := 0, total := 80, bytes := [], nextSeq := 1, lastAt := 0 }
def tDone : Waiting :=
  { opcode := 0x70, hdr := tHdr, count := 1, target := 2, since := 0, result := some (0, 0, [1]) }
def tTimed : TimedCmd := { opcode := 0x13, hdr := tHdr, words := [word P.flogRecordSelect, 3], instant := 5 }
def tTimedBad : TimedCmd := { opcode := 0x40, hdr := tHdr, words := [0, 0x42C80000], instant := 5 }
def tTwin : Waiting :=
  { opcode := 0x71, hdr := tHdr, count := 1, target := 100, since := 0, result := none }
/-- Entry 3 of region 2 in use. -/
def tLaunch (w0 : Word) : Module :=
  { tReady with epochs := { tReady.epochs with active := factoryImage.writeEntry 2 3 w0 0x012C0060 } }
def tEntry : QueueEntry := { word := 0x04000001, cf0 := true, cf1 := false }
def tWord : Deliver := { second := false, staged := false, place := 0, value := 0x3F800000 }
/-- An instance of entry 3 that runs the current correction, its sample words and output words there before its commit
instant. -/
def tBare : Instance :=
  { entry := 3, word0 := 0x00000010, word1 := 0x00C80043, launch := 7999999900, commit := 8000000000, period := 0,
    lanesOn := false, deferred := false, missed := false, notLaunched := false, quenched := false, blocked := false,
    range := false, range2 := false, invalid := false, waiting := false, arrived := [], accepted := [], oldEpoch := false, seen := Saved.init,
    exchange := [] }
def tInstance : Instance :=
  { tBare with
    arrived := tReady.samplesOf 0 tBare,
    accepted := (List.range 4).map (fun k => (.word { tWord with place := k }, 7999999999)) }
def tDue (b : Bool) : Instance := { tInstance with deferred := b }
/-- With its staged writes there too, whatever its entry declares. -/
def tClean (b : Bool) : Instance :=
  { tDue b with accepted := tInstance.accepted ++ (declOf 0x043).staged.map (fun x =>
      (.word { tWord with staged := true, place := x.1 }, 7999999999)) }
/-- With run-ahead lanes; as the traction decision; with a miss. -/
def tAhead : Instance := { tInstance with word0 := 0x00000011, lanesOn := true, accepted := [] }
def tDecision : Instance := { tAhead with word1 := 0x00C80041 }
def tMissed : Instance := { tAhead with accepted := [(.key false missCode, 7999999999)] }
theorem tClean_whole (b : Bool) : (tClean b).whole false = true := by
  have words : ∀ d : Deliver, d ∈ (tDue b).delivered false → d ∈ (tClean b).delivered false := fun d h => by
    obtain ⟨a, ha, e⟩ := List.mem_filterMap.mp h
    exact List.mem_filterMap.mpr ⟨a, List.mem_append_left _ ha, e⟩
  have e : libraryEntry (tClean b).word1 = 0x043 := by cases b <;> decide +kernel
  have staged : ∀ x ∈ (declOf (libraryEntry (tClean b).word1)).staged,
      { tWord with staged := true, place := x.1 } ∈ (tClean b).delivered false :=
    fun x hx => List.mem_filterMap.mpr ⟨_, List.mem_append_right _ (List.mem_map.mpr ⟨x, e ▸ hx, rfl⟩), rfl⟩
  have small : ∀ p ∈ List.range ((tClean b).outputCount), ∃ d ∈ (tDue b).delivered false, !d.staged && d.place == p := by
    cases b <;> decide +kernel
  refine Bool.and_eq_true_iff.mpr ⟨List.all_eq_true.mpr fun p hp => ?_, List.all_eq_true.mpr fun x hx => ?_⟩
  · obtain ⟨d, hd, e⟩ := small p hp
    exact List.any_eq_true.mpr ⟨d, words d hd, e⟩
  · exact List.any_eq_true.mpr ⟨_, staged x hx, by simp⟩
/-- It commits clean wherever its sample words are those it has. -/
theorem tClean_outcome (b : Bool) (m : Module)
    (h : (m.samplesOf 0 (tClean b)).any (fun k => !(tClean b).arrived.contains k) = false) :
    m.outcomeOf 0 (tClean b) = .clean := by
  have w := tClean_whole b
  have p : (tClean b).passes = [false] := by cases b <;> decide +kernel
  have a : (tClean b).aheadNow = false := by cases b <;> decide +kernel
  have r : isRedundant (tClean b).word0 = false := by cases b <;> decide +kernel
  have l : (tClean b).late (m.samplesOf 0 (tClean b)) = false := by
    have q : (tClean b).waiting = false := rfl
    simp only [Instance.late, p, a, w, q, h, List.any_cons, List.any_nil]; rfl
  have f : (tClean b).notLaunched = false ∧ (tClean b).quenched = false ∧ (tClean b).blocked = false ∧
    (tClean b).invalid = false := ⟨rfl, rfl, rfl, rfl⟩
  show Instance.outcome _ _ _ = _
  simp only [Instance.outcome, f, l, Instance.missAll, a, Instance.mismatch, r, Bool.false_and, Bool.or_false,
    Bool.false_eq_true, if_false]
def tFlight (i : Instance) : Module := updRegion 0 (fun x => { x with flight := [i] }) tReady
theorem tClean_flight (b : Bool) : (advance 0 (tFlight (tClean b))).regions[(0 : Fin 8)].flight = [tClean b] := by
  have q : (tFlight (tClean b)).portsQuiet := by intro p; revert p; cases b <;> decide +kernel
  rw [advance_quiet 0 (by cases b <;> decide +kernel) (by cases b <;> decide +kernel) q,
    stretch_regions 0 rfl rfl rfl (by cases b <;> decide +kernel) (by cases b <;> decide +kernel)]
  rfl
/-- At its commit instant it is what the region evaluates. -/
theorem tClean_due (b : Bool) : (advance 0 (tFlight (tClean b))).dueInstances 0 b = [tClean b] := by
  have h : (tClean b).dueNow b (advance 0 (tFlight (tClean b))).time.count = true := by cases b <;> decide +kernel
  have w : (advance 0 (tFlight (tClean b))).regions[(0 : Fin 8)].stillWaits (tClean b) = false := by cases b <;> decide +kernel
  have a : (tClean b).aheadNow = false := by cases b <;> decide +kernel
  unfold Module.dueInstances
  rw [tClean_flight, List.filter, h, List.filter]
  simp only [List.map, gather, a, w]
  rfl
/-- The lane of branch 2 with every candidate of its entry. -/
def tLane : Lane :=
  { cluster := 1, number := 0, entry := 3, launch := 7999999900, second := false, branch := 2, unit := some 5, words := [],
    candidates := (List.range 4).map (fun k => { tWord with place := k }) ++
      (declOf 0x043).staged.map (fun s => { tWord with staged := true, place := s.1 }), freeFrom := none }
theorem tLane_complete : tLane.complete 0x043 = true := by
  have h : ∀ x ∈ (declOf 0x043).staged, (declOf 0x043).staged.any (fun s => s.1 == x.1) = true := fun x hx =>
    List.any_eq_true.mpr ⟨x, hx, beq_self_eq_true _⟩
  have h4 : (List.range 4).all (fun p => ((List.range 4).map (fun k => { tWord with place := k })).any
    (fun d => d.staged == false && d.place == p)) = true := by decide
  simp only [Lane.complete, tLane, List.any_append, List.any_map, Bool.and_eq_true, List.all_eq_true, Bool.or_eq_true]
  refine ⟨fun p hp => .inl ?_, fun x hx => .inr ?_⟩
  · have := List.all_eq_true.mp h4 p hp
    simpa [List.any_map] using this
  · simpa [Function.comp_def] using h x hx
def tAheadFlight : Module :=
  updRegion 0 (fun x => { x with
    lanes := [tLane] })
    (tFlight tAhead)
set_option maxRecDepth 100000 in
theorem tLane_for : ((advance 0 tAheadFlight).regions[0]).laneFor tAhead false 2 = some tLane := by rfl
def tRequest : Request := { input := 5, entry := 3, launch := 7999999900, item := .word tWord }
def tRequested : Module := updRegion 0 (fun x => { x with requests := [tRequest] }) (tFlight tInstance)
def tLanes : List Nat := [8000000000 + roundTrip, 0, 0, 0]
/-- What both cores retire; core 0 three times before core 1. -/
def tRetired : Retired := { address := 4, write := none, next := 8, tcm := none, bus := none, answer := 0 }
def tDelayReg : DelayReg := { retired := tRetired, parity := retiredParity tRetired }
def tRan : List Retirement := [.core0 tRetired tRetired, .core0 tRetired tRetired, .core0 tRetired tRetired, .core1 tRetired]
def tBus : Transaction := { kind := .store, address := 256, enables := 15, data := 1, own := false }
def tBusReg : DelayReg :=
  { retired := { tRetired with bus := some tBus }, parity := retiredParity { tRetired with bus := some tBus } }
/-- The main comparator lost, and a register that the two cores hold differently. -/
def tDiffering : Module :=
  { tReady with lockstep := { tReady.lockstep with main := 2, regs0 := [(1, 1)], regs1 := [(1, 2)] } }
def tDelayed : Module := { tReady with lockstep := { tReady.lockstep with delay := List.replicate 3 tDelayReg } }
/-- Re-execution that comes to another transaction than the one released. -/
def tReplaying : Module :=
  { tReady with lockstep := { tReady.lockstep with
      rollback := true, replay := [({ tBus with data := 2 }, 0)],
      delay := tBusReg :: List.replicate 2 tDelayReg } }
/-- Locked to the TS reference. -/
def tTs : Module :=
  { tReady with
    time := { tReady.time with ref := .ts },
    epochs := { tReady.epochs with active := factoryImage.write P.tsMode 1 } }
def tStarting : Module :=
  updTraction 0 (fun t => { t with loop := .starting, sample := { t.sample with posOk := true } }) tRun
def tObs : Observation := (observe 0 tStarting).getD ⟨0, 0, 0⟩
def tSum : Module :=
  updTraction 0 (fun t => { t with
    sample := { t.sample with iU := 0x447A0000 }, outsideFor := Vector.replicate 4 1000000000000 }) tRun
def tPat0 : Pattern := .ascLow
def tPatterned : Module :=
  { tRun with faults := { tRun.faults with pattern := Vector.ofFn (fun f => if f.val = 0 then tPat0 else .none) } }
/-- Traction A in active short circuit with an island of its own latched by a short. -/
def tShort : Module :=
  updIsland 0 (fun x => { x with state := .latched, cause := 1 })
    { tRun with faults := { tRun.faults with pattern := Vector.ofFn (fun f => if f.val = 0 then .ascLow else .none) } }
/-- The link, its input's offset 0, far above both overvoltage thresholds. -/
def tOver : Module := updRegion 2 (fun x => { x with samples := [(1, 0x7FFF)] })
  { tRun with epochs := { tRun.epochs with active := { tWork with params := tWork.params ++ [(P.afeInOffset + 1, 0)] } } }
/-- A frame read on FB0. -/
def tSsiFrame : SsiFrame := { word := 5, lineBad := false, tick := 0, count := 0, passed := 0, readyAt := 0 }
/-- A transfer to the module on CN0. -/
def tTpSession : TpSession :=
  { peer := 3, extended := false, size := 64, next := 1, window := 16, offset := 0, data := [], lastAt := 0 }
/-- Source `k` on FB0. -/
def tFb (k : Nat) : Module :=
  { tReady with epochs := { tReady.epochs with active :=
      [(P.fbSource, word k), (P.fbAbzLines, 100), (P.fbIndexGate, 0), (P.fbSsiInterval, 4000)].foldl (fun i p => i.write p.1 p.2) factoryImage } }
/-- FB0 acquired, half a turn from its index position. -/
def tFbOff : Module :=
  updFeedback 0 (fun f => { f with acquire := 2, posValid := true, indexSeen := true, count := 200 }) (tFb 1)
def tDev : Int := 200
def tEdge : Edge := { at_ := 0, count := 0 }
/-- The regenerated output of FB0 far behind its count. -/
def tEp : Module :=
  updFeedback 0 (fun f => { f with posValid := true, count := 100, epStart := 0 })
    { tReady with epochs := { tReady.epochs with active :=
        [(P.fbSource, 1), (P.fbAbzLines, 100), (P.epMode, 2)].foldl (fun i p => i.write p.1 p.2) factoryImage } }
def tConv : Module := { tRun with converter := { tRun.converter with closed := true } }
def tLegOn : Module :=
  { tRun with converter := { tRun.converter with
      legs := Vector.ofFn (fun j => if j.val = 0 then { Leg.init with lowOn := true } else Leg.init) } }
/-- Its cycle almost over. -/
def tLegLong : Module := { tLegOn with time := { tLegOn.time with count := 8000009996, elapsed := 8000009996 } }
/-- Samples at the top, at the bottom of the converter of a comparator. -/
def tHigh : List Word := List.replicate 8 0x447FC000
def tLow : List Word := List.replicate 8 0
def tLevels : List Word := tHigh
/-- Between the conversions of every trigger. -/
def tIdle : Module := { tReady with time := { tReady.time with count := 8000000700, elapsed := 8000000700 } }
def tPrecharge : Module :=
  { tReady with
    supply := { tReady.supply with
      transition := some { target := .armed, source := .ready, dest := .armed, stage := 1, started := 0 } },
    epochs := { tReady.epochs with active := tWork },
    converter := { tReady.converter with closed := true, precharge := 2, withinSince := some 0 } }
def tOutlet : Module :=
  { tRun with converter := { tRun.converter with closed := true, outlet := 2, outletCurrent := 0x44800000 } }
def tPilot : PilotLine := { positive := 0x41400000, negative := 0xC1400000, pwm := true, freq := 0x447A0000, duties := [0x3F000000] }
def tSource : Module :=
  { tReady with charger := { Charger.init with state := 4, session := true, s2 := true, failSince := some 0, source := true, heard := true } }
def tImplausible : Module :=
  { tRun with converter := { tRun.converter with
      closed := true, itot := 0x44800000, plausFor := Vector.replicate 5 1000000000000 } }
/-- Island 0 works on good frames. -/
def tIsland : Module := updIsland 0 (fun x => { x with state := .enabled }) tRun
def tIslandOn : Module := updIsland 0 (fun x => { x with state := .enabled, placed := true, gateLevel := true, output := true }) tRun
def tLatched : Module := updIsland 0 (fun x => { x with state := .latched, cause := 1 }) tRun
def tSoft (k : Nat) : Module := updIsland 0 (fun x => { x with state := .softOff, stage := k, cause := 1 }) tRun
/-- Traction A held off, its first island contradicting so often. -/
def tVerify (k : Nat) : Module :=
  updIsland 0 (fun x => { x with contradicted := k })
    { tRun with faults := { tRun.faults with pattern := Vector.ofFn (fun f => if f.val = 0 then .off else .none) } }
/-- Actuator 0 on its bridge with a Hall state of its port. -/
def tBridge : Module := { tMoves with feedback := Vector.replicate 6 { Feedback.init with hall := 1, hallNow := 1 } }
def tTrig : Module :=
  { tReady with epochs := { tReady.epochs with active := factoryImage.write (P.afeTrigPeriod + 40) 1000 } }
def tFired : Fired := { trigger := 0, at_ := 7999999900, latency := 100, dest := 1, words := [0x04000001] }
def tCalibrating : Module :=
  updAfe 0 (fun f => { f with slices := Vector.upd f.slices 18 (fun x => { x with calibrating := true }) }) tReady
def tTest : TwinTest := { detector := false, index := 1, steps := [(0, 2)], passed := false, at_ := 0, opened := false }
def tTesting : Module := updAfe 0 (fun f => { f with test := some tTest }) tReady
def tFrame : CanFrame := { format := .fd, ident := tReady.num P.cn1ReqId, extended := tReady.num P.cn1Ext == 1, sec := false, data := [] }
def tTx : TxFrame := { object := 3, head := { ident := 0x123, format := .classical, length := 1 }, oneShot := true, data := [1], instant := none, repeated := false }
def tSending : Module := updCan 0 (fun c => { c with tx := [tTx] }) tReady
def tAsleep : Module :=
  { tStandby with
    supply := { tStandby.supply with label := .sleep },
    epochs := { tStandby.epochs with active := [(P.busEnable, 1), (P.busWake, 1)].foldl (fun i p => i.write p.1 p.2) factoryImage } }
def tAddress : Fin 254 := ⟨(tReady.num P.isAddressBase) % 254, Nat.mod_lt _ (by decide)⟩
def tEth : Module :=
  { tReady with epochs := { tReady.epochs with active :=
      [(P.etEnable, 1), (P.etIpAddr, 0xC0A80001)].foldl (fun i p => i.write p.1 p.2) factoryImage } }
def tWiredTail (st : TimeState) : Module :=
  { tTailReady with
    epochs := { tTailReady.epochs with active := factoryImage.write P.tsMode 2 },
    sys := { tTailReady.sys with timeState := st } }
def tWired : List Rat := last8 ([] ++ [((10 : Nat) : Rat) / 10 - ((0 : Nat) : Rat) - F32.rat ((tWiredTail .slewing).par P.sysTsCableDelay) / (5 / 2)])
def tMeasurement : Measurement :=
  { nodes := [1], port := 0, sent := 17, sentAt := 0, stamps := List.replicate 17 (some 0, some 1, some 2, some 4) }
def tAlloc : Allocation := { instant := 5, shares := [(5, 0x42C80000, 0)], realloc := false }
def tVoteYes : Provisional := { revert := false, instant := 8000000100, confirmed := false, asked := 2, replies := [(1, 1)] }
def tVoteNo : Provisional := { revert := false, instant := 8000000100, confirmed := false, asked := 2, replies := [(1, 0x0501)] }
def tRelayed : Waiting := { opcode := 0x84, hdr := tHdr, count := 3, target := 1, since := 0, result := none }
def tPending : Pending := { revert := false, instant := 7999999000, systemWide := false, switched := false }
def tSwitching : Module := { tStaged with epochs := { tStaged.epochs with pending := some tPending } }
def tUp : Transition := { target := .ready, source := .standby, dest := .ready, stage := 0, started := 0 }
/-- A start-up to READY with the fabric without supply. -/
def tRising : Module :=
  { tStandby with
    supply := { tStandby.supply with transition := some tUp },
    dies := Vector.ofFn (fun d => Die.init (if d.val = 2 then 0 else 1)) }
def tToRun : Transition := { target := .run, source := .armed, dest := .run, stage := 0, started := 0 }
def tToSleep : Transition := { target := .sleep, source := .standby, dest := .sleep, stage := 0, started := 0 }
def tHoldup : Module := { tReady with supply := { tReady.supply with lvinOk := false, holdup := true } }
def tRecord : LogRec :=
  { code := 0x2004, detail := 0, kind := 0, state := 3, coverage := true, func := 0, pattern := 0, tick := 0, boot := 1,
    seq := 0, epoch := 0 }
def tFilling : Module := { tReady with memory := { tReady.memory with filling := [16] } }
def tAsking : Module :=
  { tReady with interp := { Interp.init with
      waiting := [{ opcode := 0x70, hdr := tHdr, count := 1, target := 2, since := 0, result := none }] } }
def tLost : Module := { tTailAdmitted with sys := { tTailAdmitted.sys with headAt := some 0 } }
/-- A rollback runs while 16 packets wait on SV. -/
def tRolled : Module := { tQueue with lockstep := { tQueue.lockstep with rollback := true } }
/-- Faults of each clear policy, one of them with a condition that stands. -/
def tFaulted : Module :=
  { tReady with faults := { tReady.faults with active :=
      [{ code := F.flogWriteFail, detail := 0, cond := true }, { code := F.axMoveTimeout, detail := 1, cond := false }] } }
/-- A debug probe is attached: no lockstep coverage. -/
def tUncovered : Module := { tReady with lockstep := { tReady.lockstep with mode := .suspended } }
/-- The module with 32 timed commands pending. -/
def tCrowded (m : Module) : Module := { m with interp := { m.interp with timed := List.replicate 32 tTimed } }
/-- An outcome that is a next state, and a verdict that is a refusal, read from what they compute. -/
theorem next_of {o : Host.Outcome State Fault Refusal} (h : (match o with | .next _ => true | _ => false) = true) :
    ∃ t, o = .next t := by
  cases o with
  | next t => exact ⟨t, rfl⟩
  | fault f => cases h
  | refused r => cases h
theorem refuse_of {v : Verdict} {st : Status} {d : Nat}
    (h : (match v with | .refuse a b => decide (a = st ∧ b = d) | _ => false) = true) : v = .refuse st d := by
  cases v with
  | refuse a b => obtain ⟨rfl, rfl⟩ := of_decide_eq_true h; rfl
  | _ => cases h
/-- Current in the chopper's input while both switches are commanded off, past the dwell. -/
def tShorted : Module :=
  { tRun with
    chopper := { tRun.chopper with shortSince := some 0 },
    epochs := { tRun.epochs with active := tRun.epochs.active.write P.chShortCurrent 0xC2C80000 } }
/-- The chopper off by the safe pattern of the converter. -/
def tBackstop : Module :=
  { tRun with faults := { tRun.faults with pattern := Vector.ofFn (fun f => if f.val = 2 then .off else .none) } }
/-- Source 1 on FB0, the trigger of its capture fired at this very tick. -/
def tFbCaptured : Module :=
  updAfe (portAfe 0) (fun f => { f with
    fired := [{ tFired with at_ := 8000000000, trigger := (tFb 1).fnum 0 P.fbCaptureTrigger }] }) (tFb 1)

/-! ## Operands no hardware presents, refused by WellFormed -/

def badHdr : Hdr := { tHdr with sender := 1 }

/-- A sender that its transport does not have; a packet from the Headstock off the axle link. -/
theorem test_wf_sender :
    (Instr.getStatus 0 { hdr := badHdr, words := [] }).wf = false ∧
    (Instr.getStatus 0 { hdr := { tHdr with transport := .cn0, sender := 254 }, words := [] }).wf = false ∧
    (Instr.getStatus 0 { hdr := { tHdr with transport := .cn1, sender := 1 }, words := [] }).wf = false ∧
    (Instr.getStatus 0 { hdr := { tHdr with transport := .cn2, sender := 16 }, words := [] }).wf = false ∧
    (Instr.getStatus 0 { hdr := { tHdr with transport := .cn3, sender := 16 }, words := [] }).wf = false ∧
    (Instr.getStatus 0 { hdr := { tHdr with transport := .et0, sender := 2 ^ 32 }, words := [] }).wf = false ∧
    (Instr.getStatus 0 { hdr := { tHdr with transport := .et1, fromHead := true }, words := [] }).wf = false ∧
    (Instr.getStatus 0 (tReq [])).wf = true := by decide +kernel

/-- More parameter words than COUNT can say; a packet too short; a frame too long for its transport, or on one without
segments; a delimiter inside an SV frame. -/
theorem test_wf_packets :
    (Instr.echo 0 (tReq (List.replicate 63 0))).wf = false ∧ (Instr.echo 0 (tReq (List.replicate 62 0))).wf = true ∧
    (Instr.packetReceived 0 .sv 0 {} false [0] noStamps).wf = false ∧
    (Instr.transportQueueFull 0 .sv 0 {} false (List.replicate 65 0) noStamps).wf = false ∧
    (Instr.segmentFrame 0 .cn1 0 {} false (List.replicate 65 0) noStamps).wf = false ∧
    (Instr.segmentFrame 0 .cn2 3 {} false (List.replicate 113 0) noStamps).wf = false ∧
    (Instr.segmentFrame 0 .sv 0 {} false [0x80, 2] noStamps).wf = false ∧
    (Instr.svFrame 0 [0x01, 0xC0]).wf = false := by decide +kernel

/-- A lock that takes too long, at every command that starts the module. -/
theorem test_wf_start :
    (Instr.startUp 0 { tBoot with lock := 3200001 } 0).wf = false ∧
    (Instr.busWake 0 0 (.level 1) { tBoot with lock := 3200001 }).wf = false ∧
    (Instr.moduleRestart 0 tHdr { tBoot with lock := 3200001 }).wf = false ∧
    (Instr.powerTransitionProgress 0 { tBoot with lock := 3200001 }).wf = false := by decide +kernel

/-- Frames that no bus carries: an identifier or a length that the format does not have; an allocation without its eight
nodes; a datagram too long; a frame too long for a buffer. -/
theorem test_wf_frames :
    (Instr.canFrameReceived 0 0 { tFrame with format := .classical, data := List.replicate 9 0 } 0 0).wf = false ∧
    (Instr.canFrameReceived 0 0 { tFrame with data := List.replicate 9 0 } 0 0).wf = false ∧
    (Instr.canFrameReceived 0 0 { tFrame with format := .xl } 0 0).wf = false ∧
    (Instr.canFrameReceived 0 0 { tFrame with ident := 2 ^ 29, extended := true } 0 0).wf = false ∧
    (Instr.canFrameReceived 0 0 { tFrame with sec := true } 0 0).wf = false ∧
    (Instr.axleLinkFrame 0 0 1 0 (.alloc false 0 0 [])).wf = false ∧
    (Instr.ethernetDatagram 0 0 (.udp 0 0 0 0 (List.replicate 1473 0))).wf = false ∧
    (Instr.hpBufferFrame 0 0 0 0 (List.replicate 2049 0) 0).wf = false := by decide +kernel

/-- Entries beyond the table, failed units beyond the list, more windows than inputs, a fault the map does not list, a
pair, a block and an address that are not there. -/
theorem test_wf_numbers :
    (Instr.laneComplete 0 0 0 512 false 0).wf = false ∧ (Instr.resolveKey 0 0 0 512 false 0).wf = false ∧
    (Instr.wordRewrite 0 18 512).wf = false ∧ (Instr.wordRewrite 0 0xFF 0).wf = false ∧
    (Instr.fabricBistDone 0 0 65536).wf = false ∧ (Instr.afeTrigger 0 0 0 [] [] (List.replicate 5 0)).wf = false ∧
    (Instr.faultRaised 0 0xFFFF 0 false).wf = false ∧ (Instr.faultRaised 0 F.thermStale 65536 false).wf = false ∧
    (Instr.twinTestOverdue 0 0 false 16).wf = false ∧ (Instr.twinTestOverdue 0 0 true 4).wf = false ∧
    (Instr.memoryReadError 0 0xFF 0 true false 0).wf = false := by decide +kernel

/-! ## Worked examples of the manual -/

/-- The check value of CRC-32C over "123456789" (the scope chapter). -/
theorem test_crc32c : crc32cBytes [0x31, 0x32, 0x33, 0x34, 0x35, 0x36, 0x37, 0x38, 0x39] = 0xE3069283 := by decide +kernel

def hdr5A : Hdr := { transport := .et0, sender := 0, fromHead := false, tag := 0x5A, timed := true, relayed := false, data := true }

/-- Chapter 14: the timed torque setpoint; word 0, its bytes, the reply's words. -/
theorem test_packet_words :
    word0 0x40 hdr5A 4 false = 0x405A0425 ∧ wordBytes (word0 0x40 hdr5A 4 false) = [0x25, 0x04, 0x5A, 0x40] ∧
    (replyWords 0x40 hdr5A 4 1 0 []).take 2 = [0x405A042D, 0x00010000] ∧
    (replyWords 0x40 hdr5A 4 Status.safePatternActive.code 0 []).getD 1 0 = 0x03020000 ∧
    instantOf [0x2A07C6C0, 1] = 5000120000 := by decide +kernel

/-- Chapter 14: with a pattern on traction A the packet is refused, and only the reject count rises. -/
theorem test_setpoint_under_pattern :
    (hostCommand 0x40 { hdr5A with transport := .sv } [0xFFFFFFFF, 0xFFFFFFFF, 0, 0x439B0000] noStamps tPatterned).interp.rejected =
      tPatterned.interp.rejected + 1 ∧
    (hostCommand 0x40 { hdr5A with transport := .sv } [0xFFFFFFFF, 0xFFFFFFFF, 0, 0x439B0000] noStamps tPatterned).interp.timed
      = [] := by decide +kernel

/-- Chapter 2: the boundaries at or after 5,000,000,437; the fields of the entry 0x0002BC33, 0x012C0041. -/
theorem test_epoch_commit_example :
    boundaryAtOrAfter 1000 0 5000000437 = 5000001000 ∧ boundaryAtOrAfter 4000 250 5000000437 = 5000004250 ∧
    launchOffset 0x0002BC33 = 700 ∧ clusterMask 0x0002BC33 = 3 ∧ launchClass 0x0002BC33 = 0 ∧ isRedundant 0x0002BC33 ∧
    isRunAhead 0x0002BC33 ∧ commitDelta 0x012C0041 = 300 ∧ libraryEntry 0x012C0041 = 0x041 := by decide +kernel

/-- Chapter 4: the transform of period 5,000,003 in region 0; the arithmetic of the worked product. -/
theorem test_transformed_product :
    exponentK 0 5000003 = 2 ∧ F32.mul 0x3E000000 0x43200000 = 0x41A00000 ∧ F32.mul 0xBD800000 0x43480000 = 0xC1480000 ∧
    F32.sub 0x41A00000 0xC1480000 = 0x42020000 ∧ F32.mul 0x42020000 0x40C00000 = 0x43430000 := by decide +kernel

/-- Chapter 12: DM1 with the one fault GD_HARD_SHORT. -/
theorem test_dm1 :
    dm1Bytes (raise F.gdHardShort 0 false tReady) = [0x10, 0xFF, 0x02, 0xF0, 0xE7, 0x01, 0xFF, 0xFF] := by decide +kernel

/-- The machine of the example of chapter 16: traction A and the converter, the low side pre-selected. -/
def tExample : Module :=
  updTraction 0 (fun t => { t with preselected := .ascLow })
    { tRun with
      epochs := { tRun.epochs with active := [(P.trEnable, 1), (P.cvEnable, 1)].foldl (fun i p => i.write p.1 p.2) factoryImage } }

/-- Chapter 16: the first three records of DCL_OV2, and word 0 of GET_STATUS after it. -/
theorem test_overvoltage_records :
    ((raise F.dclOv2 0 true tExample).faults.buffer.map (fun r => r.words.take 2)) =
      [[0x40360000, 0x1CB00000], [0x40360000, 0x3CB08000], [0x40360000, 0x3CB24000]] ∧
    statusWord (raise F.dclOv2 0 true tExample) = 0xA81D840E := by decide +kernel

/-- Chapter 19: an ID of FB3 that does not exist is refused with its position; word 0 of READ_PARAM_BLOCK. -/
theorem test_reading_ids :
    (match readParam tHdr [0x90C8, 0x90C1] tReady with | .refuse st d => (st.code, d) | _ => (0, 0)) = (0x0200, 1) ∧
    word0 0x12 { tHdr with tag := 7 } 1 false = 0x12070121 ∧ word0 0x12 { tHdr with tag := 7 } 1 true = 0x12070129 := by
  decide +kernel

/-- Chapter 17: CF0 at 104, 108, 116, 108 and 99 °C goes through T0, T1, T2, T1 and T0. -/
theorem test_throttle_levels :
    tReady.newLevel 2 0 0x42D00000 = 0 ∧ tReady.newLevel 2 0 0x42D80000 = 1 ∧ tReady.newLevel 2 1 0x42E80000 = 2 ∧
    tReady.newLevel 2 2 0x42D80000 = 1 ∧ tReady.newLevel 2 1 0x42C60000 = 0 := by decide +kernel

/-! ## Witnesses -/

/-- StepTakesTheFrontCommand is met. -/
theorem witness_stepTakesTheFrontCommand :
    (∃ (c : Instr) (cs : List Instr) (s : State), s.pending = c :: cs) ∧ (∃ s : State, s.pending = []) :=
  ⟨⟨.startUp 0 tBoot 0x41C00000, [], ⟨Module.reset, [.startUp 0 tBoot 0x41C00000]⟩, rfl⟩, ⟨State.reset, rfl⟩⟩

/-- StepKeepsSafe is met. -/
theorem witness_stepKeepsSafe : ∃ s t : State, s.safe = true ∧ step s = .next t :=
  let ⟨t, h⟩ := next_of (o := step ⟨tReady, [.faultRaised 0 F.flogWriteFail 0 true]⟩) (by decide +kernel)
  ⟨_, t, by decide +kernel, h⟩

/-- RefusalChangesNothing is met. -/
theorem witness_refusalChangesNothing :
    (∃ (dt : Nat) (t : Transport) (sender : Nat) (v : Via) (fromHead : Bool) (words : List Word) (stamps : Stamps) (st : Status)
      (d : Nat) (s : State) (m : Module), m = advance dt s.mod ∧ m.attends ∧ decodable words ∧ headerCheck words = none ∧
      isRestart (packetOpcode words) (hdrOf t sender v fromHead (words.getD 0 0)) (packetParams words) m = false ∧
      handle (packetOpcode words) (hdrOf t sender v fromHead (words.getD 0 0)) (packetParams words) stamps m = .refuse st d) ∧
    (∃ (dt : Nat) (words : List Word) (st : Status) (s : State) (m : Module), m = advance dt s.mod ∧ m.attends ∧
      decodable words ∧ headerCheck words = some st) :=
  ⟨⟨0, .sv, 0, {}, false, requestWords 0x22 tHdr [], noStamps, .noStagedEpoch, 0, ⟨tReady, []⟩, advance 0 tReady, rfl,
      by decide +kernel, by decide +kernel, by decide +kernel, by decide +kernel, refuse_of (by decide +kernel)⟩,
    ⟨0, [0x012A0020, 0], .badCrc, ⟨tReady, []⟩, advance 0 tReady, rfl, by decide +kernel⟩⟩

/-- HeaderChecksInOrder is met. -/
theorem witness_headerChecksInOrder :
    (∃ (dt : Nat) (words : List Word) (s : State) (m : Module), m = advance dt s.mod ∧ m.attends ∧ decodable words ∧
      words.getLast? ≠ some (crc32c words.dropLast)) ∧
    (∃ (dt : Nat) (words : List Word) (s : State) (m : Module), m = advance dt s.mod ∧ m.attends ∧ decodable words ∧
      headerCheck words = some .badLength) ∧
    (∃ (dt : Nat) (words : List Word) (s : State) (m : Module), m = advance dt s.mod ∧ m.attends ∧ decodable words ∧
      headerCheck words = some .badVersion) ∧
    (∃ (dt : Nat) (words : List Word) (s : State) (m : Module), m = advance dt s.mod ∧ m.attends ∧ decodable words ∧
      headerCheck words = some .unknownOpcode) ∧
    (∃ (dt : Nat) (words : List Word) (s : State) (m : Module), m = advance dt s.mod ∧ m.attends ∧ decodable words ∧
      headerCheck words = none) :=
  ⟨⟨0, [0x012A0020, 0], ⟨tReady, []⟩, advance 0 tReady, rfl, by decide +kernel⟩,
    ⟨0, [0x012A0120, crc32c [0x012A0120]], ⟨tReady, []⟩, advance 0 tReady, rfl, by decide +kernel⟩,
    ⟨0, [0x012A0010, crc32c [0x012A0010]], ⟨tReady, []⟩, advance 0 tReady, rfl, by decide +kernel⟩,
    ⟨0, [0x032A0020, crc32c [0x032A0020]], ⟨tReady, []⟩, advance 0 tReady, rfl, by decide +kernel⟩,
    ⟨0, tStatusPacket, ⟨tReady, []⟩, advance 0 tReady, rfl, by decide +kernel⟩⟩

/-- NothingReachesASleepingModule is met. -/
theorem witness_nothingReachesASleepingModule :
    (∃ (c : Instr) (s : State), wakes c = false ∧ s.mod.label = .off) ∧
    (∃ (c : Instr) (s : State), wakes c = false ∧ s.mod.label = .sleep) :=
  ⟨⟨.packetUndecodable 0, State.reset, rfl, rfl⟩, ⟨.packetUndecodable 0, ⟨tAsleep, []⟩, rfl, rfl⟩⟩

/-- UndecodablePacketsAreOnlyCounted is met. -/
theorem witness_undecodablePacketsAreOnlyCounted :
    (∃ (words : List Word) (s : State) (m : Module), m = advance 0 s.mod ∧ m.listens ∧ words.length < 2) ∧
    (∃ (words : List Word) (s : State) (m : Module), m = advance 0 s.mod ∧ m.listens ∧ 64 < words.length) ∧
    (∃ (t : Transport) (fromHead : Bool) (words : List Word) (s : State) (m : Module), m = advance 0 s.mod ∧ m.listens ∧
      bit (words.getD 0 0) 3 ∧ !(m.isHead && (t == .cn2 || t == .cn3) && !fromHead)) ∧
    (∃ (bytes : List Byte) (s : State) (m : Module), m = advance 0 s.mod ∧ m.listens ∧ bytes ≠ [] ∧
      (unescape bytes).bind bytesWords = none) ∧
    (∃ (s : State) (m : Module), m = advance 0 s.mod ∧ m.listens) :=
  ⟨⟨[0], ⟨tReady, []⟩, advance 0 tReady, rfl, by decide +kernel⟩,
    ⟨List.replicate 65 0, ⟨tReady, []⟩, advance 0 tReady, rfl, by decide +kernel⟩,
    ⟨.sv, false, [8, 0], ⟨tReady, []⟩, advance 0 tReady, rfl, by decide +kernel⟩,
    ⟨[0xDB, 0x00], ⟨tReady, []⟩, advance 0 tReady, rfl, by decide +kernel⟩,
    ⟨⟨tReady, []⟩, advance 0 tReady, rfl, by decide +kernel⟩⟩

/-- FullTransportAnswersBusy is met. -/
theorem witness_fullTransportAnswersBusy :
    (∃ (t : Transport) (words : List Word) (s : State) (m : Module), m = advance 0 s.mod ∧ m.listens ∧ decodable words ∧
      m.holdsPacket (packetOf t 0 {} false words noStamps) ∧ m.waitingOn t < 16) ∧
    (∃ (t : Transport) (words : List Word) (s : State) (m : Module), m = advance 0 s.mod ∧ m.listens ∧ decodable words ∧
      m.holdsPacket (packetOf t 0 {} false words noStamps) ∧ 16 ≤ m.waitingOn t) ∧
    (∃ (t : Transport) (s : State) (m : Module), m = advance 0 s.mod ∧ m.listens ∧ 16 ≤ m.waitingOn t) ∧
    (∃ (t u : Transport) (words : List Word) (s r : State) (m : Module), m = advance 0 s.mod ∧ decodable words ∧
      m.holdsPacket (packetOf t 0 {} false words noStamps) ∧ m.waitingOn u ≤ 16 ∧
      exec (.packetReceived 0 t 0 {} false words noStamps) s = .next r) :=
  ⟨⟨.cn1, tStatusPacket, ⟨tRolled, []⟩, advance 0 tRolled, rfl, by decide +kernel⟩,
    ⟨.sv, tStatusPacket, ⟨tRolled, []⟩, advance 0 tRolled, rfl, by decide +kernel⟩,
    ⟨.sv, ⟨tQueue, []⟩, advance 0 tQueue, rfl, by decide +kernel⟩,
    ⟨.sv, .sv, tStatusPacket, ⟨tRolled, []⟩, _, advance 0 tRolled, rfl, by decide +kernel, by decide +kernel,
      by decide +kernel, rfl⟩⟩

/-- PacketRoundTrip is met. -/
theorem witness_packetRoundTrip : ∃ (opcode : Nat) (ws : List Word), opcode ∈ opcodes ∧ ws.length ≤ 62 :=
  ⟨0x84, List.replicate 62 0xFFFFFFFF, by decide⟩

/-- EscapedPacketRoundTrip is met. -/
theorem witness_escapedPacketRoundTrip : ∃ ws : List Word, ws ≠ [] := ⟨[0xC0DBC0DB], by decide⟩

/-- SegmentedPacketArrivesWhole is met. -/
theorem witness_segmentedPacketArrivesWhole :
    ∃ (bytes : List Byte) (k : Nat) (m : Module), 2 ≤ k ∧ k ≤ 64 ∧ bytes.length = 4 * k ∧
      m.interp.reassemblies.all (fun r => !sameReassembly .cn1 0 r) ∧
      m.interp.reassemblies.all (fun r => !sameReassembly .cn2 0 r) :=
  ⟨List.replicate 256 0, 64, tReady, by decide, by decide, by decide +kernel, by decide +kernel, by decide +kernel⟩

/-- FaultRaisedTwiceIsOneEntry is met. -/
theorem witness_faultRaisedTwiceIsOneEntry :
    (∃ (code detail : Nat) (m : Module), isActive m.faults.active code detail = true) ∧
    (∃ (code detail : Nat) (m : Module), isActive m.faults.active code detail = false ∧
      entriesInUse m.faults.active < 254) :=
  ⟨⟨F.flogWriteFail, 0, tFaulted, by decide +kernel⟩, ⟨F.axMoveTimeout, 2, tFaulted, by decide +kernel⟩⟩

/-- NewFaultIsLogged is met. -/
theorem witness_newFaultIsLogged : ∃ (dt code detail : Nat) (s : State) (m : Module), m = advance dt s.mod ∧ m.up ∧
    (faultInfo code).isSome ∧ detail < 65536 ∧ classOf code ≠ .a ∧ isActive m.faults.active code detail = false ∧
    entriesInUse m.faults.active < 255 ∧ m.faults.buffer.length < 512 :=
  ⟨0, F.thermStale, 3, ⟨tReady, []⟩, advance 0 tReady, rfl, by decide +kernel⟩

/-- ClassAFaultSetsThePatterns is met. -/
theorem witness_classAFaultSetsThePatterns :
    (∃ (code detail : Nat) (m : Module) (f : Func), classOf code = .a ∧ isActive m.faults.active code detail = false ∧
      f ∈ m.affected code detail ∧ m.enabled f = true) ∧
    (∃ (m : Module) (f : Func), m.patternOf f ≠ .none) ∧
    (∃ (code detail : Nat) (m : Module) (f : Func), f ∉ m.affected code detail) :=
  ⟨⟨F.dclOv2, 0, tRun, .cv, by decide +kernel⟩, ⟨tPatterned, .ta, by decide +kernel⟩,
    ⟨F.dclOv2, 0, tRun, .ax 0, by decide +kernel⟩⟩

/-- EnLowTurnsEverythingOff is met. -/
theorem witness_enLowTurnsEverythingOff : ∃ (s t : State) (m : Module), m = advance 0 s.mod ∧ m.atLeastReady ∧
    m.dieRuns 7 ∧ m.supply.transition = none ∧ exec (.enFall 0) s = .next t :=
  ⟨⟨tRun, []⟩, _, advance 0 tRun, rfl, by decide +kernel, by decide +kernel, by decide +kernel, rfl⟩

/-- AckFaultsClearsByPolicy is met. -/
theorem witness_ackFaultsClearsByPolicy : ∃ m : Module, distinctFaults m.faults.active = true ∧
    m.faults.buffer.length + m.faults.active.length ≤ 512 ∧ m.faults.active ≠ [] :=
  ⟨tFaulted, by decide +kernel⟩

/-- OnlyAReleasableFunctionIsReleased is met. -/
theorem witness_onlyAReleasableFunctionIsReleased : ∃ (code : Nat) (m : Module) (f : Func),
    m.faults.releasing[f.idx] = false ∧ (acknowledge code m).faults.releasing[f.idx] = true :=
  ⟨0, tPatterned, .ta, by decide +kernel⟩

/-- NoDriveWithoutCoverage is met. -/
theorem witness_noDriveWithoutCoverage : ∃ (opcode : Nat) (h : Hdr) (ws : List Word) (m : Module) (ok : Nat → Bool)
    (t : Timing3) (enc : Bool), needsLockstep opcode = true ∧ m.lockstepRequired = true ∧ checkLength h ws ok = none ∧
    checkEncoding h t enc = none ∧ checkRelayed opcode h m = none :=
  ⟨0x43, tHdr, [1], tUncovered, (· == 1), .never, true, by decide +kernel⟩

/-- SystemClassNeedsAHeadstock is met. -/
theorem witness_systemClassNeedsAHeadstock :
    (∃ (opcode : Nat) (h : Hdr) (m : Module), isSystemClass opcode = true ∧ m.isHead = false ∧ h.relayed = false) ∧
    (∃ h : Hdr, h.relayed = true ∧ ((h.transport == .cn2 || h.transport == .cn3) && h.fromHead) = false) :=
  ⟨⟨0x83, tHdr, tTail tReady, by decide +kernel⟩, ⟨{ tHdr with relayed := true }, by decide⟩⟩

/-- PeriodBoundaries is met. -/
theorem witness_periodBoundaries :
    (∃ (m : Module) (n : Fin 8), m.rnum n (P.regionPeriod + n.val) ≠ 0) ∧
    (∃ (d : Fin 2) (r : Fin 4) (n : Fin 8), n.val = 4 * d.val + r.val) :=
  ⟨⟨tReady, 7, by decide +kernel⟩, ⟨1, 3, 7, by decide⟩⟩

/-- FirstBoundaryAtOrAfter is met. -/
theorem witness_firstBoundaryAtOrAfter : ∃ p : Nat, p ≠ 0 := ⟨1000, by decide⟩

/-- ImageReadsWhatWasWritten is met. -/
theorem witness_imageReadsWhatWasWritten :
    (∃ img : Image, img.params.Pairwise (fun p q => p.1 < q.1)) ∧
    (∃ (img : Image) (e : Nat), e < 512 ∧ img.launch.Pairwise (fun p q => p.1 < q.1)) :=
  ⟨⟨tWork, by decide +kernel⟩, ⟨factoryImage, 511, by decide +kernel⟩⟩

/-- StartForgetsWhatWasActive is met. -/
theorem witness_startForgetsWhatWasActive :
    (∃ (s t : State) (m : Module), m = advance 0 s.mod ∧ m.label = .off ∧
      exec (.startUp 0 tBoot 0x41C00000) s = .next t) ∧
    (∃ (p : Fin 4) (c : WakeCause) (s t : State) (m : Module), m = advance 0 s.mod ∧ m.label = .sleep ∧
      m.supply.lvinOk ∧ m.wakesOn p c ∧ exec (.busWake 0 p c tBoot) s = .next t) ∧
    (∃ (h : Hdr) (s t : State) (m : Module), m = advance 0 s.mod ∧ m.attends ∧ resetDieCheck h [0] m = none ∧
      exec (.moduleRestart 0 h tBoot) s = .next t) :=
  ⟨⟨State.reset, _, advance 0 Module.reset, rfl, rfl, rfl⟩,
    ⟨0, .level 1000000, ⟨tAsleep, []⟩, _, advance 0 tAsleep, rfl, rfl, by decide +kernel, by decide +kernel, rfl⟩,
    ⟨tHdr, ⟨tReady, []⟩, _, advance 0 tReady, rfl, by decide +kernel, by decide +kernel, rfl⟩⟩

/-- TimeAdvancesEvenly is met. -/
theorem witness_timeAdvancesEvenly :
    (∃ m : Module, (m.dueClocks = [] ∧ (∀ p : Fin 6, (m.feedback[p]).waits = false) ∨ m.label.code < 2) ∧
      m.time.running = true) ∧
    (∃ m : Module, (m.dueClocks = [] ∧ (∀ p : Fin 6, (m.feedback[p]).waits = false) ∨ m.label.code < 2) ∧
      m.time.running = false) ∧
    (∃ m : Module, m.dueClocks = [] ∧ (∀ p : Fin 6, (m.feedback[p]).waits = false)) ∧
    (∃ m : Module, m.label.code < 2) :=
  ⟨⟨tReady, .inl ⟨rfl, by decide +kernel⟩, rfl⟩, ⟨Module.reset, .inl ⟨rfl, by decide +kernel⟩, rfl⟩,
    ⟨tReady, rfl, by decide +kernel⟩, ⟨Module.reset, by decide⟩⟩

/-- WordOrderIsValueOrder is met. -/
theorem witness_wordOrderIsValueOrder : ∃ a b : Word, F32.nonFinite a = false ∧ F32.nonFinite b = false :=
  ⟨0x80000001, 0x7F7FFFFF, by decide⟩

/-- IndexAndFrameSettleAtTheEndOfTheTick is met. -/
theorem witness_indexAndFrameSettleAtTheEndOfTheTick :
    (∃ (p : Fin 6) (m : Module), (m.feedback[p]).waits = false) ∧
    (∃ (p : Fin 6) (m : Module), (m.feedback[p]).indexPending = some (true, true) ∧ (m.feedback[p]).ssiPending = none ∧
      m.fcounts p ≠ 0 ∧ !(m.feedback[p]).lost.testBit 2 ∧ !(m.feedback[p]).indexBlocked ∧ m.fsource p = 1 ∧
      (m.feedback[p]).acquire ≠ 2 ∧ !m.portBlocked p) ∧
    (∃ (p : Fin 6) (m : Module), (m.feedback[p]).indexPending = some (true, true) ∧ (m.feedback[p]).ssiPending = none ∧
      m.fcounts p ≠ 0 ∧ !(m.feedback[p]).lost.testBit 2 ∧ !(m.feedback[p]).indexBlocked ∧ (m.feedback[p]).acquire = 2 ∧
      (m.feedback[p]).posValid ∧ (m.feedback[p]).indexSeen ∧
      (indexDeviation (m.fcounts p) (m.feedback[p]).count (m.fnum p P.fbIndexPos)).natAbs ≤
        m.fnum p P.fbIndexTolerance) ∧
    (∃ (p : Fin 6) (m : Module), (m.feedback[p]).indexPending = some (true, true) ∧ (m.feedback[p]).ssiPending = none ∧
      m.fcounts p ≠ 0 ∧ !(m.feedback[p]).lost.testBit 2 ∧ !(m.feedback[p]).indexBlocked ∧ (m.feedback[p]).acquire = 2 ∧
      (m.feedback[p]).posValid ∧ (m.feedback[p]).indexSeen ∧
      m.fnum p P.fbIndexTolerance <
        (indexDeviation (m.fcounts p) (m.feedback[p]).count (m.fnum p P.fbIndexPos)).natAbs) ∧
    (∃ (p : Fin 6) (m : Module), (m.feedback[p]).indexPending = none ∧ (m.feedback[p]).ssiPending = some (5, false)) ∧
    (∃ (p : Fin 6) (x : SsiFrame) (frac : Nat) (m : Module), (m.feedback[p]).ssiStarted = false ∧ !m.portBlocked p ∧
      m.fcounts p ≠ 0 ∧ x.passed = (m.feedback[p]).passed) ∧
    (∃ (p : Fin 6) (x : SsiFrame) (frac : Nat) (m : Module), (m.feedback[p]).ssiStarted ∧ m.fcounts p ≠ 0 ∧
      tolWord (m.fpar p P.fbSsiTolerance) < (angleDiff (frac * m.fpoles p)
        (x.count * m.fpoles p % m.fcounts p * 2 ^ 32 / m.fcounts p)).natAbs) ∧
    (∃ (p : Fin 6) (x : SsiFrame) (m : Module), x.lineBad ∧ (m.feedback[p]).ssiBad ≠ 2) ∧
    (∃ (p : Fin 6) (x : SsiFrame) (m : Module), m.goodSsi p x ∧ m.fsource p = 4) ∧
    (∃ (p : Fin 6) (x : SsiFrame) (m : Module), m.goodSsi p x ∧ m.fsource p = 3 ∧ (m.feedback[p]).ssiAt = none ∧
      (m.feedback[p]).ssiTrail = [] ∧
      !(endCond F.fbSsiError p.val (updFeedback p (fun f => { f with ssiWord := x.word, ssiReading := none }) m)).portBlocked p) :=
  ⟨⟨0, tReady, by decide +kernel⟩,
    ⟨0, updFeedback 0 (fun f => { f with indexPending := some (true, true) }) (tFb 1), by decide +kernel⟩,
    ⟨0, updFeedback 0 (fun f => { f with indexPending := some (true, true), count := 0 }) tFbOff, by decide +kernel⟩,
    ⟨0, updFeedback 0 (fun f => { f with indexPending := some (true, true) }) tFbOff, by decide +kernel⟩,
    ⟨0, updFeedback 0 (fun f => { f with ssiPending := some (5, false) }) (tFb 4), by decide +kernel⟩,
    ⟨0, tSsiFrame, 2 ^ 32 - 1, tFb 4, by decide +kernel⟩,
    ⟨0, tSsiFrame, 2 ^ 28, updFeedback 0 (fun f => { f with ssiStarted := true }) (tFb 4), by decide +kernel⟩,
    ⟨0, { tSsiFrame with lineBad := true }, tFb 3, by decide +kernel⟩, ⟨0, tSsiFrame, tFb 4, by decide +kernel⟩,
    ⟨0, tSsiFrame, tFb 3, by decide +kernel⟩⟩

/-- TimedCommandsHaveRoomForThirtyTwo is met. -/
theorem witness_timedCommandsHaveRoomForThirtyTwo :
  (∃ (dt : Nat) (r : Req) (lo : Word) (hi : Word) (ws : List Word) (s : State) (m : Module),
    m = advance dt s.mod ∧ m.attends ∧ r.hdr.onlyTimed ∧ r.words = lo :: hi :: ws ∧ m.ahead r.words ∧
    32 ≤ m.interp.timed.length ∧ 2 ≤ ws.length ∧ ws.length ≤ 60 ∧ ws.length % 2 = 0 ∧
    (indexed (pairsOf ws)).all (fun p => (pairEncoding p.1 p.2).isNone) ∧ liveChecks (pairsOf ws) m = none) ∧
  (∃ (dt : Nat) (r : Req) (lo : Word) (hi : Word) (ws : List Word) (c : Word) (v : Word) (s : State) (m : Module),
    m = advance dt s.mod ∧ m.attends ∧ r.hdr.onlyTimed ∧ r.words = lo :: hi :: ws ∧ m.ahead r.words ∧
    32 ≤ m.interp.timed.length ∧ ws = [c, v] ∧ c.toNat ≤ 1 ∧ !m.lockstepRequired ∧
    setpointChecks false [c, v] m = none) ∧
  (∃ (dt : Nat) (r : Req) (lo : Word) (hi : Word) (ws : List Word) (c : Word) (v : Word) (s : State) (m : Module),
    m = advance dt s.mod ∧ m.attends ∧ r.hdr.onlyTimed ∧ r.words = lo :: hi :: ws ∧ m.ahead r.words ∧
    32 ≤ m.interp.timed.length ∧ ws = [c, v] ∧ c.toNat ≤ 1 ∧ !m.lockstepRequired ∧ setpointChecks true [c, v] m = none) ∧
  (∃ (dt : Nat) (r : Req) (lo : Word) (hi : Word) (ws : List Word) (w : Word) (s : State) (m : Module),
    m = advance dt s.mod ∧ m.attends ∧ r.hdr.onlyTimed ∧ r.words = lo :: hi :: ws ∧ m.ahead r.words ∧
    32 ≤ m.interp.timed.length ∧ ws = [w] ∧ bits w 31 5 = 0 ∧ !m.lockstepRequired ∧ moveChecks false w m = none) ∧
  (∃ (dt : Nat) (r : Req) (lo : Word) (hi : Word) (ws : List Word) (w : Word) (s : State) (m : Module),
    m = advance dt s.mod ∧ m.attends ∧ r.hdr.onlyTimed ∧ r.words = lo :: hi :: ws ∧ m.ahead r.words ∧
    32 ≤ m.interp.timed.length ∧ ws = [w] ∧ bits w 31 5 = 0 ∧ !m.lockstepRequired ∧ moveChecks true w m = none ∧
    moveTarget w ≤ 1) :=
  ⟨⟨0, tTimedReq (tickLow tLater :: tickHigh tLater :: [word P.flogRecordSelect, 3]), tickLow tLater, tickHigh tLater,
      [word P.flogRecordSelect, 3], ⟨(tCrowded tReady), []⟩, advance 0 ((tCrowded tReady)), rfl, (by decide +kernel)⟩,
   ⟨0, tTimedReq (tickLow tLater :: tickHigh tLater :: [0, 0x42C80000]), tickLow tLater, tickHigh tLater,
      [0, 0x42C80000], 0, 0x42C80000, ⟨(tCrowded tRun), []⟩, advance 0 ((tCrowded tRun)), rfl, (by decide +kernel)⟩,
   ⟨0, tTimedReq (tickLow tLater :: tickHigh tLater :: [0, 0x42C80000]), tickLow tLater, tickHigh tLater,
      [0, 0x42C80000], 0, 0x42C80000, ⟨(tCrowded tRun), []⟩, advance 0 ((tCrowded tRun)), rfl, (by decide +kernel)⟩,
   ⟨0, tTimedReq (tickLow tLater :: tickHigh tLater :: [pack [(0, 3), (1, 0)]]), tickLow tLater, tickHigh tLater,
      [pack [(0, 3), (1, 0)]], pack [(0, 3), (1, 0)], ⟨(tCrowded tMoves), []⟩, advance 0 ((tCrowded tMoves)), rfl,
      (by decide +kernel)⟩,
   ⟨0, tTimedReq (tickLow tLater :: tickHigh tLater :: [pack [(1, 3), (1, 0)]]), tickLow tLater, tickHigh tLater,
      [pack [(1, 3), (1, 0)]], pack [(1, 3), (1, 0)], ⟨(tCrowded tMoves), []⟩, advance 0 ((tCrowded tMoves)), rfl,
      (by decide +kernel)⟩⟩

/-- Every clause of ReadingCommandsComplete is met. -/
theorem witness_readingCommandsComplete :
  (∃ (dt : Nat) (r : Req) (s : State) (m : Module),
    m = advance dt s.mod ∧ m.attends ∧ r.hdr.plain ∧ r.words = []) ∧
  (∃ (dt : Nat) (r : Req) (s : State) (m : Module),
    m = advance dt s.mod ∧ m.attends ∧ r.hdr.plain ∧ r.words.length ≤ 61) ∧
  (∃ (dt : Nat) (r : Req) (s : State) (m : Module),
    m = advance dt s.mod ∧ m.attends ∧ r.hdr.plain ∧ 1 ≤ r.words.length ∧ r.words.length ≤ 61 ∧
    totalWidth (r.words.map (·.toNat)) ≤ 61 ∧ r.words.all (fun w => w.toNat < 65536) ∧
    unreadable true (r.words.map (·.toNat)) = none) ∧
  (∃ (dt : Nat) (r : Req) (w : Word) (s : State) (m : Module),
    m = advance dt s.mod ∧ m.attends ∧ r.hdr.plain ∧ r.words = [w] ∧ bits w 31 24 = 0 ∧ bits w 23 22 = 0 ∧
    bits w 21 16 ≠ 0 ∧ totalWidth (blockIds w) ≤ 61 ∧ unreadable true (blockIds w) = none) ∧
  (∃ (dt : Nat) (r : Req) (w : Word) (img : Image) (s : State) (m : Module),
    m = advance dt s.mod ∧ m.attends ∧ r.hdr.plain ∧ r.words = [w] ∧ bits w 31 24 = 0 ∧ bits w 23 22 = 1 ∧
    bits w 21 16 ≠ 0 ∧ totalWidth (blockIds w) ≤ 61 ∧ unreadable false (blockIds w) = none ∧
    m.epochs.staged = some img) ∧
  (∃ (dt : Nat) (r : Req) (w : Word) (img : Image) (s : State) (m : Module),
    m = advance dt s.mod ∧ m.attends ∧ r.hdr.plain ∧ r.words = [w] ∧ bits w 31 24 = 0 ∧ bits w 23 22 = 2 ∧
    bits w 21 16 ≠ 0 ∧ totalWidth (blockIds w) ≤ 61 ∧ unreadable false (blockIds w) = none ∧
    m.epochs.cellar = some img ∧ !m.epochs.cellarBad) ∧
  (∃ (dt : Nat) (r : Req) (w : Word) (s : State) (m : Module),
    m = advance dt s.mod ∧ m.attends ∧ r.hdr.plain ∧ r.words = [w] ∧ launchWordOk w ∧
    launchFirst w + launchCount w ≤ 512 ∧ launchCount w ≤ 30 ∧ (launchSlot w ≠ 1 || m.epochs.staged.isSome)) ∧
  (∃ (dt : Nat) (r : Req) (w : Word) (n : Fin 8) (s : State) (m : Module),
    m = advance dt s.mod ∧ m.attends ∧ r.hdr.plain ∧ r.words = [w] ∧ !bit w 20 ∧ bits w 31 21 = 0 ∧ !bit w 19 ∧
    !bit w 9 ∧ bits w 15 10 ≠ 0 ∧ bits w 8 0 + bits w 15 10 ≤ 512 ∧ bits w 15 10 ≤ 30 ∧ bits w 18 16 = n.val ∧
    m.dieRuns (regionDie n)) ∧
  (∃ (dt : Nat) (r : Req) (v : Word) (w : Word) (n : Fin 8) (s : State) (m : Module),
    m = advance dt s.mod ∧ m.attends ∧ r.hdr.plain ∧ r.words = [v] ∧ (w = v ||| 0x00100000) ∧ bits w 31 21 = 0 ∧
    !bit w 19 ∧ !bit w 9 ∧ bits w 15 10 ≠ 0 ∧ bits w 8 0 + bits w 15 10 ≤ 512 ∧ bits w 15 10 ≤ 30 ∧
    bits w 18 16 = n.val ∧ m.dieRuns (regionDie n)) ∧
  (∃ (dt : Nat) (h : Hdr) (sc : Fin 5) (s : State) (m : Module),
    m = advance dt s.mod ∧ m.attends ∧ h.plain ∧ m.dies[scrubberDie sc].supply ≠ 0 ∧
    (sc.val < 3 || m.dieRuns (scrubberDie sc))) ∧
  (∃ (dt : Nat) (h : Hdr) (sc : Fin 5) (s : State) (m : Module),
    m = advance dt s.mod ∧ m.attends ∧ h.plain ∧ m.dies[scrubberDie sc].supply ≠ 0 ∧ sc.val < 3) ∧
  (∃ (dt : Nat) (h : Hdr) (sc : Fin 5) (s : State) (m : Module),
    m = advance dt s.mod ∧ m.attends ∧ h.plain ∧ m.dies[scrubberDie sc].supply ≠ 0 ∧ 3 ≤ sc.val ∧
    m.dieRuns (scrubberDie sc)) ∧
  (∃ (dt : Nat) (r : Req) (w : Word) (s : State) (m : Module),
    m = advance dt s.mod ∧ m.attends ∧ r.hdr.plain ∧ r.words = [w] ∧ bits w 31 8 = 0) :=
  ⟨⟨0, tReq [], ⟨tReady, []⟩, advance 0 tReady, rfl, (by decide +kernel)⟩,
   ⟨0, tReq [1, 2], ⟨tReady, []⟩, advance 0 tReady, rfl, (by decide +kernel)⟩,
   ⟨0, tReq [word P.alSyncPeriod, word P.trEnable], ⟨tReady, []⟩, advance 0 tReady, rfl, (by decide +kernel)⟩,
   ⟨0, tReq [pack [(1, 16), (P.trEnable, 0)]], pack [(1, 16), (P.trEnable, 0)], ⟨tReady, []⟩, advance 0 tReady, rfl,
      (by decide +kernel)⟩,
   ⟨0, tReq [pack [(1, 22), (1, 16), (P.trEnable, 0)]], pack [(1, 22), (1, 16), (P.trEnable, 0)], tImage 9,
      ⟨tStaged, []⟩, advance 0 tStaged, rfl, (by decide +kernel)⟩,
   ⟨0, tReq [pack [(2, 22), (1, 16), (P.trEnable, 0)]], pack [(2, 22), (1, 16), (P.trEnable, 0)], tImage 8,
      ⟨tStaged, []⟩, advance 0 tStaged, rfl, (by decide +kernel)⟩,
   ⟨0, tReq [pack [(2, 10), (4, 0)]], pack [(2, 10), (4, 0)], ⟨tReady, []⟩, advance 0 tReady, rfl, (by decide +kernel)⟩,
   ⟨0, tReq [pack [(2, 10), (4, 0)]], pack [(2, 10), (4, 0)], 0, ⟨tReady, []⟩, advance 0 tReady, rfl,
      (by decide +kernel)⟩,
   ⟨0, tReq [pack [(2, 10), (4, 0)]], pack [(2, 10), (4, 0)], pack [(1, 20), (2, 10), (4, 0)], 0, ⟨tReady, []⟩,
      advance 0 tReady, rfl, (by decide +kernel)⟩,
   ⟨0, tHdr, 1, ⟨tReady, []⟩, advance 0 tReady, rfl, (by decide +kernel)⟩,
   ⟨0, tHdr, 1, ⟨tReady, []⟩, advance 0 tReady, rfl, (by decide +kernel)⟩,
   ⟨0, tHdr, 3, ⟨tReady, []⟩, advance 0 tReady, rfl, (by decide +kernel)⟩,
   ⟨0, tReq [0], 0, ⟨tReady, []⟩, advance 0 tReady, rfl, (by decide +kernel)⟩⟩

/-- Every clause of StagingCommandsComplete is met. -/
theorem witness_stagingCommandsComplete :
  (∃ (dt : Nat) (r : Req) (src : Word) (num : Word) (s : State) (m : Module),
    m = advance dt s.mod ∧ m.attends ∧ r.hdr.plain ∧ r.words = [src, num] ∧ src.toNat ≤ 2 ∧ num ≠ 0 ∧
    num ≠ m.epochs.active.number ∧ !m.epochs.cellar.any (fun c => c.number == num) ∧ m.epochs.staged = none ∧
    (src ≠ 1 || (m.epochs.cellar.isSome && !m.epochs.cellarBad))) ∧
  (∃ (dt : Nat) (r : Req) (img : Image) (s : State) (m : Module),
    m = advance dt s.mod ∧ m.attends ∧ r.hdr.plain ∧ m.epochs.staged = some img ∧
    stageParamCheck r.hdr r.words m = none) ∧
  (∃ (dt : Nat) (r : Req) (w : Word) (ws : List Word) (img : Image) (s : State) (m : Module),
    m = advance dt s.mod ∧ m.attends ∧ r.hdr.plain ∧ r.words = w :: ws ∧ ws.length = 2 * launchCount w ∧
    launchWordOk w ∧ launchSlot w = 1 ∧ (pairsOf ws).all (fun e => launchClass e.1 != 3 && bits e.2 15 10 == 0) ∧
    launchFirst w + launchCount w ≤ 512 ∧ launchCount w ≤ 30 ∧ m.epochs.staged = some img ∧ !m.frozen) ∧
  (∃ (dt : Nat) (r : Req) (s : State) (m : Module),
    m = advance dt s.mod ∧ m.attends ∧ r.hdr.plain ∧ r.words = [] ∧ m.epochs.staged.isSome ∧ !m.frozen) ∧
  (∃ (dt : Nat) (r : Req) (s : State) (m : Module),
    m = advance dt s.mod ∧ m.attends ∧ commitChecks false r.hdr r.words m = none ∧ checkLead r.hdr r.words m = none ∧
    !m.leadsOthers ∧ !m.asked r.hdr) ∧
  (∃ (dt : Nat) (r : Req) (s : State) (m : Module),
    m = advance dt s.mod ∧ m.attends ∧ commitChecks false r.hdr r.words m = none ∧ checkLead r.hdr r.words m = none ∧
    !m.leadsOthers ∧ m.asked r.hdr) ∧
  (∃ (dt : Nat) (r : Req) (img : Image) (s : State) (m : Module),
    m = advance dt s.mod ∧ m.attends ∧ commitChecks false r.hdr r.words m = none ∧ checkLead r.hdr r.words m = none ∧
    m.leadsOthers ∧ img = m.epochs.staged.getD m.epochs.active) ∧
  (∃ (dt : Nat) (r : Req) (s : State) (m : Module),
    m = advance dt s.mod ∧ m.attends ∧ commitChecks true r.hdr r.words m = none ∧ checkLead r.hdr r.words m = none ∧
    !m.leadsOthers ∧ !m.asked r.hdr) ∧
  (∃ (dt : Nat) (r : Req) (s : State) (m : Module),
    m = advance dt s.mod ∧ m.attends ∧ commitChecks true r.hdr r.words m = none ∧ checkLead r.hdr r.words m = none ∧
    !m.leadsOthers ∧ m.asked r.hdr) ∧
  (∃ (dt : Nat) (r : Req) (img : Image) (s : State) (m : Module),
    m = advance dt s.mod ∧ m.attends ∧ commitChecks true r.hdr r.words m = none ∧ checkLead r.hdr r.words m = none ∧
    m.leadsOthers ∧ img = m.epochs.cellar.getD m.epochs.active) ∧
  (∃ (dt : Nat) (r : Req) (p : Provisional) (s : State) (m : Module),
    m = advance dt s.mod ∧ m.attends ∧ r.hdr.viaHead ∧ r.words = [1] ∧ m.epochs.provisional = some p ∧
    m.time.count.toNat + m.num P.sysCommitConfirm ≤ p.instant.toNat) ∧
  (∃ (dt : Nat) (r : Req) (p : Provisional) (s : State) (m : Module),
    m = advance dt s.mod ∧ m.attends ∧ r.hdr.viaHead ∧ r.words = [0] ∧ m.epochs.provisional = some p ∧
    m.time.count.toNat + m.num P.sysCommitConfirm ≤ p.instant.toNat) :=
  ⟨⟨0, tReq [2, 7], 2, 7, ⟨tReady, []⟩, advance 0 tReady, rfl, (by decide +kernel)⟩,
   ⟨0, tReq [word P.fallbackRateLimit, 5], tImage 9, ⟨tStaged, []⟩, advance 0 tStaged, rfl, (by decide +kernel)⟩,
   ⟨0, tReq [pack [(1, 20), (1, 10), (3, 0)], 0x0002BC33, 0x012C0041], pack [(1, 20), (1, 10), (3, 0)],
      [0x0002BC33, 0x012C0041], tImage 9, ⟨tStaged, []⟩, advance 0 tStaged, rfl, (by decide +kernel)⟩,
   ⟨0, tReq [], ⟨tStaged, []⟩, advance 0 tStaged, rfl, (by decide +kernel)⟩,
   ⟨0, tTimedReq [tickLow tLater, tickHigh tLater], ⟨tStaged, []⟩, advance 0 tStaged, rfl, (by decide +kernel)⟩,
   ⟨0, tTimedHeadReq [tickLow tLater, tickHigh tLater, (tImage 9).number, (tImage 9).setCrc], ⟨tTail tStaged, []⟩,
      advance 0 (tTail tStaged), rfl, (by decide +kernel)⟩,
   ⟨0, tTimedReq [tickLow tLater, tickHigh tLater], tImage 9, ⟨tLeader tStaged, []⟩, advance 0 (tLeader tStaged), rfl,
      (by decide +kernel)⟩,
   ⟨0, tTimedReq [tickLow tLater, tickHigh tLater], ⟨tStaged, []⟩, advance 0 tStaged, rfl, (by decide +kernel)⟩,
   ⟨0, tTimedHeadReq [tickLow tLater, tickHigh tLater, (tImage 8).number, (tImage 8).setCrc], ⟨tTail tStaged, []⟩,
      advance 0 (tTail tStaged), rfl, (by decide +kernel)⟩,
   ⟨0, tTimedReq [tickLow tLater, tickHigh tLater], tImage 8, ⟨tLeader tStaged, []⟩, advance 0 (tLeader tStaged), rfl,
      (by decide +kernel)⟩,
   ⟨0, tHeadReq [1], tProvisional, ⟨tTail tProv, []⟩, advance 0 (tTail tProv), rfl, (by decide +kernel)⟩,
   ⟨0, tHeadReq [0], tProvisional, ⟨tTail tProv, []⟩, advance 0 (tTail tProv), rfl, (by decide +kernel)⟩⟩

/-- Every clause of LiveWritesComplete is met. -/
theorem witness_liveWritesComplete :
  (∃ (dt : Nat) (r : Req) (s : State) (m : Module),
    m = advance dt s.mod ∧ m.attends ∧ r.hdr.plain ∧ 2 ≤ r.words.length ∧ r.words.length ≤ 60 ∧
    r.words.length % 2 = 0 ∧ (indexed (pairsOf r.words)).all (fun p => (pairEncoding p.1 p.2).isNone) ∧
    liveChecks (pairsOf r.words) m = none) ∧
  (∃ (dt : Nat) (r : Req) (lo : Word) (hi : Word) (ws : List Word) (s : State) (m : Module),
    m = advance dt s.mod ∧ m.attends ∧ r.hdr.onlyTimed ∧ r.words = lo :: hi :: ws ∧ m.ahead r.words ∧
    m.interp.timed.length < 32 ∧ 2 ≤ ws.length ∧ ws.length ≤ 60 ∧ ws.length % 2 = 0 ∧
    (indexed (pairsOf ws)).all (fun p => (pairEncoding p.1 p.2).isNone) ∧ liveChecks (pairsOf ws) m = none) ∧
  (∃ (dt : Nat) (h : Hdr) (d : Fin 2) (value : Word) (s : State) (m : Module),
    m = advance dt s.mod ∧ m.attends ∧ h.plain ∧ pairEncoding 0 (word (P.fabricSupplyCf0 + d.val), value) = none ∧
    liveChecks [(word (P.fabricSupplyCf0 + d.val), value)] m = none) ∧
  (∃ (dt : Nat) (d : Fin 2) (s : State) (m : Module),
    m = advance dt s.mod ∧ m.up ∧ m.supplyChanging d) ∧
  (∃ (dt : Nat) (h : Hdr) (value : Word) (s : State) (m : Module),
    m = advance dt s.mod ∧ m.attends ∧ h.plain ∧ liveChecks [(word P.flogRecordSelect, value)] m = none) ∧
  (∃ (dt : Nat) (h : Hdr) (value : Word) (s : State) (m : Module),
    m = advance dt s.mod ∧ m.attends ∧ h.plain ∧ liveChecks [(word P.flogCountSelect, value)] m = none) ∧
  (∃ (dt : Nat) (h : Hdr) (s : State) (m : Module),
    m = advance dt s.mod ∧ m.attends ∧ h.plain ∧ (m.label = .standby || m.label = .ready) ∧ !m.faults.erasing) ∧
  (∃ (dt : Nat) (s : State) (m : Module),
    m = advance dt s.mod ∧ m.up ∧ m.faults.erasing) ∧
  (∃ (dt : Nat) (r : Req) (c : Word) (v : Word) (s : State) (m : Module),
    m = advance dt s.mod ∧ m.attends ∧ r.hdr.plain ∧ r.words = [c, v] ∧ c.toNat ≤ 1 ∧ !m.lockstepRequired ∧
    setpointChecks false [c, v] m = none) ∧
  (∃ (dt : Nat) (r : Req) (lo : Word) (hi : Word) (ws : List Word) (c : Word) (v : Word) (s : State) (m : Module),
    m = advance dt s.mod ∧ m.attends ∧ r.hdr.onlyTimed ∧ r.words = lo :: hi :: ws ∧ m.ahead r.words ∧
    m.interp.timed.length < 32 ∧ ws = [c, v] ∧ c.toNat ≤ 1 ∧ !m.lockstepRequired ∧
    setpointChecks false [c, v] m = none) ∧
  (∃ (dt : Nat) (r : Req) (c : Word) (v : Word) (s : State) (m : Module),
    m = advance dt s.mod ∧ m.attends ∧ r.hdr.plain ∧ r.words = [c, v] ∧ c.toNat ≤ 1 ∧ !m.lockstepRequired ∧
    setpointChecks true [c, v] m = none) ∧
  (∃ (dt : Nat) (r : Req) (lo : Word) (hi : Word) (ws : List Word) (c : Word) (v : Word) (s : State) (m : Module),
    m = advance dt s.mod ∧ m.attends ∧ r.hdr.onlyTimed ∧ r.words = lo :: hi :: ws ∧ m.ahead r.words ∧
    m.interp.timed.length < 32 ∧ ws = [c, v] ∧ c.toNat ≤ 1 ∧ !m.lockstepRequired ∧ setpointChecks true [c, v] m = none) :=
  ⟨⟨0, tReq [word P.flogRecordSelect, 3], ⟨tReady, []⟩, advance 0 tReady, rfl, (by decide +kernel)⟩,
   ⟨0, tTimedReq (tickLow tLater :: tickHigh tLater :: [word P.flogRecordSelect, 3]), tickLow tLater, tickHigh tLater,
      [word P.flogRecordSelect, 3], ⟨tReady, []⟩, advance 0 tReady, rfl, (by decide +kernel)⟩,
   ⟨0, tHdr, 0, 0, ⟨tReady, []⟩, advance 0 tReady, rfl, (by decide +kernel)⟩,
   ⟨0, 0, ⟨{ tReady with live := { Live.init with supplyBusy0 := true } }, []⟩, advance 0
      ({ tReady with live := { Live.init with supplyBusy0 := true } }), rfl, (by decide +kernel)⟩,
   ⟨0, tHdr, 7, ⟨tReady, []⟩, advance 0 tReady, rfl, (by decide +kernel)⟩,
   ⟨0, tHdr, 0x4035, ⟨tReady, []⟩, advance 0 tReady, rfl, (by decide +kernel)⟩,
   ⟨0, tHdr, ⟨tReady, []⟩, advance 0 tReady, rfl, (by decide +kernel)⟩,
   ⟨0, ⟨{ tReady with faults := { Faults.reset with erasing := true } }, []⟩, advance 0
      ({ tReady with faults := { Faults.reset with erasing := true } }), rfl, (by decide +kernel)⟩,
   ⟨0, tReq [0, 0x42C80000], 0, 0x42C80000, ⟨tRun, []⟩, advance 0 tRun, rfl, (by decide +kernel)⟩,
   ⟨0, tTimedReq (tickLow tLater :: tickHigh tLater :: [0, 0x42C80000]), tickLow tLater, tickHigh tLater,
      [0, 0x42C80000], 0, 0x42C80000, ⟨tRun, []⟩, advance 0 tRun, rfl, (by decide +kernel)⟩,
   ⟨0, tReq [0, 0x42C80000], 0, 0x42C80000, ⟨tRun, []⟩, advance 0 tRun, rfl, (by decide +kernel)⟩,
   ⟨0, tTimedReq (tickLow tLater :: tickHigh tLater :: [0, 0x42C80000]), tickLow tLater, tickHigh tLater,
      [0, 0x42C80000], 0, 0x42C80000, ⟨tRun, []⟩, advance 0 tRun, rfl, (by decide +kernel)⟩⟩

/-- Every clause of LoopAndMoveCommandsComplete is met. -/
theorem witness_loopAndMoveCommandsComplete :
  (∃ (dt : Nat) (r : Req) (w : Word) (s : State) (m : Module),
    m = advance dt s.mod ∧ m.attends ∧ r.hdr.plain ∧ r.words = [w] ∧ maskOk w) ∧
  (∃ (dt : Nat) (r : Req) (w : Word) (s : State) (m : Module),
    m = advance dt s.mod ∧ m.attends ∧ r.hdr.plain ∧ r.words = [w] ∧ maskOk w ∧ !m.lockstepRequired ∧
    (maskLoops w).all (fun l => (closeCheck m l).isNone)) ∧
  (∃ (dt : Nat) (r : Req) (w : Word) (s : State) (m : Module),
    m = advance dt s.mod ∧ m.attends ∧ r.hdr.plain ∧ r.words = [w] ∧ bits w 31 5 = 0 ∧ !m.lockstepRequired ∧
    moveChecks false w m = none) ∧
  (∃ (dt : Nat) (r : Req) (lo : Word) (hi : Word) (ws : List Word) (w : Word) (s : State) (m : Module),
    m = advance dt s.mod ∧ m.attends ∧ r.hdr.onlyTimed ∧ r.words = lo :: hi :: ws ∧ m.ahead r.words ∧
    m.interp.timed.length < 32 ∧ ws = [w] ∧ bits w 31 5 = 0 ∧ !m.lockstepRequired ∧ moveChecks false w m = none) ∧
  (∃ (dt : Nat) (r : Req) (w : Word) (s : State) (m : Module),
    m = advance dt s.mod ∧ m.attends ∧ r.hdr.plain ∧ r.words = [w] ∧ bits w 31 5 = 0 ∧ !m.lockstepRequired ∧
    moveChecks true w m = none ∧ moveTarget w ≤ 1) ∧
  (∃ (dt : Nat) (r : Req) (lo : Word) (hi : Word) (ws : List Word) (w : Word) (s : State) (m : Module),
    m = advance dt s.mod ∧ m.attends ∧ r.hdr.onlyTimed ∧ r.words = lo :: hi :: ws ∧ m.ahead r.words ∧
    m.interp.timed.length < 32 ∧ ws = [w] ∧ bits w 31 5 = 0 ∧ !m.lockstepRequired ∧ moveChecks true w m = none ∧
    moveTarget w ≤ 1) :=
  ⟨⟨0, tReq [0x5], 0x5, ⟨tRun, []⟩, advance 0 tRun, rfl, (by decide +kernel)⟩,
   ⟨0, tReq [0x5], 0x5, ⟨tRun, []⟩, advance 0 tRun, rfl, (by decide +kernel)⟩,
   ⟨0, tReq [pack [(0, 3), (1, 0)]], pack [(0, 3), (1, 0)], ⟨tMoves, []⟩, advance 0 tMoves, rfl, (by decide +kernel)⟩,
   ⟨0, tTimedReq (tickLow tLater :: tickHigh tLater :: [pack [(0, 3), (1, 0)]]), tickLow tLater, tickHigh tLater,
      [pack [(0, 3), (1, 0)]], pack [(0, 3), (1, 0)], ⟨tMoves, []⟩, advance 0 tMoves, rfl, (by decide +kernel)⟩,
   ⟨0, tReq [pack [(1, 3), (1, 0)]], pack [(1, 3), (1, 0)], ⟨tMoves, []⟩, advance 0 tMoves, rfl, (by decide +kernel)⟩,
   ⟨0, tTimedReq (tickLow tLater :: tickHigh tLater :: [pack [(1, 3), (1, 0)]]), tickLow tLater, tickHigh tLater,
      [pack [(1, 3), (1, 0)]], pack [(1, 3), (1, 0)], ⟨tMoves, []⟩, advance 0 tMoves, rfl, (by decide +kernel)⟩⟩

/-- Every clause of ChargeCommandsComplete is met. -/
theorem witness_chargeCommandsComplete :
  (∃ (dt : Nat) (r : Req) (i : Word) (v : Word) (s : State) (m : Module),
    m = advance dt s.mod ∧ m.attends ∧ r.hdr.plain ∧ r.words = [i, v] ∧ !m.lockstepRequired ∧ !F32.nonFinite i ∧
    F32.lt 0 i ∧ !F32.lt (m.par P.cvIbatChgMax) i ∧ !F32.nonFinite v ∧ F32.le (m.par P.cvVbatMin) v ∧
    F32.le v (m.par P.cvVbatMax) ∧ !chargePattern m ∧ m.isAdmitted ∧ m.charger.state = 0 ∧ m.label = .run ∧
    !m.inTransition ∧ m.num P.cgEnable = 1 ∧ m.converter.closed ∧ !m.chargerFault) ∧
  (∃ (dt : Nat) (r : Req) (s : State) (m : Module),
    m = advance dt s.mod ∧ m.attends ∧ r.hdr.plain ∧ r.words = [] ∧ (m.charger.state = 4 || m.charger.state = 5)) ∧
  (∃ (dt : Nat) (h : Hdr) (s : State) (m : Module),
    m = advance dt s.mod ∧ m.attends ∧ h.plain ∧ !m.lockstepRequired ∧ !chargePattern m ∧ m.isAdmitted ∧
    m.charger.state = 0 ∧ m.label = .run ∧ !m.inTransition ∧ m.num P.exAcEnable = 1 ∧ m.converter.closed ∧
    m.charger.pilot = 0 ∧ lasted m.time.elapsed m.charger.quietSince 400000000) ∧
  (∃ (dt : Nat) (h : Hdr) (s : State) (m : Module),
    m = advance dt s.mod ∧ m.attends ∧ h.plain ∧ !m.lockstepRequired ∧ !m.patterned .cv ∧ m.isAdmitted ∧ exportDcOk m) ∧
  (∃ (dt : Nat) (h : Hdr) (s : State) (m : Module),
    m = advance dt s.mod ∧ m.attends ∧ h.plain ∧ (m.charger.state = 7 || m.charger.state = 8)) ∧
  (∃ (dt : Nat) (h : Hdr) (s : State) (m : Module),
    m = advance dt s.mod ∧ m.attends ∧ h.plain) :=
  ⟨⟨0, tReq [0x41200000, 0x43C80000], 0x41200000, 0x43C80000, ⟨tCharge, []⟩, advance 0 tCharge, rfl,
      (by decide +kernel)⟩,
   ⟨0, tReq [], ⟨{ tCharge with charger := { Charger.init with state := 4, session := true } }, []⟩, advance 0
      ({ tCharge with charger := { Charger.init with state := 4, session := true } }), rfl, (by decide +kernel)⟩,
   ⟨0, tHdr, ⟨tCharge, []⟩, advance 0 tCharge, rfl, (by decide +kernel)⟩,
   ⟨0, tHdr, ⟨tCharge, []⟩, advance 0 tCharge, rfl, (by decide +kernel)⟩,
   ⟨0, tHdr, ⟨{ tCharge with charger := { Charger.init with state := 8 } }, []⟩, advance 0
      ({ tCharge with charger := { Charger.init with state := 8 } }), rfl, (by decide +kernel)⟩,
   ⟨0, tHdr, ⟨{ tCharge with converter := { tCharge.converter with outlet := 2 } }, []⟩, advance 0
      ({ tCharge with converter := { tCharge.converter with outlet := 2 } }), rfl, (by decide +kernel)⟩⟩

/-- Every clause of ServiceCommandsComplete is met. -/
theorem witness_serviceCommandsComplete :
  (∃ (dt : Nat) (r : Req) (w : Word) (s : State) (m : Module),
    m = advance dt s.mod ∧ m.attends ∧ r.hdr.plain ∧ r.words = [w] ∧ bits w 31 6 = 0 ∧ bits w 5 0 ≤ 45 ∧
    (m.dies.toList.getD (bits w 5 0) (Die.init 0)).supply ≠ 0 ∧ commandCrossing (bits w 5 0) = none) ∧
  (∃ (dt : Nat) (r : Req) (w : Word) (i : Fin 22) (s : State) (m : Module),
    m = advance dt s.mod ∧ m.attends ∧ r.hdr.plain ∧ r.words = [w] ∧ bits w 31 6 = 0 ∧ bits w 5 0 ≤ 45 ∧
    (m.dies.toList.getD (bits w 5 0) (Die.init 0)).supply ≠ 0 ∧ !m.clockedStopped (bits w 5 0) ∧
    commandCrossing (bits w 5 0) = some i) ∧
  (∃ (dt : Nat) (r : Req) (s : State) (m : Module),
    m = advance dt s.mod ∧ m.attends ∧ r.hdr.plain ∧ r.words = [0x3F] ∧
    !(m.measured 0x3F).any (fun k => m.clockedStopped k.val)) ∧
  (∃ (dt : Nat) (h : Hdr) (s : State) (m : Module),
    m = advance dt s.mod ∧ m.attends ∧ h.plain ∧ m.label = .ready ∧ m.lockstep.bist = 0) ∧
  (∃ (dt : Nat) (h : Hdr) (d : Fin 2) (s : State) (m : Module),
    m = advance dt s.mod ∧ m.attends ∧ h.plain ∧ m.label = .ready ∧ m.dieRuns (if d = 0 then 2 else 3) ∧
    !(List.finRange 8).any (fun n => regionDie n == (if d = 0 then 2 else 3 : Fin 46) && (m.regions[n]).held)) ∧
  (∃ (dt : Nat) (h : Hdr) (i : Fin 36) (s : State) (m : Module),
    m = advance dt s.mod ∧ m.attends ∧ h.plain ∧ m.atLeastReady ∧ !m.gateBusy ∧ (!m.driven || m.heldOff i) ∧
    m.dieRuns 7) ∧
  (∃ (dt : Nat) (h : Hdr) (a : Fin 2) (k : Fin 32) (j : Nat) (s : State) (m : Module),
    m = advance dt s.mod ∧ m.attends ∧ h.plain ∧ m.atLeastReady ∧ m.idleComparator a k = some j ∧ !m.twinBusy a ∧
    m.afeRuns a) ∧
  (∃ (dt : Nat) (h : Hdr) (a : Fin 2) (i : Fin 4) (j : Nat) (s : State) (m : Module),
    m = advance dt s.mod ∧ m.attends ∧ h.plain ∧ m.atLeastReady ∧ m.idleDetector a i = some j ∧ !m.twinBusy a ∧
    m.afeRuns a) ∧
  (∃ (dt : Nat) (r : Req) (w : Word) (a : Fin 2) (s : State) (m : Module),
    m = advance dt s.mod ∧ m.attends ∧ r.hdr.plain ∧ r.words = [w] ∧ bits w 31 1 = 0 ∧ a.val = w.toNat % 2 ∧
    m.atLeastReady ∧ !m.afe[a].sweep ∧ !m.writesOut (4 + a.val) 0x72 ∧ m.afeRuns a) ∧
  (∃ (dt : Nat) (r : Req) (w : Word) (dies : List (Fin 46)) (filled : Module) (upper : Module) (s : State)
     (m : Module),
    m = advance dt s.mod ∧ m.attends ∧ r.hdr.plain ∧ r.words = [w] ∧ bits w 31 16 = 0 ∧ bits w 7 0 = 0 ∧
    (bits w 15 8 = 0xFF || (9 ≤ bits w 15 8 && blockValid (bits w 15 8))) ∧ m.label = .ready ∧
    dies = (List.finRange 46).filter (fun d => (fillBlocks (bits w 15 8)).any (fun c => blockDie c == d)) ∧
    dies.all (fun d => m.dieRuns d) ∧
    !dies.any (
        fun d => m.memory.filling.any (fun c => blockDie c == d) || (List.finRange 8).any
          (fun n => regionDie n == d && (m.regions[n]).held)) ∧
    filled = { m with memory := { m.memory with filling := m.memory.filling ++ fillBlocks (bits w 15 8) } } ∧
    upper = (
        if dies.contains 2 then zeroRegions 0 (mapRegions 0 (fun r => { r.stop with held := true }) filled) else
          filled)) ∧
  (∃ (dt : Nat) (r : Req) (w : Word) (s : State) (m : Module),
    m = advance dt s.mod ∧ m.attends ∧ r.hdr.plain ∧ r.words = [w] ∧ bits w 31 1 = 0 ∧ m.label = .ready ∧
    !F32.lt (F32.ofNat 60) (m.diagVdc w.toNat) ∧ !m.gateBusy ∧ m.dieRuns 7) ∧
  (∃ (dt : Nat) (r : Req) (w : Word) (s : State) (m : Module),
    m = advance dt s.mod ∧ m.attends ∧ r.hdr.plain ∧ r.words = [w] ∧ bits w 15 0 = 0 ∧
    (bits w 31 16 = 0 || (faultInfo (bits w 31 16)).isSome)) :=
  ⟨⟨0, tReq [2], 2, ⟨tReady, []⟩, advance 0 tReady, rfl, (by decide +kernel)⟩,
   ⟨0, tReq [4], 4, 0, ⟨tReady, []⟩, advance 0 tReady, rfl, (by decide +kernel)⟩,
   ⟨0, tReq [0x3F], ⟨tReady, []⟩, advance 0 tReady, rfl, (by decide +kernel)⟩,
   ⟨0, tHdr, ⟨tReady, []⟩, advance 0 tReady, rfl, (by decide +kernel)⟩,
   ⟨0, tHdr, 1, ⟨tReady, []⟩, advance 0 tReady, rfl, (by decide +kernel)⟩,
   ⟨0, tHdr, 3, ⟨tReady, []⟩, advance 0 tReady, rfl, (by decide +kernel)⟩,
   ⟨0, tHdr, 0, 0, 1, ⟨tReady, []⟩, advance 0 tReady, rfl, (by decide +kernel)⟩,
   ⟨0, tHdr, 0, 0, 1, ⟨tSd, []⟩, advance 0 tSd, rfl, (by decide +kernel)⟩,
   ⟨0, tReq [1], 1, 1, ⟨tReady, []⟩, advance 0 tReady, rfl, (by decide +kernel)⟩,
   ⟨0, tReq [0x1000], 0x1000, [2], { tReady with memory := { tReady.memory with filling := [0x10] } }, zeroRegions 0 (
        mapRegions 0 (fun r => { r.stop with held := true })
          { tReady with memory := { tReady.memory with filling := [0x10] } }), ⟨tReady, []⟩, advance 0 tReady, rfl,
      (by decide +kernel)⟩,
   ⟨0, tReq [0], 0, ⟨tReady, []⟩, advance 0 tReady, rfl, (by decide +kernel)⟩,
   ⟨0, tReq [0], 0, ⟨tReady, []⟩, advance 0 tReady, rfl, (by decide +kernel)⟩⟩

/-- Every clause of SystemCommandsComplete is met. -/
theorem witness_systemCommandsComplete :
  (∃ (dt : Nat) (r : Req) (w : Word) (n : Fin 16) (s : State) (m : Module),
    m = advance dt s.mod ∧ m.attends ∧ m.leads ∧ r.hdr.plain ∧ r.words = [w] ∧ bits w 31 4 = 0 ∧ n = nodeOf w ∧
    !m.wideCommit ∧ !m.lockstepRequired ∧ n ≠ m.straps.node ∧ m.statusHeard n ∧ !m.inSet n.val ∧
    !(m.sys.nodes[n]).conflict) ∧
  (∃ (dt : Nat) (r : Req) (w : Word) (n : Fin 16) (s : State) (m : Module),
    m = advance dt s.mod ∧ m.attends ∧ m.leads ∧ r.hdr.plain ∧ r.words = [w] ∧ bits w 31 4 = 0 ∧ n = nodeOf w ∧
    !m.wideCommit ∧ !m.lockstepRequired ∧ n ≠ m.straps.node ∧ m.statusHeard n ∧ m.inSet n.val) ∧
  (∃ (dt : Nat) (r : Req) (w : Word) (n : Fin 16) (s : State) (m : Module),
    m = advance dt s.mod ∧ m.attends ∧ r.hdr.viaHead ∧ r.words = [w] ∧ bits w 31 4 = 0 ∧ n = nodeOf w ∧
    !m.wideCommit ∧ !m.lockstepRequired ∧ !m.isHead ∧ !m.sys.admitted ∧ ownAdmitCheck m = none) ∧
  (∃ (dt : Nat) (r : Req) (w : Word) (n : Fin 16) (s : State) (m : Module),
    m = advance dt s.mod ∧ m.attends ∧ m.leads ∧ r.hdr.plain ∧ r.words = [w] ∧ bits w 31 4 = 0 ∧ n = nodeOf w ∧
    !m.wideCommit ∧ !m.lockstepRequired ∧ n ≠ m.straps.node ∧ m.statusHeard n ∧ releaseCheck n m = none) ∧
  (∃ (dt : Nat) (r : Req) (w : Word) (n : Fin 16) (s : State) (m : Module),
    m = advance dt s.mod ∧ m.attends ∧ r.hdr.viaHead ∧ r.words = [w] ∧ bits w 31 4 = 0 ∧ n = nodeOf w ∧
    !m.wideCommit ∧ !m.lockstepRequired ∧ !m.isHead ∧ releaseCheck n m = none) ∧
  (∃ (dt : Nat) (r : Req) (w : Word) (s : State) (m : Module),
    m = advance dt s.mod ∧ m.attends ∧ m.leads ∧ r.hdr.plain ∧ r.words = [w] ∧ bits w 31 17 = 0 ∧ bits w 15 4 = 0 ∧
    (bit w 16 || m.heard (nodeOf w)) ∧ m.sys.measurement = none) ∧
  (∃ (dt : Nat) (h : Hdr) (s : State) (m : Module),
    m = advance dt s.mod ∧ m.attends ∧ h.viaHead ∧ !m.isHead) ∧
  (∃ (dt : Nat) (r : Req) (s : State) (m : Module),
    m = advance dt s.mod ∧ m.attends ∧ allocChecks r.hdr r.words m = none ∧ !m.isHead) ∧
  (∃ (dt : Nat) (r : Req) (s : State) (m : Module),
    m = advance dt s.mod ∧ m.attends ∧ allocChecks r.hdr r.words m = none ∧ m.isHead) ∧
  (∃ (dt : Nat) (r : Req) (w : Word) (v : Word) (ws : List Word) (n : Fin 16) (body : List Word) (s : State)
     (m : Module),
    m = advance dt s.mod ∧ m.attends ∧ relayChecks r.hdr r.words m = none ∧ r.words = w :: v :: ws ∧ n = nodeOf w ∧
    body = (v ||| 2) :: ws.dropLast) :=
  ⟨⟨0, tReq [5], 5, 5, ⟨tHead, []⟩, advance 0 tHead, rfl, (by decide +kernel)⟩,
   ⟨0, tReq [1], 1, 1, ⟨tHead, []⟩, advance 0 tHead, rfl, (by decide +kernel)⟩,
   ⟨0, tHeadReq [5], 5, 5, ⟨tTailReady, []⟩, advance 0 tTailReady, rfl, (by decide +kernel)⟩,
   ⟨0, tReq [1], 1, 1, ⟨tHead, []⟩, advance 0 tHead, rfl, (by decide +kernel)⟩,
   ⟨0, tHeadReq [5], 5, 5, ⟨tTailAdmitted, []⟩, advance 0 tTailAdmitted, rfl, (by decide +kernel)⟩,
   ⟨0, tReq [1], 1, ⟨tHead, []⟩, advance 0 tHead, rfl, (by decide +kernel)⟩,
   ⟨0, tHeadHdr, ⟨tTailReady, []⟩, advance 0 tTailReady, rfl, (by decide +kernel)⟩,
   ⟨0, tTimedHeadReq [tickLow tLater, tickHigh tLater, 0x20, 0x42C80000, 0x42C80000], ⟨tTailAdmitted, []⟩, advance 0
      tTailAdmitted, rfl, (by decide +kernel)⟩,
   ⟨0, tTimedReq [tickLow tLater, tickHigh tLater, 0x3, 0x42C80000, 0x42C80000, 0x42C80000, 0x42C80000], ⟨tHead, []⟩,
      advance 0 tHead, rfl, (by decide +kernel)⟩,
   ⟨0, tReq (1 :: tInner), 1, tInner.headD 0, tInner.tail, 1, (tInner.headD 0 ||| 2) :: tInner.tail.dropLast,
      ⟨tHead, []⟩, advance 0 tHead, rfl, (by decide +kernel)⟩⟩

/-- Every clause of ModuleCommandsComplete is met. -/
theorem witness_moduleCommandsComplete :
  (∃ (dt : Nat) (r : Req) (w : Word) (s : State) (m : Module),
    m = advance dt s.mod ∧ m.attends ∧ r.hdr.plain ∧ r.words = [w] ∧ bits w 31 3 = 0 ∧
    powerOf (bits w 2 0) = m.label ∧ m.label ≠ .off) ∧
  (∃ (dt : Nat) (r : Req) (w : Word) (t : Power) (s : State) (m : Module),
    m = advance dt s.mod ∧ m.attends ∧ r.hdr.plain ∧ r.words = [w] ∧ bits w 31 3 = 0 ∧ t = powerOf (bits w 2 0) ∧
    t ≠ .off ∧ t ≠ m.label ∧ legalTarget m.label t ∧ !m.inTransition ∧ !m.commitPending ∧
    !(t == .sleep && m.epochs.flashPending) ∧ !(m.lockstepRequired && (t == .armed || t == .run)) ∧
    (t ≠ .run || m.isAdmitted) ∧ !(t == .armed && m.armBlocked) ∧ !(m.driven && t.code ≤ 3 && m.tooFast)) ∧
  (∃ (dt : Nat) (r : Req) (s : State) (m : Module),
    m = advance dt s.mod ∧ m.attends ∧ r.hdr.plain ∧ r.words = [] ∧ !m.driven) ∧
  (∃ (dt : Nat) (r : Req) (w : Word) (d : Fin 46) (s : State) (m : Module),
    m = advance dt s.mod ∧ m.attends ∧ r.hdr.plain ∧ r.words = [w] ∧ w = word d.val ∧ resettable d.val ∧
    m.label = .ready ∧ !m.inTransition ∧ !m.dies[d].inReset) ∧
  (∃ (dt : Nat) (h : Hdr) (s : State) (m : Module),
    m = advance dt s.mod ∧ m.attends ∧ h.plain ∧ (m.label = .standby || m.label = .ready) ∧
    !m.dies[(0 : Fin 46)].inReset) ∧
  (∃ (dt : Nat) (d : Fin 46) (s : State) (m : Module),
    m = advance dt s.mod ∧ m.up ∧ m.dies[d].inReset ∧ m.dies[d].supply = 1) :=
  ⟨⟨0, tReq [3], 3, ⟨tReady, []⟩, advance 0 tReady, rfl, (by decide +kernel)⟩,
   ⟨0, tReq [2], 2, .standby, ⟨tReady, []⟩, advance 0 tReady, rfl, (by decide +kernel)⟩,
   ⟨0, tReq [], ⟨tReady, []⟩, advance 0 tReady, rfl, (by decide +kernel)⟩,
   ⟨0, tReq [2], 2, 2, ⟨tReady, []⟩, advance 0 tReady, rfl, (by decide +kernel)⟩,
   ⟨0, tHdr, ⟨tReady, []⟩, advance 0 tReady, rfl, (by decide +kernel)⟩,
   ⟨0, 2, ⟨updDie 2 (fun d => { d with inReset := true }) tReady, []⟩, advance 0
      (updDie 2 (fun d => { d with inReset := true }) tReady), rfl, (by decide +kernel)⟩⟩

/-- Every clause of PacketCommandsComplete is met. -/
theorem witness_packetCommandsComplete :
  (∃ (dt : Nat) (words : List Word) (s : State) (m : Module),
    m = advance dt s.mod ∧ m.attends ∧ 2 ≤ words.length ∧ words.length ≤ 64 ∧ !bit (words.getD 0 0) 3 ∧
    headerCheck words = none) ∧
  (∃ (dt : Nat) (s : State) (m : Module),
    m = advance dt s.mod ∧ m.listens) :=
  ⟨⟨0, tStatusPacket, ⟨tReady, []⟩, advance 0 tReady, rfl, (by decide +kernel)⟩,
   ⟨0, ⟨tReady, []⟩, advance 0 tReady, rfl, (by decide +kernel)⟩⟩

/-- Every clause of QueueAndSegmentEventsComplete is met. -/
theorem witness_queueAndSegmentEventsComplete :
  (∃ (dt : Nat) (t : Transport) (s : State) (m : Module),
    m = advance dt s.mod ∧ m.listens ∧ 16 ≤ m.waitingOn t) ∧
  (∃ (dt : Nat) (t : Transport) (s : State) (m : Module),
    m = advance dt s.mod ∧ m.waitingOn t < 16) ∧
  (∃ (dt : Nat) (bytes : List Byte) (n : Byte) (rest : List Byte) (s : State) (m : Module),
    m = advance dt s.mod ∧ m.listens ∧ m.dieRuns 6 ∧ bytes = 0xC0 :: n :: rest ∧ 2 ≤ n.toNat ∧ n.toNat ≤ 64 ∧
    4 * n.toNat ≤ rest.length ∧ m.interp.reassemblies = []) ∧
  (∃ (dt : Nat) (via : Via) (bytes : List Byte) (n : Byte) (rest : List Byte) (s : State) (m : Module),
    m = advance dt s.mod ∧ m.listens ∧ m.dieRuns 6 ∧ bytes = 0x80 :: n :: rest ∧ !via.classical ∧ bytes.length = 64 ∧
    16 ≤ n.toNat ∧ n.toNat ≤ 64 ∧ m.interp.reassemblies = []) ∧
  (∃ (dt : Nat) (via : Via) (bytes : List Byte) (q : Reassembly) (c : Byte) (rest : List Byte) (s : State)
     (m : Module),
    m = advance dt s.mod ∧ m.listens ∧ m.dieRuns 6 ∧ m.interp.reassemblies = [q] ∧ q.transport = .cn1 ∧
    m.time.elapsed ≤ q.lastAt + 4000000 ∧ bytes = c :: rest ∧ c.toNat < 16 ∧ c.toNat = q.nextSeq ∧ !via.classical ∧
    bytes.length = 64 ∧ q.bytes.length + rest.length ≤ q.total) ∧
  (∃ (dt : Nat) (bytes : List Byte) (q : Reassembly) (c : Byte) (rest : List Byte) (s : State) (m : Module),
    m = advance dt s.mod ∧ m.listens ∧ m.dieRuns 6 ∧ m.interp.reassemblies = [q] ∧ q.transport = .cn1 ∧
    m.time.elapsed ≤ q.lastAt + 4000000 ∧ bytes = c :: rest ∧ 64 ≤ c.toNat ∧ c.toNat < 80 ∧ c.toNat = 64 + q.nextSeq ∧
    q.total ≤ q.bytes.length + rest.length) ∧
  (∃ (dt : Nat) (bytes : List Byte) (q : Reassembly) (c : Byte) (rest : List Byte) (s : State) (m : Module),
    m = advance dt s.mod ∧ m.listens ∧ m.dieRuns 6 ∧ m.interp.reassemblies = [q] ∧ q.transport = .cn1 ∧
    bytes = c :: rest ∧ c.toNat < 16 ∧ c.toNat ≠ q.nextSeq) ∧
  (∃ (dt : Nat) (sender : Nat) (bytes : List Byte) (seq : Byte) (n : Byte) (rest : List Byte) (node : Fin 16)
     (m1 : Module) (s : State) (m : Module),
    m = advance dt s.mod ∧ m1 = hearFrame 0 node m ∧ m.listens ∧ m.dieRuns 6 ∧ bytes = seq :: 0xC0 :: n :: rest ∧
    2 ≤ n.toNat ∧ n.toNat ≤ 64 ∧ 4 * n.toNat ≤ rest.length ∧
    node = (⟨sender % 16, Nat.mod_lt _ (by decide)⟩ : Fin 16) ∧ !m1.copySeen (0x180 + node.val) node.val seq.toNat ∧
    m1.interp.reassemblies = []) ∧
  (∃ (dt : Nat) (sender : Nat) (bytes : List Byte) (node : Fin 16) (m1 : Module) (s : State) (m : Module),
    m = advance dt s.mod ∧ m1 = headHeard (hearFrame 1 node m) ∧ m.listens ∧ m.dieRuns 6 ∧
    node = (⟨sender % 16, Nat.mod_lt _ (by decide)⟩ : Fin 16) ∧
    m1.copySeen (0x100 + m.straps.node.val) node.val (bytes.getD 0 0).toNat) ∧
  (∃ (dt : Nat) (q : Reassembly) (s : State) (m : Module),
    m = advance dt s.mod ∧ m.up ∧ m.interp.reassemblies = [q] ∧ q.lastAt + 4000000 < m.time.elapsed) ∧
  (∃ (dt : Nat) (s : State) (m : Module),
    m = advance dt s.mod ∧ m.up ∧ m.interp.reassemblies.all (fun q => m.time.elapsed ≤ q.lastAt + 4000000)) ∧
  (∃ (dt : Nat) (bytes : List Byte) (bs : List Byte) (s : State) (m : Module),
    m = advance dt s.mod ∧ m.listens ∧ bytes ≠ [] ∧ unescape bytes = some bs) ∧
  (∃ (dt : Nat) (bytes : List Byte) (s : State) (m : Module),
    m = advance dt s.mod ∧ m.listens ∧ bytes ≠ [] ∧ unescape bytes = none) :=
  ⟨⟨0, .sv, ⟨tQueue, []⟩, advance 0 tQueue, rfl, (by decide +kernel)⟩,
   ⟨0, .sv, ⟨tReady, []⟩, advance 0 tReady, rfl, (by decide +kernel)⟩,
   ⟨0, 0xC0 :: 2 :: tStatusPacket.flatMap wordBytes, 2, tStatusPacket.flatMap wordBytes, ⟨tReady, []⟩, advance 0
      tReady, rfl, (by decide +kernel)⟩,
   ⟨0, {}, 0x80 :: 20 :: List.replicate 62 0, 20, List.replicate 62 0, ⟨tReady, []⟩, advance 0 tReady, rfl,
      (by decide +kernel)⟩,
   ⟨0, {}, 1 :: List.replicate 63 0, { tReassembly with lastAt := 8000000000 }, 1, List.replicate 63 0, ⟨
        { tReady with interp := { Interp.init with reassemblies := [{ tReassembly with lastAt := 8000000000 }] } },
          []⟩, advance 0
      ({ tReady with interp := { Interp.init with reassemblies := [{ tReassembly with lastAt := 8000000000 }] } }),
      rfl, (by decide +kernel)⟩,
   ⟨0, 0x41 :: List.replicate 255 0, { tReassembly with lastAt := 8000000000 }, 0x41, List.replicate 255 0, ⟨
        { tReady with interp := { Interp.init with reassemblies := [{ tReassembly with lastAt := 8000000000 }] } },
          []⟩, advance 0
      ({ tReady with interp := { Interp.init with reassemblies := [{ tReassembly with lastAt := 8000000000 }] } }),
      rfl, (by decide +kernel)⟩,
   ⟨0, 2 :: List.replicate 63 0, { tReassembly with lastAt := 8000000000 }, 2, List.replicate 63 0, ⟨
        { tReady with interp := { Interp.init with reassemblies := [{ tReassembly with lastAt := 8000000000 }] } },
          []⟩, advance 0
      ({ tReady with interp := { Interp.init with reassemblies := [{ tReassembly with lastAt := 8000000000 }] } }),
      rfl, (by decide +kernel)⟩,
   ⟨0, 1, 7 :: 0xC0 :: 2 :: tStatusPacket.flatMap wordBytes, 7, 2, tStatusPacket.flatMap wordBytes, 1, _, ⟨tHead, []⟩,
      advance 0 tHead, rfl, rfl, (by decide +kernel)⟩,
   ⟨0, 0, [7], 0, _, ⟨noteCopy (0x100 + tTailReady.straps.node.val) 0 7 tTailReady, []⟩, advance 0
      (noteCopy (0x100 + tTailReady.straps.node.val) 0 7 tTailReady), rfl, rfl, (by decide +kernel)⟩,
   ⟨0, tReassembly, ⟨{ tReady with interp := { Interp.init with reassemblies := [tReassembly] } }, []⟩, advance 0
      ({ tReady with interp := { Interp.init with reassemblies := [tReassembly] } }), rfl, (by decide +kernel)⟩,
   ⟨0, ⟨tReady, []⟩, advance 0 tReady, rfl, (by decide +kernel)⟩,
   ⟨0, [0xDB, 0xDC, 1, 2], [0xC0, 1, 2], ⟨tReady, []⟩, advance 0 tReady, rfl, (by decide +kernel)⟩,
   ⟨0, [0xDB, 1], ⟨tReady, []⟩, advance 0 tReady, rfl, (by decide +kernel)⟩⟩

/-- Every clause of ReplyAndTimedCommandEventsComplete is met. -/
theorem witness_replyAndTimedCommandEventsComplete :
  (∃ (dt : Nat) (i : Nat) (w : Waiting) (st : Nat) (d : Nat) (data : List Word) (s : State) (m : Module),
    m = advance dt s.mod ∧ m.up ∧ m.interp.waiting[i]? = some w ∧ w.result = some (st, d, data)) ∧
  (∃ (dt : Nat) (i : Nat) (w : Waiting) (s : State) (m : Module),
    m = advance dt s.mod ∧ m.up ∧ m.interp.waiting[i]? = some w ∧ w.result = none) ∧
  (∃ (dt : Nat) (t : TimedCmd) (s : State) (m : Module),
    m = advance dt s.mod ∧ m.up ∧ dueTimed m.time.count m.interp.timed = some t ∧ recheck t m = none) ∧
  (∃ (dt : Nat) (t : TimedCmd) (s : State) (m : Module),
    m = advance dt s.mod ∧ m.up ∧ dueTimed m.time.count m.interp.timed = some t ∧ (recheck t m).isSome) ∧
  (∃ (dt : Nat) (s : State) (m : Module),
    m = advance dt s.mod ∧ m.up ∧ dueTimed m.time.count m.interp.timed = none) :=
  ⟨⟨0, 0, tDone, 0, 0, [1], ⟨{ tReady with interp := { Interp.init with waiting := [tDone] } }, []⟩, advance 0
      ({ tReady with interp := { Interp.init with waiting := [tDone] } }), rfl, (by decide +kernel)⟩,
   ⟨0, 0, { tDone with result := none },
      ⟨{ tReady with interp := { Interp.init with waiting := [{ tDone with result := none }] } }, []⟩, advance 0
      ({ tReady with interp := { Interp.init with waiting := [{ tDone with result := none }] } }), rfl,
      (by decide +kernel)⟩,
   ⟨0, tTimed, ⟨{ tReady with interp := { Interp.init with timed := [tTimed] } }, []⟩, advance 0
      ({ tReady with interp := { Interp.init with timed := [tTimed] } }), rfl, (by decide +kernel)⟩,
   ⟨0, tTimedBad, ⟨{ tReady with interp := { Interp.init with timed := [tTimedBad] } }, []⟩, advance 0
      ({ tReady with interp := { Interp.init with timed := [tTimedBad] } }), rfl, (by decide +kernel)⟩,
   ⟨0, ⟨tReady, []⟩, advance 0 tReady, rfl, (by decide +kernel)⟩⟩

/-- Every clause of RegionEventsComplete is met. -/
theorem witness_regionEventsComplete :
  (∃ (dt : Nat) (n : Fin 8) (m1 : Module) (s : State) (m : Module),
    m = advance dt s.mod ∧ m1 = switchRegion n m ∧ m.up ∧ m.time.valid ∧ m1.atBoundary n ∧
    !m.supply.transition.any (fun t => t.source == .ready && t.dest == .standby) ∧ m.dieRuns (regionDie n)) ∧
  (∃ (dt : Nat) (n : Fin 8) (e : Fin 512) (w : Word × Word) (s : State) (m : Module),
    m = advance dt s.mod ∧ w = (m.regionImage n).entry n.val e.val ∧ m.up ∧ m.regionRuns n ∧ clusterMask w.1 ≠ 0 ∧
    m.launchDue n w.1 ∧ (2 ≤ n.val || (m.regionImage n).trOn n.val) ∧
    !skipped (m.regions[n]).level w.1 (m.launchPeriod n w.1)) ∧
  (∃ (dt : Nat) (n : Fin 8) (e : Fin 512) (w : Word × Word) (s : State) (m : Module),
    m = advance dt s.mod ∧ w = (m.regionImage n).entry n.val e.val ∧ m.up ∧ m.regionRuns n ∧ clusterMask w.1 ≠ 0 ∧
    m.launchDue n w.1 ∧ (2 ≤ n.val || (m.regionImage n).trOn n.val) ∧
    skipped (m.regions[n]).level w.1 (m.launchPeriod n w.1)) ∧
  (∃ (dt : Nat) (a : Fin 2) (d : Fin 2) (q : QueueEntry) (lanes : List Nat) (code : Nat) (key : Nat) (m2 : Module)
     (s : State) (m : Module),
    m = advance dt s.mod ∧
    m2 = watchLink d code (
        ((List.finRange 8).filter (fun n => regionDie n == (if d = 0 then 2 else 3 : Fin 46))).foldl
          (fun x n => noteSample n key (sampleArrives n key q.word x)) (
            updCrossing (ringCrossing a d) (fun c => { c with lanes := lanes })
              (updAfe a (fun f => { f with queue := takeEntry d f.queue }) m))) ∧
    m.up ∧ m.afe[a].queue.find? (fun x => x.pendingFor d) = some q ∧
    sendOn m.time.elapsed 1 (m.crossings[ringCrossing a d]).lanes = some lanes ∧ m.afeRuns a ∧
    m.dieRuns (if d = 0 then 2 else 3) ∧ code = 256 * a.val + bits q.word 31 26 ∧ key = 512 * bits q.word 25 20 + code) ∧
  (∃ (dt : Nat) (n : Fin 8) (unit : Fin 16) (entry : Nat) (second : Bool) (branch : Nat) (i : Instance) (l : Lane)
     (s : State) (m : Module),
    m = advance dt s.mod ∧ (m.regions[n]).laneFor i second branch = some l ∧ l.complete (libraryEntry i.word1) ∧
    m.up ∧ m.dieRuns (regionDie n) ∧
    (m.regions[n]).flight.find? (fun i => i.entry == entry && !i.quenched && i.lanesOn) = some i ∧
    l.unit = some unit.val) ∧
  (∃ (dt : Nat) (n : Fin 8) (entry : Nat) (i : Instance) (c : Fin 2) (s : State) (m : Module),
    m = advance dt s.mod ∧ m.up ∧ m.dieRuns (regionDie n) ∧
    (m.regions[n]).flight.find? (fun i => i.entry == entry && !i.quenched && i.lanesOn) = some i ∧
    (m.samplesOf n i).all (fun k => i.arrived.contains k) ∧ channelOf n = some c ∧ isDecision (libraryEntry i.word1)) ∧
  (∃ (dt : Nat) (n : Fin 8) (entry : Nat) (i : Instance) (s : State) (m : Module),
    m = advance dt s.mod ∧ m.up ∧ m.dieRuns (regionDie n) ∧
    (m.regions[n]).flight.find? (fun i => i.entry == entry && !i.quenched && i.lanesOn) = some i ∧
    (m.samplesOf n i).all (fun k => i.arrived.contains k) ∧
    !((channelOf n).isSome && isDecision (libraryEntry i.word1))) ∧
  (∃ (dt : Nat) (n : Fin 8) (moments : List (List (Nat × Bool))) (upsets : List (Nat × Nat × Word)) (m1 : Module)
     (q : Request) (s : State) (m : Module),
    m = advance dt s.mod ∧ m1 = runUnits n moments upsets m ∧ m.up ∧ m.regionRuns n ∧
    lowest (m1.regions[n]).requests = some q) ∧
  (∃ (dt : Nat) (n : Fin 8) (moments : List (List (Nat × Bool))) (upsets : List (Nat × Nat × Word)) (m1 : Module)
     (s : State) (m : Module),
    m = advance dt s.mod ∧ m1 = runUnits n moments upsets m ∧ m.up ∧ m.regionRuns n ∧ (m1.regions[n]).requests = []) ∧
  (∃ (dt : Nat) (n : Fin 8) (i : Instance) (m0 : Module) (s : State) (m : Module),
    m = advance dt s.mod ∧
    m0 = updRegion n (
        fun r => { (r.release [i.id] m.time.count.toNat) with
            flight := r.flight.filter (fun j => !j.dueNow false m.time.count) }) (tapToggle n m) ∧
    m.dueInstances n false = [i] ∧ m.outcomeOf n i = .clean ∧ m0.outcomeOf n i = .clean ∧ m.up ∧ m.regionRuns n) ∧
  (∃ (dt : Nat) (n : Fin 8) (i : Instance) (m0 : Module) (o : Outcome) (s : State) (m : Module),
    m = advance dt s.mod ∧
    m0 = updRegion n (
        fun r => { (r.release [i.id] m.time.count.toNat) with
            flight := r.flight.filter (fun j => !j.dueNow false m.time.count) }) (tapToggle n m) ∧
    m.up ∧ m.regionRuns n ∧ m.dueInstances n false = [i] ∧ m.outcomeOf n i = o ∧ m0.outcomeOf n i = o ∧ o.isFallback) ∧
  (∃ (dt : Nat) (n : Fin 8) (i : Instance) (m0 : Module) (s : State) (m : Module),
    m = advance dt s.mod ∧
    m0 = updRegion n (
        fun r => { (r.release [i.id] m.time.count.toNat) with
            flight := r.flight.filter (fun j => !j.dueNow false m.time.count) }) (tapToggle n m) ∧
    m.up ∧ m.regionRuns n ∧ m.dueInstances n false = [i] ∧ m.outcomeOf n i = .quench ∧ m0.outcomeOf n i = .quench) ∧
  (∃ (dt : Nat) (n : Fin 8) (i : Instance) (m0 : Module) (s : State) (m : Module),
    m = advance dt s.mod ∧
    m0 = updRegion n (
        fun r => { (r.release [i.id] m.time.count.toNat) with
            flight := r.flight.filter (fun j => !j.dueNow true m.time.count) }) (tapToggle n m) ∧
    m.dueInstances n true = [i] ∧ m.outcomeOf n i = .clean ∧ m0.outcomeOf n i = .clean ∧ m.up ∧ m.regionRuns n) ∧
  (∃ (dt : Nat) (n : Fin 8) (i : Instance) (m0 : Module) (o : Outcome) (s : State) (m : Module),
    m = advance dt s.mod ∧
    m0 = updRegion n (
        fun r => { (r.release [i.id] m.time.count.toNat) with
            flight := r.flight.filter (fun j => !j.dueNow true m.time.count) }) (tapToggle n m) ∧
    m.up ∧ m.regionRuns n ∧ m.dueInstances n true = [i] ∧ m.outcomeOf n i = o ∧ m0.outcomeOf n i = o ∧ o.isFallback) ∧
  (∃ (dt : Nat) (n : Fin 8) (i : Instance) (m0 : Module) (s : State) (m : Module),
    m = advance dt s.mod ∧
    m0 = updRegion n (
        fun r => { (r.release [i.id] m.time.count.toNat) with
            flight := r.flight.filter (fun j => !j.dueNow true m.time.count) }) (tapToggle n m) ∧
    m.up ∧ m.regionRuns n ∧ m.dueInstances n true = [i] ∧ m.outcomeOf n i = .quench ∧ m0.outcomeOf n i = .quench) ∧
  (∃ (dt : Nat) (n : Fin 8) (i : Instance) (m0 : Module) (s : State) (m : Module),
    m = advance dt s.mod ∧
    m0 = updRegion n (
        fun r => { (r.release [] m.time.count.toNat) with
            flight := r.flight.filter (fun j => !j.dueNow false m.time.count) }) (tapToggle n m) ∧
    m.up ∧ m.regionRuns n ∧ m.dueInstances n false = [i] ∧ m.outcomeOf n i = .deferred ∧ m0.outcomeOf n i = .deferred) :=
  ⟨⟨0, 2, _, ⟨tReady, []⟩, advance 0 tReady, rfl, rfl, (by decide +kernel)⟩,
   ⟨0, 2, 3, _, ⟨tLaunch 0x000000F0, []⟩, advance 0 (tLaunch 0x000000F0), rfl, rfl, (by decide +kernel)⟩,
   ⟨0, 2, 3, _, ⟨updRegion 2 (fun x => { x with level := 2 }) (tLaunch 0x000000F8), []⟩, advance 0
      (updRegion 2 (fun x => { x with level := 2 }) (tLaunch 0x000000F8)), rfl, rfl, (by decide +kernel)⟩,
   ⟨0, 0, 0, tEntry, tLanes, 1, 1, _, ⟨updAfe 0 (fun f => { f with queue := [tEntry] }) tReady, []⟩, advance 0
      (updAfe 0 (fun f => { f with queue := [tEntry] }) tReady), rfl, rfl, (by decide +kernel)⟩,
   ⟨0, 0, 5, 3, false, 2, tAhead, tLane, ⟨tAheadFlight, []⟩, advance 0 tAheadFlight, rfl, tLane_for, tLane_complete,
      (by decide +kernel)⟩,
   ⟨0, 0, 3, tDecision, 0, ⟨tFlight tDecision, []⟩, advance 0 (tFlight tDecision), rfl, (by decide +kernel)⟩,
   ⟨0, 0, 3, tAhead, ⟨tFlight tAhead, []⟩, advance 0 (tFlight tAhead), rfl, (by decide +kernel)⟩,
   ⟨0, 0, [[(2, false)]], [(2, 3, 1)], _, tRequest, ⟨tRequested, []⟩, advance 0 tRequested, rfl, rfl,
      (by decide +kernel)⟩,
   ⟨0, 0, [[(2, false)]], [(2, 3, 1)], _, ⟨tFlight tInstance, []⟩, advance 0 (tFlight tInstance), rfl, rfl,
      (by decide +kernel)⟩,
   ⟨0, 0, tClean false, _, ⟨tFlight (tClean false), []⟩, advance 0 (tFlight (tClean false)), rfl, rfl, tClean_due
      false, tClean_outcome false _ (by decide +kernel), tClean_outcome false _ (by decide +kernel),
      (by decide +kernel)⟩,
   ⟨0, 0, { tDue false with blocked := true }, _, .violation, ⟨tFlight { tDue false with blocked := true }, []⟩,
      advance 0 (tFlight { tDue false with blocked := true }), rfl, rfl, (by decide +kernel)⟩,
   ⟨0, 0, { tDue false with quenched := true }, _, ⟨tFlight { tDue false with quenched := true }, []⟩, advance 0
      (tFlight { tDue false with quenched := true }), rfl, rfl, (by decide +kernel)⟩,
   ⟨0, 0, tClean true, _, ⟨tFlight (tClean true), []⟩, advance 0 (tFlight (tClean true)), rfl, rfl, tClean_due true,
      tClean_outcome true _ (by decide +kernel), tClean_outcome true _ (by decide +kernel), (by decide +kernel)⟩,
   ⟨0, 0, { tDue true with blocked := true }, _, .violation, ⟨tFlight { tDue true with blocked := true }, []⟩, advance
      0 (tFlight { tDue true with blocked := true }), rfl, rfl, (by decide +kernel)⟩,
   ⟨0, 0, { tDue true with quenched := true }, _, ⟨tFlight { tDue true with quenched := true }, []⟩, advance 0
      (tFlight { tDue true with quenched := true }), rfl, rfl, (by decide +kernel)⟩,
   ⟨0, 0, tMissed, _, ⟨tFlight tMissed, []⟩, advance 0 (tFlight tMissed), rfl, rfl, (by decide +kernel)⟩⟩

/-- Every clause of FabricEventsComplete is met. -/
theorem witness_fabricEventsComplete :
  (∃ (dt : Nat) (n : Fin 8) (s : State) (m : Module),
    m = advance dt s.mod ∧ m.up ∧ m.dieRuns (regionDie n)) ∧
  (∃ (dt : Nat) (n : Fin 8) (s : State) (m : Module),
    m = advance dt s.mod ∧ m.up ∧ m.dieRuns (regionDie n) ∧ m.rnum n P.fallbackRateLimit < (m.regions[n]).window ∧
    !(m.regions[n]).windowRaised) ∧
  (∃ (dt : Nat) (s : State) (m : Module),
    m = advance dt s.mod ∧ m.up ∧ m.time.count.toNat % 400000000 = 0 ∧ !m.time.carryWindow) ∧
  (∃ (dt : Nat) (s : State) (m : Module),
    m = advance dt s.mod ∧ m.up ∧ m.time.count.toNat % 400000000 = 0 ∧ m.time.carryWindow) ∧
  (∃ (dt : Nat) (n : Fin 8) (s : State) (m : Module),
    m = advance dt s.mod ∧ m.up ∧ m.dieRuns (regionDie n)) ∧
  (∃ (dt : Nat) (n : Fin 8) (m1 : Module) (s : State) (m : Module),
    m = advance dt s.mod ∧
    m1 = updRegion n
      (fun x => { x with checkpointValid := true, rebuilding := false, shadow := carriedPart x.memory }) m ∧
    m.up ∧ m.dieRuns (regionDie n) ∧ (m.regions[n]).rebuilding) ∧
  (∃ (dt : Nat) (d : Fin 2) (failed : Nat) (s : State) (m : Module),
    m = advance dt s.mod ∧ m.up ∧ m.dieRuns (if d = 0 then 2 else 3 : Fin 46) ∧
    ((List.finRange 8).filter (fun n => regionDie n == (if d = 0 then 2 else 3 : Fin 46))).all
      (fun n => (m.regions[n]).held) ∧
    !m.memory.filling.any (fun b => 16 ≤ b && (b - 16) / 64 == d.val) ∧ failed % 65536 = 0) ∧
  (∃ (dt : Nat) (d : Fin 2) (failed : Nat) (ns : List (Fin 8)) (mask : Fin 8 → Nat) (s : State) (m : Module),
    m = advance dt s.mod ∧ ns = (List.finRange 8).filter (fun n => regionDie n == (if d = 0 then 2 else 3 : Fin 46)) ∧
    mask = (fun (n : Fin 8) => failed / 2 ^ (4 * (n.val % 4)) % 16) ∧ m.up ∧
    m.dieRuns (if d = 0 then 2 else 3 : Fin 46) ∧
    ((List.finRange 8).filter (fun n => regionDie n == (if d = 0 then 2 else 3 : Fin 46))).all
      (fun n => (m.regions[n]).held) ∧
    !m.memory.filling.any (fun b => 16 ≤ b && (b - 16) / 64 == d.val) ∧ failed % 65536 ≠ 0) ∧
  (∃ (dt : Nat) (i : Fin 22) (s : State) (m : Module),
    m = advance dt s.mod ∧ m.up ∧ (m.crossings[i]).line.overflow ∧ (m.crossings[i]).line.busy ≤ m.time.elapsed ∧
    !(m.crossings[i]).hpLine.overflow) ∧
  (∃ (dt : Nat) (i : Fin 22) (s : State) (m : Module),
    m = advance dt s.mod ∧ m.up ∧ (m.crossings[i]).hpLine.overflow ∧ (m.crossings[i]).hpLine.busy ≤ m.time.elapsed ∧
    !(m.crossings[i]).line.overflow) ∧
  (∃ (dt : Nat) (d : Fin 46) (i : Fin 22) (ws : List Waiting) (k : Nat) (s : State) (m : Module),
    m = advance dt s.mod ∧
    ws = m.interp.waiting.map (
        fun w => if overdueAccess d.val m.time.elapsed w then
          { w with heldUntil := none, result := some (Status.domainStopped.code, d.val, []) } else w) ∧
    m.up ∧ commandCrossing d.val = some i ∧ (m.crossings[i]).stalled.any (fun t => t + 4000 ≤ m.time.elapsed) ∧
    k = (m.interp.waiting.filter (overdueAccess d.val m.time.elapsed)).length) :=
  ⟨⟨0, 4, ⟨tReady, []⟩, advance 0 tReady, rfl, (by decide +kernel)⟩,
   ⟨0, 0, ⟨updRegion 0 (fun x => { x with window := 1000000000000 }) tReady, []⟩, advance 0
      (updRegion 0 (fun x => { x with window := 1000000000000 }) tReady), rfl, (by decide +kernel)⟩,
   ⟨0, ⟨tReady, []⟩, advance 0 tReady, rfl, (by decide +kernel)⟩,
   ⟨0, ⟨{ tReady with time := { tReady.time with carryWindow := true } }, []⟩, advance 0
      ({ tReady with time := { tReady.time with carryWindow := true } }), rfl, (by decide +kernel)⟩,
   ⟨0, 5, ⟨tReady, []⟩, advance 0 tReady, rfl, (by decide +kernel)⟩,
   ⟨0, 1, _, ⟨updRegion 1 (fun x => { x with rebuilding := true }) tReady, []⟩, advance 0
      (updRegion 1 (fun x => { x with rebuilding := true }) tReady), rfl, rfl, (by decide +kernel)⟩,
   ⟨0, 0, 0, ⟨mapRegions 0 (fun r => { r with held := true }) tReady, []⟩, advance 0
      (mapRegions 0 (fun r => { r with held := true }) tReady), rfl, (by decide +kernel)⟩,
   ⟨0, 0, 0x21, _, _, ⟨mapRegions 0 (fun r => { r with held := true }) tReady, []⟩, advance 0
      (mapRegions 0 (fun r => { r with held := true }) tReady), rfl, rfl, rfl, (by decide +kernel)⟩,
   ⟨0, 1, ⟨updCrossing 1 (fun c => { c with line := { c.line with events := 7, overflow := true } }) tReady, []⟩,
      advance 0 (updCrossing 1 (fun c => { c with line := { c.line with events := 7, overflow := true } }) tReady),
      rfl, (by decide +kernel)⟩,
   ⟨0, 13,
      ⟨updCrossing 13 (fun c => { c with hpLine := { c.hpLine with events := 7, overflow := true } }) tReady, []⟩,
      advance 0
      (updCrossing 13 (fun c => { c with hpLine := { c.hpLine with events := 7, overflow := true } }) tReady), rfl,
      (by decide +kernel)⟩,
   ⟨0, 4, 0, _, 1, ⟨
        updDie 4 (fun d => { d with supply := 2 }) (
            updCrossing 0 (fun c => { c with stalled := some 0 })
              { tReady with interp := { Interp.init with waiting := [tTwin] } }), []⟩, advance 0 (
        updDie 4 (fun d => { d with supply := 2 }) (
            updCrossing 0 (fun c => { c with stalled := some 0 })
              { tReady with interp := { Interp.init with waiting := [tTwin] } })), rfl, rfl, (by decide +kernel)⟩⟩

/-- Every clause of ReferenceAndLockstepEventsComplete is met. -/
theorem witness_referenceAndLockstepEventsComplete :
  (∃ (dt : Nat) (s : State) (m : Module),
    m = advance dt s.mod ∧ m.up ∧ m.num P.tsMode = 1 ∧ !m.time.tsFault ∧ m.time.ref = .ts ∧ !m.time.xtalFault) ∧
  (∃ (dt : Nat) (s : State) (m : Module),
    m = advance dt s.mod ∧ m.up ∧ m.num P.tsMode = 1 ∧ !m.time.tsFault ∧ m.time.ref = .ts ∧ m.time.xtalFault) ∧
  (∃ (dt : Nat) (s : State) (m : Module),
    m = advance dt s.mod ∧ m.up ∧ !m.time.xtalFault ∧ m.time.ref = .crystal) ∧
  (∃ (dt : Nat) (s : State) (m : Module),
    m = advance dt s.mod ∧ m.up ∧ m.time.valid) ∧
  (∃ (dt : Nat) (s : State) (m : Module),
    m = advance dt s.mod ∧ m.up) ∧
  (∃ (dt : Nat) (s : State) (m : Module),
    m = advance dt s.mod ∧ m.up) ∧
  (∃ (dt : Nat) (main : Bool) (fallback : Bool) (parity : Bool) (ran : List Retirement) (p : Bool × Module)
     (m2 : Module) (s : State) (m : Module),
    m = advance dt s.mod ∧ p = retireAll ran (false, m) ∧ m2 = noteTests main fallback parity true p.2 ∧ m.up ∧ p.1 ∧
    p.2.paired ∧ p.2.checkpointDue ∧ !p.2.lockstep.rollback ∧ !m2.registersDiffer ∧ !m2.lockstep.rollback) ∧
  (∃ (dt : Nat) (main : Bool) (fallback : Bool) (parity : Bool) (ran : List Retirement) (p : Bool × Module)
     (m2 : Module) (s : State) (m : Module),
    m = advance dt s.mod ∧ p = retireAll ran (false, m) ∧ m2 = noteTests main fallback parity true p.2 ∧ m.up ∧ p.1 ∧
    p.2.paired ∧ p.2.checkpointDue ∧ p.2.lockstep.rollback ∧ p.2.lockstep.replay.length ≤ p.2.lockstep.replayed ∧
    !m2.registersDiffer ∧ m2.lockstep.rollback) ∧
  (∃ (dt : Nat) (main : Bool) (fallback : Bool) (parity : Bool) (ran : List Retirement) (p : Bool × Module)
     (m2 : Module) (s : State) (m : Module),
    m = advance dt s.mod ∧ p = retireAll ran (false, m) ∧ m2 = noteTests main fallback parity true p.2 ∧ m.up ∧ p.1 ∧
    p.2.paired ∧ p.2.checkpointDue ∧ !p.2.lockstep.rollback ∧ m2.registersDiffer ∧ m2.paired ∧ m2.gating ≠ 2 ∧
    !m2.lockstep.rollback) ∧
  (∃ (dt : Nat) (main : Bool) (fallback : Bool) (parity : Bool) (ran : List Retirement) (p : Bool × Module)
     (m2 : Module) (s : State) (m : Module),
    m = advance dt s.mod ∧ p = retireAll ran (false, m) ∧ m2 = noteTests main fallback parity true p.2 ∧ m.up ∧ p.1 ∧
    p.2.paired ∧ p.2.checkpointDue ∧ p.2.lockstep.rollback ∧ p.2.lockstep.replay.length ≤ p.2.lockstep.replayed ∧
    m2.registersDiffer ∧ m2.paired ∧ m2.gating ≠ 2 ∧ m2.lockstep.rollback) ∧
  (∃ (dt : Nat) (ran : List Retirement) (r : Retired) (d : DelayReg) (ds : List DelayReg) (s : State) (m : Module),
    m = advance dt s.mod ∧ m.up ∧ m.paired ∧ ran = [.core1 r] ∧ m.lockstep.delay = d :: ds ∧
    3 ≤ m.lockstep.delay.length ∧ compareRetired d r m.lockstep = 0 ∧
    !(m.lockstep.rollback && replayDiffers d.retired m.lockstep)) ∧
  (∃ (dt : Nat) (ran : List Retirement) (r : Retired) (d : DelayReg) (ds : List DelayReg) (s : State) (m : Module),
    m = advance dt s.mod ∧ m.up ∧ m.paired ∧ ran = [.core1 r] ∧ m.lockstep.delay = d :: ds ∧
    3 ≤ m.lockstep.delay.length ∧ (m.gating ≠ 2 || compareRetired d r m.lockstep = 2) ∧
    compareRetired d r m.lockstep ≠ 0 ∧ !m.lockstep.rollback) ∧
  (∃ (dt : Nat) (ran : List Retirement) (r : Retired) (d : DelayReg) (ds : List DelayReg) (s : State) (m : Module),
    m = advance dt s.mod ∧ m.up ∧ m.paired ∧ ran = [.core1 r] ∧ m.lockstep.delay = d :: ds ∧
    3 ≤ m.lockstep.delay.length ∧ (m.gating ≠ 2 || compareRetired d r m.lockstep = 2) ∧
    compareRetired d r m.lockstep ≠ 0 ∧ m.lockstep.rollback) ∧
  (∃ (dt : Nat) (ran : List Retirement) (r : Retired) (d : DelayReg) (ds : List DelayReg) (s : State) (m : Module),
    m = advance dt s.mod ∧ m.up ∧ m.paired ∧ ran = [.core1 r] ∧ m.lockstep.delay = d :: ds ∧
    3 ≤ m.lockstep.delay.length ∧ m.lockstep.rollback ∧ compareRetired d r m.lockstep = 0 ∧
    replayDiffers d.retired m.lockstep) ∧
  (∃ (dt : Nat) (core : Bool) (s : State) (m : Module),
    m = advance dt s.mod ∧ m.up ∧ m.lockstep.bist = 1 ∧ !core) ∧
  (∃ (dt : Nat) (core : Bool) (s : State) (m : Module),
    m = advance dt s.mod ∧ m.up ∧ m.lockstep.bist = 1 ∧ core) ∧
  (∃ (dt : Nat) (core : Bool) (s : State) (m : Module),
    m = advance dt s.mod ∧ m.up ∧ m.lockstep.bist = 2 ∧ !core) ∧
  (∃ (dt : Nat) (core : Bool) (s : State) (m : Module),
    m = advance dt s.mod ∧ m.up ∧ m.lockstep.bist = 2 ∧ core) :=
  ⟨⟨0, ⟨tTs, []⟩, advance 0 tTs, rfl, (by decide +kernel)⟩,
   ⟨0, ⟨{ tTs with time := { tTs.time with xtalFault := true } }, []⟩, advance 0
      ({ tTs with time := { tTs.time with xtalFault := true } }), rfl, (by decide +kernel)⟩,
   ⟨0, ⟨tReady, []⟩, advance 0 tReady, rfl, (by decide +kernel)⟩,
   ⟨0, ⟨tReady, []⟩, advance 0 tReady, rfl, (by decide +kernel)⟩,
   ⟨0, ⟨tReady, []⟩, advance 0 tReady, rfl, (by decide +kernel)⟩,
   ⟨0, ⟨tReady, []⟩, advance 0 tReady, rfl, (by decide +kernel)⟩,
   ⟨0, false, false, false, tRan, _, _, ⟨tReady, []⟩, advance 0 tReady, rfl, rfl, rfl, (by decide +kernel)⟩,
   ⟨0, false, false, false, tRan, _, _,
      ⟨{ tReady with lockstep := { Lockstep.init false with rollback := true } }, []⟩, advance 0
      ({ tReady with lockstep := { Lockstep.init false with rollback := true } }), rfl, rfl, rfl, (by decide +kernel)⟩,
   ⟨0, false, false, false, tRan, _, _, ⟨tDiffering, []⟩, advance 0 tDiffering, rfl, rfl, rfl, (by decide +kernel)⟩,
   ⟨0, false, false, false, tRan, _, _,
      ⟨{ tDiffering with lockstep := { tDiffering.lockstep with rollback := true } }, []⟩, advance 0
      ({ tDiffering with lockstep := { tDiffering.lockstep with rollback := true } }), rfl, rfl, rfl,
      (by decide +kernel)⟩,
   ⟨0, [.core1 tRetired], tRetired, tDelayReg, [tDelayReg, tDelayReg], ⟨tDelayed, []⟩, advance 0 tDelayed, rfl,
      (by decide +kernel)⟩,
   ⟨0, [.core1 { tRetired with next := 9 }], { tRetired with next := 9 }, tDelayReg, [tDelayReg, tDelayReg],
      ⟨tDelayed, []⟩, advance 0 tDelayed, rfl, (by decide +kernel)⟩,
   ⟨0, [.core1 { tRetired with next := 9 }], { tRetired with next := 9 }, tDelayReg, [tDelayReg, tDelayReg],
      ⟨{ tDelayed with lockstep := { tDelayed.lockstep with rollback := true } }, []⟩, advance 0
      ({ tDelayed with lockstep := { tDelayed.lockstep with rollback := true } }), rfl, (by decide +kernel)⟩,
   ⟨0, [.core1 { tRetired with bus := some tBus }], { tRetired with bus := some tBus }, tBusReg,
      [tDelayReg, tDelayReg], ⟨tReplaying, []⟩, advance 0 tReplaying, rfl, (by decide +kernel)⟩,
   ⟨0, false, ⟨{ tReady with lockstep := { Lockstep.init false with bist := 1, bistFailed := false } }, []⟩, advance 0
      ({ tReady with lockstep := { Lockstep.init false with bist := 1, bistFailed := false } }), rfl,
      (by decide +kernel)⟩,
   ⟨0, true, ⟨{ tReady with lockstep := { Lockstep.init false with bist := 1, bistFailed := false } }, []⟩, advance 0
      ({ tReady with lockstep := { Lockstep.init false with bist := 1, bistFailed := false } }), rfl,
      (by decide +kernel)⟩,
   ⟨0, false, ⟨{ tReady with lockstep := { Lockstep.init false with bist := 2, bistFailed := false } }, []⟩, advance 0
      ({ tReady with lockstep := { Lockstep.init false with bist := 2, bistFailed := false } }), rfl,
      (by decide +kernel)⟩,
   ⟨0, true, ⟨{ tReady with lockstep := { Lockstep.init false with bist := 2, bistFailed := false } }, []⟩, advance 0
      ({ tReady with lockstep := { Lockstep.init false with bist := 2, bistFailed := false } }), rfl,
      (by decide +kernel)⟩⟩

/-- Every clause of TractionEventsComplete is met. -/
theorem witness_tractionEventsComplete :
  (∃ (dt : Nat) (c : Fin 2) (o : Observation) (s : State) (m : Module),
    m = advance dt s.mod ∧ m.up ∧ m.dieRuns (regionDie (channelRegion c)) ∧ (m.traction[c]).loop = .starting ∧
    observe c m = some o) ∧
  (∃ (dt : Nat) (c : Fin 2) (s : State) (m : Module),
    m = advance dt s.mod ∧ m.up ∧ m.dieRuns (regionDie (channelRegion c)) ∧ observe c m = none) ∧
  (∃ (dt : Nat) (c : Fin 2) (s : State) (m : Module),
    m = advance dt s.mod ∧ m.up ∧ m.dieRuns (regionDie (channelRegion c)) ∧ (m.traction[c]).loop ≠ .starting) ∧
  (∃ (dt : Nat) (c : Fin 2) (k : TrCheck) (s : State) (m : Module),
    m = advance dt s.mod ∧ m.up ∧ m.dieRuns (regionDie (channelRegion c)) ∧
    (m.regionImage m.epochs.active.supFin).enables (tractionFunc c) ∧ m.driven ∧
    plausDwell c k m < (m.traction[c]).outsideFor[k.idx]) ∧
  (∃ (dt : Nat) (s : State) (m : Module),
    m = advance dt s.mod ∧ m.up) ∧
  (∃ (dt : Nat) (i : Fin 36) (s : State) (m : Module),
    m = advance dt s.mod ∧ m.up ∧ i.val < 6) ∧
  (∃ (dt : Nat) (i : Fin 36) (s : State) (m : Module),
    m = advance dt s.mod ∧ m.up ∧ 6 ≤ i.val ∧ i.val < 12) ∧
  (∃ (dt : Nat) (c : Fin 2) (f : Func) (p : Pattern) (s : State) (m : Module),
    m = advance dt s.mod ∧ m.up ∧ f = tractionFunc c ∧ m.patternOf f = p ∧ p ≠ .none ∧ !m.latchedShort f ∧
    !(m.traction[c]).offByRow1 ∧ m.enHigh ∧ m.choosePattern c = p) ∧
  (∃ (dt : Nat) (c : Fin 2) (m1 : Module) (s : State) (m : Module),
    m = advance dt s.mod ∧
    m1 = putPattern (tractionFunc c) .off (m.faults.patternBy[(tractionFunc c).idx]).1
      (m.faults.patternBy[(tractionFunc c).idx]).2 (updTraction c (fun t => { t with offByRow1 := true }) m) ∧
    m.up ∧ (m.patternOf (tractionFunc c) = .ascLow || m.patternOf (tractionFunc c) = .ascHigh) ∧
    m.latchedShort (tractionFunc c)) ∧
  (∃ (dt : Nat) (c : Fin 2) (s : State) (m : Module),
    m = advance dt s.mod ∧ m.up ∧ m.dieRuns (regionDie (channelRegion c))) :=
  ⟨⟨0, 0, tObs, ⟨tStarting, []⟩, advance 0 tStarting, rfl, (by decide +kernel)⟩,
   ⟨0, 0, ⟨updTraction 0 (fun x => { x with loop := .starting }) tRun, []⟩, advance 0
      (updTraction 0 (fun x => { x with loop := .starting }) tRun), rfl, (by decide +kernel)⟩,
   ⟨0, 0, ⟨tRun, []⟩, advance 0 tRun, rfl, (by decide +kernel)⟩,
   ⟨0, 0, .sum, ⟨tSum, []⟩, advance 0 tSum, rfl, (by decide +kernel)⟩,
   ⟨0, ⟨tReady, []⟩, advance 0 tReady, rfl, (by decide +kernel)⟩,
   ⟨0, 5, ⟨tReady, []⟩, advance 0 tReady, rfl, (by decide +kernel)⟩,
   ⟨0, 6, ⟨tReady, []⟩, advance 0 tReady, rfl, (by decide +kernel)⟩,
   ⟨0, 0, .ta, tPat0, ⟨tPatterned, []⟩, advance 0 tPatterned, rfl, (by decide +kernel)⟩,
   ⟨0, 0, _, ⟨tShort, []⟩, advance 0 tShort, rfl, rfl, (by decide +kernel)⟩,
   ⟨0, 1, ⟨tReady, []⟩, advance 0 tReady, rfl, (by decide +kernel)⟩⟩

/-- Every clause of ChopperEventsComplete is met. -/
theorem witness_chopperEventsComplete :
  (∃ (dt : Nat) (s : State) (m : Module),
    m = advance dt s.mod ∧ m.up ∧ m.dieRuns 7 ∧ m.tch ≠ 0 ∧ m.time.count.toNat % m.tch = 0 ∧
    (m.regionImage 2).holds 2 0x061 ∧ m.time.valid) ∧
  (∃ (dt : Nat) (t : Nat) (s : State) (m : Module),
    m = advance dt s.mod ∧ m.up ∧ m.dieRuns 7 ∧ m.shortSeen ∧ m.chopper.shortSince = some t ∧
    t + F32.usTicks (m.rpar 2 P.chShortDwell) ≤ m.time.elapsed ∧ !m.hasFault F.chSwitchShort) ∧
  (∃ (dt : Nat) (s : State) (m : Module),
    m = advance dt s.mod ∧ m.up ∧ m.dieRuns 7 ∧ m.backstop) ∧
  (∃ (dt : Nat) (s : State) (m : Module),
    m = advance dt s.mod ∧ m.up ∧ m.dieRuns 7 ∧ !m.backstop) ∧
  (∃ (dt : Nat) (s : State) (m : Module),
    m = advance dt s.mod ∧ m.up ∧ F32.le (m.rpar 2 P.dclOv1) (m.v2 1)) ∧
  (∃ (dt : Nat) (s : State) (m : Module),
    m = advance dt s.mod ∧ m.up ∧ (F32.le (m.rpar 2 P.dclOv2) (m.v2 1) || m.ov2Tripped)) :=
  ⟨⟨0, ⟨tRun, []⟩, advance 0 tRun, rfl, (by decide +kernel)⟩,
   ⟨0, 0, ⟨tShorted, []⟩, advance 0 tShorted, rfl, (by decide +kernel)⟩,
   ⟨0, ⟨tBackstop, []⟩, advance 0 tBackstop, rfl, (by decide +kernel)⟩,
   ⟨0, ⟨tRun, []⟩, advance 0 tRun, rfl, (by decide +kernel)⟩,
   ⟨0, ⟨tOver, []⟩, advance 0 tOver, rfl, (by decide +kernel)⟩,
   ⟨0, ⟨tOver, []⟩, advance 0 tOver, rfl, (by decide +kernel)⟩⟩

/-- Every clause of FeedbackEventsComplete is met. -/
theorem witness_feedbackEventsComplete :
  (∃ (dt : Nat) (p : Fin 6) (held : Nat) (s : State) (m : Module),
    m = advance dt s.mod ∧ m.up ∧ m.dieRuns 7 ∧ !m.capturedNow p ∧ m.fnum p P.fbFilter ≤ held ∧ m.usesAbz p) ∧
  (∃ (dt : Nat) (p : Fin 6) (held : Nat) (s : State) (m : Module),
    m = advance dt s.mod ∧ m.up ∧ m.dieRuns 7 ∧ !m.capturedNow p ∧ m.fnum p P.fbFilter ≤ held ∧ m.usesAbz p) ∧
  (∃ (dt : Nat) (p : Fin 6) (held : Nat) (s : State) (m : Module),
    m = advance dt s.mod ∧ m.up ∧ m.dieRuns 7 ∧ !m.capturedNow p ∧ m.fnum p P.fbFilter ≤ held ∧ m.usesAbz p) ∧
  (∃ (dt : Nat) (p : Fin 6) (held : Nat) (m1 : Module) (s : State) (m : Module),
    m = advance dt s.mod ∧
    m1 = updFeedback p
      (fun x => { x with edgesSinceCapture := x.capEdges, overRange := x.capOver, ssiFresh := x.capFresh }) m ∧
    m.up ∧ m.dieRuns 7 ∧ m.fnum p P.fbFilter ≤ held ∧ m.usesAbz p ∧ m.capturedNow p) ∧
  (∃ (dt : Nat) (p : Fin 6) (held : Nat) (s : State) (m : Module),
    m = advance dt s.mod ∧ m.up ∧ m.dieRuns 7 ∧ !m.capturedNow p ∧ held < m.fnum p P.fbFilter) ∧
  (∃ (dt : Nat) (p : Fin 6) (held : Nat) (s : State) (m : Module),
    m = advance dt s.mod ∧ m.up ∧ m.dieRuns 7 ∧ !m.capturedNow p ∧ m.fnum p P.fbFilter ≤ held ∧ !m.usesHall p) ∧
  (∃ (dt : Nat) (p : Fin 6) (held : Nat) (s : State) (m : Module),
    m = advance dt s.mod ∧ m.up ∧ m.dieRuns 7 ∧ !m.capturedNow p ∧ m.fnum p P.fbFilter ≤ held ∧ m.usesHall p) ∧
  (∃ (dt : Nat) (p : Fin 6) (held : Nat) (s : State) (m : Module),
    m = advance dt s.mod ∧ m.up ∧ m.dieRuns 7 ∧ !m.capturedNow p ∧ m.fnum p P.fbFilter ≤ held ∧ m.usesAbz p) ∧
  (∃ (dt : Nat) (p : Fin 6) (held : Nat) (s : State) (m : Module),
    m = advance dt s.mod ∧ m.up ∧ m.dieRuns 7 ∧ !m.capturedNow p ∧ held < m.fnum p P.fbFilter) ∧
  (∃ (dt : Nat) (p : Fin 6) (s : State) (m : Module),
    m = advance dt s.mod ∧ m.up ∧ m.dieRuns 7 ∧ !m.capturedNow p ∧ m.usesHall p ∧ m.fsource p = 5 ∧
    lasted m.time.elapsed (m.feedback[p]).invalidSince (F32.usTicks (m.fpar p P.fbHallInvalidDwell))) ∧
  (∃ (dt : Nat) (p : Fin 6) (s : State) (m : Module),
    m = advance dt s.mod ∧ m.up ∧ m.dieRuns 7 ∧ !m.capturedNow p ∧ m.usesSsi p ∧ m.fnum p P.fbSsiInterval ≠ 0 ∧
    m.time.count.toNat % m.fnum p P.fbSsiInterval = 0) ∧
  (∃ (dt : Nat) (p : Fin 6) (e : Edge) (es : List Edge) (s : State) (m : Module),
    m = advance dt s.mod ∧ m.up ∧ m.dieRuns 7 ∧ (m.feedback[p]).edges = e :: es ∧
    e.at_ + F32.usTicks (m.fpar p P.fbStandstillTimeout) ≤ m.time.count.toNat) ∧
  (∃ (dt : Nat) (p : Fin 6) (l : Fin 5) (s : State) (m : Module),
    m = advance dt s.mod ∧ m.up ∧ m.dieRuns 7 ∧ !m.capturedNow p ∧ m.lineUsed p l.val ∧ l.val ≤ 1) ∧
  (∃ (dt : Nat) (s : State) (m : Module),
    m = advance dt s.mod ∧ m.up ∧ !m.dieRuns 7) ∧
  (∃ (dt : Nat) (p : Fin 6) (held : Nat) (s : State) (m : Module),
    m = advance dt s.mod ∧ m.up ∧ !m.dieRuns 7 ∧ m.fnum p P.fbFilter ≤ held) ∧
  (∃ (dt : Nat) (p : Fin 6) (l : Fin 5) (s : State) (m : Module),
    m = advance dt s.mod ∧ m.up ∧ m.dieRuns 7 ∧ !m.capturedNow p ∧ m.lineUsed p l.val ∧ l.val = 2) ∧
  (∃ (dt : Nat) (p : Fin 6) (l : Fin 5) (s : State) (m : Module),
    m = advance dt s.mod ∧ m.up ∧ (m.feedback[p]).broken = 2 ^ l.val) ∧
  (∃ (dt : Nat) (p : Fin 2) (q : Fin 6) (s : State) (m : Module),
    m = advance dt s.mod ∧ m.up ∧ m.dieRuns 7 ∧ q = epPort p ∧ m.epRuns q ∧ (m.feedback[q]).epStart = 0 ∧
    16 < (m.epTarget q - (m.feedback[q]).epCount).natAbs ∧ !isActive m.faults.active F.fbEpOverrun p.val) :=
  ⟨⟨0, 0, 40, ⟨tFb 1, []⟩, advance 0 (tFb 1), rfl, (by decide +kernel)⟩,
   ⟨0, 0, 40, ⟨tFb 1, []⟩, advance 0 (tFb 1), rfl, (by decide +kernel)⟩,
   ⟨0, 0, 40, ⟨tFb 1, []⟩, advance 0 (tFb 1), rfl, (by decide +kernel)⟩,
   ⟨0, 0, 40, _, ⟨tFbCaptured, []⟩, advance 0 tFbCaptured, rfl, rfl, (by decide +kernel)⟩,
   ⟨0, 0, 0, ⟨tFb 1, []⟩, advance 0 (tFb 1), rfl, (by decide +kernel)⟩,
   ⟨0, 0, 40, ⟨tFb 1, []⟩, advance 0 (tFb 1), rfl, (by decide +kernel)⟩,
   ⟨0, 0, 40, ⟨tFb 5, []⟩, advance 0 (tFb 5), rfl, (by decide +kernel)⟩,
   ⟨0, 0, 40, ⟨tFb 1, []⟩, advance 0 (tFb 1), rfl, (by decide +kernel)⟩,
   ⟨0, 0, 0, ⟨tFb 1, []⟩, advance 0 (tFb 1), rfl, (by decide +kernel)⟩,
   ⟨0, 0, ⟨updFeedback 0 (fun f => { f with invalidSince := some 0 }) (tFb 5), []⟩, advance 0
      (updFeedback 0 (fun f => { f with invalidSince := some 0 }) (tFb 5)), rfl, (by decide +kernel)⟩,
   ⟨0, 0, ⟨tFb 3, []⟩, advance 0 (tFb 3), rfl, (by decide +kernel)⟩,
   ⟨0, 0, tEdge, [], ⟨updFeedback 0 (fun f => { f with edges := [tEdge] }) (tFb 1), []⟩, advance 0
      (updFeedback 0 (fun f => { f with edges := [tEdge] }) (tFb 1)), rfl, (by decide +kernel)⟩,
   ⟨0, 0, 0, ⟨tFb 1, []⟩, advance 0 (tFb 1), rfl, (by decide +kernel)⟩,
   ⟨0, ⟨{ tFb 1 with dies := Vector.ofFn (fun d => Die.init (if d.val = 7 then 0 else 1)) }, []⟩, advance 0
      ({ tFb 1 with dies := Vector.ofFn (fun d => Die.init (if d.val = 7 then 0 else 1)) }), rfl, (by decide +kernel)⟩,
   ⟨0, 0, 40, ⟨{ tFb 5 with dies := Vector.ofFn (fun d => Die.init (if d.val = 7 then 0 else 1)) }, []⟩, advance 0
      ({ tFb 5 with dies := Vector.ofFn (fun d => Die.init (if d.val = 7 then 0 else 1)) }), rfl, (by decide +kernel)⟩,
   ⟨0, 0, 2, ⟨tFb 1, []⟩, advance 0 (tFb 1), rfl, (by decide +kernel)⟩,
   ⟨0, 0, 1, ⟨updFeedback 0 (fun f => { f with broken := 2 }) (tFb 1), []⟩, advance 0
      (updFeedback 0 (fun f => { f with broken := 2 }) (tFb 1)), rfl, (by decide +kernel)⟩,
   ⟨0, 0, 0, ⟨tEp, []⟩, advance 0 tEp, rfl, (by decide +kernel)⟩⟩

/-- Every clause of ConverterEventsComplete is met. -/
theorem witness_converterEventsComplete :
  (∃ (dt : Nat) (j : Fin 4) (s : State) (m : Module),
    m = advance dt s.mod ∧ m.up ∧ m.dieRuns 7 ∧ m.tsw ≠ 0 ∧ m.inCycle j = 0 ∧ m.legDriven ∧ m.time.valid ∧
    m.regulationOf j = 2) ∧
  (∃ (dt : Nat) (j : Fin 4) (s : State) (m : Module),
    m = advance dt s.mod ∧ m.up ∧ m.dieRuns 7 ∧ m.tsw ≠ 0 ∧ m.inCycle j = 0 ∧ m.legDriven ∧ m.time.valid ∧
    m.regulationOf j ≠ 2) ∧
  (∃ (dt : Nat) (j : Fin 4) (levels : List Word) (m1 : Module) (s : State) (m : Module),
    m = advance dt s.mod ∧ m1 = regulationDecision j 2 m ∧ m.up ∧ m.dieRuns 7 ∧ (m.converter.legs[j]).lowOn ∧
    m.diDecides j levels) ∧
  (∃ (dt : Nat) (j : Fin 4) (s : State) (m : Module),
    m = advance dt s.mod ∧ m.up ∧ m.dieRuns 7 ∧ (m.converter.legs[j]).lowOn ∧
    (F32.toInt (F32.mul (m.rpar 2 P.cvDutyMax) (F32.ofNat m.tsw))).toNat ≤ m.inCycle j) ∧
  (∃ (dt : Nat) (s : State) (m : Module),
    m = advance dt s.mod ∧ m.up ∧ (m.converter.precharge = 2 || (m.converter.precharge ≠ 0 && !m.enabled .cv)) ∧
    m.withinTol ∧ lasted m.time.elapsed m.converter.withinSince 400000) ∧
  (∃ (dt : Nat) (s : State) (m : Module),
    m = advance dt s.mod ∧ m.up ∧ m.supply.transition.any (fun t => t.source == .ready && t.dest == .armed) ∧
    !m.converter.precharged ∧ m.converter.prechargeAt + m.us P.cvPrechargeTimeout ≤ m.time.elapsed) ∧
  (∃ (dt : Nat) (s : State) (m : Module),
    m = advance dt s.mod ∧ m.up ∧ m.converter.outlet ≠ 0 ∧ !m.supply.hvil) ∧
  (∃ (dt : Nat) (s : State) (m : Module),
    m = advance dt s.mod ∧ m.up ∧ m.converter.outlet ≠ 0 ∧
    F32.lt (m.rpar 2 P.doITrip) (F32.abs m.converter.outletCurrent)) ∧
  (∃ (dt : Nat) (s : State) (m : Module),
    m = advance dt s.mod ∧ m.up) ∧
  (∃ (dt : Nat) (s : State) (m : Module),
    m = advance dt s.mod ∧ m.up) ∧
  (∃ (dt : Nat) (s : State) (m : Module),
    m = advance dt s.mod ∧ m.up ∧ m.charger.heard ∧ !m.charger.pfClosed ∧
    lasted m.time.elapsed m.charger.failSince 8000000 ∧ m.charger.state = 4 ∧ m.charger.s2 ∧ !m.charger.acOk ∧
    m.charger.pilot < 4 ∧ m.charger.proximity ≠ 5) ∧
  (∃ (dt : Nat) (s : State) (m : Module),
    m = advance dt s.mod ∧ m.up ∧ !m.charger.evalDue) ∧
  (∃ (dt : Nat) (m1 : Module) (s : State) (m : Module),
    m = advance dt s.mod ∧ m1 = timerTick (updCharger (fun c => { c with evalDue := false }) m) ∧ m.up ∧
    m.charger.evalDue ∧ m1.charger.state ≠ 7 ∧ m1.charger.state ≠ 8) ∧
  (∃ (dt : Nat) (m1 : Module) (s : State) (m : Module),
    m = advance dt s.mod ∧ m1 = timerTick (updCharger (fun c => { c with evalDue := false }) m) ∧ m.up ∧
    m.charger.evalDue ∧ (m1.charger.state = 7 || m1.charger.state = 8)) ∧
  (∃ (dt : Nat) (k : CvCheck) (s : State) (m : Module),
    m = advance dt s.mod ∧ m.up ∧ (m.regionImage m.epochs.active.supFin).enables (if k.conv then .cv else .cg) ∧
    m.driven ∧ F32.usTicks (m.rpar m.epochs.active.supFin k.dwell) < k.outside m) :=
  ⟨⟨0, 0, ⟨regulationDecision 0 2 tConv, []⟩, advance 0 (regulationDecision 0 2 tConv), rfl, (by decide +kernel)⟩,
   ⟨0, 0, ⟨tConv, []⟩, advance 0 tConv, rfl, (by decide +kernel)⟩,
   ⟨0, 0, tLevels, _, ⟨tLegOn, []⟩, advance 0 tLegOn, rfl, rfl, (by decide +kernel)⟩,
   ⟨0, 0, ⟨tLegLong, []⟩, advance 0 tLegLong, rfl, (by decide +kernel)⟩,
   ⟨0, ⟨tPrecharge, []⟩, advance 0 tPrecharge, rfl, (by decide +kernel)⟩,
   ⟨0, ⟨tPrecharge, []⟩, advance 0 tPrecharge, rfl, (by decide +kernel)⟩,
   ⟨0, ⟨{ tOutlet with supply := { tOutlet.supply with hvil := false } }, []⟩, advance 0
      ({ tOutlet with supply := { tOutlet.supply with hvil := false } }), rfl, (by decide +kernel)⟩,
   ⟨0, ⟨tOutlet, []⟩, advance 0 tOutlet, rfl, (by decide +kernel)⟩,
   ⟨0, ⟨tReady, []⟩, advance 0 tReady, rfl, (by decide +kernel)⟩,
   ⟨0, ⟨tReady, []⟩, advance 0 tReady, rfl, (by decide +kernel)⟩,
   ⟨0, ⟨tSource, []⟩, advance 0 tSource, rfl, (by decide +kernel)⟩,
   ⟨0, ⟨tReady, []⟩, advance 0 tReady, rfl, (by decide +kernel)⟩,
   ⟨0, _, ⟨{ tReady with charger := { tReady.charger with evalDue := true } }, []⟩, advance 0
      ({ tReady with charger := { tReady.charger with evalDue := true } }), rfl, rfl, (by decide +kernel)⟩,
   ⟨0, _, ⟨{ tReady with charger := { tReady.charger with evalDue := true, state := 8 } }, []⟩, advance 0
      ({ tReady with charger := { tReady.charger with evalDue := true, state := 8 } }), rfl, rfl, (by decide +kernel)⟩,
   ⟨0, .current, ⟨tImplausible, []⟩, advance 0 tImplausible, rfl, (by decide +kernel)⟩⟩

/-- Every clause of IslandEventsComplete is met. -/
theorem witness_islandEventsComplete :
  (∃ (dt : Nat) (i : Fin 36) (s : State) (m : Module),
    m = advance dt s.mod ∧ m.up ∧ m.islandSupplied i ∧ m.dieRuns 7 ∧ !(m.islands[i]).ignoresLink) ∧
  (∃ (dt : Nat) (i : Fin 36) (s : State) (m : Module),
    m = advance dt s.mod ∧ m.up ∧ m.islandSupplied i ∧ m.dieRuns 7 ∧ !(m.islands[i]).ignoresLink ∧
    (m.islands[i]).window < 100) ∧
  (∃ (dt : Nat) (i : Fin 36) (s : State) (m : Module),
    m = advance dt s.mod ∧ m.up ∧ m.islandSupplied i ∧ m.dieRuns 7 ∧ !(m.islands[i]).ignoresLink ∧
    100 ≤ (m.islands[i]).window ∧ !(m.islands[i]).windowRaised ∧ !m.unused i) ∧
  (∃ (dt : Nat) (i : Fin 36) (q : Module) (s : State) (m : Module),
    m = advance dt s.mod ∧
    q = followCond i (updIsland i (fun x => { x with goodStatusAt := m.time.elapsed, statusDown := false }) m) ∧
    m.up ∧ m.islandSupplied i ∧ m.dieRuns 7 ∧ (m.islands[i]).held ∧ (q.islands[i]).cause ≠ 0 ∧
    !(q.islands[i]).reported ∧ (q.islands[i]).others = []) ∧
  (∃ (dt : Nat) (i : Fin 36) (s : State) (m : Module),
    m = advance dt s.mod ∧ m.up ∧ m.islandSupplied i ∧ m.dieRuns 7 ∧ !(m.islands[i]).held) ∧
  (∃ (dt : Nat) (i : Fin 36) (s : State) (m : Module),
    m = advance dt s.mod ∧ m.up ∧ m.islandSupplied i ∧ m.dieRuns 7 ∧ (m.islands[i]).window < 100) ∧
  (∃ (dt : Nat) (i : Fin 36) (s : State) (m : Module),
    m = advance dt s.mod ∧ m.up ∧ m.islandSupplied i ∧ !m.supply.railsRemoved ∧ !m.unused i ∧ (m.islands[i]).held ∧
    (m.islands[i]).cause ≠ 5 ∧ !(m.islands[i]).also.testBit 5 ∧ !(m.islands[i]).waits ∧ !(m.islands[i]).ignoresLink ∧
    (m.islands[i]).goodFrameAt + 1200 ≤ m.time.elapsed) ∧
  (∃ (dt : Nat) (i : Fin 36) (s : State) (m : Module),
    m = advance dt s.mod ∧ m.up ∧ m.islandSupplied i ∧ !m.supply.railsRemoved ∧ !m.unused i ∧ !(m.islands[i]).held ∧
    !(m.islands[i]).waits ∧ !(m.islands[i]).ignoresLink ∧ (m.islands[i]).goodFrameAt + 1200 ≤ m.time.elapsed) ∧
  (∃ (dt : Nat) (i : Fin 36) (s : State) (m : Module),
    m = advance dt s.mod ∧ m.up ∧ !m.supply.railsRemoved ∧ m.dies[(⟨10 + i.val, by omega⟩ : Fin 46)].supply ≠ 0 ∧
    m.dieRuns 7 ∧ !m.unused i ∧ !(m.islands[i]).held ∧ (m.islands[i]).goodStatusAt + 1200 ≤ m.time.elapsed) ∧
  (∃ (dt : Nat) (i : Fin 36) (pos : Bool) (q : Module) (s : State) (m : Module),
    m = advance dt s.mod ∧
    q = updIsland i (fun x => { x with railPosOk := false, uvloPos := true, output := false }) m ∧ m.up ∧
    m.islandSupplied i ∧ pos ∧ (m.islands[i]).railsSeen ∧ !m.unused i ∧ !(m.islands[i]).held) ∧
  (∃ (dt : Nat) (i : Fin 36) (pos : Bool) (q : Module) (s : State) (m : Module),
    m = advance dt s.mod ∧
    q = updIsland i (fun x => { x with railNegOk := false, uvloNeg := true, output := false }) m ∧ m.up ∧
    m.islandSupplied i ∧ !pos ∧ m.negMonitored i ∧ (m.islands[i]).railsSeen ∧ !m.unused i ∧ !(m.islands[i]).held) ∧
  (∃ (dt : Nat) (i : Fin 36) (pos : Bool) (s : State) (m : Module),
    m = advance dt s.mod ∧ m.up ∧ m.islandSupplied i ∧ pos ∧ !(m.islands[i]).railsSeen) ∧
  (∃ (dt : Nat) (i : Fin 36) (s : State) (m : Module),
    m = advance dt s.mod ∧ m.up ∧ m.islandSupplied i) ∧
  (∃ (dt : Nat) (i : Fin 36) (s : State) (m : Module),
    m = advance dt s.mod ∧ m.up ∧ m.islandSupplied i ∧ m.supply.rampAt + 8000000 ≤ m.time.elapsed ∧
    !(m.islands[i]).railsSeen ∧ !(m.islands[i]).railPosOk ∧ !m.unused i ∧ !(m.islands[i]).held) ∧
  (∃ (dt : Nat) (i : Fin 36) (s : State) (m : Module),
    m = advance dt s.mod ∧ m.up ∧ m.islandSupplied i ∧ m.supply.rampAt + 8000000 ≤ m.time.elapsed ∧
    !(m.islands[i]).railsSeen ∧ (m.islands[i]).railPosOk ∧ !(m.islands[i]).railNegOk ∧ m.negMonitored i ∧
    !m.unused i ∧ !(m.islands[i]).held) ∧
  (∃ (dt : Nat) (i : Fin 36) (s : State) (m : Module),
    m = advance dt s.mod ∧ m.up ∧ m.islandSupplied i ∧ !m.unused i ∧ !(m.islands[i]).held ∧ (m.islands[i]).output ∧
    (m.islands[i]).onAt + (m.gpar i P.gdDesatBlank).toNat + 40 ≤ m.time.elapsed) ∧
  (∃ (dt : Nat) (i : Fin 36) (s : State) (m : Module),
    m = advance dt s.mod ∧ m.up ∧ m.islandSupplied i ∧ !m.unused i ∧ !(m.islands[i]).held ∧ (m.islands[i]).output ∧
    (m.islands[i]).onAt + 8 ≤ m.time.elapsed) ∧
  (∃ (dt : Nat) (i : Fin 36) (s : State) (m : Module),
    m = advance dt s.mod ∧ m.up ∧ m.islandSupplied i ∧ (m.islands[i]).state = .softOff ∧
    (m.islands[i]).stageAt + stageTicks m i (m.islands[i]).stage ≤ m.time.elapsed ∧ (m.islands[i]).stage < 3) ∧
  (∃ (dt : Nat) (i : Fin 36) (s : State) (m : Module),
    m = advance dt s.mod ∧ m.up ∧ m.islandSupplied i ∧ (m.islands[i]).state = .softOff ∧
    (m.islands[i]).stageAt + stageTicks m i (m.islands[i]).stage ≤ m.time.elapsed ∧ 3 ≤ (m.islands[i]).stage) :=
  ⟨⟨0, 0, ⟨
        updIsland 0 (fun x => { x with cause := 5, state := .latched, condition := true, linkDown := true })
          tIsland, []⟩, advance 0
      (updIsland 0 (fun x => { x with cause := 5, state := .latched, condition := true, linkDown := true }) tIsland),
      rfl, (by decide +kernel)⟩,
   ⟨0, 0, ⟨tIsland, []⟩, advance 0 tIsland, rfl, (by decide +kernel)⟩,
   ⟨0, 0, ⟨updIsland 0 (fun x => { x with window := 100 }) tIsland, []⟩, advance 0
      (updIsland 0 (fun x => { x with window := 100 }) tIsland), rfl, (by decide +kernel)⟩,
   ⟨0, 0, _, ⟨tLatched, []⟩, advance 0 tLatched, rfl, rfl, (by decide +kernel)⟩,
   ⟨0, 0, ⟨tIsland, []⟩, advance 0 tIsland, rfl, (by decide +kernel)⟩,
   ⟨0, 0, ⟨tIsland, []⟩, advance 0 tIsland, rfl, (by decide +kernel)⟩,
   ⟨0, 0, ⟨updIsland 0 (fun x => { x with cause := 3 }) tLatched, []⟩, advance 0
      (updIsland 0 (fun x => { x with cause := 3 }) tLatched), rfl, (by decide +kernel)⟩,
   ⟨0, 0, ⟨tIsland, []⟩, advance 0 tIsland, rfl, (by decide +kernel)⟩,
   ⟨0, 0, ⟨tIsland, []⟩, advance 0 tIsland, rfl, (by decide +kernel)⟩,
   ⟨0, 0, true, _, ⟨tIsland, []⟩, advance 0 tIsland, rfl, rfl, (by decide +kernel)⟩,
   ⟨0, 0, false, _, ⟨tIsland, []⟩, advance 0 tIsland, rfl, rfl, (by decide +kernel)⟩,
   ⟨0, 0, true, ⟨updIsland 0 (fun x => { x with railsSeen := false }) tIsland, []⟩, advance 0
      (updIsland 0 (fun x => { x with railsSeen := false }) tIsland), rfl, (by decide +kernel)⟩,
   ⟨0, 0, ⟨updIsland 0 (fun x => { x with cause := 3, state := .latched, condition := true }) tIsland, []⟩, advance 0
      (updIsland 0 (fun x => { x with cause := 3, state := .latched, condition := true }) tIsland), rfl,
      (by decide +kernel)⟩,
   ⟨0, 0, ⟨updIsland 0 (fun x => { x with railsSeen := false, railPosOk := false }) tIsland, []⟩, advance 0
      (updIsland 0 (fun x => { x with railsSeen := false, railPosOk := false }) tIsland), rfl, (by decide +kernel)⟩,
   ⟨0, 0, ⟨updIsland 0 (fun x => { x with railsSeen := false, railPosOk := true, railNegOk := false }) tIsland, []⟩,
      advance 0 (updIsland 0 (fun x => { x with railsSeen := false, railPosOk := true, railNegOk := false }) tIsland),
      rfl, (by decide +kernel)⟩,
   ⟨0, 0, ⟨tIslandOn, []⟩, advance 0 tIslandOn, rfl, (by decide +kernel)⟩,
   ⟨0, 0, ⟨tIslandOn, []⟩, advance 0 tIslandOn, rfl, (by decide +kernel)⟩,
   ⟨0, 0, ⟨tSoft 1, []⟩, advance 0 (tSoft 1), rfl, (by decide +kernel)⟩,
   ⟨0, 0, ⟨tSoft 3, []⟩, advance 0 (tSoft 3), rfl, (by decide +kernel)⟩⟩

/-- Every clause of EnableAndTestEventsComplete is met. -/
theorem witness_enableAndTestEventsComplete :
  (∃ (dt : Nat) (s : State) (m : Module),
    m = advance dt s.mod ∧ !m.atLeastReady ∧ m.supply.transition = none) ∧
  (∃ (dt : Nat) (s : State) (m : Module),
    m = advance dt s.mod ∧ m.driven ∧ m.dieRuns 7 ∧ m.supply.transition = none) ∧
  (∃ (dt : Nat) (low : Nat) (s : State) (m : Module),
    m = advance dt s.mod ∧ !m.supply.en ∧ m.atLeastReady ∧ m.dieRuns 7 ∧
    low = Nat.max m.supply.enFellAt m.gate.enSeenAt ∧ low + 4000 ≤ m.time.elapsed) ∧
  (∃ (dt : Nat) (s : State) (m : Module),
    m = advance dt s.mod ∧ !m.supply.en ∧
    (!m.atLeastReady || !m.dieRuns 7 || m.time.elapsed < Nat.max m.supply.enFellAt m.gate.enSeenAt + 4000)) ∧
  (∃ (dt : Nat) (desat : Bool) (hard : Bool) (pos : Bool) (neg : Bool) (sto : Bool) (i : Fin 36) (q : Module)
     (s : State) (m : Module),
    m = advance dt s.mod ∧
    q = crossWords 5 1 (resolveWaiting [0x71] (· == 10 + i.val) 0 0 [0] { m with gate := { m.gate with test := 0 } })
      ∧
    m.up ∧ m.dieRuns 7 ∧ m.gate.test = 1 ∧ i.val = m.gate.testIsland ∧ (!desat && !hard && !pos && !neg && !sto)) ∧
  (∃ (dt : Nat) (desat : Bool) (hard : Bool) (pos : Bool) (neg : Bool) (sto : Bool) (i : Fin 36) (q : Module)
     (s : State) (m : Module),
    m = advance dt s.mod ∧
    q = crossWords 5 1 (
        resolveWaiting [0x71] (· == 10 + i.val) 0 0 [selftestWord desat hard pos (neg && m.negMonitored i) sto]
          { m with gate := { m.gate with test := 0 } }) ∧
    m.up ∧ m.dieRuns 7 ∧ m.gate.test = 1 ∧ i.val = m.gate.testIsland ∧ desat) ∧
  (∃ (dt : Nat) (s : State) (m : Module),
    m = advance dt s.mod ∧ m.up ∧ m.dieRuns 7 ∧ m.gate.test = 2 ∧ m.gate.testAt + 2000000 ≤ m.time.elapsed ∧
    m.gate.diagStep < 3) ∧
  (∃ (dt : Nat) (u : Word) (v : Word) (w : Word) (rs : List (List Word)) (s : State) (m : Module),
    m = advance dt s.mod ∧ m.up ∧ m.dieRuns 7 ∧ m.gate.test = 2 ∧ m.gate.testAt + 2000000 ≤ m.time.elapsed ∧
    m.gate.diagStep = 3 ∧ rs = m.gate.diagReadings ++ [[u, v, w]]) ∧
  (∃ (dt : Nat) (i : Fin 36) (s : State) (m : Module),
    m = advance dt s.mod ∧ m.up ∧ m.wantedBy i = some false ∧ (m.islands[i]).healthy ∧ m.islandSupplied i ∧ m.driven ∧
    (m.islands[i]).contradicted = 0) ∧
  (∃ (dt : Nat) (i : Fin 36) (s : State) (m : Module),
    m = advance dt s.mod ∧ m.up ∧ m.wantedBy i = some false ∧ (m.islands[i]).healthy ∧ m.islandSupplied i ∧ m.driven ∧
    (m.islands[i]).contradicted ≠ 0) :=
  ⟨⟨0, ⟨tStandby, []⟩, advance 0 tStandby, rfl, (by decide +kernel)⟩,
   ⟨0, ⟨tRun, []⟩, advance 0 tRun, rfl, (by decide +kernel)⟩,
   ⟨0, 5, ⟨
        { tReady with
            supply := { tReady.supply with en := false, enFellAt := 5 }, gate :=
              { tReady.gate with enSeenAt := 0 } }, []⟩, advance 0 (
        { tReady with
            supply := { tReady.supply with en := false, enFellAt := 5 }, gate :=
              { tReady.gate with enSeenAt := 0 } }), rfl, (by decide +kernel)⟩,
   ⟨0, ⟨{ tReady with supply := { tReady.supply with en := false, enFellAt := 7999999000 } }, []⟩, advance 0
      ({ tReady with supply := { tReady.supply with en := false, enFellAt := 7999999000 } }), rfl, (by decide +kernel)⟩,
   ⟨0, false, false, false, false, false, 3, _,
      ⟨{ tReady with gate := { GateCtl.init with test := 1, testIsland := 3 } }, []⟩, advance 0
      ({ tReady with gate := { GateCtl.init with test := 1, testIsland := 3 } }), rfl, rfl, (by decide +kernel)⟩,
   ⟨0, true, false, false, false, false, 3, _,
      ⟨{ tReady with gate := { GateCtl.init with test := 1, testIsland := 3 } }, []⟩, advance 0
      ({ tReady with gate := { GateCtl.init with test := 1, testIsland := 3 } }), rfl, rfl, (by decide +kernel)⟩,
   ⟨0, ⟨{ tReady with gate := { GateCtl.init with test := 2 } }, []⟩, advance 0
      ({ tReady with gate := { GateCtl.init with test := 2 } }), rfl, (by decide +kernel)⟩,
   ⟨0, 1, 2, 3, [[1, 2, 3]], ⟨{ tReady with gate := { GateCtl.init with test := 2, diagStep := 3 } }, []⟩, advance 0
      ({ tReady with gate := { GateCtl.init with test := 2, diagStep := 3 } }), rfl, (by decide +kernel)⟩,
   ⟨0, 0, ⟨tVerify 0, []⟩, advance 0 (tVerify 0), rfl, (by decide +kernel)⟩,
   ⟨0, 0, ⟨tVerify 1, []⟩, advance 0 (tVerify 1), rfl, (by decide +kernel)⟩⟩

/-- Every clause of ActuatorEventsComplete is met. -/
theorem witness_actuatorEventsComplete :
  (∃ (dt : Nat) (a : Fin 4) (m1 : Module) (s : State) (m : Module),
    m = advance dt s.mod ∧ m1 = followLow a m ∧ m.up ∧ m.dieRuns 7) ∧
  (∃ (dt : Nat) (a : Fin 4) (s : State) (m : Module),
    m = advance dt s.mod ∧ m.up ∧ m.atValley a ∧ m.dieRuns 7 ∧ m.time.valid ∧ !m.bridgeOn a) ∧
  (∃ (dt : Nat) (a : Fin 4) (iu : Word) (iv : Word) (iw : Word) (m1 : Module) (k : Vector Nat 3 × Vector Bool 3)
     (s : State) (m : Module),
    m = advance dt s.mod ∧ m1 = followLow a m ∧ k = m1.refreshStep a ∧ m.up ∧ m.atValley a ∧ m.dieRuns 7 ∧
    m.time.valid ∧ m.bridgeOn a ∧ (hallPosition (m1.feedback[axPort a]).hallNow).isSome ∧
    !(List.finRange 3).any
      (fun j => m1.legValid a j && F32.lt (m1.apar a P.axITrip) (F32.abs (#v[iu, iv, iw] : Vector Word 3)[j])) ∧
    !(List.finRange 3).any (fun j => (m1.actuators[a]).legs[j] == 2)) ∧
  (∃ (dt : Nat) (a : Fin 4) (iu : Word) (iv : Word) (iw : Word) (m1 : Module) (k : Vector Nat 3 × Vector Bool 3)
     (s : State) (m : Module),
    m = advance dt s.mod ∧ m1 = followLow a m ∧ k = m1.refreshStep a ∧ m.up ∧ m.atValley a ∧ m.dieRuns 7 ∧
    m.time.valid ∧ m.bridgeOn a ∧ (hallPosition (m1.feedback[axPort a]).hallNow).isSome ∧
    !(List.finRange 3).any
      (fun j => m1.legValid a j && F32.lt (m1.apar a P.axITrip) (F32.abs (#v[iu, iv, iw] : Vector Word 3)[j])) ∧
    (List.finRange 3).any (fun j => (m1.actuators[a]).legs[j] == 2)) ∧
  (∃ (dt : Nat) (a : Fin 4) (iu : Word) (iv : Word) (iw : Word) (m1 : Module) (k : Vector Nat 3 × Vector Bool 3)
     (s : State) (m : Module),
    m = advance dt s.mod ∧ m1 = followLow a m ∧ k = m1.refreshStep a ∧ m.up ∧ m.atValley a ∧ m.dieRuns 7 ∧
    m.time.valid ∧ m.bridgeOn a ∧ (hallPosition (m1.feedback[axPort a]).hallNow).isSome ∧
    (List.finRange 3).any
      (fun j => m1.legValid a j && F32.lt (m1.apar a P.axITrip) (F32.abs (#v[iu, iv, iw] : Vector Word 3)[j]))) ∧
  (∃ (dt : Nat) (s : State) (m : Module),
    m = advance dt s.mod ∧ m.up ∧ m.dieRuns 8) ∧
  (∃ (dt : Nat) (a : Fin 4) (leg : Fin 3) (s : State) (m : Module),
    m = advance dt s.mod ∧ m.up ∧ (m.actuators[a]).bootLow = 2 ^ leg.val) ∧
  (∃ (dt : Nat) (a : Fin 4) (s : State) (m : Module),
    m = advance dt s.mod ∧ m.up ∧ m.axLost a) ∧
  (∃ (dt : Nat) (a : Fin 4) (s : State) (m : Module),
    m = advance dt s.mod ∧ m.up ∧ m.movesRun a ∧ (m.actuators[a]).move = 3 ∧
    (m.actuators[a]).stepAt + m.aus a P.axStallTime ≤ m.time.elapsed) ∧
  (∃ (dt : Nat) (a : Fin 4) (s : State) (m : Module),
    m = advance dt s.mod ∧ m.up ∧ m.movesRun a ∧ (m.actuators[a]).move = 1 ∧
    (m.actuators[a]).moveAt + m.aus a P.axTorqueWait ≤ m.time.elapsed) ∧
  (∃ (dt : Nat) (a : Fin 4) (s : State) (m : Module),
    m = advance dt s.mod ∧ m.up ∧ m.movesRun a ∧ (m.actuators[a]).move = 2 ∧
    (m.actuators[a]).stepAt + m.aus a P.axMoveTimeout ≤ m.time.elapsed) ∧
  (∃ (dt : Nat) (a : Fin 4) (s : State) (m : Module),
    m = advance dt s.mod ∧ m.up ∧ m.movesRun a ∧ (m.actuators[a]).move = 3 ∧
    (m.actuators[a]).moveAt + m.aus a P.axMoveTimeout ≤ m.time.elapsed) ∧
  (∃ (dt : Nat) (a : Fin 4) (s : State) (m : Module),
    m = advance dt s.mod ∧ m.up ∧ m.movesRun a ∧ (m.actuators[a]).move = 2 ∧
    lasted m.time.elapsed (m.actuators[a]).settleSince (m.aus a P.axSettle)) :=
  ⟨⟨0, 0, _, ⟨tBridge, []⟩, advance 0 tBridge, rfl, rfl, (by decide +kernel)⟩,
   ⟨0, 0, ⟨tReady, []⟩, advance 0 tReady, rfl, (by decide +kernel)⟩,
   ⟨0, 0, 0, 0, 0, _, _, ⟨tBridge, []⟩, advance 0 tBridge, rfl, rfl, rfl, (by decide +kernel)⟩,
   ⟨0, 0, 0, 0, 0, _, _, ⟨updActuator 0 (fun x => { x with legs := Vector.replicate 3 2 }) tBridge, []⟩, advance 0
      (updActuator 0 (fun x => { x with legs := Vector.replicate 3 2 }) tBridge), rfl, rfl, rfl, (by decide +kernel)⟩,
   ⟨0, 0, 0x447A0000, 0x447A0000, 0x447A0000, _, _,
      ⟨updActuator 0 (fun x => { x with legs := Vector.replicate 3 2 }) tBridge, []⟩, advance 0
      (updActuator 0 (fun x => { x with legs := Vector.replicate 3 2 }) tBridge), rfl, rfl, rfl, (by decide +kernel)⟩,
   ⟨0, ⟨tReady, []⟩, advance 0 tReady, rfl, (by decide +kernel)⟩,
   ⟨0, 1, 2, ⟨updActuator 1 (fun x => { x with bootLow := 4 }) tReady, []⟩, advance 0
      (updActuator 1 (fun x => { x with bootLow := 4 }) tReady), rfl, (by decide +kernel)⟩,
   ⟨0, 0, ⟨updFeedback 2 (fun f => { f with afterJump := some 1 }) tMoves, []⟩, advance 0
      (updFeedback 2 (fun f => { f with afterJump := some 1 }) tMoves), rfl, (by decide +kernel)⟩,
   ⟨0, 0, ⟨updActuator 0 (fun x => { x with move := 3 }) tMoves, []⟩, advance 0
      (updActuator 0 (fun x => { x with move := 3 }) tMoves), rfl, (by decide +kernel)⟩,
   ⟨0, 0, ⟨updActuator 0 (fun x => { x with move := 1 }) tMoves, []⟩, advance 0
      (updActuator 0 (fun x => { x with move := 1 }) tMoves), rfl, (by decide +kernel)⟩,
   ⟨0, 0, ⟨updActuator 0 (fun x => { x with move := 2 }) tMoves, []⟩, advance 0
      (updActuator 0 (fun x => { x with move := 2 }) tMoves), rfl, (by decide +kernel)⟩,
   ⟨0, 0, ⟨updActuator 0 (fun x => { x with move := 3 }) tMoves, []⟩, advance 0
      (updActuator 0 (fun x => { x with move := 3 }) tMoves), rfl, (by decide +kernel)⟩,
   ⟨0, 0, ⟨updActuator 0 (fun x => { x with move := 2, settleSince := some 0 }) tMoves, []⟩, advance 0
      (updActuator 0 (fun x => { x with move := 2, settleSince := some 0 }) tMoves), rfl, (by decide +kernel)⟩⟩

/-- Every clause of AnalogEventsComplete is met. -/
theorem witness_analogEventsComplete :
  (∃ (dt : Nat) (a : Fin 2) (t : Fin 64) (sar : List (BitVec 16)) (ports : List (Fin 6)) (m1 : Module)
     (k : List Word × Module) (s : State) (m : Module),
    m = advance dt s.mod ∧ ports = m.capturedPorts a t.val ∧ m1 = ports.foldl (fun x p => capture p x) m ∧
    k = sarWords a t.val (
        (
            indexed (
                (List.finRange 32).filter
                  (fun c => ((m.trigImage a t.val).trig P.afeTrigInputs a.val t.val).testBit c.val))).map
          (fun x => (((m1.afe[a]).freePositions m1.time.elapsed).getD x.1 18, x.2))) sar m1 ∧
    m.up ∧ m.afeRuns a ∧ m.trigDue a t.val) ∧
  (∃ (dt : Nat) (a : Fin 2) (due : List Fired) (new : List QueueEntry) (s : State) (m : Module),
    m = advance dt s.mod ∧ m.up ∧ m.afeRuns a ∧
    due = byTrigger ((m.afe[a]).fired.filter (fun x => x.due m.time.count)) ∧ due ≠ [] ∧
    new = due.flatMap (
        fun x => x.words.map
          (fun w => ({ word := w, cf0 := x.dest % 2 == 1, cf1 := x.dest / 2 % 2 == 1 } : QueueEntry))) ∧
    (m.afe[a]).queue.length + new.length ≤ 1024 ∧ (m.afe[a]).discarded ≤ 0xFFFFFFFF) ∧
  (∃ (dt : Nat) (a : Fin 2) (due : List Fired) (new : List QueueEntry) (d : Nat) (s : State) (m : Module),
    m = advance dt s.mod ∧ m.up ∧ m.afeRuns a ∧
    due = byTrigger ((m.afe[a]).fired.filter (fun x => x.due m.time.count)) ∧ due ≠ [] ∧
    new = due.flatMap (
        fun x => x.words.map
          (fun w => ({ word := w, cf0 := x.dest % 2 == 1, cf1 := x.dest / 2 % 2 == 1 } : QueueEntry))) ∧
    d = ((m.afe[a]).queue ++ new).length - 1024 ∧ d ≠ 0) ∧
  (∃ (dt : Nat) (a : Fin 2) (i : Fin 20) (o : Fin 20) (s : State) (m : Module),
    m = advance dt s.mod ∧ m.up ∧ m.afeRuns a ∧
    (
        (m.afe[a]).sweep || (m.afe[a]).rotatedAt + F32.usTicks (m.par (P.afeRotateInterval + 0x400 * a.val)) ≤
          m.time.elapsed) ∧
    19 ≤ (m.afe[a]).healthy ∧
    (m.afe[a]).pick (fun x => !x.failed && x.position.isNone && !x.calibrating) true = some i ∧
    (m.afe[a]).pick (fun x => x.position.isSome && !x.failed && (!(m.afe[a]).sweep || x.sweepDue)) false = some o ∧
    m.positionIdle a ⟨((m.afe[a]).slices[o]).position.getD 0 % 18, Nat.mod_lt _ (by decide)⟩) ∧
  (∃ (dt : Nat) (a : Fin 2) (i : Fin 20) (gain : Word) (offset : Word) (inl : Word) (s : State) (m : Module),
    m = advance dt s.mod ∧ m.up ∧ m.afeRuns a ∧ ((m.afe[a]).slices[i]).calibrating ∧ !((m.afe[a]).slices[i]).failed ∧
    sliceGood gain offset inl) ∧
  (∃ (dt : Nat) (a : Fin 2) (i : Fin 20) (gain : Word) (offset : Word) (inl : Word) (m1 : Module) (s : State)
     (m : Module),
    m = advance dt s.mod ∧
    m1 = updAfe a (
        fun f => endSweep { f with
            slices := Vector.upd f.slices i
              (fun x => { x with calibrating := false, failed := true, sweepDue := false }) }) m ∧
    m.up ∧ m.afeRuns a ∧ ((m.afe[a]).slices[i]).calibrating ∧ !((m.afe[a]).slices[i]).failed ∧
    !sliceGood gain offset inl ∧ 18 < (m1.afe[a]).healthy) ∧
  (∃ (dt : Nat) (a : Fin 2) (i : Fin 20) (gain : Word) (offset : Word) (inl : Word) (m1 : Module) (s : State)
     (m : Module),
    m = advance dt s.mod ∧
    m1 = updAfe a (
        fun f => endSweep { f with
            slices := Vector.upd f.slices i
              (fun x => { x with calibrating := false, failed := true, sweepDue := false }) }) m ∧
    m.up ∧ m.afeRuns a ∧ ((m.afe[a]).slices[i]).calibrating ∧ !((m.afe[a]).slices[i]).failed ∧
    !sliceGood gain offset inl ∧ (m1.afe[a]).healthy = 18) ∧
  (∃ (dt : Nat) (a : Fin 2) (i : Fin 20) (gain : Word) (offset : Word) (inl : Word) (m1 : Module) (s : State)
     (m : Module),
    m = advance dt s.mod ∧
    m1 = updAfe a (
        fun f => endSweep { f with
            slices := Vector.upd f.slices i
              (fun x => { x with calibrating := false, failed := true, sweepDue := false }) }) m ∧
    m.up ∧ m.afeRuns a ∧ ((m.afe[a]).slices[i]).calibrating ∧ !((m.afe[a]).slices[i]).failed ∧
    !sliceGood gain offset inl ∧ (m1.afe[a]).healthy < 18) ∧
  (∃ (dt : Nat) (a : Fin 2) (i : Fin 4) (m1 : Module) (s : State) (m : Module),
    m = advance dt s.mod ∧
    m1 = updAfe a (
        fun f => { f with
            sdLost := f.sdLost ||| 2 ^ i.val, detectors := Vector.ofFn (
                fun k => if k.val / 2 = i.val && m.sdOn a i.val then { f.detectors[k] with decision := 2 } else
                  f.detectors[k]) }) m ∧
    m.up ∧ m.afeRuns a ∧ (m.sdFuncs a.val i.val).any m.enabled) ∧
  (∃ (dt : Nat) (a : Fin 2) (i : Fin 4) (s : State) (m : Module),
    m = advance dt s.mod ∧ m.up ∧ ((m.afe[a]).sdLost).testBit i.val) ∧
  (∃ (dt : Nat) (a : Fin 2) (k : Fin 8) (window : Nat) (s : State) (m : Module),
    m = advance dt s.mod ∧ m.up ∧ m.afeRuns a ∧ m.sdOn a (k.val / 2) ∧ !((m.afe[a]).detectors[k]).underTest ∧
    ((m.afe[a]).detectors[k]).decision ≠ 2 ∧ m.sdTrips a (k.val / 2) window ∧
    m.drives a true k.val (m.afe[a]).detectors[k]) ∧
  (∃ (dt : Nat) (a : Fin 2) (k : Fin 8) (window : Nat) (s : State) (m : Module),
    m = advance dt s.mod ∧ m.up ∧ m.afeRuns a ∧ m.sdOn a (k.val / 2) ∧ !((m.afe[a]).detectors[k]).underTest ∧
    ((m.afe[a]).detectors[k]).decision ≠ 2 ∧ m.sdTrips a (k.val / 2) window ∧
    !m.drives a true k.val (m.afe[a]).detectors[k]) ∧
  (∃ (dt : Nat) (a : Fin 2) (k : Fin 32) (levels : List Word) (s : State) (m : Module),
    m = advance dt s.mod ∧ m.up ∧ m.afeRuns a ∧ cmpRole a.val k.val = 1 ∧ !((m.afe[a]).comparators[k]).underTest ∧
    ((m.afe[a]).comparators[k]).decision ≠ 2 ∧ m.cmpDecides a k.val true levels ∧
    m.drives a false k.val (m.afe[a]).comparators[k]) ∧
  (∃ (dt : Nat) (a : Fin 2) (k : Fin 32) (levels : List Word) (s : State) (m : Module),
    m = advance dt s.mod ∧ m.up ∧ m.afeRuns a ∧ cmpRole a.val k.val = 1 ∧ !((m.afe[a]).comparators[k]).underTest ∧
    ((m.afe[a]).comparators[k]).decision ≠ 2 ∧ m.cmpDecides a k.val true levels ∧
    !m.drives a false k.val (m.afe[a]).comparators[k]) ∧
  (∃ (dt : Nat) (a : Fin 2) (levels : List Word) (k : Fin 32) (m1 : Module) (s : State) (m : Module),
    m = advance dt s.mod ∧ m1 = updComparator a k (fun x => { x with decision := 1 }) m ∧ m.up ∧ m.afeRuns a ∧
    cmpRole a.val k.val = 1 ∧ !((m.afe[a]).comparators[k]).underTest ∧ m.cmpDecides a k.val false levels ∧
    !m1.faultStands a (comparatorFault a k.val)) ∧
  (∃ (dt : Nat) (a : Fin 2) (levels : List Word) (k : Fin 32) (s : State) (m : Module),
    m = advance dt s.mod ∧ m.up ∧ m.afeRuns a ∧ cmpRole a.val k.val = 2 ∧ !((m.afe[a]).comparators[k]).underTest ∧
    m.diBelow (k.val - 18) levels) ∧
  (∃ (dt : Nat) (a : Fin 2) (window : Nat) (k : Fin 8) (m1 : Module) (s : State) (m : Module),
    m = advance dt s.mod ∧ m1 = updDetector a k (fun x => { x with decision := 1 }) m ∧ m.up ∧ m.afeRuns a ∧
    m.sdOn a (k.val / 2) ∧ !((m.afe[a]).sdLost).testBit (k.val / 2) ∧ !((m.afe[a]).detectors[k]).underTest ∧
    m.sdReleases a (k.val / 2) window ∧ !m1.detectorStands a (k.val / 2)) ∧
  (∃ (dt : Nat) (a : Fin 2) (window : Nat) (k : Fin 8) (m1 : Module) (s : State) (m : Module),
    m = advance dt s.mod ∧ m1 = updDetector a k (fun x => { x with decision := 1 }) m ∧ m.up ∧ m.afeRuns a ∧
    m.sdOn a (k.val / 2) ∧ !((m.afe[a]).sdLost).testBit (k.val / 2) ∧ !((m.afe[a]).detectors[k]).underTest ∧
    m.sdReleases a (k.val / 2) window ∧ m1.detectorStands a (k.val / 2)) ∧
  (∃ (dt : Nat) (a : Fin 2) (reads : List Bool) (k : TwinTest) (s : State) (m : Module),
    m = advance dt s.mod ∧ m.up ∧ m.afeRuns a ∧ (m.afe[a]).test = some k ∧ !k.passed ∧ !k.fails reads 0 ∧
    !k.fails reads 1 ∧ !k.fails reads 2 ∧ (k.detector || cmpRole a.val k.index ≠ 2)) ∧
  (∃ (dt : Nat) (a : Fin 2) (reads : List Bool) (k : TwinTest) (s : State) (m : Module),
    m = advance dt s.mod ∧ m.up ∧ m.afeRuns a ∧ (m.afe[a]).test = some k ∧ !k.passed ∧ !k.fails reads 0 ∧
    !k.fails reads 1 ∧ !k.fails reads 2 ∧ !k.detector ∧ cmpRole a.val k.index = 2) ∧
  (∃ (dt : Nat) (a : Fin 2) (reads : List Bool) (k : TwinTest) (s : State) (m : Module),
    m = advance dt s.mod ∧ m.up ∧ m.afeRuns a ∧ (m.afe[a]).test = some k ∧ !k.passed ∧
    (k.fails reads 2 || k.fails reads 1 || k.fails reads 0)) ∧
  (∃ (dt : Nat) (a : Fin 2) (k : TwinTest) (s : State) (m : Module),
    m = advance dt s.mod ∧ m.up ∧ m.afeRuns a ∧ (m.afe[a]).test = some k ∧ k.passed ∧
    k.at_ + 32 * m.samplePeriod a k.detector (k.index / 2) ≤ m.time.elapsed) ∧
  (∃ (dt : Nat) (a : Fin 2) (detector : Bool) (pair : Nat) (s : State) (m : Module),
    m = advance dt s.mod ∧ m.up ∧ !detector ∧ m.us P.safetyTwinTestInterval ≠ 0 ∧ cmpRole a.val (2 * pair) = 1 ∧
    (comparatorFuncs a (2 * pair)).any m.enabled ∧
    (m.afe[a].comparators.toList.getD (2 * pair) (Member.init false)).passedAt + m.us P.safetyTwinTestInterval <
      m.drivenTime) :=
  ⟨⟨0, 0, 40, [], _, _, _, ⟨tTrig, []⟩, advance 0 tTrig, rfl, rfl, rfl, rfl, (by decide +kernel)⟩,
   ⟨0, 0, [tFired], [{ word := 0x04000001, cf0 := true, cf1 := false }],
      ⟨updAfe 0 (fun f => { f with fired := [tFired] }) tReady, []⟩, advance 0
      (updAfe 0 (fun f => { f with fired := [tFired] }) tReady), rfl, (by decide +kernel)⟩,
   ⟨0, 0, [tFired], [{ word := 0x04000001, cf0 := true, cf1 := false }], 1,
      ⟨updAfe 0 (fun f => { f with fired := [tFired], queue := List.replicate 1024 tEntry }) tReady, []⟩, advance 0
      (updAfe 0 (fun f => { f with fired := [tFired], queue := List.replicate 1024 tEntry }) tReady), rfl,
      (by decide +kernel)⟩,
   ⟨0, 0, 18, 0, ⟨tIdle, []⟩, advance 0 tIdle, rfl, (by decide +kernel)⟩,
   ⟨0, 0, 18, 0x3F800000, 0x40000000, 0x3F800000, ⟨tCalibrating, []⟩, advance 0 tCalibrating, rfl, (by decide +kernel)⟩,
   ⟨0, 0, 18, 0x40000000, 0, 0, _, ⟨tCalibrating, []⟩, advance 0 tCalibrating, rfl, rfl, (by decide +kernel)⟩,
   ⟨0, 0, 18, 0x40000000, 0, 0, _, ⟨
        updAfe 0 (fun f => { f with slices := Vector.upd f.slices 19 (fun x => { x with failed := true }) })
          tCalibrating, []⟩, advance 0 (
        updAfe 0 (fun f => { f with slices := Vector.upd f.slices 19 (fun x => { x with failed := true }) })
          tCalibrating), rfl, rfl, (by decide +kernel)⟩,
   ⟨0, 0, 18, 0x40000000, 0, 0, _, ⟨
        updAfe 0 (
            fun f => { f with
                slices := Vector.upd (Vector.upd f.slices 0 (fun x => { x with failed := true })) 19
                  (fun x => { x with failed := true }) }) tCalibrating, []⟩, advance 0 (
        updAfe 0 (
            fun f => { f with
                slices := Vector.upd (Vector.upd f.slices 0 (fun x => { x with failed := true })) 19
                  (fun x => { x with failed := true }) }) tCalibrating), rfl, rfl, (by decide +kernel)⟩,
   ⟨0, 0, 3, _, ⟨tRun, []⟩, advance 0 tRun, rfl, rfl, (by decide +kernel)⟩,
   ⟨0, 0, 3, ⟨updAfe 0 (fun f => { f with sdLost := 8 }) tRun, []⟩, advance 0
      (updAfe 0 (fun f => { f with sdLost := 8 }) tRun), rfl, (by decide +kernel)⟩,
   ⟨0, 0, 0, 0, ⟨tSd, []⟩, advance 0 tSd, rfl, (by decide +kernel)⟩,
   ⟨0, 0, 1, 0, ⟨tSd, []⟩, advance 0 tSd, rfl, (by decide +kernel)⟩,
   ⟨0, 0, 2, tHigh, ⟨tReady, []⟩, advance 0 tReady, rfl, (by decide +kernel)⟩,
   ⟨0, 0, 3, tHigh, ⟨tReady, []⟩, advance 0 tReady, rfl, (by decide +kernel)⟩,
   ⟨0, 0, tLow, 2, _, ⟨tReady, []⟩, advance 0 tReady, rfl, rfl, (by decide +kernel)⟩,
   ⟨0, 0, tLow, 18, ⟨tReady, []⟩, advance 0 tReady, rfl, (by decide +kernel)⟩,
   ⟨0, 0, 0x5555, 0, _, ⟨tSd, []⟩, advance 0 tSd, rfl, rfl, (by decide +kernel)⟩,
   ⟨0, 0, 0x5555, 1, _, ⟨updDetector 0 0 (fun x => { x with decision := 2, active := true }) tSd, []⟩, advance 0
      (updDetector 0 0 (fun x => { x with decision := 2, active := true }) tSd), rfl, rfl, (by decide +kernel)⟩,
   ⟨0, 0, [true], tTest, ⟨tTesting, []⟩, advance 0 tTesting, rfl, (by decide +kernel)⟩,
   ⟨0, 0, [true], { tTest with index := 18 },
      ⟨updAfe 0 (fun f => { f with test := some { tTest with index := 18 } }) tReady, []⟩, advance 0
      (updAfe 0 (fun f => { f with test := some { tTest with index := 18 } }) tReady), rfl, (by decide +kernel)⟩,
   ⟨0, 0, [false], tTest, ⟨tTesting, []⟩, advance 0 tTesting, rfl, (by decide +kernel)⟩,
   ⟨0, 0, { tTest with passed := true, opened := true },
      ⟨updAfe 0 (fun f => { f with test := some { tTest with passed := true, opened := true } }) tReady, []⟩, advance
      0 (updAfe 0 (fun f => { f with test := some { tTest with passed := true, opened := true } }) tReady), rfl,
      (by decide +kernel)⟩,
   ⟨0, 0, false, 0, ⟨{ tRun with drivenTime := 1000000000000000000 }, []⟩, advance 0
      ({ tRun with drivenTime := 1000000000000000000 }), rfl, (by decide +kernel)⟩⟩

/-- Every clause of BusEventsComplete is met. -/
theorem witness_busEventsComplete :
  (∃ (dt : Nat) (f : CanFrame) (m0 : Module) (s : State) (m : Module),
    m = advance dt s.mod ∧ m0 = updIsobus (fun y => { y with arrived := none }) m ∧ m.up ∧ m.dieRuns 0 ∧ m.dieRuns 6 ∧
    (m.can[(1 : Fin 4)]).active ∧ f.damaged) ∧
  (∃ (dt : Nat) (f : CanFrame) (taken : Nat) (m0 : Module) (s : State) (m : Module),
    m = advance dt s.mod ∧ m0 = updIsobus (fun y => { y with arrived := none }) m ∧ m.up ∧ m.dieRuns 0 ∧ m.dieRuns 6 ∧
    (m.can[(1 : Fin 4)]).active ∧ !f.damaged ∧ f.format ≠ .xl ∧ f.ident = m.num P.cn1ReqId ∧
    f.extended == (m.num P.cn1Ext == 1) ∧
    ((takeFrames 0 taken (m.can[(1 : Fin 4)]).goodReceive.rx).filter (fun x => x.1 == 0)).length < 32) ∧
  (∃ (dt : Nat) (p : Fin 4) (stamp : Tick) (f : TxFrame) (h : FrameHead) (s : State) (m : Module),
    m = advance dt s.mod ∧ h = { f.head with stamp := canStamp stamp } ∧ m.up ∧ m.dieRuns 0 ∧ m.dieRuns 6 ∧
    (m.can[p]).active ∧ offered (m.can[p]).tx = some f ∧ (p.val < 2 || f.head.ident ≠ 0x010)) ∧
  (∃ (dt : Nat) (p : Fin 4) (f : TxFrame) (s : State) (m : Module),
    m = advance dt s.mod ∧ m.up ∧ m.dieRuns 0 ∧ m.dieRuns 6 ∧ (m.can[p]).active ∧ offered (m.can[p]).tx = some f ∧
    !f.oneShot) ∧
  (∃ (dt : Nat) (p : Fin 4) (error : Bool) (f : TxFrame) (s : State) (m : Module),
    m = advance dt s.mod ∧ m.up ∧ m.dieRuns 0 ∧ m.dieRuns 6 ∧ (m.can[p]).active ∧ offered (m.can[p]).tx = some f ∧
    f.oneShot ∧ f.instant = none ∧ !error) ∧
  (∃ (dt : Nat) (p : Fin 4) (object : Fin 256) (s : State) (m : Module),
    m = advance dt s.mod ∧ m.up ∧ m.dieRuns 0 ∧ m.dieRuns 6 ∧
    !(fifos p).any (fun x => x.1 ≤ object.val && object.val < x.1 + x.2)) ∧
  (∃ (dt : Nat) (p : Fin 4) (object : Fin 256) (x : Nat × Nat) (s : State) (m : Module),
    m = advance dt s.mod ∧ m.up ∧ m.dieRuns 0 ∧ m.dieRuns 6 ∧
    (fifos p).find? (fun x => x.1 ≤ object.val && object.val < x.1 + x.2) = some x) ∧
  (∃ (dt : Nat) (p : Fin 2) (n : Fin 16) (data : List Byte) (taken : Nat) (q : Fin 4) (m1 : Module) (s : State)
     (m : Module),
    m = advance dt s.mod ∧
    m1 = noteHp (updCan q (fun c => { c.goodReceive with hp := c.hp.drop taken }) (hearFrame p n m)) ∧ m.up ∧
    m.dieRuns 0 ∧ m.dieRuns 6 ∧ q = (⟨p.val + 2, by omega⟩ : Fin 4) ∧ (m.can[q]).active ∧ data.length ≤ 112 ∧
    (m1.can[q]).hp.length < 4) ∧
  (∃ (dt : Nat) (p : Fin 4) (s : State) (m : Module),
    m = advance dt s.mod ∧ m.up ∧ m.dieRuns 0 ∧ m.dieRuns 6 ∧ (m.can[p]).active ∧ p.val < 2) ∧
  (∃ (dt : Nat) (p : Fin 4) (seen : Nat) (s : State) (m : Module),
    m = advance dt s.mod ∧ m.up ∧ m.dieRuns 0 ∧ m.dieRuns 6 ∧ (m.can[p]).isOff ∧ seen ≠ 0 ∧ seen < 128) ∧
  (∃ (dt : Nat) (p : Fin 4) (seen : Nat) (s : State) (m : Module),
    m = advance dt s.mod ∧ m.up ∧ m.dieRuns 0 ∧ m.dieRuns 6 ∧ p.val < 2 ∧ (m.can[p]).isOff ∧ 128 ≤ seen ∧
    !(m.can[p]).down) ∧
  (∃ (dt : Nat) (p : Fin 4) (c : WakeCause) (s : State) (m : Module),
    m = advance dt s.mod ∧ m.label = .sleep ∧ m.supply.lvinOk ∧ m.wakesOn p c) ∧
  (∃ (dt : Nat) (p : Fin 4) (c : WakeCause) (s : State) (m : Module),
    m = advance dt s.mod ∧ m.label ≠ .sleep ∧ m.wakesOn p c ∧ m.supply.wokeAt = some m.time.elapsed) ∧
  (∃ (dt : Nat) (a : Fin 254) (s : State) (m : Module),
    m = advance dt s.mod ∧ m.up ∧ m.dieRuns 0 ∧ m.dieRuns 6 ∧ (m.can[(0 : Fin 4)]).active ∧ m.mayClaim a.val ∧
    !m.takenAddress a.val) ∧
  (∃ (dt : Nat) (s : State) (m : Module),
    m = advance dt s.mod ∧ m.up ∧ m.dieRuns 0 ∧ m.dieRuns 6 ∧ (m.can[(0 : Fin 4)]).active ∧
    !(List.range 254).any (fun a => m.mayClaim a && !m.takenAddress a)) ∧
  (∃ (dt : Nat) (s : State) (m : Module),
    m = advance dt s.mod ∧ m.up ∧ m.dieRuns 0 ∧ m.dieRuns 6 ∧ m.isobus.address ≠ 254 ∧ m.isobus.dm1At = none) ∧
  (∃ (dt : Nat) (x : TpSession) (s : State) (m : Module),
    m = advance dt s.mod ∧ m.up ∧ m.dieRuns 0 ∧ m.dieRuns 6 ∧ m.isobus.sending = none ∧ m.isobus.session = some x ∧
    x.lastAt + 300000000 ≤ m.time.elapsed) ∧
  (∃ (dt : Nat) (s : State) (m : Module),
    m = advance dt s.mod ∧ m.up ∧ m.dieRuns 0 ∧ m.dieRuns 6 ∧ m.isobus.sending = none ∧ m.isobus.session = none) ∧
  (∃ (dt : Nat) (e : Fin 2) (target : BitVec 32) (s : State) (m : Module),
    m = advance dt s.mod ∧ m.listens ∧ m.dieRuns 6 ∧ m.num (P.etEnable + 0x10 * e.val) = 1 ∧
    m.num (P.etIpAddr + 0x10 * e.val) ≠ 0 ∧ target.toNat = m.num (P.etIpAddr + 0x10 * e.val)) ∧
  (∃ (dt : Nat) (e : Fin 2) (source : BitVec 32) (dest : BitVec 32) (length : Nat) (s : State) (m : Module),
    m = advance dt s.mod ∧ m.listens ∧ m.dieRuns 6 ∧ m.num (P.etEnable + 0x10 * e.val) = 1 ∧
    m.num (P.etIpAddr + 0x10 * e.val) ≠ 0 ∧ dest.toNat = m.num (P.etIpAddr + 0x10 * e.val) ∧ !m.foreignCast e dest ∧
    length ≤ 1472 ∧ (m.hop e.val dest.toNat source.toNat).isSome) ∧
  (∃ (dt : Nat) (e : Fin 2) (dest : BitVec 32) (port : BitVec 16) (s : State) (m : Module),
    m = advance dt s.mod ∧ m.listens ∧ m.dieRuns 6 ∧ m.num (P.etEnable + 0x10 * e.val) = 1 ∧
    m.num (P.etIpAddr + 0x10 * e.val) ≠ 0 ∧ dest.toNat = m.num (P.etIpAddr + 0x10 * e.val) ∧ !m.foreignCast e dest ∧
    port.toNat = 46800) ∧
  (∃ (dt : Nat) (e : Fin 2) (s : State) (m : Module),
    m = advance dt s.mod ∧ m.up ∧ m.dieRuns 0 ∧ m.dieRuns 6 ∧ m.num (P.etEnable + 0x10 * e.val) ≠ 0) ∧
  (∃ (dt : Nat) (e : Fin 2) (s : State) (m : Module),
    m = advance dt s.mod ∧ m.up ∧ m.dieRuns 0 ∧ m.dieRuns 6 ∧ m.num (P.etEnable + 0x10 * e.val) ≠ 0) :=
  ⟨⟨0, { tFrame with damaged := true }, _, ⟨tReady, []⟩, advance 0 tReady, rfl, rfl, (by decide +kernel)⟩,
   ⟨0, tFrame, 0, _, ⟨tReady, []⟩, advance 0 tReady, rfl, rfl, (by decide +kernel)⟩,
   ⟨0, 0, 9, tTx, _, ⟨tSending, []⟩, advance 0 tSending, rfl, rfl, (by decide +kernel)⟩,
   ⟨0, 0, { tTx with oneShot := false },
      ⟨updCan 0 (fun c => { c with tx := [{ tTx with oneShot := false }] }) tReady, []⟩, advance 0
      (updCan 0 (fun c => { c with tx := [{ tTx with oneShot := false }] }) tReady), rfl, (by decide +kernel)⟩,
   ⟨0, 0, false, tTx, ⟨tSending, []⟩, advance 0 tSending, rfl, (by decide +kernel)⟩,
   ⟨0, 0, 0, ⟨tReady, []⟩, advance 0 tReady, rfl, (by decide +kernel)⟩,
   ⟨0, 1, 4, (0, 32), ⟨tReady, []⟩, advance 0 tReady, rfl, (by decide +kernel)⟩,
   ⟨0, 0, 3, [1], 0, 2, _, ⟨tReady, []⟩, advance 0 tReady, rfl, rfl, (by decide +kernel)⟩,
   ⟨0, 0, ⟨tReady, []⟩, advance 0 tReady, rfl, (by decide +kernel)⟩,
   ⟨0, 0, 1, ⟨updCan 0 (fun c => { c with state := 3 }) tReady, []⟩, advance 0
      (updCan 0 (fun c => { c with state := 3 }) tReady), rfl, (by decide +kernel)⟩,
   ⟨0, 0, 128, ⟨updCan 0 (fun c => { c with state := 4 }) tReady, []⟩, advance 0
      (updCan 0 (fun c => { c with state := 4 }) tReady), rfl, (by decide +kernel)⟩,
   ⟨0, 0, .level 1000000, ⟨tAsleep, []⟩, advance 0 tAsleep, rfl, (by decide +kernel)⟩,
   ⟨0, 0, .level 1000000,
      ⟨{ tStandby with supply := { tStandby.supply with wokeAt := some 8000000000 }, epochs := tAsleep.epochs }, []⟩,
      advance 0
      ({ tStandby with supply := { tStandby.supply with wokeAt := some 8000000000 }, epochs := tAsleep.epochs }), rfl,
      (by decide +kernel)⟩,
   ⟨0, tAddress, ⟨tReady, []⟩, advance 0 tReady, rfl, (by decide +kernel)⟩,
   ⟨0, ⟨
        { tReady with
            epochs := { tReady.epochs with
                active := { factoryImage with params := factoryImage.params ++ [(P.isNameLow, 1)] } }, isobus :=
              { Isobus.init with others := (List.range 254).map (fun a => (a, 0)) } }, []⟩, advance 0 (
        { tReady with
            epochs := { tReady.epochs with
                active := { factoryImage with params := factoryImage.params ++ [(P.isNameLow, 1)] } }, isobus :=
              { Isobus.init with others := (List.range 254).map (fun a => (a, 0)) } }), rfl, (by decide +kernel)⟩,
   ⟨0, ⟨{ tReady with isobus := { Isobus.init with address := 128 } }, []⟩, advance 0
      ({ tReady with isobus := { Isobus.init with address := 128 } }), rfl, (by decide +kernel)⟩,
   ⟨0, tTpSession, ⟨{ tReady with isobus := { Isobus.init with address := 128, session := some tTpSession } }, []⟩,
      advance 0 ({ tReady with isobus := { Isobus.init with address := 128, session := some tTpSession } }), rfl,
      (by decide +kernel)⟩,
   ⟨0, ⟨tReady, []⟩, advance 0 tReady, rfl, (by decide +kernel)⟩,
   ⟨0, 0, 0xC0A80001, ⟨tEth, []⟩, advance 0 tEth, rfl, (by decide +kernel)⟩,
   ⟨0, 0, 0xC0A80002, 0xC0A80001, 64, ⟨tEth, []⟩, advance 0 tEth, rfl, (by decide +kernel)⟩,
   ⟨0, 0, 0xC0A80001, 46800, ⟨tEth, []⟩, advance 0 tEth, rfl, (by decide +kernel)⟩,
   ⟨0, 0, ⟨tEth, []⟩, advance 0 tEth, rfl, (by decide +kernel)⟩,
   ⟨0, 0, ⟨tEth, []⟩, advance 0 tEth, rfl, (by decide +kernel)⟩⟩

/-- Every clause of AxleLinkEventsComplete is met. -/
theorem witness_axleLinkEventsComplete :
  (∃ (dt : Nat) (s : State) (m : Module),
    m = advance dt s.mod ∧ m.up ∧ m.dieRuns 0 ∧ m.dieRuns 6 ∧ !m.isHead) ∧
  (∃ (dt : Nat) (p : Fin 2) (n : Fin 16) (seq : Byte) (s : State) (m : Module),
    m = advance dt s.mod ∧ m.up ∧ m.dieRuns 0 ∧ m.dieRuns 6 ∧ n ≠ m.straps.node ∧
    !(hearFrame p n m).copySeen (0x080 + n.val) n.val seq.toNat) ∧
  (∃ (dt : Nat) (p : Fin 2) (n : Fin 16) (seq : Byte) (m1 : Module) (s : State) (m : Module),
    m = advance dt s.mod ∧ m1 = noteCopy n.val n.val seq.toNat (hearFrame p n m) ∧ m.up ∧ m.dieRuns 0 ∧ m.dieRuns 6 ∧
    !(hearFrame p n m).copySeen n.val n.val seq.toNat ∧ !(m1.sys.nodes[n]).head) ∧
  (∃ (dt : Nat) (p : Fin 2) (n : Fin 16) (seq : Byte) (s : State) (m : Module),
    m = advance dt s.mod ∧ m.up ∧ m.dieRuns 0 ∧ m.dieRuns 6 ∧ !m.isHead ∧
    !(hearFrame p n m).copySeen 0x020 n.val seq.toNat) ∧
  (∃ (dt : Nat) (p : Fin 2) (q : Fin 4) (m1 : Module) (s : State) (m : Module),
    m = advance dt s.mod ∧
    m1 = raise F.alPortDown q.val true
      (updCan q (fun c => { c with down := true }) { m with sys := { m.sys with lastDown := q.val } }) ∧
    m.up ∧ m.dieRuns 0 ∧ m.dieRuns 6 ∧ q = (⟨p.val + 2, by omega⟩ : Fin 4) ∧ !(m.can[q]).down ∧ (m.can[q]).isOff ∧
    (!(m1.can[(2 : Fin 4)]).down || !(m1.can[(3 : Fin 4)]).down)) ∧
  (∃ (dt : Nat) (s : State) (m : Module),
    m = advance dt s.mod ∧ m.up ∧ m.dieRuns 0 ∧ m.dieRuns 6 ∧ m.isHead ∧
    m.time.count.toNat % m.num P.alSyncPeriod = 0 ∧ m.num P.tsMode = 3) ∧
  (∃ (dt : Nat) (s : State) (m : Module),
    m = advance dt s.mod ∧ m.up ∧ m.dieRuns 0 ∧ m.dieRuns 6 ∧ m.isHead ∧
    m.time.count.toNat % m.num P.alSyncPeriod = 0 ∧ m.num P.tsMode ≠ 3) ∧
  (∃ (dt : Nat) (gap : Nat) (s : State) (m : Module),
    m = advance dt s.mod ∧ m.up ∧ m.dieRuns 0 ∧ m.dieRuns 6 ∧ !m.isHead ∧ gap ≤ m.num P.alSyncPeriod) ∧
  (∃ (dt : Nat) (edge : Nat) (nearest : Nat) (xs : List Rat) (s : State) (m : Module),
    m = advance dt s.mod ∧ m.up ∧ !m.isHead ∧ m.num P.tsMode = 2 ∧ m.sys.timeState = .slewing ∧
    nearest = (edge + 5 * m.num P.alSyncPeriod) / (10 * m.num P.alSyncPeriod) * m.num P.alSyncPeriod ∧
    xs = last8 (m.sys.wired ++ [(edge : Rat) / 10 - (nearest : Rat) - F32.rat (m.par P.sysTsCableDelay) / (5 / 2)])) ∧
  (∃ (dt : Nat) (s : State) (m : Module),
    m = advance dt s.mod ∧ m.up ∧ !m.isHead ∧ m.num P.tsMode = 2 ∧ m.sys.timeState = .wiredLock) ∧
  (∃ (dt : Nat) (s : State) (m : Module),
    m = advance dt s.mod ∧ m.up ∧ m.dieRuns 0 ∧ m.dieRuns 6 ∧ !m.isHead ∧ m.sys.timeState ≠ .unlocked ∧
    m.sys.sampleAt + m.us P.sysSyncHoldover ≤ m.time.elapsed) ∧
  (∃ (dt : Nat) (s : State) (m : Module),
    m = advance dt s.mod ∧ m.up ∧ m.dieRuns 0 ∧ m.dieRuns 6 ∧ m.sys.listening ∧
    m.sys.listenAt + 2 * m.num P.alStatusPeriod ≤ m.time.elapsed) ∧
  (∃ (dt : Nat) (s : State) (m : Module),
    m = advance dt s.mod ∧ m.up ∧ m.dieRuns 0 ∧ m.dieRuns 6 ∧ !m.axleSilent ∧ m.statusDue ∧ !m.sys.nodeConflict) ∧
  (∃ (dt : Nat) (s : State) (m : Module),
    m = advance dt s.mod ∧ m.up ∧ m.dieRuns 0 ∧ m.dieRuns 6 ∧ !m.axleSilent ∧ m.sys.causes ≠ 0) ∧
  (∃ (dt : Nat) (x : Measurement) (d : Rat) (s : State) (m : Module),
    m = advance dt s.mod ∧ m.up ∧ m.dieRuns 0 ∧ m.dieRuns 6 ∧ m.sys.measurement = some x ∧
    m.num P.sysDelaySamples + 1 ≤ x.sent ∧ x.delay (m.num P.sysDelaySamples) = some d) ∧
  (∃ (dt : Nat) (x : Measurement) (s : State) (m : Module),
    m = advance dt s.mod ∧ m.up ∧ m.dieRuns 0 ∧ m.dieRuns 6 ∧ m.isHead ∧ !m.axleSilent ∧ m.sys.measurement = some x ∧
    x.sent ≤ m.num P.sysDelaySamples ∧ (x.sent = 0 ∨ x.sentAt + 400000 ≤ m.time.elapsed)) ∧
  (∃ (dt : Nat) (s : State) (m : Module),
    m = advance dt s.mod ∧ m.up ∧ m.dieRuns 0 ∧ m.dieRuns 6 ∧ !m.isHead) :=
  ⟨⟨0, ⟨tTailReady, []⟩, advance 0 tTailReady, rfl, (by decide +kernel)⟩,
   ⟨0, 0, 5, 4, ⟨tHead, []⟩, advance 0 tHead, rfl, (by decide +kernel)⟩,
   ⟨0, 0, 1, 4, _, ⟨tHead, []⟩, advance 0 tHead, rfl, rfl, (by decide +kernel)⟩,
   ⟨0, 0, 0, 4, ⟨tTailAdmitted, []⟩, advance 0 tTailAdmitted, rfl, (by decide +kernel)⟩,
   ⟨0, 0, 2, _, ⟨updCan 2 (fun c => { c with state := 3 }) tReady, []⟩, advance 0
      (updCan 2 (fun c => { c with state := 3 }) tReady), rfl, rfl, (by decide +kernel)⟩,
   ⟨0, ⟨{ tReady with epochs := { tReady.epochs with active := factoryImage.write P.tsMode 3 } }, []⟩, advance 0
      ({ tReady with epochs := { tReady.epochs with active := factoryImage.write P.tsMode 3 } }), rfl,
      (by decide +kernel)⟩,
   ⟨0, ⟨tReady, []⟩, advance 0 tReady, rfl, (by decide +kernel)⟩,
   ⟨0, 100, ⟨tTailReady, []⟩, advance 0 tTailReady, rfl, (by decide +kernel)⟩,
   ⟨0, 10, 0, tWired, ⟨tWiredTail .slewing, []⟩, advance 0 (tWiredTail .slewing), rfl, (by decide +kernel)⟩,
   ⟨0, ⟨tWiredTail .wiredLock, []⟩, advance 0 (tWiredTail .wiredLock), rfl, (by decide +kernel)⟩,
   ⟨0, ⟨tWiredTail .linkLock, []⟩, advance 0 (tWiredTail .linkLock), rfl, (by decide +kernel)⟩,
   ⟨0, ⟨{ tReady with sys := { tReady.sys with listening := true } }, []⟩, advance 0
      ({ tReady with sys := { tReady.sys with listening := true } }), rfl, (by decide +kernel)⟩,
   ⟨0, ⟨{ tReady with sys := { tReady.sys with statusAt := none } }, []⟩, advance 0
      ({ tReady with sys := { tReady.sys with statusAt := none } }), rfl, (by decide +kernel)⟩,
   ⟨0, ⟨{ tReady with sys := { tReady.sys with causes := 2 } }, []⟩, advance 0
      ({ tReady with sys := { tReady.sys with causes := 2 } }), rfl, (by decide +kernel)⟩,
   ⟨0, tMeasurement, (3 : Rat) / 2, ⟨{ tHead with sys := { tHead.sys with measurement := some tMeasurement } }, []⟩,
      advance 0 ({ tHead with sys := { tHead.sys with measurement := some tMeasurement } }), rfl, (by decide +kernel)⟩,
   ⟨0, { nodes := [1], port := 0, sent := 0, sentAt := 0, stamps := [] }, ⟨
        { tHead with
            sys := { tHead.sys with
                measurement := some { nodes := [1], port := 0, sent := 0, sentAt := 0, stamps := [] } } }, []⟩,
      advance 0 (
        { tHead with
            sys := { tHead.sys with
                measurement := some { nodes := [1], port := 0, sent := 0, sentAt := 0, stamps := [] } } }), rfl,
      (by decide +kernel)⟩,
   ⟨0, ⟨tTailReady, []⟩, advance 0 tTailReady, rfl, (by decide +kernel)⟩⟩

/-- Every clause of SystemEventsComplete is met. -/
theorem witness_systemEventsComplete :
  (∃ (dt : Nat) (c : LossCause) (m1 : Module) (s : State) (m : Module),
    m = advance dt s.mod ∧
    m1 = raise (lossFault c) (if c = .linkLost then m.sys.lastDown else 0) true
      { m with sys := { m.sys with admitted := false } } ∧
    m.up ∧ !m.isHead ∧ m.sys.admitted ∧ lossPresent c m ∧ !m.driven ∧ !m1.driven) ∧
  (∃ (dt : Nat) (n : Fin 16) (s : State) (m : Module),
    m = advance dt s.mod ∧ m.up ∧ m.dieRuns 0 ∧ m.dieRuns 6 ∧ !m.heard n) ∧
  (∃ (dt : Nat) (q : Allocation) (rest : List Allocation) (k : Word × Word) (s : State) (m : Module),
    m = advance dt s.mod ∧ m.up ∧ m.sys.held = q :: rest ∧ q.instant.toNat ≤ m.time.count.toNat ∧ !m.sys.rateHeld ∧
    m.regionRuns m.epochs.active.sysFin ∧ m.isAdmitted ∧
    k = (fun n => (((q.shares.find? (fun x => x.1 == n)).map (·.2)).getD (0, 0) : Word × Word)) m.straps.node.val) ∧
  (∃ (dt : Nat) (t0 : Nat) (s : State) (m : Module),
    m = advance dt s.mod ∧ m.up ∧ m.dieRuns 0 ∧ m.dieRuns 6 ∧ m.sys.allocAt = some t0 ∧ m.isAdmitted ∧ !m.sys.stale ∧
    t0 + m.us P.sysAllocTimeout ≤ m.time.elapsed) ∧
  (∃ (dt : Nat) (p : Provisional) (s : State) (m : Module),
    m = advance dt s.mod ∧ m.up ∧ m.isHead ∧ m.epochs.provisional = some p ∧
    p.instant.toNat ≤ m.time.count.toNat + m.num P.sysCommitVote ∧ voteStatus p = none) ∧
  (∃ (dt : Nat) (p : Provisional) (k : Nat × Nat) (s : State) (m : Module),
    m = advance dt s.mod ∧ m.up ∧ m.isHead ∧ m.epochs.provisional = some p ∧
    p.instant.toNat ≤ m.time.count.toNat + m.num P.sysCommitVote ∧ voteStatus p = some k) ∧
  (∃ (dt : Nat) (p : Provisional) (s : State) (m : Module),
    m = advance dt s.mod ∧ m.up ∧ !m.isHead ∧ m.epochs.provisional = some p ∧
    p.instant.toNat ≤ m.time.count.toNat + m.num P.sysCommitConfirm) ∧
  (∃ (dt : Nat) (x : Waiting) (s : State) (m : Module),
    m = advance dt s.mod ∧ m.up ∧ m.interp.waiting.find? (replyOverdue m) = some x ∧ x.opcode = 0x84) :=
  ⟨⟨0, .headLost, _, ⟨tLost, []⟩, advance 0 tLost, rfl, rfl, (by decide +kernel)⟩,
   ⟨0, 2, ⟨tHead, []⟩, advance 0 tHead, rfl, (by decide +kernel)⟩,
   ⟨0, tAlloc, [], (0x42C80000, 0),
      ⟨{ tTailAdmitted with sys := { tTailAdmitted.sys with held := [tAlloc], rateHeld := false } }, []⟩, advance 0
      ({ tTailAdmitted with sys := { tTailAdmitted.sys with held := [tAlloc], rateHeld := false } }), rfl,
      (by decide +kernel)⟩,
   ⟨0, 0, ⟨{ tTailAdmitted with sys := { tTailAdmitted.sys with allocAt := some 0 } }, []⟩, advance 0
      ({ tTailAdmitted with sys := { tTailAdmitted.sys with allocAt := some 0 } }), rfl, (by decide +kernel)⟩,
   ⟨0, tVoteYes, ⟨{ tHead with epochs := { tHead.epochs with provisional := some tVoteYes } }, []⟩, advance 0
      ({ tHead with epochs := { tHead.epochs with provisional := some tVoteYes } }), rfl, (by decide +kernel)⟩,
   ⟨0, tVoteNo, (0x0501, 1), ⟨{ tHead with epochs := { tHead.epochs with provisional := some tVoteNo } }, []⟩, advance
      0 ({ tHead with epochs := { tHead.epochs with provisional := some tVoteNo } }), rfl, (by decide +kernel)⟩,
   ⟨0, tVoteNo, ⟨{ tTailReady with epochs := { tTailReady.epochs with provisional := some tVoteNo } }, []⟩, advance 0
      ({ tTailReady with epochs := { tTailReady.epochs with provisional := some tVoteNo } }), rfl, (by decide +kernel)⟩,
   ⟨0, tRelayed, ⟨{ tHead with interp := { Interp.init with waiting := [tRelayed] } }, []⟩, advance 0
      ({ tHead with interp := { Interp.init with waiting := [tRelayed] } }), rfl, (by decide +kernel)⟩⟩

/-- Every clause of EpochEventsComplete is met. -/
theorem witness_epochEventsComplete :
  (∃ (dt : Nat) (p : Pending) (m1 : Module) (s : State) (m : Module),
    m = advance dt s.mod ∧ m1 = switchEpoch m ∧ m.up ∧ m.isHead ∧ m.epochs.pending = some p ∧ !p.switched ∧
    p.instant.toNat ≤ m.time.count.toNat ∧ p.instant ≠ m.epochs.lastSwitch ∧ m1.epochs.lastSwitch = p.instant) ∧
  (∃ (dt : Nat) (s : State) (m : Module),
    m = advance dt s.mod ∧ m.up ∧ m.dieRuns 1 ∧ m.epochs.flashPending ∧ m.epochs.pending = none) ∧
  (∃ (dt : Nat) (p : Pending) (s : State) (m : Module),
    m = advance dt s.mod ∧ m.up ∧ m.dieRuns 1 ∧ m.epochs.flashPending ∧ m.epochs.pending = some p ∧ !p.switched ∧
    !p.revert) ∧
  (∃ (dt : Nat) (s : State) (m : Module),
    m = advance dt s.mod ∧ m.up ∧ m.epochs.flashPending) ∧
  (∃ (dt : Nat) (t : Transition) (d : Nat) (s : State) (m : Module),
    m = advance dt s.mod ∧ m.up ∧ m.supply.transition = some t ∧ t.source = .standby ∧ t.dest = .ready ∧
    2000000 ≤ m.time.elapsed - t.started ∧ m.badDie = some d) ∧
  (∃ (dt : Nat) (t : Transition) (s : State) (m : Module),
    m = advance dt s.mod ∧ m.up ∧ m.supply.transition = some t ∧ t.source = .standby ∧ t.dest = .ready ∧
    m.badDie = none ∧ 8000000 ≤ m.time.elapsed - t.started) ∧
  (∃ (dt : Nat) (t : Transition) (s : State) (m : Module),
    m = advance dt s.mod ∧ m.up ∧ m.supply.transition = some t ∧ t.source = .armed ∧ t.dest = .run ∧
    m.time.count.toNat % 4000 = 0) ∧
  (∃ (dt : Nat) (t : Transition) (m1 : Module) (s : State) (m : Module),
    m = advance dt s.mod ∧ m1 = programLog m ∧ m.up ∧ m.supply.transition = some t ∧ t.source = .standby ∧
    t.dest = .sleep ∧ !m.supply.wakeHeld) ∧
  (∃ (dt : Nat) (s : State) (m : Module),
    m = advance dt s.mod ∧ m.label = .off) ∧
  (∃ (dt : Nat) (d : Fin 46) (s : State) (m : Module),
    m = advance dt s.mod ∧ m.up ∧ (m.dies[d]).supply = 2) ∧
  (∃ (dt : Nat) (d : Fin 46) (s : State) (m : Module),
    m = advance dt s.mod ∧ m.up ∧ (m.dies[d]).supply = 1 ∧ d.val < 10) ∧
  (∃ (dt : Nat) (d : Fin 46) (i : Fin 36) (s : State) (m : Module),
    m = advance dt s.mod ∧ m.up ∧ (m.dies[d]).supply = 1 ∧ d.val = 10 + i.val) :=
  ⟨⟨0, tPending, _, ⟨tSwitching, []⟩, advance 0 tSwitching, rfl, rfl, (by decide +kernel)⟩,
   ⟨0, ⟨{ tReady with epochs := { tReady.epochs with flashPending := true } }, []⟩, advance 0
      ({ tReady with epochs := { tReady.epochs with flashPending := true } }), rfl, (by decide +kernel)⟩,
   ⟨0, tPending, ⟨{ tSwitching with epochs := { tSwitching.epochs with flashPending := true } }, []⟩, advance 0
      ({ tSwitching with epochs := { tSwitching.epochs with flashPending := true } }), rfl, (by decide +kernel)⟩,
   ⟨0, ⟨{ tReady with epochs := { tReady.epochs with flashPending := true } }, []⟩, advance 0
      ({ tReady with epochs := { tReady.epochs with flashPending := true } }), rfl, (by decide +kernel)⟩,
   ⟨0, tUp, 2, ⟨tRising, []⟩, advance 0 tRising, rfl, (by decide +kernel)⟩,
   ⟨0, tUp, ⟨{ tReady with supply := { tReady.supply with label := .standby, transition := some tUp } }, []⟩, advance
      0 ({ tReady with supply := { tReady.supply with label := .standby, transition := some tUp } }), rfl,
      (by decide +kernel)⟩,
   ⟨0, tToRun, ⟨{ tRun with supply := { tRun.supply with label := .armed, transition := some tToRun } }, []⟩, advance
      0 ({ tRun with supply := { tRun.supply with label := .armed, transition := some tToRun } }), rfl,
      (by decide +kernel)⟩,
   ⟨0, tToSleep, _, ⟨{ tStandby with supply := { tStandby.supply with transition := some tToSleep } }, []⟩, advance 0
      ({ tStandby with supply := { tStandby.supply with transition := some tToSleep } }), rfl, rfl,
      (by decide +kernel)⟩,
   ⟨0, ⟨Module.reset, []⟩, advance 0 Module.reset, rfl, (by decide +kernel)⟩,
   ⟨0, 2, ⟨updDie 2 (fun d => { d with supply := 2 }) tReady, []⟩, advance 0
      (updDie 2 (fun d => { d with supply := 2 }) tReady), rfl, (by decide +kernel)⟩,
   ⟨0, 2, ⟨tReady, []⟩, advance 0 tReady, rfl, (by decide +kernel)⟩,
   ⟨0, 12, 2, ⟨tReady, []⟩, advance 0 tReady, rfl, (by decide +kernel)⟩⟩

/-- Every clause of SupplyEventsComplete is met. -/
theorem witness_supplyEventsComplete :
  (∃ (dt : Nat) (s : State) (m : Module),
    m = advance dt s.mod ∧ m.up ∧ m.supply.lvinOk ∧ m.supply.hvauxOk) ∧
  (∃ (dt : Nat) (s : State) (m : Module),
    m = advance dt s.mod ∧ m.supply.lvinOk ∧ m.label ≠ .off ∧ !m.supply.hvauxOk) ∧
  (∃ (dt : Nat) (s : State) (m : Module),
    m = advance dt s.mod ∧ m.supply.lvinOk ∧ m.label = .sleep ∧ m.supply.hvauxOk) ∧
  (∃ (dt : Nat) (s : State) (m : Module),
    m = advance dt s.mod ∧ m.supply.holdup) ∧
  (∃ (dt : Nat) (s : State) (m : Module),
    m = advance dt s.mod ∧ m.supply.holdup) ∧
  (∃ (dt : Nat) (s : State) (m : Module),
    m = advance dt s.mod ∧ !m.supply.holdup) ∧
  (∃ (dt : Nat) (s : State) (m : Module),
    m = advance dt s.mod) ∧
  (∃ (dt : Nat) (s : State) (m : Module),
    m = advance dt s.mod ∧ m.up ∧ m.supply.hvauxOk ∧ m.supply.lvinOk) ∧
  (∃ (dt : Nat) (current : Word) (s : State) (m : Module),
    m = advance dt s.mod ∧ m.up ∧ F32.le (F32.ofNat 8) current ∧ F32.le current (F32.ofNat 12)) ∧
  (∃ (dt : Nat) (current : Word) (s : State) (m : Module),
    m = advance dt s.mod ∧ m.up ∧ m.supply.hvil ∧ F32.lt current (F32.ofNat 4)) ∧
  (∃ (dt : Nat) (s : State) (m : Module),
    m = advance dt s.mod ∧ m.up ∧ m.atLeastReady) ∧
  (∃ (dt : Nat) (s : State) (m : Module),
    m = advance dt s.mod ∧ m.up ∧ m.atLeastReady) ∧
  (∃ (dt : Nat) (s : State) (m : Module),
    m = advance dt s.mod ∧ m.up) ∧
  (∃ (dt : Nat) (s : State) (m : Module),
    m = advance dt s.mod ∧ m.up) ∧
  (∃ (dt : Nat) (s : State) (m : Module),
    m = advance dt s.mod ∧ m.up) :=
  ⟨⟨0, ⟨tReady, []⟩, advance 0 tReady, rfl, (by decide +kernel)⟩,
   ⟨0, ⟨{ tReady with supply := { tReady.supply with hvauxOk := false } }, []⟩, advance 0
      ({ tReady with supply := { tReady.supply with hvauxOk := false } }), rfl, (by decide +kernel)⟩,
   ⟨0, ⟨tAsleep, []⟩, advance 0 tAsleep, rfl, (by decide +kernel)⟩,
   ⟨0, ⟨tHoldup, []⟩, advance 0 tHoldup, rfl, (by decide +kernel)⟩,
   ⟨0, ⟨tHoldup, []⟩, advance 0 tHoldup, rfl, (by decide +kernel)⟩,
   ⟨0, ⟨tReady, []⟩, advance 0 tReady, rfl, (by decide +kernel)⟩,
   ⟨0, ⟨tReady, []⟩, advance 0 tReady, rfl⟩,
   ⟨0, ⟨tReady, []⟩, advance 0 tReady, rfl, (by decide +kernel)⟩,
   ⟨0, 0x41200000, ⟨tReady, []⟩, advance 0 tReady, rfl, (by decide +kernel)⟩,
   ⟨0, 0x3F800000, ⟨tReady, []⟩, advance 0 tReady, rfl, (by decide +kernel)⟩,
   ⟨0, ⟨tReady, []⟩, advance 0 tReady, rfl, (by decide +kernel)⟩,
   ⟨0, ⟨tReady, []⟩, advance 0 tReady, rfl, (by decide +kernel)⟩,
   ⟨0, ⟨tReady, []⟩, advance 0 tReady, rfl, (by decide +kernel)⟩,
   ⟨0, ⟨tReady, []⟩, advance 0 tReady, rfl, (by decide +kernel)⟩,
   ⟨0, ⟨tReady, []⟩, advance 0 tReady, rfl, (by decide +kernel)⟩⟩

/-- Every clause of FaultAndMemoryEventsComplete is met. -/
theorem witness_faultAndMemoryEventsComplete :
  (∃ (dt : Nat) (code : Nat) (detail : Nat) (s : State) (m : Module),
    m = advance dt s.mod ∧ m.up ∧ (faultInfo code).isSome ∧ detail < 65536) ∧
  (∃ (dt : Nat) (s : State) (m : Module),
    m = advance dt s.mod ∧ m.up ∧ m.dieRuns 1 ∧ m.faults.buffer ≠ []) ∧
  (∃ (dt : Nat) (s : State) (m : Module),
    m = advance dt s.mod ∧ m.up ∧ m.dieRuns 1 ∧ m.faults.buffer ≠ []) ∧
  (∃ (dt : Nat) (block : Nat) (addr : Nat) (s : State) (m : Module),
    m = advance dt s.mod ∧ m.up ∧ blockValid block ∧ addr < blockWords block ∧ m.dieRuns (blockDie block) ∧
    (m.memory.scrubbers[scrubberOf block]).window + 1 ≤ m.num P.memCorrectedRateLimit) ∧
  (∃ (dt : Nat) (block : Nat) (addr : Nat) (s : State) (m : Module),
    m = advance dt s.mod ∧ m.up ∧ blockValid block ∧ addr < blockWords block ∧ m.dieRuns (blockDie block) ∧ block = 4) ∧
  (∃ (dt : Nat) (sc : Fin 5) (s : State) (m : Module),
    m = advance dt s.mod ∧ m.up ∧ m.dieRuns (scrubberDie sc) ∧ m.scrubTick sc ∧
    (m.memory.scrubbers[sc]).address + 1 < blockWords (m.memory.scrubbers[sc]).block ∧
    !m.memory.filling.contains (m.memory.scrubbers[sc]).block) ∧
  (∃ (dt : Nat) (sc : Fin 5) (s : State) (m : Module),
    m = advance dt s.mod ∧ m.up ∧ m.dieRuns (scrubberDie sc) ∧
    m.num (P.memScrubLapLimit + sc.val) < m.time.elapsed - (m.memory.scrubbers[sc]).lapStart) ∧
  (∃ (dt : Nat) (d : Fin 46) (blocks : List Nat) (m1 : Module) (s : State) (m : Module),
    m = advance dt s.mod ∧ m1 = blocks.foldl (fun x c => filled c x) m ∧ m.up ∧
    blocks = m.memory.filling.filter (fun c => blockDie c == d) ∧ blocks ≠ []) ∧
  (∃ (dt : Nat) (d : Fin 46) (v10 : Word) (v100 : Word) (temp : Word) (m1 : Module) (s : State) (m : Module),
    m = advance dt s.mod ∧
    m1 = endCond F.thermSensorBroken d.val
      (endCond F.thermStale d.val (updDie d (fun x => { x with temp := temp, measuredAt := some m.time.elapsed }) m))
      ∧
    m.up ∧ (m.dies[d]).supply ≠ 0 ∧ m.wantsTemp d ∧ !m.clockedStopped d.val ∧ m.memory.scanRequest ≠ some d.val ∧
    replyCrossing d.val = none ∧ !diodeBroken v10 v100) ∧
  (∃ (dt : Nat) (d : Fin 46) (v10 : Word) (v100 : Word) (s : State) (m : Module),
    m = advance dt s.mod ∧ m.up ∧ (m.dies[d]).supply ≠ 0 ∧ m.wantsTemp d ∧ !m.clockedStopped d.val ∧
    m.memory.scanRequest ≠ some d.val ∧ replyCrossing d.val = none ∧ diodeBroken v10 v100) ∧
  (∃ (dt : Nat) (d : Fin 46) (v10 : Word) (v100 : Word) (temp : Word) (x : Fin 22) (m1 : Module) (s : State)
     (m : Module),
    m = advance dt s.mod ∧
    m1 = endCond F.thermSensorBroken d.val
      (endCond F.thermStale d.val (updDie d (fun x => { x with temp := temp, measuredAt := some m.time.elapsed }) m))
      ∧
    m.up ∧ (m.dies[d]).supply ≠ 0 ∧ m.wantsTemp d ∧ !m.clockedStopped d.val ∧ m.memory.scanRequest ≠ some d.val ∧
    replyCrossing d.val = some x ∧ !diodeBroken v10 v100) ∧
  (∃ (dt : Nat) (d : Fin 46) (s : State) (m : Module),
    m = advance dt s.mod ∧ m.up ∧ m.atLeastReady ∧ m.scanned d ∧
    Nat.max ((m.dies[d]).measuredAt.getD 0) m.supply.readyAt + m.us P.thermStaleLimit < m.time.elapsed) ∧
  (∃ (dt : Nat) (block : Nat) (addr : Nat) (m1 : Module) (s : State) (m : Module),
    m = advance dt s.mod ∧
    m1 = { m with memory := { m.memory with bad := m.memory.bad.filter (fun p => !(p.1 == block && p.2 == addr)) } } ∧
    m.up ∧ blockValid block ∧ 16 ≤ block ∧ blockK block ≠ 2) ∧
  (∃ (dt : Nat) (block : Nat) (addr : Nat) (m1 : Module) (s : State) (m : Module),
    m = advance dt s.mod ∧
    m1 = { m with memory := { m.memory with bad := m.memory.bad.filter (fun p => !(p.1 == block && p.2 == addr)) } } ∧
    m.up ∧ blockValid block ∧ 16 ≤ block ∧ blockK block = 2) ∧
  (∃ (dt : Nat) (s : State) (m : Module),
    m = advance dt s.mod ∧ m.up ∧ m.dieRuns 1 ∧ 240000000000 ≤ m.service.unprogrammed) :=
  ⟨⟨0, 0x2004, 0, ⟨tReady, []⟩, advance 0 tReady, rfl, (by decide +kernel)⟩,
   ⟨0, ⟨{ tReady with faults := { Faults.reset with buffer := [tRecord] } }, []⟩, advance 0
      ({ tReady with faults := { Faults.reset with buffer := [tRecord] } }), rfl, (by decide +kernel)⟩,
   ⟨0, ⟨{ tReady with faults := { Faults.reset with buffer := [tRecord] } }, []⟩, advance 0
      ({ tReady with faults := { Faults.reset with buffer := [tRecord] } }), rfl, (by decide +kernel)⟩,
   ⟨0, 16, 7, ⟨tReady, []⟩, advance 0 tReady, rfl, (by decide +kernel)⟩,
   ⟨0, 4, 7, ⟨tReady, []⟩, advance 0 tReady, rfl, (by decide +kernel)⟩,
   ⟨0, 1, ⟨tReady, []⟩, advance 0 tReady, rfl, (by decide +kernel)⟩,
   ⟨0, 1, ⟨{ tReady with time := { tReady.time with elapsed := 10000000000000 } }, []⟩, advance 0
      ({ tReady with time := { tReady.time with elapsed := 10000000000000 } }), rfl, (by decide +kernel)⟩,
   ⟨0, 2, [16], _, ⟨tFilling, []⟩, advance 0 tFilling, rfl, rfl, (by decide +kernel)⟩,
   ⟨0, 2, 0x3F000000, 0x3F0F5C29, 0x42A00000, _, ⟨tAsking, []⟩, advance 0 tAsking, rfl, rfl, (by decide +kernel)⟩,
   ⟨0, 2, 0, 0, ⟨tAsking, []⟩, advance 0 tAsking, rfl, (by decide +kernel)⟩,
   ⟨0, 4, 0x3F000000, 0x3F0F5C29, 0x42A00000, 1, _, ⟨
        { tAsking with
            interp :=
              { tAsking.interp with waiting := tAsking.interp.waiting.map (fun w => { w with target := 4 }) } }, []⟩,
      advance 0 (
        { tAsking with
            interp :=
              { tAsking.interp with waiting := tAsking.interp.waiting.map (fun w => { w with target := 4 }) } }), rfl,
      rfl, (by decide +kernel)⟩,
   ⟨0, 2, ⟨tReady, []⟩, advance 0 tReady, rfl, (by decide +kernel)⟩,
   ⟨0, 20, 7, _, ⟨{ tReady with memory := { tReady.memory with bad := [(20, 7)] } }, []⟩, advance 0
      ({ tReady with memory := { tReady.memory with bad := [(20, 7)] } }), rfl, rfl, (by decide +kernel)⟩,
   ⟨0, 18, 3, _, ⟨updRegion 0 (fun x => { x with affected := [3] }) tReady, []⟩, advance 0
      (updRegion 0 (fun x => { x with affected := [3] }) tReady), rfl, rfl, (by decide +kernel)⟩,
   ⟨0, ⟨{ tReady with service := { bootCount := 1, operatingTime := 0, unprogrammed := 240000000001 } }, []⟩, advance
      0 ({ tReady with service := { bootCount := 1, operatingTime := 0, unprogrammed := 240000000001 } }), rfl,
      (by decide +kernel)⟩⟩

end Sys2Proof.Machine
end

namespace Sys2Proof.Machine

/-- R68 in remainders: under a period other than 0, the boundaries are the counts that leave the phase's remainder. -/
theorem atBoundary_iff_mod_eq (m : Module) (n : Fin 8) (hp : m.rnum n (P.regionPeriod + n.val) ≠ 0) :
    m.atBoundary n = true ↔
      m.time.count.toNat % m.rnum n (P.regionPeriod + n.val) =
        m.rnum n (P.regionPhase + n.val) % m.rnum n (P.regionPeriod + n.val) := by
  simp [Module.atBoundary, hp]

/-- Equal remainders of naturals are a difference, taken in the integers, that the modulus divides: the count may be
less than the phase. -/
theorem nat_mod_eq_iff_int_sub_emod_eq_zero (a b p : Nat) : a % p = b % p ↔ ((a : Int) - b) % p = 0 := by
  rw [← Int.emod_eq_emod_iff_emod_sub_eq_zero]
  exact_mod_cast Iff.rfl

/-- Region 4 · d + r lies on fabric die d, which is die 2 + d of the module (R68). -/
theorem regionDie_val_of_eq (d : Fin 2) (r : Fin 4) (n : Fin 8) (hn : n.val = 4 * d.val + r.val) :
    (regionDie n).val = 2 + d.val := by
  unfold regionDie
  split
  case isTrue h => change 2 = _; omega
  case isFalse h => change 3 = _; omega

/-- Settles O22: the remainders of the model's test are those of R68's difference, and a region's die is the quotient
of its number by 4. -/
theorem periodBoundaries : Obligations.PeriodBoundaries := by
  refine ⟨fun m n hp => ?boundary, regionDie_val_of_eq⟩
  case boundary => rw [atBoundary_iff_mod_eq m n hp, nat_mod_eq_iff_int_sub_emod_eq_zero]

end Sys2Proof.Machine

namespace Sys2Proof.Machine

/-- The table of R517 as a chain of conditions, of which the first that holds gives the status. -/
theorem headerCheck_eq_ite (words : List Word) :
    headerCheck words =
      (if words.getLast? ≠ some (crc32c words.dropLast) then some .badCrc
      else if bits (words.getD 0 0) 15 8 + 2 ≠ words.length then some .badLength
      else if bits (words.getD 0 0) 7 4 ≠ 2 then some .badVersion
      else if packetOpcode words ∉ opcodes then some .unknownOpcode
      else none) := by
  simp only [headerCheck, packetOpcode, bne_iff_ne, Bool.not_eq_true', List.contains_eq_mem, decide_eq_false_iff_not]
  rfl

/-- A header check that fails gives the reply its status, with detail 0 (R517). -/
theorem takePacket_of_headerCheck_eq_some {q : QueuedPacket} {st : Status} (m : Module)
    (hc : headerCheck q.words = some st) :
    takePacket q m = refuseRaw q.transport q.sender q.via (q.words.getD 0 0) st 0 m := by
  simp only [takePacket, hc]

/-- A packet whose header checks pass is the command of its word 0. -/
theorem takePacket_of_headerCheck_eq_none {q : QueuedPacket} (m : Module) (hc : headerCheck q.words = none) :
    takePacket q m =
      runCommand (packetOpcode q.words) (hdrOf q.transport q.sender q.via q.fromHead (q.words.getD 0 0))
        (packetParams q.words) q.stamps m := by
  simp only [takePacket, hc, packetOpcode, packetParams]

/-- PACKET_RECEIVED hands a decodable packet to a module that attends: it is taken, and does not wait (R87, R167). -/
theorem exec_packetReceived_of_attends {dt : Nat} {t : Transport} {sender : Nat} {v : Via} {fromHead : Bool}
    {words : List Word} {stamps : Stamps} {s : State} (hl : (advance dt s.mod).attends = true)
    (hd : decodable words = true) :
    exec (.packetReceived dt t sender v fromHead words stamps) s =
      became (takePacket (packetOf t sender v fromHead words stamps) (advance dt s.mod)) s :=
  congrArg (became · s) (packetWords_taken (q := packetOf t sender v fromHead words stamps) hl hd)

/-- Settles O7: an attending module takes the packet at once, and what it does with it is decided by the first row of
R517's table that fails. -/
theorem headerChecksInOrder : Obligations.HeaderChecksInOrder := by
  rintro dt t sender v fromHead words stamps s _ rfl hl hd
  rw [exec_packetReceived_of_attends hl hd]
  have refused (st : Status) (hc : headerCheck words = some st) :
      became (takePacket (packetOf t sender v fromHead words stamps) (advance dt s.mod)) s =
        became (refuseRaw t sender v (words.getD 0 0) st 0 (advance dt s.mod)) s :=
    congrArg (became · s) (takePacket_of_headerCheck_eq_some _ hc)
  have table := headerCheck_eq_ite words
  split_ifs at table ⊢ with hcrc hlen hver hop
  · exact refused .badCrc table
  · exact refused .badLength table
  · exact refused .badVersion table
  · exact congrArg (became · s) (takePacket_of_headerCheck_eq_none _ table)
  · exact refused .unknownOpcode table

end Sys2Proof.Machine

namespace Sys2Proof.Machine

/-- A trip of DCL_OV2 finds none of its functions enabled and sets no pattern (R578); an epoch that enables traction,
converter and charger follows while the fault stays active. -/
def trippedThenEnabled : Module :=
  { raise F.dclOv2 0 true tReady with epochs := { tReady.epochs with active := tWork } }

theorem trippedThenEnabled_isActive : isActive trippedThenEnabled.faults.active F.dclOv2 0 = true := by
  decide +kernel

/-- The raising of the first trip is the one record so far. -/
theorem trippedThenEnabled_records :
    trippedThenEnabled.faults.buffer.map (fun r => (r.kind, r.func)) = [(1, 0)] := by
  decide +kernel

/-- A repeat of a fault of the protection path reacts in full: only its entry stays as it was (R430, R577). -/
theorem raiseAt_again_of_gdcReacts {tick : Tick} {code detail : Nat} {cond : Bool} {m : Module}
    (active : isActive m.faults.active code detail = true) (reacts : gdcReacts code = true) :
    raiseAt tick code detail cond m = react code detail (setCond code (· == detail) cond m) := by
  rw [raiseAt_again tick code detail cond m active, if_pos reacts]

/-- The reaction to the second trip sets the four patterns that the first could not set, and the setting of each is a
KIND 3 record (R592). -/
theorem react_trippedThenEnabled_records :
    (react F.dclOv2 0 (setCond F.dclOv2 (· == 0) true trippedThenEnabled)).faults.buffer.map
      (fun r => (r.kind, r.func)) = [(1, 0), (3, 0), (3, 1), (3, 2), (3, 3)] := by
  decide +kernel

/-- Refutes O14: the repeat of a fault makes no record of its raising, but a repeated trip sets its patterns again
(R430), and a pattern that it sets anew is a KIND 3 record in the write buffer (R592). -/
theorem not_faultRaisedTwiceIsOneEntry : ¬ Obligations.FaultRaisedTwiceIsOneEntry := by
  rintro ⟨repeated, -⟩
  obtain ⟨-, sameBuffer, -⟩ := repeated 0 F.dclOv2 0 true trippedThenEnabled trippedThenEnabled_isActive
  rw [raiseAt_again_of_gdcReacts trippedThenEnabled_isActive rfl] at sameBuffer
  have sameRecords := congrArg (List.map fun r => (r.kind, r.func)) sameBuffer
  rw [react_trippedThenEnabled_records, trippedThenEnabled_records] at sameRecords
  exact absurd sameRecords (by decide)

end Sys2Proof.Machine

namespace Sys2Proof.Machine

/-- Settles O1: both clauses are arms of `step`. -/
theorem stepTakesTheFrontCommand : Obligations.StepTakesTheFrontCommand := by
  constructor
  case left =>
    intro c cs s h
    simp only [step, h]
  case right =>
    intro s h
    simp only [step, h]

/-- Settles O2: the meaning of every row is an effect on the module after the time that passed. -/
theorem everyCommandIsAnswered : Obligations.EveryCommandIsAnswered := by
  intro c s
  cases c <;> exact ⟨_, rfl⟩

/-- Settles O3: State.reset is written out, and its nine functions carry no pattern. -/
theorem resetIsOff : Obligations.ResetIsOff := by
  refine ⟨rfl, rfl, rfl, rfl, fun f => ?patterns, rfl, rfl, rfl, rfl, rfl, rfl, rfl, rfl⟩
  case patterns => exact Vector.getElem_replicate _

/-- Settles O4: the table and the pending commands are empty, the mode is that of the strap, every region memory is empty. -/
theorem resetIsSafe : Obligations.ResetIsSafe := by
  change coreOk [] [] (Lockstep.init false).mode false (Vector.replicate 8 Region.init) = true
  decide

end Sys2Proof.Machine

namespace Sys2Proof.Machine

/-- Every command keeps the invariant: it lets time pass, and its effect keeps it. -/
theorem exec_safe (c : Instr) (s t : State) (safe : s.safe = true) (h : exec c s = .next t) : t.safe = true := by
  cases c with
  | getStatus | echo | readParam | readParamBlock | stageParam | writeLive | fabricSupplyWrite | flogRecordSelect
  | flogCountSelect | flogErase | openStaging | commitEpochAt | discardStaged | revertEpoch | stageLaunch
  | readLaunch | epochConfirm | setPowerState | torqueSetpoint | speedSetpoint | loopOpen | loopClose | shiftRequest
  | parkLock | chargeStart | chargeStop | exportStartAc | exportStartDc | exportStopAc | exportStopDc | measureTemp
  | selftestSup | selftestFabric | selftestIsland | selftestComparatorPair | selftestDetectorPair | calibrate
  | readFaults | ackFaults | fillMemory | scrubControl | scrubRestart | readSlack | readSlackClear | gateDiag
  | admitTailstock | releaseTailstock | timeSync | timeSyncProbe | allocateTorque | relay | debugAttach | resetDie =>
    exact effect_safe _ _ s t safe (hostCommand_safe _ _ _ _) h
  | fabricSupplyChangeDone => exact effect_safe _ _ s t safe (fun _ k => awake_safe _ _ k (supplyDone_safe _)) h
  | flogEraseDone => exact effect_safe _ _ s t safe (fun _ k => awake_safe _ _ k flogEraseDone_safe) h
  | moduleRestart => exact effect_safe _ _ s t safe (restartCommand_safe _ _) h
  | dieResetRelease => exact effect_safe _ _ s t safe (fun _ k => awake_safe _ _ k (dieResetRelease_safe _)) h
  | packetReceived => exact effect_safe _ _ s t safe (packetWords_safe _) h
  | packetUndecodable =>
    exact effect_safe _ _ s t safe (fun _ k => awake_safe _ _ k fun _ l => onDie_safe _ _ _ l countUndecodable_safe) h
  | transportQueueFull => exact effect_safe _ _ s t safe (queueFull_safe _) h
  | segmentFrame => exact effect_safe _ _ s t safe (segmentFrame_safe _ _ _ _ _ _) h
  | segmentTimeout => exact effect_safe _ _ s t safe (fun _ k => awake_safe _ _ k segmentTimeout_safe) h
  | svFrame => exact effect_safe _ _ s t safe (svFrame_safe _) h
  | replySend => exact effect_safe _ _ s t safe (fun _ k => awake_safe _ _ k (replySend_safe _)) h
  | timedCommandDue => exact effect_safe _ _ s t safe (fun _ k => awake_safe _ _ k timedDue_safe) h
  | periodBoundary => exact effect_safe _ _ s t safe (fun _ k => awake_safe _ _ k (periodBoundary_safe _)) h
  | launch => exact effect_safe _ _ s t safe (fun _ k => onRegion_safe _ _ _ k (launch_safe _ _)) h
  | sampleWordArrival => exact effect_safe _ _ s t safe (fun _ k => awake_safe _ _ k (sampleWordArrival_safe _ _)) h
  | laneComplete => exact effect_safe _ _ s t safe (fun _ k => onRegion_safe _ _ _ k (laneComplete_safe _ _ _ _ _)) h
  | resolveKey => exact effect_safe _ _ s t safe (fun _ k => onRegion_safe _ _ _ k (resolveKey_safe _ _ _ _ _)) h
  | collectorAccept => exact effect_safe _ _ s t safe (fun _ k => onRegion_safe _ _ _ k (collectorAccept_safe _ _ _)) h
  | commitInstant => exact effect_safe _ _ s t safe (fun _ k => onRegion_safe _ _ _ k (evaluate_safe _ _)) h
  | deferredCommit => exact effect_safe _ _ s t safe (fun _ k => onRegion_safe _ _ _ k (evaluate_safe _ _)) h
  | fabricUnitStuck => exact effect_safe _ _ s t safe (fun _ k => onRegion_safe _ _ _ k (unitStuck_safe _ _)) h
  | fabricFallbackRate => exact effect_safe _ _ s t safe (fun _ k => onRegion_safe _ _ _ k (checkRate_safe _)) h
  | countWindowEnd => exact effect_safe _ _ s t safe (fun _ k => awake_safe _ _ k windowBegin_safe) h
  | fabricCheckpointError => exact effect_safe _ _ s t safe (fun _ k => onRegion_safe _ _ _ k (checkpointError_safe _)) h
  | checkpointRebuilt => exact effect_safe _ _ s t safe (fun _ k => onRegion_safe _ _ _ k (checkpointRebuilt_safe _)) h
  | fabricBistDone => exact effect_safe _ _ s t safe (fun _ k => awake_safe _ _ k (fabricBistDone_safe _ _)) h
  | supBistDone => exact effect_safe _ _ s t safe (fun _ k => awake_safe _ _ k (supBistDone_safe _ _ _ _)) h
  | xingEventOverflow => exact effect_safe _ _ s t safe (eventOverflow_safe _) h
  | crossingStallTimeout => exact effect_safe _ _ s t safe (fun _ k => awake_safe _ _ k (stallTimeoutDrain_safe _)) h
  | spindleTsRefLost => exact effect_safe _ _ s t safe tsRefLost_safe h
  | spindleRefLost => exact effect_safe _ _ s t safe xtalLost_safe h
  | spindleLost => exact effect_safe _ _ s t safe spindleLost_safe h
  | lockstepCheckpoint => exact effect_safe _ _ s t safe (fun _ k => awake_safe _ _ k (checkpointDrain_safe _ _ _ _)) h
  | lockstepMismatch => exact effect_safe _ _ s t safe (fun _ k => awake_safe _ _ k (mismatchDrain_safe _)) h
  | supLockstepLost => exact effect_safe _ _ s t safe (fun _ k => awake_safe _ _ k (retryFailedDrain_safe _)) h
  | flyingStart => exact effect_safe _ _ s t safe (fun _ k => onRegion_safe _ _ _ k (flyingStart_safe _)) h
  | trPlausDwellExpiry => exact effect_safe _ _ s t safe (fun _ k => onRegion_safe _ _ _ k (plausFault_safe _ _)) h
  | preselectUpdate => exact effect_safe _ _ s t safe (fun _ k => awake_safe _ _ k preselectAll_safe) h
  | islandHealthChange => exact effect_safe _ _ s t safe (fun _ k => awake_safe _ _ k (preselectFor_safe _)) h
  | patternReevaluation => exact effect_safe _ _ s t safe (fun _ k => awake_safe _ _ k (reevaluate_safe _)) h
  | patternWriteToRegion => exact effect_safe _ _ s t safe (fun _ k => onRegion_safe _ _ _ k (writePattern_safe _)) h
  | chopperPeriod => exact effect_safe _ _ s t safe (fun _ k => onGdc_safe _ _ k (chopperPeriod_safe _ _)) h
  | chSwitchShort => exact effect_safe _ _ s t safe (fun _ k => onGdc_safe _ _ k chopperShort_safe) h
  | chopperBackstop => exact effect_safe _ _ s t safe (fun _ k => onGdc_safe _ _ k chopperBackstop_safe) h
  | dclOv1 => exact effect_safe _ _ s t safe (fun _ k => awake_safe _ _ k dclOv1_safe) h
  | dclOv2 => exact effect_safe _ _ s t safe (fun _ k => awake_safe _ _ k dclOv2_safe) h
  | fbEdge => exact effect_safe _ _ s t safe (fun _ k => onLines_safe _ _ _ k (fbEdge_safe _ _ _)) h
  | fbIndex => exact effect_safe _ _ s t safe (fun _ k => onPort_safe _ _ _ k (fbIndex_safe _ _ _ _)) h
  | fbHallInvalid => exact effect_safe _ _ s t safe (fun _ k => onPort_safe _ _ _ k (fbHallInvalid_safe _)) h
  | ssiFrame => exact effect_safe _ _ s t safe (fun _ k => onPort_safe _ _ _ k (ssiFrame_safe _ _ _)) h
  | fbStandstillTimeout => exact effect_safe _ _ s t safe (fun _ k => onGdc_safe _ _ k (fbStandstill_safe _)) h
  | fbLineBreak => exact effect_safe _ _ s t safe (fun _ k => onLines_safe _ _ _ k (lineBreak_safe _ _)) h
  | fbEpOverrun => exact effect_safe _ _ s t safe (fun _ k => onGdc_safe _ _ k (epOverrun_safe _)) h
  | converterCycleStart => exact effect_safe _ _ s t safe (fun _ k => onGdc_safe _ _ k (legCycle_safe _)) h
  | diComparatorTrip => exact effect_safe _ _ s t safe (fun _ k => onGdc_safe _ _ k (legTrip_safe _ _)) h
  | dutyMaxEnd => exact effect_safe _ _ s t safe (fun _ k => onGdc_safe _ _ k (dutyMaxEnd_safe _)) h
  | prechargeComplete => exact effect_safe _ _ s t safe (fun _ k => awake_safe _ _ k prechargeComplete_safe) h
  | cvPrechargeFail => exact effect_safe _ _ s t safe (fun _ k => awake_safe _ _ k prechargeFail_safe) h
  | dcExportEnd => exact effect_safe _ _ s t safe (fun _ k => awake_safe _ _ k (dcExportEnd_safe _)) h
  | pilotClassify => exact effect_safe _ _ s t safe (fun _ k => awake_safe _ _ k (pilotClassify_safe _)) h
  | proximityClassify => exact effect_safe _ _ s t safe (fun _ k => awake_safe _ _ k (proximityClassify_safe _)) h
  | sourceLost => exact effect_safe _ _ s t safe (fun _ k => awake_safe _ _ k sourceLost_safe) h
  | chStateEvaluation => exact effect_safe _ _ s t safe (fun _ k => awake_safe _ _ k chEvaluate_safe) h
  | cvCgPlausDwellExpiry => exact effect_safe _ _ s t safe (fun _ k => awake_safe _ _ k (cvFault_safe _)) h
  | islandFrame => exact effect_safe _ _ s t safe (fun _ k => awake_safe _ _ k (islandFrame_safe _ _)) h
  | islandStatusFrame => exact effect_safe _ _ s t safe (fun _ k => awake_safe _ _ k (islandStatusFrame_safe _ _)) h
  | gdLinkLost => exact effect_safe _ _ s t safe (fun _ k => awake_safe _ _ k (linkLost_safe _ _)) h
  | enFall => exact effect_safe _ _ s t safe enFallen_safe h
  | enRise => exact effect_safe _ _ s t safe enRise_safe h
  | gdUvlo => exact effect_safe _ _ s t safe (fun _ k => onIsland_safe _ _ _ k (uvlo_safe _ _)) h
  | islandRailTimeout => exact effect_safe _ _ s t safe (fun _ k => onIsland_safe _ _ _ k (railTimeout_safe _)) h
  | gdDesat => exact effect_safe _ _ s t safe (fun _ k => onIsland_safe _ _ _ k (desat_safe _)) h
  | gdHardShort => exact effect_safe _ _ s t safe (fun _ k => onIsland_safe _ _ _ k (hardShort_safe _)) h
  | softTurnOffStage => exact effect_safe _ _ s t safe (fun _ k => onIsland_safe _ _ _ k (softStage_safe _)) h
  | islandSelftestDone => exact effect_safe _ _ s t safe (fun _ k => onGdc_safe _ _ k (islandSelftestDone_safe _ _ _ _ _)) h
  | gateDiagStep => exact effect_safe _ _ s t safe (fun _ k => onGdc_safe _ _ k (gateDiagStep_safe _ _ _)) h
  | hallCommutation => exact effect_safe _ _ s t safe (fun _ k => onGdc_safe _ _ k (commutate_safe _)) h
  | actuatorCarrierValley => exact effect_safe _ _ s t safe (fun _ k => awake_safe _ _ k (carrierValley_safe _ _ _ _ _)) h
  | axBootUvlo => exact effect_safe _ _ s t safe (fun _ k => awake_safe _ _ k (bootUvlo_safe _ _)) h
  | axPositionLost => exact effect_safe _ _ s t safe (fun _ k => awake_safe _ _ k (axPositionLost_safe _)) h
  | homingStall => exact effect_safe _ _ s t safe (fun _ k => awake_safe _ _ k (homingStall_safe _)) h
  | axMoveTimeout => exact effect_safe _ _ s t safe (fun _ k => awake_safe _ _ k (axMoveTimeout_safe _)) h
  | moveComplete => exact effect_safe _ _ s t safe (fun _ k => awake_safe _ _ k (moveComplete_safe _)) h
  | afeTrigger => exact effect_safe _ _ s t safe (fun _ k => awake_safe _ _ k (fireTrigger_safe _ _ _ _ _)) h
  | queueEntry => exact effect_safe _ _ s t safe (fun _ k => awake_safe _ _ k (queueEntry_safe _)) h
  | sliceRotation => exact effect_safe _ _ s t safe (fun _ k => awake_safe _ _ k (sliceRotation_safe _)) h
  | sliceCalibrationDone => exact effect_safe _ _ s t safe (fun _ k => awake_safe _ _ k (sliceCalibrated_safe _ _ _ _ _)) h
  | afeSdLost => exact effect_safe _ _ s t safe (fun _ k => awake_safe _ _ k (sdLost_safe _ _)) h
  | sdDetectorTrip => exact effect_safe _ _ s t safe (fun _ k => awake_safe _ _ k (detectorTrip_safe _ _ _)) h
  | protectionComparatorTrip => exact effect_safe _ _ s t safe (fun _ k => awake_safe _ _ k (comparatorTrip_safe _ _ _)) h
  | comparatorRelease => exact effect_safe _ _ s t safe (fun _ k => awake_safe _ _ k (memberRelease_safe _ _ _ _)) h
  | twinTestDone => exact effect_safe _ _ s t safe (fun _ k => awake_safe _ _ k (twinTestDone_safe _ _)) h
  | canFrameReceived => exact effect_safe _ _ s t safe (fun _ k => onBus_safe _ _ k (canFrame_safe _ _ _ _)) h
  | canFrameTransmitted => exact effect_safe _ _ s t safe (fun _ k => onBus_safe _ _ k (canTransmitted_safe _ _ _)) h
  | oneShotFail => exact effect_safe _ _ s t safe (fun _ k => onBus_safe _ _ k (oneShotFail_safe _ _)) h
  | busObjectEcc => exact effect_safe _ _ s t safe (fun _ k => onBus_safe _ _ k (objectEcc_safe _ _)) h
  | hpBufferFrame => exact effect_safe _ _ s t safe (fun _ k => onBus_safe _ _ k (hpFrame_safe _ _ _ _ _)) h
  | busOff => exact effect_safe _ _ s t safe (fun _ k => onBus_safe _ _ k (busOffP_safe _)) h
  | busOffRecovery => exact effect_safe _ _ s t safe (fun _ k => onBus_safe _ _ k (busOffRecovery_safe _ _)) h
  | busWake => exact effect_safe _ _ s t safe (busWake_safe _ _ _) h
  | addressClaim => exact effect_safe _ _ s t safe (fun _ k => onBus_safe _ _ k (addressClaim_safe _)) h
  | dm1Send => exact effect_safe _ _ s t safe (fun _ k => onBus_safe _ _ k dm1Send_safe) h
  | axleLinkFrame => exact effect_safe _ _ s t safe (fun _ k => onBus_safe _ _ k (axleFrame_safe _ _ _ _)) h
  | alPortDown => exact effect_safe _ _ s t safe (fun _ k => onBus_safe _ _ k (portDown_safe _)) h
  | ethernetDatagram => exact effect_safe _ _ s t safe (ethernetFrame_safe _ _) h
  | etLinkDown => exact effect_safe _ _ s t safe (fun _ k => onBus_safe _ _ k (etLinkDown_safe _)) h
  | syncSend => exact effect_safe _ _ s t safe (fun _ k => onBus_safe _ _ k syncSend_safe) h
  | syncReceived => exact effect_safe _ _ s t safe (fun _ k => onBus_safe _ _ k (syncReceived_safe _ _ _ _ _ _ _)) h
  | wiredSyncEdge => exact effect_safe _ _ s t safe (fun _ k => awake_safe _ _ k (wiredEdge_safe _)) h
  | syncHoldoverExpiry => exact effect_safe _ _ s t safe (fun _ k => onBus_safe _ _ k syncHoldover_safe) h
  | listenPeriodEnd => exact effect_safe _ _ s t safe (fun _ k => onBus_safe _ _ k listenEnd_safe) h
  | statusSend => exact effect_safe _ _ s t safe (fun _ k => onBus_safe _ _ k statusSend_safe) h
  | eventSend => exact effect_safe _ _ s t safe (fun _ k => onBus_safe _ _ k eventSend_safe) h
  | admissionLoss => exact effect_safe _ _ s t safe (fun _ k => awake_safe _ _ k (admissionLoss_safe _)) h
  | nodeRemoval => exact effect_safe _ _ s t safe (fun _ k => onBus_safe _ _ k (nodeSilent_safe _)) h
  | allocationInstant => exact effect_safe _ _ s t safe (fun _ k => awake_safe _ _ k allocationInstant_safe) h
  | sysAllocStale => exact effect_safe _ _ s t safe (fun _ k => onBus_safe _ _ k allocStale_safe) h
  | commitVoteDeadline => exact effect_safe _ _ s t safe (fun _ k => awake_safe _ _ k commitVote_safe) h
  | commitConfirmDeadline => exact effect_safe _ _ s t safe (fun _ k => awake_safe _ _ k confirmDeadline_safe) h
  | epochSwitch => exact effect_safe _ _ s t safe (fun _ k => awake_safe _ _ k (epochSwitch_safe _)) h
  | epochFlashDone => exact effect_safe _ _ s t safe (fun _ k => onFlash_safe _ _ k flashDone_safe) h
  | epochFlashFail => exact effect_safe _ _ s t safe (fun _ k => awake_safe _ _ k flashFail_safe) h
  | pwrTransitionFail => exact effect_safe _ _ s t safe (fun _ k => awake_safe _ _ k transitionFail_safe) h
  | startUp => exact effect_safe _ _ s t safe (startUp_safe _ _) h
  | lvinLost => exact effect_safe _ _ s t safe (lvinLost_safe _) h
  | lvinReturn => exact effect_safe _ _ s t safe (lvinReturn_safe _) h
  | hvauxLost => exact effect_safe _ _ s t safe (hvauxLost_safe _) h
  | hvilChange => exact effect_safe _ _ s t safe (hvilChange_safe _) h
  | fbSupplyLimit => exact effect_safe _ _ s t safe (fun _ k => awake_safe _ _ k (supplyLimit_safe _)) h
  | svRateChange => exact effect_safe _ _ s t safe (fun _ k => awake_safe _ _ k svRateChange_safe) h
  | patternVerify => exact effect_safe _ _ s t safe (fun _ k => awake_safe _ _ k (patternVerify_safe _ _)) h
  | faultRaised => exact effect_safe _ _ s t safe (faultRaised_safe _ _ _) h
  | flogProgram => exact effect_safe _ _ s t safe (fun _ k => onFlash_safe _ _ k (flogProgram_safe _)) h
  | twinTestOverdue => exact effect_safe _ _ s t safe (fun _ k => awake_safe _ _ k (twinOverdue_safe _ _ _)) h
  | memoryReadError => exact effect_safe _ _ s t safe (fun _ k => awake_safe _ _ k (readErrorDrain_safe _ _ _ _ _)) h
  | scrubTick => exact effect_safe _ _ s t safe (fun _ k => awake_safe _ _ k (scrub_safe _)) h
  | memScrubLap => exact effect_safe _ _ s t safe (fun _ k => awake_safe _ _ k (scrubLap_safe _)) h
  | fillDone => exact effect_safe _ _ s t safe (fun _ k => awake_safe _ _ k (fillDone_safe _)) h
  | tempMeasurement => exact effect_safe _ _ s t safe (fun _ k => awake_safe _ _ k (tempMeasured_safe _ _ _ _)) h
  | thermStale => exact effect_safe _ _ s t safe (fun _ k => awake_safe _ _ k (thermStale_safe _)) h
  | powerTransitionProgress => exact effect_safe _ _ s t safe (fun _ k => awake_safe _ _ k (powerProgress_safe _)) h
  | hvauxReturn => exact effect_safe _ _ s t safe (hvauxReturn_safe _) h
  | holdupStoreCharged => exact effect_safe _ _ s t safe holdupCharged_safe h
  | dieSupplyChange => exact effect_safe _ _ s t safe (fun _ k => awake_safe _ _ k (dieSupply_safe _ _)) h
  | referenceRecovery => exact effect_safe _ _ s t safe (fun _ k => awake_safe _ _ k (tsRecovered_safe _)) h
  | fbLineRestored => exact effect_safe _ _ s t safe (fun _ k => awake_safe _ _ k (lineRestored_safe _ _)) h
  | fbSupplyRecovery => exact effect_safe _ _ s t safe (fun _ k => awake_safe _ _ k (fbSupplyRecovery_safe _)) h
  | sdModulatorRecovery => exact effect_safe _ _ s t safe (fun _ k => awake_safe _ _ k (sdRecovered_safe _ _)) h
  | uvloRecovery => exact effect_safe _ _ s t safe (fun _ k => onIsland_safe _ _ _ k (uvloRecovery_safe _ _)) h
  | bootUvloRelease => exact effect_safe _ _ s t safe (fun _ k => awake_safe _ _ k (bootRelease_safe _ _)) h
  | etLinkUp => exact effect_safe _ _ s t safe (fun _ k => onBus_safe _ _ k (etLinkUp_safe _ _)) h
  | tpSessionTimeout => exact effect_safe _ _ s t safe (fun _ k => onBus_safe _ _ k tpTimeout_safe) h
  | wiredSyncPulseMissing => exact effect_safe _ _ s t safe (fun _ k => awake_safe _ _ k wiredMissing_safe) h
  | delayProbe => exact effect_safe _ _ s t safe (fun _ k => onBus_safe _ _ k (delayProbe_safe _)) h
  | tailstockReplyTimeout => exact effect_safe _ _ s t safe (fun _ k => awake_safe _ _ k replyTimeout_safe) h
  | wordRewrite => exact effect_safe _ _ s t safe (fun _ k => awake_safe _ _ k (wordRewrite_safe _ _)) h
  | operatingTimeProgram => exact effect_safe _ _ s t safe (fun _ k => onFlash_safe _ _ k operatingTimeProgram_safe) h

/-- Settles O5: the empty queue idles, and every command of a queue keeps the invariant. -/
theorem stepKeepsSafe : Obligations.StepKeepsSafe := by
  intro s t safe h
  cases hp : s.pending with
  | nil =>
    rw [stepTakesTheFrontCommand.2 s hp] at h
    cases h
    exact safe
  | cons c cs =>
    rw [stepTakesTheFrontCommand.1 c cs s hp] at h
    exact exec_safe c { s with pending := cs } t safe h

end Sys2Proof.Machine

namespace Sys2Proof.Machine

/-! ## What reaches a module in OFF or SLEEP (R547) -/

/-- A command whose effect leaves the module it finds lets time pass and does nothing else. -/
theorem effect_idle {dt : Nat} {f : Module → Module} {s : State} (h : f (advance dt s.mod) = advance dt s.mod) :
    ∃ e : Nat, effect dt f s = .next { s with mod := advance e s.mod } :=
  ⟨dt, congrArg (became · s) h⟩

theorem label_code_of_down {m : Module} (hd : m.up = false) : m.label.code < 2 := by
  simpa [Module.up] using hd

theorem listens_down {m : Module} (hd : m.up = false) : m.listens = false := by
  simp [Module.listens, Nat.not_le.2 (label_code_of_down hd)]

theorem restartCommand_down {h : Hdr} {b : Boot} {m : Module} (hd : m.up = false) : restartCommand h b m = m := by
  simp [restartCommand, listens_down hd]

theorem packetWords_down {q : QueuedPacket} {m : Module} (hd : m.up = false) : packetWords q m = m := by
  simp [packetWords, listens_down hd]

theorem queueFull_down {q : QueuedPacket} {m : Module} (hd : m.up = false) : queueFull q m = m := by
  simp [queueFull, listens_down hd]

theorem segmentFrame_down {t : Transport} {sender : Nat} {v : Via} {fromHead : Bool} {bytes : List Byte} {st : Stamps}
    {m : Module} (hd : m.up = false) : segmentFrame t sender v fromHead bytes st m = m := by
  simp [segmentFrame, listens_down hd]

theorem svFrame_down {bytes : List Byte} {m : Module} (hd : m.up = false) : svFrame bytes m = m := by
  simp [svFrame, listens_down hd]

theorem ethernetFrame_down {e : Fin 2} {f : EthFrame} {m : Module} (hd : m.up = false) : ethernetFrame e f m = m := by
  simp [ethernetFrame, listens_down hd]

theorem eventOverflow_down {i : Fin 22} {m : Module} (hd : m.up = false) : eventOverflow i m = m := by
  simp [eventOverflow, label_code_of_down hd]

theorem tsRefLost_down {m : Module} (hd : m.up = false) : tsRefLost m = m := by
  simp [tsRefLost, label_code_of_down hd]

theorem xtalLost_down {m : Module} (hd : m.up = false) : xtalLost m = m := by
  simp [xtalLost, label_code_of_down hd]

theorem spindleLost_down {m : Module} (hd : m.up = false) : spindleLost m = m := by
  simp [spindleLost, label_code_of_down hd]

theorem hvilChange_down {current : Word} {m : Module} (hd : m.up = false) : hvilChange current m = m := by
  simp [hvilChange, label_code_of_down hd]

theorem faultRaised_down {code detail : Nat} {cond : Bool} {m : Module} (hd : m.up = false) :
    faultRaised code detail cond m = m := by
  simp [faultRaised, label_code_of_down hd]

theorem holdupCharged_down {m : Module} (hd : m.up = false) : holdupCharged m = m := by
  simp [holdupCharged, Nat.not_le.2 (label_code_of_down hd)]

theorem onLines_down {p : Fin 6} {f : Module → Module} {m : Module} (hd : m.up = false) : onLines p f m = m := by
  unfold onLines
  split
  case isTrue => exact awake_down _ hd
  case isFalse => exact awake_down _ hd

/-- OFF and SLEEP are the two labels below STANDBY. -/
theorem label_code_lt_two {l : Power} (h : l = .off ∨ l = .sleep) : l.code < 2 := by
  rcases h with rfl | rfl <;> decide

/-- A module in OFF or SLEEP is still down when the time before a command has passed. -/
theorem up_advance_of_down {m : Module} (dt : Nat) (hl : m.label = .off ∨ m.label = .sleep) :
    (advance dt m).up = false := by
  simpa [Module.up, advance_label_down dt (label_code_lt_two hl)] using label_code_lt_two hl

/-- A command that does not wake leaves a module in OFF or SLEEP to the passing of time. -/
theorem exec_of_not_wakes (c : Instr) (s : State) (hw : wakes c = false)
    (hd : ∀ dt : Nat, (advance dt s.mod).up = false) :
    ∃ dt : Nat, exec c s = .next { s with mod := advance dt s.mod } := by
  cases c with
  | enFall | enRise | busWake | startUp | lvinLost | lvinReturn | hvauxLost | hvauxReturn => cases hw
  | getStatus | echo | readParam | readParamBlock | stageParam | writeLive | fabricSupplyWrite | flogRecordSelect
  | flogCountSelect | flogErase | openStaging | commitEpochAt | discardStaged | revertEpoch | stageLaunch
  | readLaunch | epochConfirm | setPowerState | torqueSetpoint | speedSetpoint | loopOpen | loopClose | shiftRequest
  | parkLock | chargeStart | chargeStop | exportStartAc | exportStartDc | exportStopAc | exportStopDc | measureTemp
  | selftestSup | selftestFabric | selftestIsland | selftestComparatorPair | selftestDetectorPair | calibrate
  | readFaults | ackFaults | fillMemory | scrubControl | scrubRestart | readSlack | readSlackClear | gateDiag
  | admitTailstock | releaseTailstock | timeSync | timeSyncProbe | allocateTorque | relay | debugAttach | resetDie =>
    exact effect_idle (hostCommand_down _ _ _ _ (hd _))
  | fabricSupplyChangeDone | flogEraseDone | dieResetRelease | packetUndecodable | segmentTimeout | replySend
  | timedCommandDue | periodBoundary | sampleWordArrival | countWindowEnd | fabricBistDone | supBistDone
  | crossingStallTimeout | lockstepCheckpoint | lockstepMismatch | supLockstepLost | preselectUpdate
  | islandHealthChange | patternReevaluation | dclOv1 | dclOv2 | prechargeComplete | cvPrechargeFail | dcExportEnd
  | pilotClassify | proximityClassify | sourceLost | chStateEvaluation | cvCgPlausDwellExpiry | islandFrame
  | islandStatusFrame | gdLinkLost | actuatorCarrierValley | axBootUvlo | axPositionLost | homingStall
  | axMoveTimeout | moveComplete | afeTrigger | queueEntry | sliceRotation | sliceCalibrationDone | afeSdLost
  | sdDetectorTrip | protectionComparatorTrip | comparatorRelease | twinTestDone | wiredSyncEdge | admissionLoss
  | allocationInstant | commitVoteDeadline | commitConfirmDeadline | epochSwitch | epochFlashFail | pwrTransitionFail
  | fbSupplyLimit | svRateChange | patternVerify | twinTestOverdue | memoryReadError | scrubTick | memScrubLap
  | fillDone | tempMeasurement | thermStale | powerTransitionProgress | dieSupplyChange | referenceRecovery
  | fbLineRestored | fbSupplyRecovery | sdModulatorRecovery | bootUvloRelease | wiredSyncPulseMissing
  | tailstockReplyTimeout | wordRewrite | canFrameReceived | canFrameTransmitted | oneShotFail | busObjectEcc
  | hpBufferFrame | busOff | busOffRecovery | addressClaim | dm1Send | axleLinkFrame | alPortDown | etLinkDown
  | syncSend | syncReceived | syncHoldoverExpiry | listenPeriodEnd | statusSend | eventSend | nodeRemoval
  | sysAllocStale | etLinkUp | tpSessionTimeout | delayProbe | chopperPeriod | chSwitchShort | chopperBackstop
  | fbStandstillTimeout | fbEpOverrun | converterCycleStart | diComparatorTrip | dutyMaxEnd | islandSelftestDone
  | gateDiagStep | hallCommutation | epochFlashDone | flogProgram | operatingTimeProgram | launch | laneComplete
  | resolveKey | collectorAccept | commitInstant | deferredCommit | fabricUnitStuck | fabricFallbackRate
  | fabricCheckpointError | checkpointRebuilt | flyingStart | trPlausDwellExpiry | patternWriteToRegion | fbIndex
  | fbHallInvalid | ssiFrame | gdUvlo | islandRailTimeout | gdDesat | gdHardShort | softTurnOffStage | uvloRecovery =>
    exact effect_idle (awake_down _ (hd _))
  | moduleRestart => exact effect_idle (restartCommand_down (hd _))
  | packetReceived => exact effect_idle (packetWords_down (hd _))
  | transportQueueFull => exact effect_idle (queueFull_down (hd _))
  | segmentFrame => exact effect_idle (segmentFrame_down (hd _))
  | svFrame => exact effect_idle (svFrame_down (hd _))
  | xingEventOverflow => exact effect_idle (eventOverflow_down (hd _))
  | spindleTsRefLost => exact effect_idle (tsRefLost_down (hd _))
  | spindleRefLost => exact effect_idle (xtalLost_down (hd _))
  | spindleLost => exact effect_idle (spindleLost_down (hd _))
  | fbEdge | fbLineBreak => exact effect_idle (onLines_down (hd _))
  | ethernetDatagram => exact effect_idle (ethernetFrame_down (hd _))
  | hvilChange => exact effect_idle (hvilChange_down (hd _))
  | faultRaised => exact effect_idle (faultRaised_down (hd _))
  | holdupStoreCharged => exact effect_idle (holdupCharged_down (hd _))

/-- Settles O8: time leaves the label, and below STANDBY no command but those that wake has an effect. -/
theorem nothingReachesASleepingModule : Obligations.NothingReachesASleepingModule := by
  intro c s hw hl
  exact exec_of_not_wakes c s hw fun dt => up_advance_of_down dt hl

end Sys2Proof.Machine

namespace Sys2Proof.Machine

/-! ## The fields of word 0 (R513) -/

theorem flag_le_one (b : Bool) : flag b ≤ 1 := by cases b <;> decide

/-- The header's fields fit the places R513 gives them. -/
theorem hdr_bounds (h : Hdr) : h.tag.toNat < 256 ∧ flag h.timed ≤ 1 ∧ flag h.relayed ≤ 1 ∧ flag h.data ≤ 1 :=
  ⟨h.tag.isLt, flag_le_one _, flag_le_one _, flag_le_one _⟩

/-- The sum of the fields of word 0, which lie apart, is below 2^32. -/
theorem word0_toNat {opcode count : Nat} (h : Hdr) (ho : opcode < 256) (hc : count < 256) :
    (word0 opcode h count false).toNat =
      opcode * 2 ^ 24 + h.tag.toNat * 2 ^ 16 + count * 2 ^ 8 + 2 * 2 ^ 4 + flag h.timed * 2 ^ 2 + flag h.relayed * 2 +
        flag h.data := by
  obtain ⟨ht, h1, h2, h3⟩ := hdr_bounds h
  simp only [word0, pack, List.foldl_cons, List.foldl_nil, BitVec.toNat_ofNat, flag, Bool.false_eq_true, if_false] at *
  omega

/-- A field of a word is a quotient and a remainder. -/
theorem bits_eq_div_mod (w : Word) (msb lsb : Nat) : bits w msb lsb = w.toNat / 2 ^ lsb % 2 ^ (msb + 1 - lsb) := by
  rw [bits, Nat.shiftRight_eq_div_pow]

theorem bit_eq_of_flag {w : Word} {i : Nat} {b : Bool} (h : w.toNat / 2 ^ i % 2 = flag b) : bit w i = b := by
  rw [bit, Nat.testBit_eq_decide_div_mod_eq, h]
  cases b <;> rfl

section
variable {opcode count : Nat} (h : Hdr) (ho : opcode < 256) (hc : count < 256)
include ho hc

theorem word0_opcode : bits (word0 opcode h count false) 31 24 = opcode := by
  obtain ⟨ht, h1, h2, h3⟩ := hdr_bounds h
  rw [bits_eq_div_mod, word0_toNat h ho hc]
  omega

theorem word0_tag : bits (word0 opcode h count false) 23 16 = h.tag.toNat := by
  obtain ⟨ht, h1, h2, h3⟩ := hdr_bounds h
  rw [bits_eq_div_mod, word0_toNat h ho hc]
  omega

theorem word0_count : bits (word0 opcode h count false) 15 8 = count := by
  obtain ⟨ht, h1, h2, h3⟩ := hdr_bounds h
  rw [bits_eq_div_mod, word0_toNat h ho hc]
  omega

theorem word0_version : bits (word0 opcode h count false) 7 4 = 2 := by
  obtain ⟨ht, h1, h2, h3⟩ := hdr_bounds h
  rw [bits_eq_div_mod, word0_toNat h ho hc]
  omega

theorem word0_reply : bit (word0 opcode h count false) 3 = false := by
  obtain ⟨ht, h1, h2, h3⟩ := hdr_bounds h
  refine bit_eq_of_flag ?_
  have h0 : flag false = 0 := rfl
  rw [word0_toNat h ho hc, h0]
  omega

theorem word0_timed : bit (word0 opcode h count false) 2 = h.timed := by
  obtain ⟨ht, h1, h2, h3⟩ := hdr_bounds h
  refine bit_eq_of_flag ?_
  rw [word0_toNat h ho hc]
  omega

theorem word0_relayed : bit (word0 opcode h count false) 1 = h.relayed := by
  obtain ⟨ht, h1, h2, h3⟩ := hdr_bounds h
  refine bit_eq_of_flag ?_
  rw [word0_toNat h ho hc]
  omega

theorem word0_data : bit (word0 opcode h count false) 0 = h.data := by
  obtain ⟨ht, h1, h2, h3⟩ := hdr_bounds h
  refine bit_eq_of_flag ?_
  rw [word0_toNat h ho hc]
  omega

/-- The header read back from word 0 is the one put in. -/
theorem hdrOf_word0 : hdrOf h.transport h.sender h.via h.fromHead (word0 opcode h count false) = h := by
  simp only [hdrOf, word0_tag h ho hc, word0_timed h ho hc, word0_relayed h ho hc, word0_data h ho hc,
    BitVec.ofNat_toNat, BitVec.setWidth_eq]

end

/-! ## The packet of a command (R513, R514) -/

/-- A decodable packet arrives at a module that listens, and is lost at one that does not. -/
theorem packetWords_of_decodable {q : QueuedPacket} (m : Module) (hd : decodable q.words = true) :
    packetWords q m = if m.listens then arrives q m else m := by
  simp only [decodable, Bool.and_eq_true, decide_eq_true_eq, Bool.not_eq_true'] at hd
  obtain ⟨⟨two, sixtyFour⟩, request⟩ := hd
  unfold packetWords
  dsimp only
  cases m.listens
  case false => rfl
  case true => rw [if_neg (by decide), if_neg (by simp; omega), request, if_neg (by decide), if_pos rfl]

theorem opcode_lt_of_mem {opcode : Nat} (ho : opcode ∈ opcodes) : opcode < 256 := by
  have all : ∀ c ∈ opcodes, c < 256 := by decide
  exact all opcode ho

theorem requestWords_length (opcode : Nat) (h : Hdr) (ws : List Word) :
    (requestWords opcode h ws).length = ws.length + 2 := by
  simp [requestWords]

theorem requestWords_word0 (opcode : Nat) (h : Hdr) (ws : List Word) :
    (requestWords opcode h ws).getD 0 0 = word0 opcode h ws.length false := rfl

theorem requestWords_params (opcode : Nat) (h : Hdr) (ws : List Word) : packetParams (requestWords opcode h ws) = ws := by
  simp [packetParams, requestWords]

/-- The last word of a packet is the CRC of those before it. -/
theorem requestWords_crc (opcode : Nat) (h : Hdr) (ws : List Word) :
    (requestWords opcode h ws).getLast? = some (crc32c (requestWords opcode h ws).dropLast) := by
  rw [requestWords, List.getLast?_concat, List.dropLast_concat]

section
variable {opcode : Nat} {ws : List Word} (h : Hdr) (ho : opcode ∈ opcodes) (hl : ws.length ≤ 62)
include ho hl

theorem requestWords_decodable : decodable (requestWords opcode h ws) = true := by
  have request : bit ((requestWords opcode h ws).getD 0 0) 3 = false := word0_reply h (opcode_lt_of_mem ho) (by omega)
  simp only [decodable, requestWords_length, request, Bool.not_false, Bool.and_true, Bool.and_eq_true, decide_eq_true_eq]
  omega

theorem requestWords_opcode : packetOpcode (requestWords opcode h ws) = opcode :=
  word0_opcode h (opcode_lt_of_mem ho) (by omega)

theorem requestWords_headerCheck : headerCheck (requestWords opcode h ws) = none := by
  have hw : ws.length < 256 := by omega
  rw [headerCheck_eq_ite, requestWords_opcode h ho hl, requestWords_word0, word0_count h (opcode_lt_of_mem ho) hw,
    word0_version h (opcode_lt_of_mem ho) hw, requestWords_length, requestWords_crc]
  simp [ho]

theorem requestWords_hdr :
    hdrOf h.transport h.sender h.via h.fromHead ((requestWords opcode h ws).getD 0 0) = h :=
  hdrOf_word0 h (opcode_lt_of_mem ho) (by omega)

/-- The packet of a command waits where the command itself would. -/
theorem holdsPacket_requestWords (stamps : Stamps) (m : Module) :
    m.holdsPacket (packetOf h.transport h.sender h.via h.fromHead (requestWords opcode h ws) stamps) =
      m.holdsRequest opcode ws := by
  have hh : m.holdsPacket (packetOf h.transport h.sender h.via h.fromHead (requestWords opcode h ws) stamps) =
      (m.lockstep.rollback || ((headerCheck (requestWords opcode h ws)).isNone &&
        m.holdsRequest (packetOpcode (requestWords opcode h ws)) (packetParams (requestWords opcode h ws)))) := rfl
  rw [hh, requestWords_headerCheck h ho hl, requestWords_opcode h ho hl, requestWords_params]
  simp [Module.holdsRequest]

theorem takePacket_requestWords (stamps : Stamps) (m : Module) :
    takePacket (packetOf h.transport h.sender h.via h.fromHead (requestWords opcode h ws) stamps) m =
      runCommand opcode h ws stamps m := by
  rw [takePacket_of_headerCheck_eq_none _ (requestWords_headerCheck h ho hl)]
  simp only [packetOf, requestWords_opcode h ho hl, requestWords_params, requestWords_hdr h ho hl]

/-- Receiving the packet of a command is the command. -/
theorem packetWords_requestWords (stamps : Stamps) (m : Module) :
    packetWords (packetOf h.transport h.sender h.via h.fromHead (requestWords opcode h ws) stamps) m =
      hostCommand opcode h ws stamps m := by
  have same := holdsPacket_requestWords h ho hl stamps m
  rw [packetWords_of_decodable m (requestWords_decodable h ho hl)]
  unfold hostCommand
  cases m.listens
  case false => rfl
  case true =>
    by_cases holds : m.holdsRequest opcode ws = true
    case pos => simp only [holds, if_true, Bool.not_true, Bool.false_eq_true, if_false]; rfl
    case neg =>
      simp only [holds, Bool.not_true, Bool.false_eq_true, if_false, if_true]
      exact (if_neg (by rwa [same])).trans (takePacket_requestWords h ho hl stamps m)

end

/-- Settles O11: the fields of word 0 lie apart, the last word is the CRC of the others, and a packet waits where its
command waits. -/
theorem packetRoundTrip : Obligations.PacketRoundTrip := by
  intro opcode h ws ho hl
  refine ⟨requestWords_decodable h ho hl, requestWords_headerCheck h ho hl, requestWords_opcode h ho hl,
    requestWords_params opcode h ws, requestWords_hdr h ho hl, fun dt stamps s => ?_⟩
  exact congrArg (became · s) (packetWords_requestWords h ho hl stamps (advance dt s.mod))

end Sys2Proof.Machine

namespace Sys2Proof.Machine

/-! ## Refused packets (R529) -/

/-- Settles O6: whether the header checks or the command's own refuse, the module counts the refusal and sends its reply. -/
theorem refusalChangesNothing : Obligations.RefusalChangesNothing := by
  constructor
  case left =>
    rintro dt t sender v fromHead words stamps st d s _ rfl hl hd hc hr hh
    have taken : takePacket (packetOf t sender v fromHead words stamps) (advance dt s.mod) =
        refuse (packetOpcode words) (hdrOf t sender v fromHead (words.getD 0 0)) (packetParams words).length st d
          (advance dt s.mod) :=
      (takePacket_of_headerCheck_eq_none _ hc).trans (runCommand_refused _ _ _ _ _ _ _ hr hh)
    exact ⟨_, refuse_onlyRefused .., by rw [exec_packetReceived_of_attends hl hd, taken]⟩
  case right =>
    rintro dt t sender v fromHead words stamps st s _ rfl hl hd hc
    have taken : takePacket (packetOf t sender v fromHead words stamps) (advance dt s.mod) =
        refuseRaw t sender v (words.getD 0 0) st 0 (advance dt s.mod) := takePacket_of_headerCheck_eq_some _ hc
    exact ⟨_, refuseRaw_onlyRefused .., by rw [exec_packetReceived_of_attends hl hd, taken]⟩

/-! ## What cannot be decoded (R516, R522) -/

/-- A packet too short or too long is counted. -/
theorem packetWords_of_length {q : QueuedPacket} {m : Module} (hl : m.listens = true)
    (hw : q.words.length < 2 ∨ 64 < q.words.length) : packetWords q m = countUndecodable m := by
  unfold packetWords
  dsimp only
  rw [hl, if_neg (by decide), if_pos (by simpa using hw)]

/-- A packet with bit 3 set is counted, but for an answer of a Tailstock at its Headstock. -/
theorem packetWords_of_reply {q : QueuedPacket} {m : Module} (hl : m.listens = true)
    (hb : bit (q.words.getD 0 0) 3 = true)
    (hn : (m.isHead && (q.transport == .cn2 || q.transport == .cn3) && !q.fromHead) = false) :
    packetWords q m = countUndecodable m := by
  unfold packetWords
  dsimp only
  rw [hl, if_neg (by decide), hb, hn, if_pos rfl, if_neg Bool.false_ne_true, ite_self]

/-- A serial frame that does not un-escape to whole words is counted. -/
theorem svFrame_of_undecodable {bytes : List Byte} {m : Module} (hl : m.listens = true) (hb : bytes ≠ [])
    (hu : (unescape bytes).bind bytesWords = none) : svFrame bytes m = countUndecodable m := by
  have hb' : bytes.isEmpty = false := by simpa using hb
  unfold svFrame
  rw [hl, hb', if_neg (by decide)]
  cases e : unescape bytes with
  | none => rfl
  | some bs =>
    rw [e] at hu
    simp only [packetBytes, show bytesWords bs = none from hu]

theorem up_of_listens {m : Module} (hl : m.listens = true) : m.up = true := by
  simp only [Module.listens, Bool.and_eq_true] at hl
  exact hl.1

theorem dieRuns_of_listens {m : Module} (hl : m.listens = true) : m.dieRuns 0 = true := by
  simp only [Module.listens, Bool.and_eq_true] at hl
  exact hl.2

/-- Settles O9: each of the four arrivals is counted where a module that listens finds it undecodable. -/
theorem undecodablePacketsAreOnlyCounted : Obligations.UndecodablePacketsAreOnlyCounted := by
  refine ⟨?length, ?reply, ?serial, ?undecodable, fun m => rfl⟩
  case length =>
    rintro dt t sender v fromHead words stamps s _ rfl hl hw
    exact congrArg (became · s) (packetWords_of_length hl hw)
  case reply =>
    rintro dt t sender v fromHead words stamps s _ rfl hl hb hn
    exact congrArg (became · s) (packetWords_of_reply hl hb (by simpa only [Bool.not_eq_true'] using hn))
  case serial =>
    rintro dt bytes s _ rfl hl hb hu
    exact congrArg (became · s) (svFrame_of_undecodable hl hb hu)
  case undecodable =>
    rintro dt s _ rfl hl
    exact congrArg (became · s) ((awake_up _ (up_of_listens hl)).trans (onDie_runs _ (dieRuns_of_listens hl)))

/-! ## Packets that wait (R87, R167, R524) -/

/-- A packet that must wait joins the end of the queue where its transport has room. -/
theorem arrives_of_room {q : QueuedPacket} {m : Module} (hq : m.holdsPacket q = true) (hr : m.waitingOn q.transport < 16) :
    arrives q m = enqueue q m := by
  rw [arrives, if_pos hq, if_neg (by omega)]

/-- A packet that must wait on a full transport is answered with BUSY. -/
theorem arrives_of_full {q : QueuedPacket} {m : Module} (hq : m.holdsPacket q = true) (hf : 16 ≤ m.waitingOn q.transport) :
    arrives q m = refuseRaw q.transport q.sender q.via (q.words.getD 0 0) .busy 0xFFFF m := by
  rw [arrives, if_pos hq, if_pos hf]

theorem queueFull_of_full {q : QueuedPacket} {m : Module} (hl : m.listens = true) (hf : 16 ≤ m.waitingOn q.transport) :
    queueFull q m = refuseRaw q.transport q.sender q.via (q.words.getD 0 0) .busy 0xFFFF m := by
  rw [queueFull, hl, if_neg (by simp; omega)]

theorem waitingOn_enqueue (q : QueuedPacket) (m : Module) (u : Transport) :
    (enqueue q m).waitingOn u = m.waitingOn u + if q.transport = u then 1 else 0 := by
  by_cases h : q.transport = u <;> simp [Module.waitingOn, enqueue, h]

theorem waitingOn_of_onlyRefused {m n : Module} (h : onlyRefused m n) (u : Transport) : n.waitingOn u = m.waitingOn u := by
  obtain ⟨_, _, _, _, _, rfl, -⟩ := h
  rfl

/-- A packet that must wait leaves no transport with more than sixteen. -/
theorem waitingOn_arrives_le {q : QueuedPacket} {m : Module} {u : Transport} (hq : m.holdsPacket q = true)
    (hu : m.waitingOn u ≤ 16) : (arrives q m).waitingOn u ≤ 16 := by
  by_cases hf : 16 ≤ m.waitingOn q.transport
  case pos =>
    rw [arrives_of_full hq hf, waitingOn_of_onlyRefused (refuseRaw_onlyRefused ..)]
    exact hu
  case neg =>
    rw [arrives_of_room hq (by omega), waitingOn_enqueue]
    split
    case isTrue e => subst e; omega
    case isFalse => exact hu

/-- Settles O10: a packet that must wait is queued below sixteen on its transport and refused from there on. -/
theorem fullTransportAnswersBusy : Obligations.FullTransportAnswersBusy := by
  refine ⟨?room, ?full, ?event, ?bound⟩
  case room =>
    rintro dt t sender v fromHead words stamps s _ rfl hl hd hq hr
    refine congrArg (became · s) ((packetWords_of_decodable (q := packetOf t sender v fromHead words stamps) _ hd).trans ?_)
    rw [if_pos hl, arrives_of_room hq hr]
    rfl
  case full =>
    rintro dt t sender v fromHead words stamps s _ rfl hl hd hq hf
    refine congrArg (became · s) ((packetWords_of_decodable (q := packetOf t sender v fromHead words stamps) _ hd).trans ?_)
    rw [if_pos hl, arrives_of_full hq hf]
    rfl
  case event =>
    rintro dt t sender v fromHead words stamps s _ rfl hl hf
    exact congrArg (became · s) (queueFull_of_full (q := packetOf t sender v fromHead words stamps) hl hf)
  case bound =>
    rintro dt t u sender v fromHead words stamps s r _ rfl hd hq hu h
    have next : r.mod = packetWords (packetOf t sender v fromHead words stamps) (advance dt s.mod) := by cases h; rfl
    rw [next, packetWords_of_decodable _ hd]
    split
    case isTrue => exact waitingOn_arrives_le hq hu
    case isFalse => exact hu

/-! ## Serial frames (R14, R522) -/

/-- No byte of an escaped packet is the delimiter. -/
theorem delimiter_notMem_escape (bs : List Byte) : (0xC0 : Byte) ∉ escape bs := by
  induction bs with
  | nil => exact List.not_mem_nil
  | cons b bs ih =>
    unfold escape
    split_ifs with hc hd
    · simp only [List.mem_cons, not_or]
      exact ⟨by decide, by decide, ih⟩
    · simp only [List.mem_cons, not_or]
      exact ⟨by decide, by decide, ih⟩
    · simp only [List.mem_cons, not_or]
      exact ⟨Ne.symm hc, ih⟩

theorem unescape_escape (bs : List Byte) : unescape (escape bs) = some bs := by
  induction bs with
  | nil => rfl
  | cons b bs ih =>
    unfold escape
    split_ifs with hc hd
    · subst hc
      exact congrArg (Option.map (0xC0 :: ·)) ih
    · subst hd
      exact congrArg (Option.map (0xDB :: ·)) ih
    · rw [unescape.eq_def]
      simp only [if_neg hd, ih, Option.map_some]

/-- The four bytes of a word, least significant first, are the word. -/
theorem word_of_wordBytes (w : Word) :
    word ((BitVec.ofNat 8 w.toNat).toNat + (BitVec.ofNat 8 (w.toNat / 2 ^ 8)).toNat * 2 ^ 8 +
      (BitVec.ofNat 8 (w.toNat / 2 ^ 16)).toNat * 2 ^ 16 + (BitVec.ofNat 8 (w.toNat / 2 ^ 24)).toNat * 2 ^ 24) = w := by
  have hw := w.isLt
  apply BitVec.eq_of_toNat_eq
  simp only [word, BitVec.toNat_ofNat]
  omega

theorem bytesWords_wordBytes (ws : List Word) : bytesWords (ws.flatMap wordBytes) = some ws := by
  induction ws with
  | nil => rfl
  | cons w ws ih =>
    rw [List.flatMap_cons]
    simp only [wordBytes, List.cons_append, List.nil_append, bytesWords, ih, Option.map_some, word_of_wordBytes]

theorem escape_ne_nil {bs : List Byte} (h : bs ≠ []) : escape bs ≠ [] := by
  cases bs with
  | nil => contradiction
  | cons b bs => unfold escape; split_ifs <;> simp

/-- A serial frame acts as the packet it carries. -/
theorem svFrame_escape (ws : List Word) (m : Module) (hw : ws ≠ []) :
    svFrame (escape (ws.flatMap wordBytes)) m = packetWords (packetOf .sv 0 {} false ws noStamps) m := by
  have hb : ws.flatMap wordBytes ≠ [] := by
    cases ws with
    | nil => contradiction
    | cons w ws => simp [wordBytes]
  have he : (escape (ws.flatMap wordBytes)).isEmpty = false := by simpa using escape_ne_nil hb
  unfold svFrame
  rw [he, unescape_escape]
  simp only [packetBytes, bytesWords_wordBytes, Bool.or_false]
  by_cases hl : m.listens = true
  case pos => simp only [hl]; rfl
  case neg => simp [hl, packetWords]

/-- Settles O12: escaping is undone byte by byte, and a frame's bytes are those of the packet's words. -/
theorem escapedPacketRoundTrip : Obligations.EscapedPacketRoundTrip :=
  ⟨fun bs => ⟨delimiter_notMem_escape bs, unescape_escape bs⟩, bytesWords_wordBytes,
    fun dt ws s hw => congrArg (became · s) (svFrame_escape ws (advance dt s.mod) hw)⟩

end Sys2Proof.Machine

namespace Sys2Proof.Machine

/-! ## Frames as a recursion over the pieces (R520) -/

/-- The control byte of frame `i`: first, last, and the sequence number modulo 16. -/
def controlByte (i : Nat) (last : Bool) : Byte :=
  BitVec.ofNat 8 ((if i = 0 then 0x80 else 0) + (if last then 0x40 else 0) + i % 16)

/-- The frames of the pieces from number `i` on, none of them the first. -/
def laterFrames : Nat → List (List Byte) → List (List Byte)
  | _, [] => []
  | i, c :: cs => (controlByte i cs.isEmpty :: c) :: laterFrames (i + 1) cs

theorem laterFrames_length (i : Nat) (cs : List (List Byte)) : (laterFrames i cs).length = cs.length := by
  induction cs generalizing i with
  | nil => rfl
  | cons c cs ih => rw [laterFrames, List.length_cons, List.length_cons, ih]

theorem laterFrames_getElem (i : Nat) (cs : List (List Byte)) (k : Nat) (hk : k < cs.length) :
    (laterFrames i cs)[k]'(by rwa [laterFrames_length]) = controlByte (i + k) (k + 1 == cs.length) :: cs[k] := by
  induction cs generalizing i k with
  | nil => exact absurd hk (Nat.not_lt_zero k)
  | cons c cs ih =>
    cases k with
    | zero => cases cs <;> simp [laterFrames]
    | succ k =>
      have := ih (i + 1) k (by simpa using hk)
      simp only [laterFrames, List.getElem_cons_succ, this, List.length_cons, Nat.add_right_comm i 1 k]
      simp [Nat.add_assoc]

/-- A packet's frames: the first with the length in words, the later ones by number. -/
theorem segments_eq (a b : Nat) (bytes : List Byte) :
    segments a b bytes =
      (controlByte 0 (pieces b bytes.length (bytes.drop a)).isEmpty :: BitVec.ofNat 8 (bytes.length / 4) ::
        bytes.take a) :: laterFrames 1 (pieces b bytes.length (bytes.drop a)) := by
  apply List.ext_getElem
  · simp [segments, laterFrames_length]
  · intro k hk hk'
    cases k with
    | zero =>
      have empty : 0 = (pieces b bytes.length (bytes.drop a)).length ↔ pieces b bytes.length (bytes.drop a) = [] := by
        rw [eq_comm, List.length_eq_zero_iff]
      simp [segments, controlByte, List.isEmpty_iff, empty]
    | succ k =>
      have hl : k < (pieces b bytes.length (bytes.drop a)).length := by simpa [segments] using hk
      rw [List.getElem_cons_succ, laterFrames_getElem 1 _ k hl]
      simp [segments, controlByte, hl, Nat.add_comm 1 k]

/-! ## What a control byte says (R520) -/

theorem controlByte_toNat (i : Nat) (last : Bool) :
    (controlByte i last).toNat = (if i = 0 then 0x80 else 0) + (if last then 0x40 else 0) + i % 16 := by
  have := Nat.mod_lt i (show 16 > 0 by decide)
  rw [controlByte, BitVec.toNat_ofNat, Nat.mod_eq_of_lt]
  split <;> split <;> omega

theorem controlByte_number (i : Nat) (last : Bool) : (controlByte i last).toNat % 16 = i % 16 := by
  rw [controlByte_toNat]
  split <;> split <;> omega

theorem controlByte_last (i : Nat) (last : Bool) : (controlByte i last).toNat.testBit 6 = last := by
  rw [controlByte_toNat, Nat.testBit_eq_decide_div_mod_eq, Bool.eq_iff_iff, decide_eq_true_eq]
  cases last <;> simp only [Bool.false_eq_true, if_true, if_false, iff_false, iff_true] <;> split <;> omega

theorem controlByte_first (i : Nat) (last : Bool) : (controlByte i last).toNat.testBit 7 = (i == 0) := by
  rw [controlByte_toNat, Nat.testBit_eq_decide_div_mod_eq, Bool.eq_iff_iff, decide_eq_true_eq, beq_iff_eq]
  split <;> split <;> omega

/-- Bits 4 and 5 of a control byte are reserved, and 0. -/
theorem controlByte_reserved (i : Nat) (last : Bool) :
    (controlByte i last).toNat.testBit 4 = false ∧ (controlByte i last).toNat.testBit 5 = false := by
  rw [controlByte_toNat, Nat.testBit_eq_decide_div_mod_eq, Nat.testBit_eq_decide_div_mod_eq, decide_eq_false_iff_not,
    decide_eq_false_iff_not]
  split <;> split <;> omega

/-! ## A reassembly (R520, R521) -/

/-- No reassembly of the frame's sender is open. -/
def Module.noReassembly (m : Module) (t : Transport) (sender : Nat) : Prop :=
  m.interp.reassemblies.all (fun r => !sameReassembly t sender r) = true

/-- The module with one reassembly more. -/
def Module.withReassembly (m : Module) (r : Reassembly) : Module :=
  { m with interp := { m.interp with reassemblies := m.interp.reassemblies ++ [r] } }

/-- The transport as a reassembly keeps it: CN3 carries copies of CN2. -/
def reassemblyTransport (t : Transport) : Transport := if t == .cn1 then .cn1 else .cn2

/-- The packet bytes a frame that is not the last carries from its control byte on. -/
def frameRoom (t : Transport) (classical : Bool) : Nat := if t == .cn1 then (if classical then 7 else 63) else 110

section
variable {t : Transport} {sender : Nat} {m : Module}

theorem find?_of_noReassembly (hn : m.noReassembly t sender) :
    m.interp.reassemblies.find? (sameReassembly t sender) = none := by
  simpa [Module.noReassembly] using hn

theorem filter_of_noReassembly (hn : m.noReassembly t sender) :
    m.interp.reassemblies.filter (fun r => !sameReassembly t sender r) = m.interp.reassemblies := by
  simpa [Module.noReassembly] using hn

theorem find?_withReassembly (hn : m.noReassembly t sender) {r : Reassembly} (hr : sameReassembly t sender r = true) :
    (m.withReassembly r).interp.reassemblies.find? (sameReassembly t sender) = some r := by
  rw [Module.withReassembly, List.find?_append, find?_of_noReassembly hn, Option.none_or, List.find?_singleton, if_pos hr]

theorem filter_withReassembly (hn : m.noReassembly t sender) {r : Reassembly} (hr : sameReassembly t sender r = true) :
    (m.withReassembly r).interp.reassemblies.filter (fun r => !sameReassembly t sender r) = m.interp.reassemblies := by
  rw [Module.withReassembly, List.filter_append, filter_of_noReassembly hn]
  simp [hr]

/-- The module without the open reassembly is the module before it. -/
theorem drop_withReassembly (hn : m.noReassembly t sender) {r : Reassembly} (hr : sameReassembly t sender r = true) :
    ({ m.withReassembly r with interp := { (m.withReassembly r).interp with
      reassemblies := (m.withReassembly r).interp.reassemblies.filter (fun r => !sameReassembly t sender r) } } : Module) =
      m := by
  rw [filter_withReassembly hn hr]
  rfl

theorem drop_noReassembly (hn : m.noReassembly t sender) :
    ({ m with interp := { m.interp with
      reassemblies := m.interp.reassemblies.filter (fun r => !sameReassembly t sender r) } } : Module) = m := by
  rw [filter_of_noReassembly hn]

/-- The last bytes of a packet complete it. -/
theorem extend_last (fromHead : Bool) (r : Reassembly) (data : List Byte) (s : Stamps) {m m0 : Module}
    (hd : ({ m with interp := { m.interp with
      reassemblies := m.interp.reassemblies.filter (fun r => !sameReassembly t sender r) } } : Module) = m0)
    (hl : (r.bytes ++ data).length = r.total) :
    extend t sender fromHead true r data s m = packetBytes t sender r.via fromHead (r.bytes ++ data) s m0 := by
  unfold extend
  dsimp only
  rw [if_pos rfl, if_neg (by omega), ← hl, List.take_length, hd]

/-- Bytes that are not the last extend the reassembly. -/
theorem extend_open (fromHead : Bool) (r : Reassembly) (data : List Byte) (s : Stamps) {m m0 : Module}
    (hd : ({ m with interp := { m.interp with
      reassemblies := m.interp.reassemblies.filter (fun r => !sameReassembly t sender r) } } : Module) = m0)
    (hl : (r.bytes ++ data).length ≤ r.total) :
    extend t sender fromHead false r data s m = m0.withReassembly
      { r with bytes := r.bytes ++ data, nextSeq := (r.nextSeq + 1) % 16, lastAt := m0.time.elapsed } := by
  subst hd
  unfold extend
  dsimp only
  rw [if_neg Bool.false_ne_true, if_neg (by omega)]
  rfl

end

/-! ## A frame as it is taken (R520, R521) -/

section
variable {t : Transport} {sender : Nat} (v : Via) (fromHead : Bool) {m : Module}

/-- A frame of R520 breaks no framing: it is the last, or full. -/
theorem badFraming_frame (i : Nat) (last : Bool) (data : List Byte)
    (hl : last = true ∨ data.length = frameRoom t v.classical) :
    badFraming t v.classical (controlByte i last :: data) = false := by
  obtain ⟨h4, h5⟩ := controlByte_reserved i last
  unfold badFraming
  simp only [List.getD_cons_zero]
  rw [h4, h5, controlByte_last, List.length_cons]
  rcases hl with rfl | hl
  · rfl
  · rw [hl, frameRoom]
    cases t == .cn1 <;> cases v.classical <;> simp

/-- The first frame opens the reassembly and extends it with its packet bytes. -/
theorem takeSegment_first (hn : m.noReassembly t sender) (last : Bool) (k : Nat) (data : List Byte) (s : Stamps)
    (hk : 2 ≤ k) (hk' : k ≤ 64) (hl : last = true ∨ data.length + 1 = frameRoom t v.classical) :
    takeSegment t sender v fromHead (controlByte 0 last :: BitVec.ofNat 8 k :: data) s m =
      extend t sender fromHead last
        { transport := reassemblyTransport t, sender := sender, total := 4 * k, bytes := [], nextSeq := 0,
          lastAt := m.time.elapsed, via := v } data s m := by
  have total : (BitVec.ofNat 8 k).toNat = k := by rw [BitVec.toNat_ofNat]; omega
  unfold takeSegment
  simp only [List.getD_cons_zero, List.getD_cons_succ]
  rw [badFraming_frame v 0 last (BitVec.ofNat 8 k :: data) (by simpa using hl), find?_of_noReassembly hn,
    controlByte_first, controlByte_number, controlByte_last, total, if_neg Bool.false_ne_true, if_pos (by rfl),
    Option.isSome_none, if_neg Bool.false_ne_true, if_neg (by simp; omega)]
  rfl

/-- A later frame in its order extends the open reassembly. -/
theorem takeSegment_later (hn : m.noReassembly t sender) {r : Reassembly} (hr : sameReassembly t sender r = true)
    (i : Nat) (last : Bool) (data : List Byte) (s : Stamps) (hi : i ≠ 0) (hq : r.nextSeq = i % 16)
    (ha : r.lastAt = m.time.elapsed) (hl : last = true ∨ data.length = frameRoom t v.classical) :
    takeSegment t sender v fromHead (controlByte i last :: data) s (m.withReassembly r) =
      extend t sender fromHead last r data s (m.withReassembly r) := by
  unfold takeSegment
  simp only [List.getD_cons_zero]
  rw [badFraming_frame v i last data hl, find?_withReassembly hn hr, controlByte_first, controlByte_number,
    controlByte_last, if_neg Bool.false_ne_true, if_neg (by simpa using hi)]
  dsimp only
  rw [hq, ha, if_neg (by simp [Module.withReassembly])]
  rfl

end

/-! ## The frames of a packet, one after the other -/

theorem pieces_of_ne_nil (b k : Nat) {xs : List Byte} (h : xs ≠ []) :
    pieces b (k + 1) xs = xs.take b :: pieces b k (xs.drop b) := by
  rw [pieces, if_neg (by simpa using h)]

theorem pieces_nil (b k : Nat) : pieces b k [] = [] := by
  cases k <;> rfl

theorem pieces_isEmpty (b k : Nat) (xs : List Byte) (hk : xs.length ≤ k) : (pieces b k xs).isEmpty = xs.isEmpty := by
  cases xs with
  | nil => rw [pieces_nil]; rfl
  | cons x xs =>
    obtain ⟨k, rfl⟩ : ∃ j, k = j + 1 := ⟨k - 1, by simp at hk; omega⟩
    rw [pieces_of_ne_nil b k (List.cons_ne_nil x xs)]
    rfl

section
variable {t : Transport} {sender : Nat} (v : Via) (fromHead : Bool) {m : Module}

/-- The later frames complete the reassembly that the frames before them have begun. -/
theorem takeSegments_later (hn : m.noReassembly t sender) (k : Nat) : ∀ (i : Nat) (r : Reassembly) (xs : List Byte),
    i ≠ 0 → xs ≠ [] → xs.length ≤ k → sameReassembly t sender r = true → r.nextSeq = i % 16 →
    r.lastAt = m.time.elapsed → r.total = (r.bytes ++ xs).length →
    takeSegments t sender v fromHead (laterFrames i (pieces (frameRoom t v.classical) k xs)) (m.withReassembly r) =
      packetBytes t sender r.via fromHead (r.bytes ++ xs) noStamps m := by
  have room : 0 < frameRoom t v.classical := by
    unfold frameRoom
    split_ifs <;> decide
  induction k with
  | zero =>
    intro i r xs _ hx hk
    exact absurd (List.eq_nil_of_length_eq_zero (Nat.le_zero.1 hk)) hx
  | succ k ih =>
    intro i r xs hi hx hk hr hq ha ht
    have len : xs.length ≠ 0 := by simpa using hx
    have rest : (xs.drop (frameRoom t v.classical)).length ≤ k := by rw [List.length_drop]; omega
    rw [pieces_of_ne_nil _ k hx]
    unfold takeSegments
    rw [laterFrames, List.foldl_cons, pieces_isEmpty _ _ _ rest]
    by_cases hl : (xs.drop (frameRoom t v.classical)) = []
    case pos =>
      have whole : xs.take (frameRoom t v.classical) = xs := List.take_of_length_le (List.drop_eq_nil_iff.1 hl)
      rw [hl, pieces_nil, whole, List.isEmpty_nil,
        takeSegment_later v fromHead hn hr i true xs noStamps hi hq ha (.inl rfl), extend_last fromHead r xs noStamps (drop_withReassembly hn hr) ht.symm]
      rfl
    case neg =>
      have full : (xs.take (frameRoom t v.classical)).length = frameRoom t v.classical := by
        rw [List.length_take, Nat.min_eq_left]
        exact Nat.le_of_lt (by simpa using hl)
      have more : (xs.drop (frameRoom t v.classical)).isEmpty = false := by simpa using hl
      have bound : (r.bytes ++ xs.take (frameRoom t v.classical)).length ≤ r.total := by
        rw [ht, List.length_append, List.length_append, List.length_take]
        omega
      rw [more, takeSegment_later v fromHead hn hr i false _ noStamps hi hq ha (.inr full),
        extend_open fromHead r _ noStamps (drop_withReassembly hn hr) bound]
      refine (ih (i + 1)
        { r with bytes := r.bytes ++ xs.take (frameRoom t v.classical), nextSeq := (r.nextSeq + 1) % 16,
                 lastAt := m.time.elapsed } _ (Nat.succ_ne_zero i) hl rest hr ?_ rfl ?_).trans ?_
      · dsimp only
        omega
      · rw [List.append_assoc, List.take_append_drop]
        exact ht
      · rw [List.append_assoc, List.take_append_drop]

/-- A packet cut into frames as R520 cuts it arrives as the packet, where no reassembly of its sender is open. -/
theorem takeSegments_segments (hn : m.noReassembly t sender) (k : Nat) (bytes : List Byte) (hk : 2 ≤ k) (hk' : k ≤ 64)
    (hb : bytes.length = 4 * k) :
    takeSegments t sender v fromHead
        (segments (frameRoom t v.classical - 1) (frameRoom t v.classical) bytes) m =
      packetBytes t sender v fromHead bytes noStamps m := by
  have words : bytes.length / 4 = k := by omega
  have same : ∀ r : Reassembly, r.transport = reassemblyTransport t → r.sender = sender →
      sameReassembly t sender r = true := by
    intro r h1 h2
    unfold sameReassembly
    rw [h1, h2, reassemblyTransport]
    cases t == .cn1 <;> simp
  have room : 0 < frameRoom t v.classical := by
    unfold frameRoom
    split_ifs <;> decide
  have rest : (bytes.drop (frameRoom t v.classical - 1)).length ≤ bytes.length := by rw [List.length_drop]; omega
  rw [segments_eq, words, pieces_isEmpty _ _ _ rest]
  unfold takeSegments
  rw [List.foldl_cons]
  by_cases hl : bytes.drop (frameRoom t v.classical - 1) = []
  case pos =>
    have whole : bytes.take (frameRoom t v.classical - 1) = bytes := List.take_of_length_le (List.drop_eq_nil_iff.1 hl)
    rw [hl, pieces_nil, whole, List.isEmpty_nil, takeSegment_first v fromHead hn true k _ noStamps hk hk' (.inl rfl),
      extend_last fromHead _ _ noStamps (drop_noReassembly hn) (by exact hb)]
    rfl
  case neg =>
    have long : frameRoom t v.classical - 1 < bytes.length := by simpa using hl
    have full : (bytes.take (frameRoom t v.classical - 1)).length + 1 = frameRoom t v.classical := by
      rw [List.length_take]
      omega
    have bound : ([] ++ bytes.take (frameRoom t v.classical - 1)).length ≤ 4 * k := by
      rw [List.nil_append, List.length_take]
      omega
    have more : (bytes.drop (frameRoom t v.classical - 1)).isEmpty = false := by simpa using hl
    rw [more, takeSegment_first v fromHead hn false k _ noStamps hk hk' (.inr full),
      extend_open fromHead _ _ noStamps (drop_noReassembly hn) bound]
    refine (takeSegments_later v fromHead hn bytes.length 1 _ _ (by decide) hl rest (same _ rfl rfl) rfl rfl ?_).trans ?_
    · rw [List.nil_append, List.take_append_drop, hb]
    · rw [List.nil_append, List.take_append_drop]

end

/-- Settles O13: the frames of each carrier, 64 and 8 bytes on CN1 and 111 on the axle link, are those of one cut. -/
theorem segmentedPacketArrivesWhole : Obligations.SegmentedPacketArrivesWhole := by
  intro bytes k m hk hk' hb
  refine ⟨fun v hn => ⟨fun hv => ?fd, fun hv => ?classical⟩, fun sender v fromHead hn => ?axle⟩
  case fd => simpa [frameRoom, hv] using takeSegments_segments v false (t := .cn1) hn k bytes hk hk' hb
  case classical => simpa [frameRoom, hv] using takeSegments_segments v false (t := .cn1) hn k bytes hk hk' hb
  case axle => exact takeSegments_segments v fromHead (t := .cn2) hn k bytes hk hk' hb

end Sys2Proof.Machine

namespace Sys2Proof.Machine

/-! ## What the reaction of a fault leaves -/

theorem enabled_of_reactsOnly {m n : Module} (h : reactsOnly m n) (f : Func) : n.enabled f = m.enabled f := by
  obtain ⟨_, _, _, _, _, _, _, rfl⟩ := h
  rfl

theorem affected_of_reactsOnly {m n : Module} (h : reactsOnly m n) (code detail : Nat) :
    n.affected code detail = m.affected code detail := by
  obtain ⟨_, _, _, _, _, _, _, rfl⟩ := h
  rfl

theorem label_of_reactsOnly {m n : Module} (h : reactsOnly m n) : n.label = m.label := by
  obtain ⟨_, _, _, _, _, _, _, rfl⟩ := h
  rfl

theorem patternOf_of_logsOnly {m n : Module} (h : logsOnly m n) (f : Func) : n.patternOf f = m.patternOf f := by
  obtain ⟨_, rfl, hp, -⟩ := h
  exact congrArg (·[f.idx]) hp

theorem patternOf_noteCause (b : Nat) (tick : Tick) (m : Module) (f : Func) :
    (noteCause b tick m).patternOf f = m.patternOf f := by
  rw [Module.patternOf, noteCause_faults]
  rfl

/-! ## Patterns on several functions, one after the other -/

section
variable {p : Module → Func → Pattern} {code : Module → Nat} {detail : Nat}

theorem foldl_setPattern_reactsOnly (l : List Func) (m : Module) :
    reactsOnly m (l.foldl (fun m f => setPattern f (p m f) (code m) detail m) m) :=
  reactsOnly_foldl _ (fun _ _ => setPattern_reactsOnly ..) l m

theorem foldl_setPattern_keeps {g : Func} (l : List Func) (m : Module) (h : m.patternOf g ≠ .none) :
    (l.foldl (fun m f => setPattern f (p m f) (code m) detail m) m).patternOf g ≠ .none := by
  induction l generalizing m with
  | nil => exact h
  | cons f l ih => exact ih _ (setPattern_keeps f g _ _ detail m h)

theorem foldl_setPattern_other {g : Func} (l : List Func) (m : Module) (h : g ∉ l) :
    (l.foldl (fun m f => setPattern f (p m f) (code m) detail m) m).patternOf g = m.patternOf g := by
  induction l generalizing m with
  | nil => rfl
  | cons f l ih =>
    obtain ⟨hf, hl⟩ := not_or.1 (mt List.mem_cons.2 h)
    exact (ih _ hl).trans (setPattern_other f g _ _ detail m (Ne.symm hf))

/-- Where every request asks for a pattern, each enabled function of the list has one in the end. -/
theorem foldl_setPattern_reaches (hp : ∀ m f, p m f ≠ .none) {g : Func} (l : List Func) (m : Module) (h : g ∈ l)
    (he : m.enabled g = true) :
    (l.foldl (fun m f => setPattern f (p m f) (code m) detail m) m).patternOf g ≠ .none := by
  induction l generalizing m with
  | nil => exact absurd h List.not_mem_nil
  | cons f l ih =>
    rcases List.mem_cons.1 h with rfl | h
    · exact foldl_setPattern_keeps l _ (setPattern_reaches g _ _ detail m (hp m g) he)
    · exact ih _ h (by rw [enabled_of_reactsOnly (setPattern_reactsOnly ..), he])

end

/-! ## The reaction of a class A fault (R575, R578, R579) -/

theorem preselection_ne_none (t : Traction) : preselection t ≠ .none := by
  unfold preselection
  split
  case isTrue => decide
  case isFalse h => simpa using h

theorem choice_ne_none (m : Module) (f : Func) : m.choice f ≠ .none := by
  cases f
  case ta => exact preselection_ne_none _
  case tb => exact preselection_ne_none _
  all_goals exact Pattern.noConfusion

/-- The pattern a class A fault asks for on a function. -/
def reactionPattern (code detail : Nat) (m : Module) (f : Func) : Pattern :=
  if m.offRequest f || m.fromSelftest code detail then .off else m.choice f

theorem reactionPattern_ne_none (code detail : Nat) (m : Module) (f : Func) : reactionPattern code detail m f ≠ .none := by
  unfold reactionPattern
  split
  case isTrue => decide
  case isFalse => exact choice_ne_none m f

/-- The module on which the patterns of a reaction are set: the supervisor has sent its word to the GDC. -/
def reactionStart (code : Nat) (m : Module) : Module := if gdcReacts code then m else sendCommand 4 m

theorem reactionStart_reactsOnly (code : Nat) (m : Module) : reactsOnly m (reactionStart code m) := by
  unfold reactionStart
  split
  case isTrue => exact reactsOnly_refl m
  case isFalse => exact sendCommand_reactsOnly 4 m

theorem reactionStart_patternOf (code : Nat) (m : Module) (f : Func) :
    (reactionStart code m).patternOf f = m.patternOf f := by
  unfold reactionStart
  split <;> rfl

theorem react_of_class_a {code : Nat} (detail : Nat) (m : Module) (ha : classOf code = .a) :
    react code detail m = (m.affected code detail).foldl
      (fun m f => setPattern f (reactionPattern code detail m f) code detail m) (reactionStart code m) :=
  if_neg (by simp [ha])

theorem react_of_other_class {code : Nat} (detail : Nat) (m : Module) (ha : classOf code ≠ .a) :
    react code detail m = m := if_pos (by simpa using ha)

theorem react_reaches {code detail : Nat} {m : Module} {f : Func} (ha : classOf code = .a)
    (hf : f ∈ m.affected code detail) (he : m.enabled f = true) : (react code detail m).patternOf f ≠ .none := by
  rw [react_of_class_a detail m ha]
  refine foldl_setPattern_reaches (reactionPattern_ne_none code detail) _ _ hf ?_
  rw [enabled_of_reactsOnly (reactionStart_reactsOnly code m), he]

theorem react_keeps {code detail : Nat} {m : Module} {f : Func} (h : m.patternOf f ≠ .none) :
    (react code detail m).patternOf f ≠ .none := by
  by_cases ha : classOf code = .a
  case pos =>
    rw [react_of_class_a detail m ha]
    exact foldl_setPattern_keeps _ _ (by rwa [reactionStart_patternOf])
  case neg => rwa [react_of_other_class detail m ha]

theorem react_other {code detail : Nat} {m : Module} {f : Func} (hf : f ∉ m.affected code detail) :
    (react code detail m).patternOf f = m.patternOf f := by
  by_cases ha : classOf code = .a
  case pos => rw [react_of_class_a detail m ha, foldl_setPattern_other _ _ hf, reactionStart_patternOf]
  case neg => rw [react_of_other_class detail m ha]

/-! ## The raising of a fault (R575 … R577, R587, R592) -/

/-- The module as the reaction to a new fault finds it: the table, the log and the causes of EVENT tell of the fault. -/
def entered (tick : Tick) (code detail : Nat) (cond : Bool) (m : Module) : Module :=
  let m1 := noteOverrun m.faults.lost tick (noteFull (tableRefuses m.faults.active && code != F.faultTableFull) tick
    (enterFault 512 code detail cond tick m))
  if classOf code == .a then noteCause 3 tick m1 else m1

theorem raiseAt_new {code detail : Nat} (tick : Tick) (cond : Bool) {m : Module}
    (h : isActive m.faults.active code detail = false) :
    raiseAt tick code detail cond m = react code detail (entered tick code detail cond m) := by
  rw [raiseAt, if_neg (by rw [h]; exact Bool.false_ne_true)]
  rfl

theorem entered_reactsOnly (tick : Tick) (code detail : Nat) (cond : Bool) (m : Module) :
    reactsOnly m (entered tick code detail cond m) := by
  have logs : logsOnly m (noteOverrun m.faults.lost tick
      (noteFull (tableRefuses m.faults.active && code != F.faultTableFull) tick
        (enterFault 512 code detail cond tick m))) :=
    logsOnly_trans (enterFault_logsOnly ..) (logsOnly_trans (noteFull_logsOnly ..) (noteOverrun_logsOnly ..))
  unfold entered
  dsimp only
  split
  case isTrue => exact reactsOnly_trans (reactsOnly_of_logsOnly logs) (noteCause_reactsOnly ..)
  case isFalse => exact reactsOnly_of_logsOnly logs

theorem entered_patternOf (tick : Tick) (code detail : Nat) (cond : Bool) (m : Module) (f : Func) :
    (entered tick code detail cond m).patternOf f = m.patternOf f := by
  have logs : logsOnly m (noteOverrun m.faults.lost tick
      (noteFull (tableRefuses m.faults.active && code != F.faultTableFull) tick
        (enterFault 512 code detail cond tick m))) :=
    logsOnly_trans (enterFault_logsOnly ..) (logsOnly_trans (noteFull_logsOnly ..) (noteOverrun_logsOnly ..))
  unfold entered
  dsimp only
  split
  case isTrue => rw [patternOf_noteCause, patternOf_of_logsOnly logs]
  case isFalse => exact patternOf_of_logsOnly logs f

/-- A raising is a reaction on a module with the same patterns, or changes a condition alone. -/
theorem raiseAt_cases (tick : Tick) (code detail : Nat) (cond : Bool) (m : Module) :
    ∃ x : Module, reactsOnly m x ∧ (∀ f : Func, x.patternOf f = m.patternOf f) ∧
      (raiseAt tick code detail cond m = x ∨ raiseAt tick code detail cond m = react code detail x) := by
  by_cases h : isActive m.faults.active code detail = true
  case pos =>
    have logs : logsOnly m (setCond code (· == detail) cond m) := setCond_logsOnly ..
    refine ⟨_, reactsOnly_of_logsOnly logs, patternOf_of_logsOnly logs, ?_⟩
    rw [raiseAt_again tick code detail cond m h]
    split
    case isTrue => exact .inr rfl
    case isFalse => exact .inl rfl
  case neg =>
    exact ⟨_, entered_reactsOnly tick code detail cond m, entered_patternOf tick code detail cond m,
      .inr (raiseAt_new tick cond (Bool.eq_false_iff.2 h))⟩

theorem raiseAt_keeps {tick : Tick} {code detail : Nat} {cond : Bool} {m : Module} {f : Func}
    (h : m.patternOf f ≠ .none) : (raiseAt tick code detail cond m).patternOf f ≠ .none := by
  obtain ⟨x, -, hp, hx | hx⟩ := raiseAt_cases tick code detail cond m
  · rw [hx, hp]
    exact h
  · rw [hx]
    exact react_keeps (by rwa [hp])

theorem raiseAt_other {tick : Tick} {code detail : Nat} {cond : Bool} {m : Module} {f : Func}
    (hf : f ∉ m.affected code detail) : (raiseAt tick code detail cond m).patternOf f = m.patternOf f := by
  obtain ⟨x, only, hp, hx | hx⟩ := raiseAt_cases tick code detail cond m
  · rw [hx, hp]
  · rw [hx, react_other (by rwa [affected_of_reactsOnly only]), hp]

/-- Settles O16: the reaction requests a pattern on every affected function, and a request takes none away. -/
theorem classAFaultSetsThePatterns : Obligations.ClassAFaultSetsThePatterns := by
  refine ⟨?reaches, fun _ _ _ _ _ _ => raiseAt_keeps, fun _ _ _ _ _ _ => raiseAt_other,
    fun _ _ _ _ _ => label_of_reactsOnly (raiseAt_reactsOnly ..)⟩
  case reaches =>
    intro tick code detail cond m f ha new hf he
    have only := entered_reactsOnly tick code detail cond m
    rw [raiseAt_new tick cond new]
    exact react_reaches ha (by rwa [affected_of_reactsOnly only]) (by rwa [enabled_of_reactsOnly only])

/-! ## A fault that only enters the log (R587, R592, R594) -/

/-- A new fault of class B or C with a free entry and room for its record, written out. -/
theorem raise_logged {code detail : Nat} {cond : Bool} {m : Module} (hc : classOf code ≠ .a)
    (new : isActive m.faults.active code detail = false) (free : entriesInUse m.faults.active < 255)
    (room : m.faults.buffer.length < 512) :
    raise code detail cond m = { m with faults := { m.faults with
      active := m.faults.active ++ [{ code := code, detail := detail, cond := cond }],
      counts := bumpCount code m.faults.counts,
      buffer := m.faults.buffer ++ [{
        code := code, detail := detail, kind := 1, state := m.label.code,
        coverage := m.coverage, func := 0, pattern := 0, tick := m.time.count, boot := m.service.bootCount,
        seq := m.faults.seq, epoch := m.epochs.active.number }],
      seq := (m.faults.seq + 1) % 2 ^ 32 } } := by
  have roomy : tableRefuses m.faults.active = false := by simp [tableRefuses]; omega
  have enter : enterTable { code := code, detail := detail, cond := cond } m.faults.active =
      m.faults.active ++ [{ code := code, detail := detail, cond := cond }] := if_pos (.inr free)
  have classed : (classOf code == .a) = false := by simpa using hc
  rw [raise, raiseAt_new _ _ new, react_of_other_class _ _ hc, entered, roomy, classed]
  simp only [Bool.false_and, noteFull, Bool.false_eq_true, if_false, enterFault, pushRecord, enter, room, if_true,
    noteOverrun, true_or]
  rfl

/-- Settles O15: a class B or C fault has no reaction, and with room nothing overruns. -/
theorem newFaultIsLogged : Obligations.NewFaultIsLogged := by
  rintro dt code detail cond s _ rfl up known small hc new free room
  refine congrArg (became · s) (Eq.trans ?_ (raise_logged hc new free room))
  have started : ¬ (advance dt s.mod).label.code < 2 := by simp only [Module.up, decide_eq_true_eq] at up; omega
  have listed : (faultInfo code).isNone = false := by simpa using known
  rw [faultRaised, if_neg (by simp [started, listed]), Nat.mod_eq_of_lt (by exact small)]

/-! ## EN (R355) -/

/-- The module with EN low and its outputs off. -/
def enLowOff (m : Module) : Module :=
  outputsOff { m with supply := { m.supply with en := false, enFellAt := m.time.elapsed - 80 } }

/-- The module as a valid low of EN finds it, before the patterns: EN low, outputs off, GD_EN_OFF in ARMED and RUN. -/
def enLowOutputs (m : Module) : Module :=
  if m.driven then raise F.gdEnOff 0 true (enLowOff m) else enLowOff m

theorem enLowOutputs_reactsOnly (m : Module) : reactsOnly (enLowOff m) (enLowOutputs m) := by
  unfold enLowOutputs
  split
  case isTrue => exact raise_reactsOnly ..
  case isFalse => exact reactsOnly_refl _

/-- A valid low of EN asks for PATTERN_OFF on every function, once the outputs are off. -/
theorem enFall_eq {m : Module} (ready : m.atLeastReady = true) (runs : m.dieRuns 7 = true) :
    enFall m = Func.all.foldl (fun m f => setPattern f .off (if m.driven then F.gdEnOff else 0) 0 m)
      (enLowOutputs m) :=
  if_neg (by simp [ready, runs])

/-- Everything a valid low of EN can touch once the outputs are off. -/
theorem enFall_reactsOnly {m : Module} (ready : m.atLeastReady = true) (runs : m.dieRuns 7 = true) :
    reactsOnly (enLowOff m) (enFall m) := by
  rw [enFall_eq ready runs]
  exact reactsOnly_trans (enLowOutputs_reactsOnly m) (foldl_setPattern_reactsOnly Func.all _)

theorem mem_func_all (f : Func) : f ∈ Func.all := by
  cases f with
  | ax a => exact (by decide : ∀ a : Fin 4, Func.ax a ∈ Func.all) a
  | ta | tb | cv | cg | ch => decide

/-- Every function that the epoch enables is held after a valid low of EN. -/
theorem enFall_reaches {m : Module} (ready : m.atLeastReady = true) (runs : m.dieRuns 7 = true) {f : Func}
    (he : (enFall m).enabled f = true) : (enFall m).patternOf f ≠ .none := by
  rw [enabled_of_reactsOnly (enFall_reactsOnly ready runs)] at he
  rw [enFall_eq ready runs]
  refine foldl_setPattern_reaches (fun _ _ => Pattern.noConfusion) _ _ (mem_func_all f) ?_
  rwa [enabled_of_reactsOnly (enLowOutputs_reactsOnly m)]

/-- Without a transition under way a low of EN abandons none. -/
theorem enFallen_eq {m : Module} (still : m.supply.transition = none) : enFallen m = enFall m := by
  unfold enFallen
  rw [still]
  rfl

/-- An island that is not in its soft turn-off has its output off. -/
theorem enLowOff_output (m : Module) (i : Fin 36) (h : ((enLowOff m).islands[i]).state ≠ .softOff) :
    ((enLowOff m).islands[i]).output = false := by
  have island : (enLowOff m).islands[i] =
      if m.islands[i].state == .softOff then m.islands[i] else { m.islands[i] with output := false } :=
    Vector.getElem_map _ _
  rw [island] at h ⊢
  by_cases soft : (m.islands[i].state == .softOff) = true
  case pos =>
    rw [if_pos soft] at h
    exact absurd (by simpa using soft) h
  case neg => rw [if_neg soft]

/-- Settles O17: what follows the outputs' turn-off touches neither the islands nor the supplies. -/
theorem enLowTurnsEverythingOff : Obligations.EnLowTurnsEverythingOff := by
  rintro dt s t _ rfl ready runs still h
  have next : t.mod = enFall (advance dt s.mod) := by
    cases h
    exact enFallen_eq still
  rw [next]
  refine ⟨?outputs, fun f he => enFall_reaches ready runs he, ?level, ?label⟩
  all_goals obtain ⟨_, _, _, _, _, _, _, only⟩ := enFall_reactsOnly ready runs
  case outputs =>
    intro i hi
    rw [only] at hi ⊢
    exact enLowOff_output _ i hi
  case level =>
    rw [only]
    rfl
  case label =>
    rw [only]
    rfl

end Sys2Proof.Machine

namespace Sys2Proof.Machine

/-! ## Clearing faults with room in the log (R588, R592) -/

/-- The faults that a cleared one leaves in a table. -/
def withoutFault (f : ActiveFault) (fs : List ActiveFault) : List ActiveFault :=
  fs.filter (fun g => !(g.code == f.code && g.detail == f.detail))

/-- With room in the write buffer a cleared fault leaves the table, and its record is the buffer's next. -/
theorem clearFault_faults (f : ActiveFault) {m : Module} (room : m.faults.buffer.length < 512) :
    (clearFault f m).faults.active = withoutFault f m.faults.active ∧
      (clearFault f m).faults.buffer.length = m.faults.buffer.length + 1 := by
  simp only [clearFault, record, pushRecord, room, if_true, noteOverrun, true_or, List.length_append,
    List.length_singleton, withoutFault, and_self]

/-- Several cleared faults leave the table one after the other. -/
theorem clearFaults_active (fs : List ActiveFault) (m : Module)
    (room : m.faults.buffer.length + fs.length ≤ 512) :
    (clearFaults fs m).faults.active = fs.foldl (fun l f => withoutFault f l) m.faults.active := by
  induction fs generalizing m with
  | nil => rfl
  | cons f fs ih =>
    rw [List.length_cons] at room
    obtain ⟨active, buffer⟩ := clearFault_faults f (m := m) (by omega)
    exact (ih (clearFault f m) (by rw [buffer]; omega)).trans (by rw [active]; rfl)

/-- What is left of a table are the faults that none of the cleared ones names. -/
theorem mem_foldl_withoutFault (fs l : List ActiveFault) (g : ActiveFault) :
    g ∈ fs.foldl (fun l f => withoutFault f l) l ↔ g ∈ l ∧ ∀ f ∈ fs, ¬ (g.code = f.code ∧ g.detail = f.detail) := by
  induction fs generalizing l with
  | nil => simp
  | cons f fs ih =>
    rw [List.foldl_cons, ih, withoutFault, List.mem_filter, List.forall_mem_cons, and_assoc]
    simp [imp_iff_not_or]

theorem isActive_iff (l : List ActiveFault) (code detail : Nat) :
    isActive l code detail = true ↔ ∃ g ∈ l, g.code = code ∧ g.detail = detail := by
  simp [isActive]

/-- In a table without a repetition a code and a detail name one fault. -/
theorem eq_of_distinctFaults {l : List ActiveFault} (h : distinctFaults l = true) {f g : ActiveFault} (hf : f ∈ l)
    (hg : g ∈ l) (hc : f.code = g.code) (hd : f.detail = g.detail) : f = g := by
  induction l with
  | nil => exact absurd hf List.not_mem_nil
  | cons a l ih =>
    simp only [distinctFaults, Bool.and_eq_true, Bool.not_eq_true', ← Bool.not_eq_true, isActive_iff] at h
    obtain ⟨new, rest⟩ := h
    rcases List.mem_cons.1 hf with rfl | hf' <;> rcases List.mem_cons.1 hg with rfl | hg'
    · rfl
    · exact absurd ⟨g, hg', hc.symm, hd.symm⟩ new
    · exact absurd ⟨f, hf', hc, hd⟩ new
    · exact ih rest hf' hg'

/-! ## What ACK_FAULTS does beside (R83, R271, R583) -/

/-- The marks that go with a cleared fault stand at the feedback ports. -/
theorem afterClear_faults (m : Module) (f : ActiveFault) : (afterClear m f).faults = m.faults := by
  unfold afterClear portCleared
  split_ifs <;> rfl

theorem foldl_afterClear_faults (fs : List ActiveFault) (m : Module) :
    (fs.foldl afterClear m).faults = m.faults := by
  induction fs generalizing m with
  | nil => rfl
  | cons f fs ih => rw [List.foldl_cons, ih, afterClear_faults]

theorem clearCrossings_faults (m : Module) : (clearCrossings m).faults = m.faults := by
  simp only [clearCrossings]

theorem clearChopperMarks_faults (m : Module) : (clearChopperMarks m).faults = m.faults := by
  simp only [clearChopperMarks]

/-- The module as the releases of ACK_FAULTS find it. -/
def acked (code : Nat) (m : Module) : Module :=
  let fs := ackedFaults code m
  let m1 := fs.foldl afterClear (clearFaults fs m)
  let chopper := fs.any (fun f =>
    f.code == F.chSwitchOpen || f.code == F.chFailedOpen || f.code == F.chSwitchShort)
  clearCrossings (if chopper then clearChopperMarks m1 else m1)

theorem acknowledge_eq (code : Nat) (m : Module) : acknowledge code m = releaseWhatMay (acked code m) := by
  rw [acknowledge, acked]

/-- Beside the table and the log the clearing touches no part of the fault handling. -/
theorem acked_faults (code : Nat) (m : Module) :
    (acked code m).faults = (clearFaults (ackedFaults code m) m).faults := by
  simp only [acked, clearCrossings_faults, apply_ite Module.faults, clearChopperMarks_faults,
    foldl_afterClear_faults, ite_self]

/-- Whatever the marks say, the release marks those functions that carry a pattern and that nothing holds. -/
theorem foldl_release (m : Module) (l : List Func) (x : Module) (v : Vector Bool 9)
    (hx : x = { m with faults := { m.faults with releasing := v } }) :
    ∃ w : Vector Bool 9,
      l.foldl (fun m f => if m.patterned f && m.releasable f then
          { m with faults := { m.faults with releasing := m.faults.releasing.set f.idx.val true f.idx.isLt } }
        else m) x = { m with faults := { m.faults with releasing := w } } ∧
      ∀ g : Func, w[g.idx] = true → v[g.idx] = true ∨ (m.patterned g && m.releasable g) = true := by
  induction l generalizing x v with
  | nil => exact ⟨v, hx, fun g h => .inl h⟩
  | cons f l ih =>
    subst hx
    rw [List.foldl_cons]
    split
    case isTrue may =>
      obtain ⟨w, hw, marks⟩ := ih _ (v.set f.idx.val true f.idx.isLt) rfl
      refine ⟨w, hw, fun g hg => ?_⟩
      rcases marks g hg with h | h
      · by_cases e : f = g
        · exact .inr (e ▸ may)
        · rw [Fin.getElem_fin, Vector.getElem_set_ne _ _ (fun i => e (func_idx_inj f g (Fin.ext i)))] at h
          exact .inl h
      · exact .inr h
    case isFalse => exact ih _ v rfl

/-- The release touches its own marks, and sets them only where nothing holds a function. -/
theorem releaseWhatMay_marks_only (m : Module) :
    ∃ w : Vector Bool 9, releaseWhatMay m = { m with faults := { m.faults with releasing := w } } ∧
      ∀ g : Func, w[g.idx] = true → m.faults.releasing[g.idx] = true ∨ (m.patterned g && m.releasable g) = true :=
  foldl_release m Func.all m m.faults.releasing rfl

theorem acknowledge_active (code : Nat) (m : Module) :
    (acknowledge code m).faults.active = (clearFaults (ackedFaults code m) m).faults.active := by
  obtain ⟨v, h⟩ := releaseWhatMay_marks (acked code m)
  rw [acknowledge_eq, h, ← acked_faults]

/-- Settles O18: what is left are the faults that no cleared one names, and a name stands for one fault. -/
theorem ackFaultsClearsByPolicy : Obligations.AckFaultsClearsByPolicy := by
  intro code m f distinct room
  have short : (ackedFaults code m).length ≤ m.faults.active.length := List.length_filter_le _ _
  have acks : ∀ g : ActiveFault, g ∈ ackedFaults code m ↔
      g ∈ m.faults.active ∧ (code = 0 ∨ g.code = code) ∧ policyOf g.code = 0 ∧ m.condOf g = false := by
    intro g
    simp [ackedFaults, Module.clearable]
  rw [acknowledge_active, clearFaults_active _ _ (by omega), isActive_iff]
  simp only [mem_foldl_withoutFault]
  constructor
  case mp =>
    rintro ⟨g, ⟨hg, kept⟩, hc, hd⟩
    exact ⟨g, hg, hc, hd, fun cleared => kept g ((acks g).2 ⟨hg, cleared⟩) ⟨rfl, rfl⟩⟩
  case mpr =>
    rintro ⟨g, hg, hc, hd, kept⟩
    refine ⟨g, ⟨hg, ?_⟩, hc, hd⟩
    rintro a ha ⟨sameCode, sameDetail⟩
    obtain ⟨ha, cleared⟩ := (acks a).1 ha
    exact kept (eq_of_distinctFaults distinct ha hg sameCode.symm sameDetail.symm ▸ cleared)

/-- A function that carries a pattern and may be released: what holds it no more (R583). -/
theorem releasable_conditions {m : Module} {f : Func} (h : (m.patterned f && m.releasable f) = true) :
    m.patterned f = true ∧ m.enHigh = true ∧ m.heldByT3 f = false ∧
      ∀ a ∈ m.faults.active, classOf a.code = .a → f ∉ m.affected a.code a.detail := by
  simp only [Module.releasable, Bool.and_eq_true, Bool.not_eq_true', List.any_eq_false, beq_iff_eq,
    List.contains_eq_mem, decide_eq_true_eq, not_and] at h
  obtain ⟨pattern, ⟨high, throttle⟩, holds⟩ := h
  exact ⟨pattern, high, throttle, holds⟩

/-- A release that begins: its function carries a pattern and nothing holds it (R583). -/
theorem release_begins (m : Module) (f : Func) (before : m.faults.releasing[f.idx] = false)
    (after : (releaseWhatMay m).faults.releasing[f.idx] = true) :
    (releaseWhatMay m).patterned f = true ∧ (releaseWhatMay m).enHigh = true ∧
      (releaseWhatMay m).heldByT3 f = false ∧
      ∀ a ∈ (releaseWhatMay m).faults.active, classOf a.code = .a → f ∉ (releaseWhatMay m).affected a.code a.detail := by
  obtain ⟨w, released, marks⟩ := releaseWhatMay_marks_only m
  rw [released] at after ⊢
  rcases marks f after with h | h
  · exact absurd (h.symm.trans before) Bool.false_ne_true.symm
  · exact releasable_conditions h

theorem releaseWhatMay_patternOf (m : Module) (f : Func) : (releaseWhatMay m).patternOf f = m.patternOf f := by
  obtain ⟨w, released⟩ := releaseWhatMay_marks m
  rw [released]
  rfl

theorem patternOf_of_faults {m n : Module} (h : n.faults = m.faults) (f : Func) : n.patternOf f = m.patternOf f := by
  unfold Module.patternOf
  rw [h]

/-- Settles O19: the clearing marks nothing, the release marks what nothing holds, and neither touches a pattern. -/
theorem onlyAReleasableFunctionIsReleased : Obligations.OnlyAReleasableFunctionIsReleased := by
  have logs (code : Nat) (m : Module) : logsOnly m (clearFaults (ackedFaults code m) m) := clearFaults_logsOnly _ _
  constructor
  case left =>
    intro code m f before after
    obtain ⟨_, cleared, -, -, unmarked, -⟩ := logs code m
    have still : (acked code m).faults.releasing = m.faults.releasing := by rw [acked_faults, cleared, unmarked]
    rw [← still] at before
    rw [acknowledge_eq] at after ⊢
    exact release_begins _ f before after
  case right =>
    intro code m f
    rw [acknowledge_eq]
    exact (releaseWhatMay_patternOf (acked code m) f).trans
      ((patternOf_of_faults (acked_faults code m) f).trans (patternOf_of_logsOnly (logs code m) f))

end Sys2Proof.Machine

namespace Sys2Proof.Machine

/-! ## Requests that their checks refuse (R530) -/

/-- The verdict is a refusal. -/
def Verdict.refuses (v : Verdict) : Prop := ∃ (st : Status) (d : Nat), v = .refuse st d

theorem unlessFails_refuses {c : Check} (v : Verdict) (hc : c ≠ none) : (unlessFails c v).refuses := by
  cases c with
  | none => exact absurd rfl hc
  | some r => exact ⟨r.1, r.2, rfl⟩

/-- A list of checks of which one refuses, refuses. -/
theorem firstFail_ne_none {cs : List Check} {c : Check} (h : c ∈ cs) (hc : c ≠ none) : firstFail cs ≠ none :=
  fun none => hc ((firstFail_none cs).1 none c h)

theorem unlessFails_firstFail_refuses {cs : List Check} {c : Check} (v : Verdict) (h : c ∈ cs) (hc : c ≠ none) :
    (unlessFails (firstFail cs) v).refuses :=
  unlessFails_refuses v (firstFail_ne_none h hc)

theorem failIf_ne_none {b : Bool} (h : b = true) (st : Status) (d : Nat) : failIf b st d ≠ none := by
  rw [Ne, failIf_none, h]
  decide

/-! ## Coverage (R170) -/

section
variable {opcode : Nat} {m : Module} (need : needsLockstep opcode = true) (lost : m.lockstepRequired = true)
include need lost

theorem checkLockstep_some : checkLockstep opcode m = some (.lockstepRequired, 0) := by
  rw [checkLockstep, need, lost]
  rfl

theorem checkLockstep_ne_none : checkLockstep opcode m ≠ none := by
  rw [checkLockstep_some need lost]
  exact Option.some_ne_none _

theorem prelude_lockstep_ne_none (h : Hdr) (ws : List Word) (ok : Nat → Bool) (t : Timing3) (enc : Bool) :
    prelude opcode h ws ok t enc m ≠ none :=
  firstFail_ne_none (by simp) (checkLockstep_ne_none need lost)

end

/-- The opcodes of R531 among those that need coverage. -/
def driveOpcodes : List Nat := [0x40, 0x41, 0x43, 0x48, 0x49, 0x60, 0x62, 0x80, 0x81, 0x83]

/-- An opcode that needs coverage and is not of R531 is unknown. -/
theorem handle_unknown {opcode : Nat} (h : Hdr) (ws : List Word) (st : Stamps) (m : Module)
    (free : needsLockstep opcode = true ∧ opcode ∉ driveOpcodes) :
    handle opcode h ws st m = .refuse .unknownOpcode 0 := by
  unfold handle
  split
  iterate 40 (next => exact absurd free (by decide))
  rfl

/-- Without coverage each request that needs it is refused (R170). -/
theorem handle_lockstep {opcode : Nat} (h : Hdr) (ws : List Word) (st : Stamps) {m : Module}
    (need : needsLockstep opcode = true) (lost : m.lockstepRequired = true) :
    (handle opcode h ws st m).refuses := by
  have shared (k : Nat) (hk : needsLockstep k = true) (ok : Nat → Bool) (t : Timing3) (enc : Bool) :
      prelude k h ws ok t enc m ≠ none := prelude_lockstep_ne_none hk lost h ws ok t enc
  have node (k : Nat) (hk : needsLockstep k = true) : nodeChecks k h ws m ≠ none :=
    firstFail_ne_none List.mem_cons_self (shared k hk _ _ _)
  by_cases known : opcode ∈ driveOpcodes
  case neg => exact ⟨_, _, handle_unknown h ws st m ⟨need, known⟩⟩
  simp only [driveOpcodes, List.mem_cons, List.not_mem_nil, or_false] at known
  rcases known with rfl | rfl | rfl | rfl | rfl | rfl | rfl | rfl | rfl | rfl
  · exact unlessFails_firstFail_refuses _ List.mem_cons_self (shared 0x40 need _ _ _)
  · exact unlessFails_firstFail_refuses _ List.mem_cons_self (shared 0x41 need _ _ _)
  · exact unlessFails_firstFail_refuses _ List.mem_cons_self (shared 0x43 need _ _ _)
  · exact unlessFails_firstFail_refuses _ List.mem_cons_self (checkLockstep_ne_none (opcode := 0x48) need lost)
  · exact unlessFails_firstFail_refuses _ List.mem_cons_self (checkLockstep_ne_none (opcode := 0x49) need lost)
  · exact unlessFails_firstFail_refuses _ List.mem_cons_self (shared 0x60 need _ _ _)
  · show (exportStart h ws m).refuses
    unfold exportStart
    split
    · exact unlessFails_firstFail_refuses _ List.mem_cons_self (shared 0x62 need _ _ _)
    · exact unlessFails_firstFail_refuses _ List.mem_cons_self (shared 0x62 need _ _ _)
  · exact unlessFails_refuses _ (node 0x80 need)
  · exact unlessFails_firstFail_refuses _ List.mem_cons_self (node 0x81 need)
  · exact unlessFails_refuses _ (firstFail_ne_none (c := checkLockstep 0x83 m) (by simp) (checkLockstep_ne_none need lost))

/-- Settles O20: the row of R170 stands among the checks of each of these requests. -/
theorem noDriveWithoutCoverage : Obligations.NoDriveWithoutCoverage := by
  refine ⟨fun opcode h ws st m need lost => handle_lockstep h ws st need lost, ?_⟩
  intro opcode h ws m ok t enc need lost length encoding relayed
  rw [prelude, length, encoding, relayed, checkLockstep_some need lost]
  rfl

/-! ## Requests of the system class (R50, R530) -/

/-- RELAYED on a packet that did not come from the Headstock over the axle link is refused before all else of row 3. -/
theorem checkRelayed_false {opcode : Nat} {h : Hdr} {m : Module} (relayed : h.relayed = true)
    (far : ((h.transport == .cn2 || h.transport == .cn3) && h.fromHead) = false) :
    checkRelayed opcode h m = some (.reservedEncoding, 0) := by
  rw [checkRelayed, relayed, far]
  rfl

section
variable {opcode : Nat} {h : Hdr} {m : Module} (system : isSystemClass opcode = true) (tail : m.isHead = false)
  (direct : h.relayed = false)
include system tail direct

theorem checkRelayed_notHeadstock : checkRelayed opcode h m = some (.notHeadstock, 0) := by
  rw [checkRelayed, system, tail, direct]
  rfl

/-- A Tailstock refuses each request of the system class that is not relayed. -/
theorem handle_notHeadstock (ws : List Word) (st : Stamps) : (handle opcode h ws st m).refuses := by
  have third (k : Nat) (hk : isSystemClass k = true) : checkRelayed k h m ≠ none := by
    rw [checkRelayed_notHeadstock hk tail direct]
    exact Option.some_ne_none _
  have shared (k : Nat) (hk : isSystemClass k = true) (ok : Nat → Bool) (t : Timing3) (enc : Bool) :
      prelude k h ws ok t enc m ≠ none := firstFail_ne_none (c := checkRelayed k h m) (by simp) (third k hk)
  have node (k : Nat) (hk : isSystemClass k = true) : nodeChecks k h ws m ≠ none :=
    firstFail_ne_none List.mem_cons_self (shared k hk _ _ _)
  have range : 0x80 ≤ opcode ∧ opcode ≤ 0x84 := by simpa [isSystemClass] using system
  obtain ⟨least, most⟩ := range
  interval_cases opcode
  · exact unlessFails_refuses _ (node 0x80 system)
  · exact unlessFails_firstFail_refuses _ List.mem_cons_self (node 0x81 system)
  · show (if h.relayed && ws.isEmpty then _ else timeSync h ws m : Verdict).refuses
    rw [direct]
    exact unlessFails_firstFail_refuses _ List.mem_cons_self (shared 0x82 system _ _ _)
  · exact unlessFails_refuses _ (firstFail_ne_none (c := checkRelayed 0x83 h m) (by simp) (third 0x83 system))
  · exact unlessFails_refuses _ (firstFail_ne_none (c := failIf (!m.isHead || m.sys.silenced) .notHeadstock)
      (by simp) (failIf_ne_none (by rw [tail]; rfl) _ _))

end

/-- Settles O21: row 3 of the shared checks, which each of the five requests makes, refuses. -/
theorem systemClassNeedsAHeadstock : Obligations.SystemClassNeedsAHeadstock :=
  ⟨fun _ _ ws st _ system tail direct => handle_notHeadstock system tail direct ws st,
    fun _ _ _ system tail direct => checkRelayed_notHeadstock system tail direct,
    fun _ _ _ relayed far => checkRelayed_false relayed far⟩

/-! ## Boundaries (R72) -/

/-- Between two multiples of a period lies a whole period. -/
theorem boundary_least {p a b r : Nat} (hr : a % p = r) (pos : r ≠ 0) (hb : b % p = 0) (le : a ≤ b) : a + (p - r) ≤ b := by
  obtain ⟨j, rfl⟩ := Nat.dvd_of_mod_eq_zero hb
  have split := Nat.div_add_mod a p
  have below : a / p < j := by
    by_contra no
    have := Nat.mul_le_mul_left p (Nat.le_of_not_lt no)
    omega
  have step := Nat.mul_le_mul_left p below
  have small : r < p := hr ▸ Nat.mod_lt a (Nat.pos_of_ne_zero (by rintro rfl; omega))
  rw [Nat.mul_succ] at step
  omega

/-- Settles O23: before the phase it is the phase, after it the rest of the period is added. -/
theorem firstBoundaryAtOrAfter : Obligations.FirstBoundaryAtOrAfter := by
  intro p ph t hp
  rw [boundaryAtOrAfter, if_neg hp]
  split_ifs with early
  case pos => simp only [early, le_refl, Nat.sub_self, Nat.zero_mod, true_and]; exact fun b _ h _ => h
  case neg =>
    obtain ⟨a, rfl⟩ : ∃ a, t = ph + a := ⟨t - ph, by omega⟩
    have rest : (p - a % p) % p = if a % p = 0 then 0 else p - a % p := by
      have small := Nat.mod_lt a (Nat.pos_of_ne_zero hp)
      split_ifs with h
      · rw [h, Nat.sub_zero, Nat.mod_self]
      · exact Nat.mod_eq_of_lt (by omega)
    rw [Nat.add_sub_cancel_left, rest]
    split_ifs with whole
    · exact ⟨by omega, by omega, by rwa [Nat.add_zero, Nat.add_sub_cancel_left], fun b h _ _ => h⟩
    · have small := Nat.mod_lt a (Nat.pos_of_ne_zero hp)
      refine ⟨by omega, by omega, ?_, fun b _ after hb => ?_⟩
      · rw [Nat.add_assoc, Nat.add_sub_cancel_left]
        have split := Nat.div_add_mod a p
        have : a + (p - a % p) = p * (a / p + 1) := by rw [Nat.mul_succ]; omega
        rw [this, Nat.mul_mod_right]
      · have := boundary_least rfl whole hb (by omega : a ≤ b - ph)
        omega

end Sys2Proof.Machine

namespace Sys2Proof.Machine

/-! ## Lists sorted by a number (R73, R662) -/

section
variable {α : Type}

/-- The keys of a list rise strictly. -/
def rising (l : List (Nat × α)) : Prop := l.Pairwise (fun p q => p.1 < q.1)

/-- The entry of a key in a list. -/
def entryOf (l : List (Nat × α)) (k : Nat) : Option (Nat × α) := l.find? (fun p => p.1 == k)

/-- A list with the value of one key replaced, or left out. -/
def replaceEntry (k : Nat) (v : α) (out : Bool) : List (Nat × α) → List (Nat × α)
  | [] => if out then [] else [(k, v)]
  | p :: ps =>
    if p.1 < k then p :: replaceEntry k v out ps
    else if p.1 = k then (if out then ps else (k, v) :: ps)
    else if out then p :: ps else (k, v) :: p :: ps

theorem entryOf_cons (p : Nat × α) (l : List (Nat × α)) (k : Nat) :
    entryOf (p :: l) k = if p.1 = k then some p else entryOf l k := by
  by_cases h : p.1 = k <;> simp [entryOf, h]

/-- A list whose keys all lie above a key holds no entry of it. -/
theorem entryOf_above {l : List (Nat × α)} {k : Nat} (above : ∀ p ∈ l, k < p.1) : entryOf l k = none := by
  rw [entryOf, List.find?_eq_none]
  intro p hp
  have := above p hp
  simp
  omega

/-- What replacing an entry leaves in the list was there before, or is the entry. -/
theorem mem_replaceEntry {k : Nat} {v : α} {out : Bool} {l : List (Nat × α)} {p : Nat × α}
    (h : p ∈ replaceEntry k v out l) : p = (k, v) ∨ p ∈ l := by
  induction l with
  | nil => cases out <;> simp_all [replaceEntry]
  | cons q l ih =>
    rw [replaceEntry] at h
    split_ifs at h <;> simp only [List.mem_cons] at h ⊢ <;> tauto

/-- A list whose keys rise keeps them rising. -/
theorem replaceEntry_rising {k : Nat} {v : α} {out : Bool} {l : List (Nat × α)} (h : rising l) :
    rising (replaceEntry k v out l) := by
  induction l with
  | nil => cases out <;> simp [replaceEntry, rising]
  | cons q l ih =>
    obtain ⟨first, rest⟩ := List.pairwise_cons.1 h
    rw [replaceEntry]
    split_ifs with below here drop drop
    · refine List.pairwise_cons.2 ⟨fun p hp => ?_, ih rest⟩
      rcases mem_replaceEntry hp with rfl | hp
      · exact below
      · exact first p hp
    · exact rest
    · exact List.pairwise_cons.2 ⟨fun p hp => here ▸ first p hp, rest⟩
    · exact h
    · refine List.pairwise_cons.2 ⟨fun p hp => ?_, h⟩
      rcases List.mem_cons.1 hp with rfl | hp
      · exact show k < p.1 by omega
      · have := first p hp
        exact show k < p.1 by omega

/-- An entry put before a list of keys above it. -/
theorem entryOf_front {k j : Nat} {v : α} {out : Bool} {l : List (Nat × α)} (above : ∀ p ∈ l, k < p.1) :
    entryOf (if out then l else (k, v) :: l) j =
      if j = k then (if out then none else some (k, v)) else entryOf l j := by
  by_cases same : j = k
  · subst same
    cases out
    · simp [entryOf_cons]
    · simpa using entryOf_above above
  · cases out
    · simp [entryOf_cons, same, Ne.symm same]
    · simp [same]

/-- The entry replaced reads as the new one, every other as before. -/
theorem entryOf_replaceEntry {k j : Nat} {v : α} {out : Bool} {l : List (Nat × α)} (h : rising l) :
    entryOf (replaceEntry k v out l) j = if j = k then (if out then none else some (k, v)) else entryOf l j := by
  induction l with
  | nil => exact entryOf_front (l := []) (by simp)
  | cons q l ih =>
    obtain ⟨first, rest⟩ := List.pairwise_cons.1 h
    rw [replaceEntry]
    by_cases below : q.1 < k
    case pos =>
      rw [if_pos below, entryOf_cons, entryOf_cons, ih rest]
      by_cases same : j = k
      · rw [if_neg (by omega), if_pos same, if_pos same]
      · rw [if_neg same, if_neg same]
    case neg =>
      rw [if_neg below]
      by_cases here : q.1 = k
      case pos =>
        rw [if_pos here, entryOf_front (fun p hp => here ▸ first p hp), entryOf_cons]
        by_cases same : j = k
        · rw [if_pos same, if_pos same]
        · rw [if_neg same, if_neg same, if_neg (by omega)]
      case neg =>
        rw [if_neg here, entryOf_front]
        intro p hp
        rcases List.mem_cons.1 hp with rfl | hp
        · omega
        · have := first p hp
          omega

end

/-! ## Images (R73, R662) -/

theorem insertParam_eq (id : Nat) (w d : Word) (l : List (Nat × Word)) :
    insertParam id w d l = replaceEntry id w (decide (w = d)) l := by
  induction l with
  | nil => simp [insertParam, replaceEntry]
  | cons p l ih => simp [insertParam, replaceEntry, ih]

theorem insertEntry_eq (k : Nat) (w0 w1 : Word) (l : List (Nat × Word × Word)) :
    insertEntry k w0 w1 l = replaceEntry k (w0, w1) (decide (w0 = 0 ∧ w1 = 0)) l := by
  induction l with
  | nil => simp only [insertEntry, replaceEntry, decide_eq_true_eq]
  | cons p l ih => simp only [insertEntry, replaceEntry, ih, decide_eq_true_eq]

theorem val_eq (img : Image) (id : Nat) : img.val id = ((entryOf img.params id).map (·.2)).getD (defaultWord id) := by
  unfold Image.val entryOf
  split
  next p found => rw [found]; rfl
  next none => rw [none]; rfl

theorem entry_eq (img : Image) (n e : Nat) :
    img.entry n e = ((entryOf img.launch (512 * n + e)).map (·.2)).getD (0, 0) := by
  unfold Image.entry entryOf
  split
  next p found => rw [found]; rfl
  next none => rw [none]; rfl

/-- The parameter written reads as the value, every other as before. -/
theorem write_val {img : Image} (sorted : rising img.params) (id : Nat) (w : Word) (k : Nat) :
    (img.write id w).val k = if k = id then w else img.val k := by
  rw [val_eq, val_eq, Image.write, insertParam_eq, entryOf_replaceEntry sorted]
  split_ifs with same reset
  · rw [decide_eq_true_eq] at reset
    rw [same, reset]
    rfl
  · rfl
  · rfl

/-- The launch entry written reads as the two words, every other as before. -/
theorem writeEntry_entry {img : Image} (sorted : rising img.launch) {n e : Nat} (he : e < 512) (w0 w1 : Word)
    (k : Nat) {f : Nat} (hf : f < 512) :
    (img.writeEntry n e w0 w1).entry k f = if k = n ∧ f = e then (w0, w1) else img.entry k f := by
  have same : (512 * k + f = 512 * n + e) ↔ (k = n ∧ f = e) := by omega
  rw [entry_eq, entry_eq, Image.writeEntry, insertEntry_eq, entryOf_replaceEntry sorted]
  simp only [same]
  split_ifs with here empty
  · obtain ⟨rfl, rfl⟩ := of_decide_eq_true empty
    rfl
  · rfl
  · rfl

/-- Settles O24: both lists are replaced at one key, and a launch key names one region and one entry. -/
theorem imageReadsWhatWasWritten : Obligations.ImageReadsWhatWasWritten := by
  constructor
  case left =>
    intro img id w sorted
    refine ⟨?_, write_val sorted id w, rfl, rfl⟩
    rw [Image.write, insertParam_eq]
    exact replaceEntry_rising sorted
  case right =>
    intro img n e w0 w1 he sorted
    refine ⟨?_, fun k f hf => writeEntry_entry sorted he w0 w1 k hf, rfl, rfl⟩
    rw [Image.writeEntry, insertEntry_eq]
    exact replaceEntry_rising sorted

/-! ## The fields of the status word (R532) -/

theorem power_code_le (p : Power) : p.code ≤ 5 := by cases p <;> decide
theorem pattern_code_le (p : Pattern) : p.code ≤ 3 := by cases p <;> decide
theorem supMode_code_le (x : SupMode) : x.code ≤ 3 := by cases x <;> decide

theorem highest_le (m : Module) : m.highest ≤ 3 := by
  unfold Module.highest
  split_ifs <;> decide


/-- Each field of the status word fits its place. -/
theorem statusWord_bounds (m : Module) :
    (m.label.code ≤ 5 ∧ m.lockstep.mode.code ≤ 3 ∧ m.highest ≤ 3 ∧ m.straps.node.val < 16) ∧
      (∀ f : Func, (m.patternOf f).code ≤ 3) ∧ ∀ b : Bool, flag b ≤ 1 :=
  ⟨⟨power_code_le _, supMode_code_le _, highest_le m, m.straps.node.isLt⟩, fun _ => pattern_code_le _, flag_le_one⟩

/-- Numbers that fit their places of R532 and lie apart: each is read back from their sum. -/
theorem statusFields {label tr head node mode cov high staged adm ta tb cv cg a0 a1 a2 a3 en flt hvil sum n : Nat}
    (hl : label ≤ 5) (htr : tr ≤ 1) (hh : head ≤ 1) (hn : node < 16) (hm : mode ≤ 3) (hc : cov ≤ 1) (hhi : high ≤ 3)
    (hs : staged ≤ 1) (ha : adm ≤ 1) (hta : ta ≤ 3) (htb : tb ≤ 3) (hcv : cv ≤ 3) (hcg : cg ≤ 3) (h0 : a0 ≤ 1)
    (h1 : a1 ≤ 1) (h2 : a2 ≤ 1) (h3 : a3 ≤ 1) (hen : en ≤ 1) (hflt : flt ≤ 1) (hhv : hvil ≤ 1)
    (all : sum = label * 2 ^ 29 + tr * 2 ^ 28 + head * 2 ^ 27 + node * 2 ^ 23 + mode * 2 ^ 21 + cov * 2 ^ 20 +
      high * 2 ^ 18 + staged * 2 ^ 17 + adm * 2 ^ 16 + ta * 2 ^ 14 + tb * 2 ^ 12 + cv * 2 ^ 10 + cg * 2 ^ 8 +
      a0 * 2 ^ 4 + a1 * 2 ^ 5 + a2 * 2 ^ 6 + a3 * 2 ^ 7 + en * 2 ^ 3 + flt * 2 ^ 2 + hvil * 2 ^ 1)
    (word : n = sum % 2 ^ 32) :
    n / 2 ^ 29 % 2 ^ 3 = label ∧ n / 2 ^ 28 % 2 = tr ∧ n / 2 ^ 27 % 2 = head ∧ n / 2 ^ 23 % 2 ^ 4 = node ∧
      n / 2 ^ 21 % 2 ^ 2 = mode ∧ n / 2 ^ 20 % 2 = cov ∧ n / 2 ^ 18 % 2 ^ 2 = high ∧ n / 2 ^ 17 % 2 = staged ∧
      n / 2 ^ 16 % 2 = adm ∧ n / 2 ^ 14 % 2 ^ 2 = ta ∧ n / 2 ^ 12 % 2 ^ 2 = tb ∧ n / 2 ^ 10 % 2 ^ 2 = cv ∧
      n / 2 ^ 8 % 2 ^ 2 = cg ∧ n / 2 ^ 4 % 2 = a0 ∧ n / 2 ^ 5 % 2 = a1 ∧ n / 2 ^ 6 % 2 = a2 ∧ n / 2 ^ 7 % 2 = a3 ∧
      n / 2 ^ 3 % 2 = en ∧ n / 2 ^ 2 % 2 = flt ∧ n / 2 ^ 1 % 2 = hvil ∧ n / 2 ^ 0 % 2 = 0 := by
  subst all
  rw [Nat.mod_eq_of_lt (by omega)] at word
  subst word
  refine ⟨?_, ?_, ?_, ?_, ?_, ?_, ?_, ?_, ?_, ?_, ?_, ?_, ?_, ?_, ?_, ?_, ?_, ?_, ?_, ?_, ?_⟩ <;> omega

/-- Settles O25: the fields fit their places and lie apart. -/
theorem statusWordFields : Obligations.StatusWordFields := by
  intro m
  obtain ⟨⟨label, mode, highest, node⟩, pattern, one⟩ := statusWord_bounds m
  have word : (statusWord m).toNat = _ % 2 ^ 32 := BitVec.toNat_ofNat ..
  simp only [List.foldl_cons, List.foldl_nil, Nat.zero_add] at word
  obtain ⟨h29, h28, h27, h23, h21, h20, h18, h17, h16, h14, h12, h10, h8, h4, h5, h6, h7, h3, h2, h1, h0⟩ :=
    statusFields label (one m.inTransition) (one m.isHead) node mode (one m.coverage) highest
      (one m.epochs.staged.isSome) (one m.isAdmitted) (pattern .ta) (pattern .tb) (pattern .cv) (pattern .cg)
      (one (m.patterned (.ax 0))) (one (m.patterned (.ax 1))) (one (m.patterned (.ax 2))) (one (m.patterned (.ax 3)))
      (one m.enHigh) (one m.flt) (one m.supply.hvil) rfl word
  simp only [bits_eq_div_mod]
  refine ⟨h29, bit_eq_of_flag h28, bit_eq_of_flag h27, h23, h21, bit_eq_of_flag h20, h18, bit_eq_of_flag h17,
    bit_eq_of_flag h16, h14, h12, h10, h8, fun a => ?_, bit_eq_of_flag h3, bit_eq_of_flag h2, bit_eq_of_flag h1,
    bit_eq_of_flag h0⟩
  fin_cases a
  · exact bit_eq_of_flag h4
  · exact bit_eq_of_flag h5
  · exact bit_eq_of_flag h6
  · exact bit_eq_of_flag h7

end Sys2Proof.Machine

namespace Sys2Proof.Machine

/-! ## The order of binary32 words (R16, R674) -/

/-- The value of a magnitude, exponent and fraction, in units of 2^-149. -/
def magUnits (n : Nat) : Nat := if n / 2 ^ 23 = 0 then n % 2 ^ 23 else (n % 2 ^ 23 + 2 ^ 23) * 2 ^ (n / 2 ^ 23 - 1)

/-- The value of an order key in units of 2^-149. -/
def keyUnits (k : Int) : Int := if k < 0 then -(magUnits k.natAbs : Int) else magUnits k.natAbs

/-- Within one exponent the value rises with the fraction; where the fraction ends, the exponent carries on. -/
theorem magUnits_strictMono : StrictMono magUnits := by
  refine strictMono_nat_of_lt_succ fun n => ?_
  unfold magUnits
  by_cases last : n % 2 ^ 23 = 2 ^ 23 - 1
  case pos =>
    have expo : (n + 1) / 2 ^ 23 = n / 2 ^ 23 + 1 := by omega
    have frac : (n + 1) % 2 ^ 23 = 0 := by omega
    rw [expo, frac, last, if_neg (Nat.succ_ne_zero _), Nat.add_sub_cancel]
    split_ifs with least
    · rw [least]
      decide
    · obtain ⟨e, he⟩ := Nat.exists_eq_succ_of_ne_zero least
      rw [he, Nat.succ_sub_one, Nat.pow_succ]
      have := Nat.two_pow_pos e
      omega
  case neg =>
    have expo : (n + 1) / 2 ^ 23 = n / 2 ^ 23 := by omega
    have frac : (n + 1) % 2 ^ 23 = n % 2 ^ 23 + 1 := by omega
    rw [expo, frac]
    split_ifs
    · exact Nat.lt_succ_self _
    · exact Nat.mul_lt_mul_of_pos_right (by omega) (Nat.two_pow_pos _)

theorem keyUnits_strictMono : StrictMono keyUnits := by
  intro a b lt
  have zero : magUnits 0 = 0 := rfl
  have mono (m n : Nat) (h : m < n) : (magUnits m : Int) < magUnits n := Int.ofNat_lt.2 (magUnits_strictMono h)
  have least (n : Nat) : (0 : Int) ≤ magUnits n := Int.natCast_nonneg _
  unfold keyUnits
  split_ifs with ha hb hb
  · have := mono b.natAbs a.natAbs (by omega)
    omega
  · have := mono 0 a.natAbs (by omega)
    have := least b.natAbs
    omega
  · omega
  · exact mono a.natAbs b.natAbs (by omega)

/-- A dyadic value with the least exponent taken out. -/
theorem dyadic_eq (m : Int) (e : Nat) :
    (if 0 ≤ (e : Int) + 1 - 150 then ((m * 2 ^ ((e : Int) + 1 - 150).toNat : Int) : Rat)
      else mkRat m (2 ^ (-((e : Int) + 1 - 150)).toNat)) = ((m * 2 ^ e : Int) : Rat) / 2 ^ 149 := by
  split_ifs with h
  · obtain ⟨k, rfl⟩ : ∃ k, e = k + 149 := ⟨e - 149, by omega⟩
    rw [show ((k + 149 : Nat) : Int) + 1 - 150 = (k : Int) by omega, Int.toNat_natCast]
    push_cast
    rw [pow_add, eq_div_iff (by positivity), mul_assoc]
  · obtain ⟨k, hk⟩ : ∃ k, e + k = 149 := ⟨149 - e, by omega⟩
    rw [show (-((e : Int) + 1 - 150)).toNat = k by omega, Rat.mkRat_eq_div, ← hk]
    push_cast
    rw [pow_add, div_eq_div_iff (by positivity) (by positivity)]
    ring

theorem expo_eq (w : Word) : F32.expo w = w.toNat % 2 ^ 31 / 2 ^ 23 := by
  unfold F32.expo
  omega

theorem frac_eq (w : Word) : F32.frac w = w.toNat % 2 ^ 31 % 2 ^ 23 := by
  unfold F32.frac
  omega

/-- The exponent of a word above the least one. -/
def exponentOf (w : Word) : Nat := F32.expo w - 1

theorem dy_exponent (w : Word) : (F32.dy w).e = (exponentOf w : Int) + 1 - 150 := by
  unfold F32.dy exponentOf
  dsimp only
  split_ifs <;> omega

theorem dy_mantissa (w : Word) : (F32.dy w).m * 2 ^ exponentOf w = keyUnits (F32.key w) := by
  have mag : (if F32.expo w = 0 then F32.frac w else F32.frac w + 2 ^ 23) * 2 ^ exponentOf w =
      magUnits (w.toNat % 2 ^ 31) := by
    unfold exponentOf magUnits
    rw [← expo_eq, ← frac_eq]
    split_ifs with least
    · rw [least, Nat.zero_sub, Nat.pow_zero, Nat.mul_one]
    · rfl
  have signed (n : Nat) (s : Bool) : keyUnits (if s then -(n : Int) else n) = if s then -(magUnits n : Int) else magUnits n := by
    have zero : magUnits 0 = 0 := rfl
    unfold keyUnits
    cases s
    · simp
    · rcases Nat.eq_zero_or_pos n with rfl | pos
      · simp [zero]
      · simp [pos]
  unfold F32.dy F32.key
  dsimp only
  rw [signed, ← mag]
  split_ifs <;> push_cast <;> ring

/-- The value of a word is that of its order key. -/
theorem rat_eq_keyUnits (w : Word) : F32.rat w = (keyUnits (F32.key w) : Rat) / 2 ^ 149 := by
  unfold F32.rat
  dsimp only
  rw [dy_exponent, dyadic_eq, dy_mantissa]

/-- Settles O28: the value of a word rises strictly with its order key. -/
theorem wordOrderIsValueOrder : Obligations.WordOrderIsValueOrder := by
  have pos : (0 : Rat) < 2 ^ 149 := by positivity
  refine ⟨fun a b _ _ => ?_, fun a b => ?_, fun a b => ?_⟩
  · rw [rat_eq_keyUnits, rat_eq_keyUnits, div_lt_div_iff_of_pos_right pos, div_le_div_iff_of_pos_right pos, Int.cast_lt,
      Int.cast_le, keyUnits_strictMono.lt_iff_lt, keyUnits_strictMono.le_iff_le]
    exact ⟨decide_eq_true_iff, decide_eq_true_iff⟩
  · simp only [F32.fmin, F32.le, decide_eq_true_eq]
    split_ifs with h
    · exact ⟨.inl rfl, le_refl _, h⟩
    · exact ⟨.inr rfl, le_of_not_ge h, le_refl _⟩
  · simp only [F32.fmax, F32.le, decide_eq_true_eq]
    split_ifs with h
    · exact ⟨.inr rfl, h, le_refl _⟩
    · exact ⟨.inl rfl, le_refl _, le_of_not_ge h⟩

end Sys2Proof.Machine

namespace Sys2Proof.Machine

/-! ## A start (R43, R553, R558) -/

/-- A module as a start leaves it that has room for its records and no active fault. -/
def freshFrom (m n : Module) : Prop :=
  startedFrom m n ∧ n.faults.active = [] ∧ n.faults.buffer.length ≤ 1

/-- With room in the write buffer a record touches the buffer and its sequence number alone. -/
theorem record_room (code detail kind func pattern : Nat) {m : Module} (room : m.faults.buffer.length < 512) :
    ∃ r : LogRec, record code detail kind func pattern m = { m with faults := { m.faults with
      seq := (m.faults.seq + 1) % 2 ^ 32, buffer := m.faults.buffer ++ [r] } } := by
  refine ⟨logRec m code detail kind func pattern m.time.count, ?_⟩
  simp only [record, pushRecord, room, if_true, noteOverrun, true_or]

/-- The supervisor's mode after a start is the one its strap asks for. -/
theorem lockstep_init_mode (split : Bool) : modeOk (Lockstep.init split).mode split = true := by
  cases split <;> rfl

/-- The module of R554 with the record of its start: as a start leaves it. -/
theorem record_started {b m : Module} (h : startedFrom b m) (active : m.faults.active = [])
    (buffer : m.faults.buffer = []) : freshFrom b (record 0 0 5 0 0 m) := by
  obtain ⟨r, hr⟩ := record_room 0 0 5 0 0 (m := m) (by rw [buffer]; decide)
  rw [hr]
  exact ⟨h, active, by rw [buffer]; exact Nat.le_refl 1⟩

/-- EPOCH_BOOT_INVALID after a start enters the table and the log, and nothing else changes. -/
theorem raise_bootInvalid {b m : Module} (h : freshFrom b m) : startedFrom b (raise F.epochBootInvalid 0 false m) := by
  obtain ⟨⟨label, transition, -, pattern, timed, waiting, queue, staged, live, boots, mode⟩, active, buffer⟩ := h
  rw [raise_logged (by decide) (by rw [active]; rfl) (by rw [active]; decide) (by omega)]
  refine ⟨label, transition, fun a ha => ?_, pattern, timed, waiting, queue, staged, live, boots, mode⟩
  rw [active] at ha
  exact congrArg (·.code) (List.mem_singleton.1 ha)

/-- Every start forgets what was active and what waited. -/
theorem bootTo_started (b : Boot) (count : Tick) (wake locked : Bool) (m : Module) :
    startedFrom m (bootTo b count wake locked m) := by
  unfold bootTo
  extract_lets s now
  split
  rename_i e bad boots
  extract_lets img ch m1 m2
  have staged : e.staged = none := by
    have := congrArg (·.1.staged) boots
    exact this.symm
  have none (f : Func) : m1.patternOf f = .none := Vector.getElem_replicate _
  have fresh : freshFrom m m2 := record_started
    ⟨rfl, rfl, fun _ h => absurd h List.not_mem_nil, none, rfl, rfl, rfl, staged, rfl, rfl, lockstep_init_mode _⟩
    rfl rfl
  split
  · exact raise_bootInvalid fresh
  · exact fresh.1

theorem startedFrom_of_bootCount {m n k : Module} (h : n.service.bootCount = m.service.bootCount)
    (started : startedFrom n k) : startedFrom m k := by
  unfold startedFrom at *
  rwa [h] at started

/-- What leaves the module before a restart touches no count of starts. -/
theorem bootCount_of_sentOnly {m n : Module} (h : sentOnly m n) : n.service.bootCount = m.service.bootCount := by
  obtain ⟨_, _, _, _, _, rfl, -⟩ := h
  rfl

theorem sendNew_sentOnly (before m : Module) : sentOnly m (sendNew before m) :=
  sentOnly_foldl _ (fun _ _ => sentOnly_foldl _ (fun _ _ => emit_sentOnly ..) _ _) _ _

theorem restartNow_started (b : Boot) (m : Module) : startedFrom m (restartNow b m) :=
  startedFrom_of_bootCount (n := programTime (programLog m)) rfl (bootTo_started ..)

/-- The module of a next state is what the command makes of the module at its time. -/
theorem mod_of_effect {dt : Nat} {f : Module → Module} {s t : State} (h : effect dt f s = .next t) :
    t.mod = f (advance dt s.mod) := by
  rw [effect_next] at h
  exact congrArg State.mod (Host.Outcome.next.inj h).symm

theorem startUp_started (b : Boot) (lvin : Word) {m : Module} (off : m.label = .off) :
    startedFrom m (startUp b lvin m) := by
  unfold startUp
  rw [off]
  exact startedFrom_of_bootCount rfl (bootTo_started ..)

theorem busWake_started {p : Fin 4} {c : WakeCause} (b : Boot) {m : Module} (asleep : m.label = .sleep)
    (supplied : m.supply.lvinOk = true) (wakes : m.wakesOn p c = true) : startedFrom m (busWake p c b m) := by
  unfold busWake
  dsimp only
  rw [wakes, asleep, supplied]
  exact startedFrom_of_bootCount rfl (bootTo_started ..)

theorem moduleRestart_started {h : Hdr} (b : Boot) {m : Module} (passes : resetDieCheck h [0] m = none) :
    startedFrom m (moduleRestart h b m) := by
  unfold moduleRestart
  rw [passes]
  have sent : sentOnly (countAccepted m) (sendNew m (sendReply 0xF1 h 1 0 0 [] (countAccepted m))) :=
    sentOnly_trans (sendReply_sentOnly ..) (sendNew_sentOnly ..)
  have boots : (sendNew m (sendReply 0xF1 h 1 0 0 [] (countAccepted m))).service.bootCount = m.service.bootCount :=
    (bootCount_of_sentOnly sent).trans rfl
  exact startedFrom_of_bootCount boots (restartNow_started ..)

theorem restartCommand_attends {h : Hdr} {b : Boot} {m : Module} (attends : m.attends = true) :
    restartCommand h b m = moduleRestart h b m := by
  unfold restartCommand
  rw [attends_listens attends, attends_rollback attends]
  rfl

/-- Settles O26: the three ways lead to the start of R554, and none of them counts a start before it. -/
theorem startForgetsWhatWasActive : Obligations.StartForgetsWhatWasActive := by
  refine ⟨?startUp, ?busWake, ?restart⟩
  case startUp =>
    intro dt b lvin s t m hm off next
    rw [mod_of_effect (f := startUp b lvin) next, ← hm]
    exact startUp_started b lvin off
  case busWake =>
    intro dt p c b s t m hm asleep supplied wakes next
    rw [mod_of_effect (f := busWake p c b) next, ← hm]
    exact busWake_started b asleep supplied wakes
  case restart =>
    intro dt h b s t m hm attends passes next
    rw [mod_of_effect (f := restartCommand h b) next, ← hm, restartCommand_attends attends]
    exact moduleRestart_started b passes

end Sys2Proof.Machine

namespace Sys2Proof.Machine

/-! ## A crossing over a gap of time (R79, R81, R82) -/

/-- A smaller start of the minimum that does not decide it decides nothing. -/
theorem foldl_min_of_lt {a b : Nat} (h : a ≤ b) (l : List Nat) (lt : l.foldl Nat.min a < a) :
    l.foldl Nat.min b = l.foldl Nat.min a := by
  induction l generalizing a b with
  | nil => exact absurd lt (Nat.lt_irrefl a)
  | cons x l ih =>
    rw [List.foldl_cons] at lt ⊢
    rw [List.foldl_cons]
    by_cases below : x < a
    · rw [show Nat.min b x = x from Nat.min_eq_right (by omega), show Nat.min a x = x from Nat.min_eq_right (by omega)]
    · rw [show Nat.min a x = a from Nat.min_eq_left (by omega)] at lt ⊢
      exact ih (Nat.le_min.2 ⟨h, by omega⟩) lt

section
variable {now later : Nat} (h : now ≤ later)
include h

/-- What a control signal does up to a clock and then up to a later one, it does up to the later one. -/
theorem toggle_settle_later (k : Nat) (t : Toggle) (hk : t.queue.length = k) :
    Toggle.settle later (Toggle.settle now k t).queue.length (Toggle.settle now k t) = Toggle.settle later k t := by
  induction k generalizing t with
  | zero => rw [Toggle.settle, hk]
  | succ k ih =>
    obtain ⟨level, sent, toggles, queue, ackAt⟩ := t
    cases queue with
    | nil => exact absurd hk (by simp)
    | cons l ls =>
      by_cases due : ackAt ≤ now
      · rw [Toggle.settle, Toggle.settle]
        simp only [due, Nat.le_trans due h, if_true]
        exact ih _ (Nat.succ.inj hk)
      · have stays : Toggle.settle now (k + 1) ⟨level, sent, toggles, l :: ls, ackAt⟩ =
            ⟨level, sent, toggles, l :: ls, ackAt⟩ := by
          rw [Toggle.settle]
          simp only [due, if_false]
        rw [stays, hk]

theorem eventLine_settle_later (l : EventLine) : (l.settle now).settle later = l.settle later := by
  by_cases due : (l.busy ≤ now && l.events != 0 && !l.overflow) = true
  · have both : (l.busy ≤ later && l.events != 0 && !l.overflow) = true := by
      simp only [Bool.and_eq_true, decide_eq_true_eq] at due ⊢
      exact ⟨⟨due.1.1.trans h, due.1.2⟩, due.2⟩
    simp [EventLine.settle, due, both]
  · rw [show l.settle now = l from if_neg due]

/-- Words that take a lane up to a clock and then up to a later one take those they take up to the later one. -/
theorem feed_later (k : Nat) (c : Crossing) (hk : c.held = k) :
    Crossing.feed later (Crossing.feed now k c).held (Crossing.feed now k c) = Crossing.feed later k c := by
  induction k generalizing c with
  | zero => rw [Crossing.feed, hk]
  | succ k ih =>
    by_cases stops : c.held = 0 ∨ now < c.lanes.foldl Nat.min (now + 1)
    · have stays : Crossing.feed now (k + 1) c = c := if_pos stops
      rw [stays, hk]
    · obtain ⟨holds, free⟩ := not_or.1 stops
      have same := foldl_min_of_lt (Nat.add_le_add_right h 1) c.lanes (by omega)
      have goes : ¬ (c.held = 0 ∨ later < c.lanes.foldl Nat.min (later + 1)) := by rw [same]; omega
      have first : Crossing.feed now (k + 1) c = Crossing.feed now k { c with
          held := c.held - 1, lanes := takeLane (c.lanes.foldl Nat.min (now + 1)) c.lanes } := if_neg stops
      have second : Crossing.feed later (k + 1) c = Crossing.feed later k { c with
          held := c.held - 1, lanes := takeLane (c.lanes.foldl Nat.min (later + 1)) c.lanes } := if_neg goes
      rw [first, second, same]
      exact ih _ (by rw [hk]; rfl)

end

/-- The lanes and the other signals of a crossing do not touch one another. -/
theorem feed_signals (now k : Nat) (c : Crossing) (t : Toggle) (l p : EventLine) :
    Crossing.feed now k { c with control := t, line := l, hpLine := p } =
      { Crossing.feed now k c with control := t, line := l, hpLine := p } := by
  induction k generalizing c with
  | zero => rfl
  | succ k ih =>
    rw [Crossing.feed, Crossing.feed]
    dsimp only
    split_ifs
    · rfl
    · exact ih { c with held := c.held - 1, lanes := takeLane (c.lanes.foldl Nat.min (now + 1)) c.lanes }

theorem feed_keeps_signals (now k : Nat) (c : Crossing) :
    (Crossing.feed now k c).control = c.control ∧ (Crossing.feed now k c).line = c.line ∧
      (Crossing.feed now k c).hpLine = c.hpLine := by
  have := feed_signals now k c c.control c.line c.hpLine
  exact ⟨(congrArg Crossing.control this).trans rfl, (congrArg Crossing.line this).trans rfl,
    (congrArg Crossing.hpLine this).trans rfl⟩

/-- A crossing up to a clock and then up to a later one is the crossing up to the later one. -/
theorem crossing_settle_later {now later : Nat} (h : now ≤ later) (c : Crossing) :
    (c.settle now).settle later = c.settle later := by
  obtain ⟨control, line, hpLine⟩ := feed_keeps_signals now c.held c
  have fed := feed_later h c.held c rfl
  unfold Crossing.settle
  simp only [feed_signals]
  rw [fed, toggle_settle_later h _ _ rfl, eventLine_settle_later h, eventLine_settle_later h]

/-! ## Time in OFF and SLEEP (R547) -/

/-- The clocks after a gap of time. -/
def laterClocks (dt : Nat) (t : Timing) : Timing :=
  { t with elapsed := t.elapsed + dt, count := if t.running then t.count + BitVec.ofNat 64 dt else t.count }

theorem laterClocks_laterClocks (dt e : Nat) (t : Timing) : laterClocks e (laterClocks dt t) = laterClocks (dt + e) t := by
  unfold laterClocks
  dsimp only
  rw [Nat.add_assoc, BitVec.ofNat_add]
  split_ifs
  · rw [BitVec.add_assoc]
  · rfl

/-- A count that runs on where a condition holds. -/
theorem ite_add_add (c : Bool) (n dt e : Nat) :
    (if c then (if c then n + dt else n) + e else (if c then n + dt else n)) = if c then n + (dt + e) else n := by
  cases c
  · rfl
  · exact Nat.add_assoc ..

theorem passTime_eq (dt : Nat) (m : Module) : passTime dt m = { m with
    time := laterClocks dt m.time,
    crossings := m.crossings.map (Crossing.settle (m.time.elapsed + dt)),
    drivenTime := if m.driven then m.drivenTime + dt else m.drivenTime,
    service := { m.service with
      unprogrammed := if m.atLeastReady then m.service.unprogrammed + dt else m.service.unprogrammed },
    out := [] } := rfl

/-- Passing one time and then another is passing both. -/
theorem passTime_passTime (dt e : Nat) (m : Module) : passTime e (passTime dt m) = passTime (dt + e) m := by
  have crossings : (m.crossings.map (Crossing.settle (m.time.elapsed + dt))).map
      (Crossing.settle (m.time.elapsed + dt + e)) = m.crossings.map (Crossing.settle (m.time.elapsed + (dt + e))) := by
    rw [Vector.map_map, Nat.add_assoc]
    exact congrArg (Vector.map · _)
      (funext fun c => crossing_settle_later (Nat.add_le_add_left (Nat.le_add_right _ _) _) c)
  have driven : (passTime dt m).driven = m.driven := rfl
  have ready : (passTime dt m).atLeastReady = m.atLeastReady := rfl
  rw [passTime_eq e, driven, ready, passTime_elapsed, passTime_eq dt, passTime_eq (dt + e)]
  simp only [crossings, laterClocks_laterClocks, ite_add_add]

/-! ## Time in which nothing falls due (R61) -/

/-- Held writes without a clock are not due. -/
theorem applyDue_unheld {m : Module} (h : ∀ w ∈ m.interp.waiting, w.heldUntil = none) : applyDue m = m := by
  have none_due (w : Waiting) (hw : w ∈ m.interp.waiting) : w.heldUntil.any (fun t => t ≤ m.time.elapsed) = false := by
    rw [h w hw]
    rfl
  have due : m.interp.waiting.filter (fun w => w.heldUntil.any (fun t => t ≤ m.time.elapsed)) = [] :=
    List.filter_eq_nil_iff.2 fun w hw => by rw [none_due w hw]; decide
  have kept : (m.interp.waiting.filter (fun w =>
      !(w.heldUntil.any (fun t => t ≤ m.time.elapsed) && w.endsWithWrites))).map (fun w =>
        if w.heldUntil.any (fun t => t ≤ m.time.elapsed) then { w with heldUntil := none } else w) =
      m.interp.waiting := by
    rw [List.filter_eq_self.2 fun w hw => by rw [none_due w hw]; rfl]
    exact (List.map_congr_left (g := id) fun w hw => by rw [none_due w hw]; rfl).trans (List.map_id _)
  unfold applyDue
  dsimp only
  rw [due, kept]
  rfl

/-- Without a window that is still to open none opens. -/
theorem openWindow_closed (a : Fin 2) {m : Module} (h : ∀ k ∈ m.afe[a].test, (k.passed && !k.opened) = false) :
    openWindow a m = m := by
  unfold openWindow
  split
  · rfl
  · next k test =>
    have shut := h k test
    rw [if_pos]
    revert shut
    cases k.passed <;> cases k.opened <;> simp

/-- Where no clock is due nothing lands, is published, is held, is read or opens. -/
theorem dueClocks_nil {m : Module} (h : m.dueClocks = []) :
    m.landings = [] ∧ m.publishing = [] ∧ (∀ w ∈ m.interp.waiting, w.heldUntil = none) ∧
      (∀ p : Fin 6, m.feedback[p].ssiReading = none) ∧
      ∀ a : Fin 2, ∀ k ∈ m.afe[a].test, (k.passed && !k.opened) = false := by
  simp only [Module.dueClocks, Module.landingClocks, List.append_eq_nil_iff, List.map_eq_nil_iff,
    List.filterMap_eq_nil_iff] at h
  obtain ⟨⟨⟨⟨landings, publishing⟩, held⟩, frames⟩, windows⟩ := h
  refine ⟨landings, publishing, held, fun p => ?_, fun a k hk => ?_⟩
  · have := List.filterMap_eq_nil_iff.1 frames m.feedback[p] (Vector.mem_toList_iff.2 (Vector.getElem_mem p.isLt))
    exact Option.map_eq_none_iff.1 this
  · have := List.filterMap_eq_nil_iff.1 windows a (List.mem_finRange a)
    rw [Option.mem_def.1 hk, Option.bind_some] at this
    by_contra open_
    rw [if_pos (by simpa using open_)] at this
    exact absurd this (Option.some_ne_none _)

/-- Where no clock is due a stretch moves the clocks, the gate edges and the regenerated edges. -/
theorem stretch_quiet {m : Module} (dt : Nat) (h : m.dueClocks = []) :
    ∃ (x : Vector Island 36) (y : Vector Feedback 6),
      stretch dt m = { passTime dt m with islands := x, feedback := y, out := m.out } := by
  obtain ⟨landings, publishing, held, frames, windows⟩ := dueClocks_nil h
  obtain ⟨x, ex⟩ := runGates_islands dt m
  obtain ⟨x', ex'⟩ := followGates_islands dt { passTime dt (runGates dt m) with out := m.out }
  obtain ⟨y, ey, ky⟩ := followEp_feedback dt 0 (followGates dt { passTime dt (runGates dt m) with out := m.out })
  obtain ⟨z, ez, kz⟩ := followEp_feedback dt 1
    (followEp dt 0 (followGates dt { passTime dt (runGates dt m) with out := m.out }))
  have reading (p : Fin 6) : z[p].ssiReading = none := by
    rw [kz, ey]
    refine (ky p).trans ?_
    rw [ex', ex]
    exact frames p
  have ends : followEp dt 1 (followEp dt 0 (followGates dt { passTime dt (runGates dt m) with out := m.out })) =
      { passTime dt m with islands := x', feedback := z, out := m.out } := by
    rw [ez, ey, ex', ex]
    rfl
  refine ⟨x', z, ?_⟩
  unfold stretch
  dsimp only
  rw [ends, settleDue_idle, applyDue_unheld, readFrames_idle reading, openWindow_closed 0, openWindow_closed 1]
  · exact windows 1
  · exact windows 0
  · exact held
  · exact landings
  · exact publishing

/-- Where nothing falls due and no port waits, the time before a command is one stretch or the clocks alone. -/
theorem advance_clocks {m : Module} (dt : Nat) (h : m.dueClocks = []) (q : m.portsQuiet) :
    ∃ (x : Vector Island 36) (y : Vector Feedback 6),
      advance dt m = { passTime dt m with islands := x, feedback := y, out := [] } := by
  by_cases up : 2 ≤ m.label.code
  · obtain ⟨x, y, e⟩ := stretch_quiet (m := { m with out := [] }) dt h
    exact ⟨x, y, (advance_quiet dt up h q).trans e⟩
  · exact ⟨m.islands, m.feedback, (advance_down dt (by omega)).trans rfl⟩

/-- The clocks before a command are those of the time that passes. -/
theorem advance_time {m : Module} (dt : Nat)
    (h : m.dueClocks = [] ∧ (∀ p : Fin 6, m.feedback[p].waits = false) ∨ m.label.code < 2) :
    (advance dt m).time = laterClocks dt m.time := by
  rcases h with ⟨due, quiet⟩ | down
  · obtain ⟨x, y, e⟩ := advance_clocks dt due quiet
    rw [e]
    rfl
  · rw [advance_down dt down]
    rfl

/-- Settles O27: where nothing falls due time is one stretch, in OFF and SLEEP the clocks alone; clocks add. -/
theorem timeAdvancesEvenly : Obligations.TimeAdvancesEvenly := by
  refine ⟨?clocks, ?quiet, ?down, ?adds⟩
  case clocks =>
    intro dt m h
    rw [advance_time dt h]
    refine ⟨rfl, fun runs => ?_, fun stands => ?_⟩
    · unfold laterClocks
      rw [if_pos runs, BitVec.toNat_add, BitVec.toNat_ofNat, Nat.add_mod_mod]
    · unfold laterClocks
      rw [if_neg (by rw [stands]; decide)]
  case quiet =>
    intro dt m due quiet
    obtain ⟨x, y, e⟩ := advance_clocks dt due quiet
    exact ⟨_, _, x, y, _, _, e.trans rfl, rfl, rfl⟩
  case down =>
    intro dt m h
    exact ⟨_, _, _, _, (advance_down dt h).trans (passTime_eq dt m), rfl, rfl⟩
  case adds =>
    intro dt e m h
    rw [advance_down dt h, advance_down e (m := passTime dt m) h, advance_down (dt + e) h, passTime_passTime]

end Sys2Proof.Machine

namespace Sys2Proof.Machine

/-! ## One feedback port updated (R261) -/

/-- A port that was updated is what the update makes of it. -/
theorem updFeedback_port (p : Fin 6) (f : Feedback → Feedback) (m : Module) :
    (updFeedback p f m).feedback[p] = f m.feedback[p] := getElem_upd_self ..

theorem updFeedback_twice (p : Fin 6) (f g : Feedback → Feedback) (m : Module) :
    updFeedback p g (updFeedback p f m) = updFeedback p (fun x => g (f x)) m := by
  simp only [updFeedback, upd_upd]
  rfl

/-- Two updates that make the same of the port are the same. -/
theorem updFeedback_congr {p : Fin 6} {f g : Feedback → Feedback} {m : Module}
    (h : f m.feedback[p] = g m.feedback[p]) : updFeedback p f m = updFeedback p g m := by
  unfold updFeedback Vector.upd
  simp only [← Fin.getElem_fin, h]

/-- An update by what the port is now. -/
theorem updFeedback_const (p : Fin 6) (f : Feedback → Feedback) (m : Module) :
    updFeedback p f m = updFeedback p (fun _ => f m.feedback[p]) m := rfl

/-- A port's fault and its event leave the ports as they are. -/
theorem raisePort_feedback (code : Nat) (p : Fin 6) (cond : Bool) (m : Module) :
    (raisePort code p cond m).feedback = m.feedback := by
  obtain ⟨_, _, _, _, _, _, _, h⟩ := raise_reactsOnly code p.val cond m
  unfold raisePort
  rw [h]
  rfl

/-! ## An index (R270) -/

/-- The turns that a correction at the index carries with it (R287). -/
def indexCarry (m : Module) (p : Fin 6) : Int :=
  let d := indexDeviation (m.fcounts p) m.feedback[p].count (m.fnum p P.fbIndexPos)
  if (m.fnum p P.fbIndexPos : Int) + d ≥ m.fcounts p then 1
  else if (m.fnum p P.fbIndexPos : Int) + d < 0 then -1 else 0

section
variable {p : Fin 6} {a b : Bool} {m : Module} (counts : m.fcounts p ≠ 0)
  (gate : m.fnum p P.fbIndexGate ≠ 1 ∨ (a && b) = true) (whole : m.feedback[p].lost.testBit 2 = false)
  (free : m.feedback[p].indexBlocked = false)
include counts gate whole free

/-- An index that nothing keeps out acts. -/
theorem index_acts : ¬ (m.fcounts p = 0 || (m.fnum p P.fbIndexGate == 1 && !(a && b)) || m.feedback[p].lost.testBit 2 ||
    m.feedback[p].indexBlocked) = true := by
  rw [whole, free]
  rcases gate with open_ | both
  · simp [counts, open_]
  · simp [counts, both]

theorem takeIndex_first (source : m.fsource p = 1) (fresh : m.feedback[p].acquire ≠ 2) (clear : m.portBlocked p = false) :
    takeIndex p a b m = updFeedback p (fun f => { f with
      count := m.fnum p P.fbIndexPos, turns := f.turns - indexCarry m p, posValid := true, acquire := 2,
      indexSeen := true, speedValid := true }) m := by
  unfold takeIndex
  dsimp only
  rw [if_neg (index_acts counts gate whole free),
    if_pos (by rw [Bool.and_eq_true, bne_iff_ne, beq_iff_eq]; exact ⟨fresh, source⟩), clear]
  rfl

section
variable (acquired : m.feedback[p].acquire = 2) (valid : m.feedback[p].posValid = true)
  (seen : m.feedback[p].indexSeen = true)
include acquired valid seen

/-- An index of a port that has had one is judged by its deviation. -/
theorem takeIndex_seen : takeIndex p a b m =
    (let d := indexDeviation (m.fcounts p) m.feedback[p].count (m.fnum p P.fbIndexPos)
     if d.natAbs ≤ m.fnum p P.fbIndexTolerance then
       updFeedback p (fun f => { f with
         count := m.fnum p P.fbIndexPos, revolutions := f.revolutions - indexCarry m p,
         turns := f.turns - indexCarry m p, indexDev := d, indexSeen := true,
         overflow := f.overflow || (d != 0 && f.corrections == 0xFFFFFFFE),
         corrections := if d = 0 then f.corrections else inc32 f.corrections }) m
     else
       raisePort F.fbIndexDeviation p false
         (updFeedback p (fun f => { f with indexDev := d, posValid := false, indexBlocked := true }) m)) := by
  unfold takeIndex
  dsimp only
  rw [if_neg (index_acts counts gate whole free), if_neg (by rw [acquired]; simp),
    if_neg (by rw [valid]; simp), if_neg (by rw [seen]; simp)]
  rfl

end
end

/-! ## The end of a tick (R285) -/

/-- The index of the tick no longer waits. -/
def withoutIndex (p : Fin 6) (m : Module) : Module := updFeedback p (fun f => { f with indexPending := none }) m

theorem withoutIndex_port (p : Fin 6) (m : Module) :
    (withoutIndex p m).feedback[p] = { m.feedback[p] with indexPending := none } := updFeedback_port ..

/-- What blocks a port does not wait for the end of the tick. -/
theorem withoutIndex_portBlocked (p : Fin 6) (m : Module) : (withoutIndex p m).portBlocked p = m.portBlocked p := by
  unfold Module.portBlocked
  rw [withoutIndex_port]
  rfl

/-- A tick with an index and no SSI frame. -/
theorem settlePort_index {p : Fin 6} {a b : Bool} {m : Module} (index : m.feedback[p].indexPending = some (a, b))
    (frame : (takeIndex p a b (withoutIndex p m)).feedback[p].ssiPending = none) :
    settlePort p m = takeIndex p a b (withoutIndex p m) := by
  unfold settlePort
  rw [index]
  dsimp only
  rw [show updFeedback p (fun f => { f with indexPending := none }) m = withoutIndex p m from rfl, frame]

section
variable {p : Fin 6} {a b : Bool} {m : Module} (index : m.feedback[p].indexPending = some (a, b))
  (frame : m.feedback[p].ssiPending = none) (counts : m.fcounts p ≠ 0)
  (gate : m.fnum p P.fbIndexGate ≠ 1 ∨ (a && b) = true) (whole : m.feedback[p].lost.testBit 2 = false)
  (free : m.feedback[p].indexBlocked = false)
include index frame counts gate whole free

theorem settlePort_first (source : m.fsource p = 1) (fresh : m.feedback[p].acquire ≠ 2)
    (clear : m.portBlocked p = false) : ∃ turns : Int, settlePort p m = updFeedback p (fun f => { f with
      indexPending := none, count := m.fnum p P.fbIndexPos, turns := turns, posValid := true, acquire := 2,
      indexSeen := true, speedValid := true }) m := by
  have port := withoutIndex_port p m
  have takes := takeIndex_first (p := p) (a := a) (b := b) (m := withoutIndex p m) counts gate (by rwa [port])
    (by rwa [port]) source (by rwa [port]) (by rwa [withoutIndex_portBlocked])
  refine ⟨m.feedback[p].turns - indexCarry (withoutIndex p m) p, ?_⟩
  rw [settlePort_index index (by rw [takes, updFeedback_port, port]; exact frame), takes, withoutIndex,
    updFeedback_twice]
  exact updFeedback_congr rfl

section
variable (acquired : m.feedback[p].acquire = 2) (valid : m.feedback[p].posValid = true)
  (seen : m.feedback[p].indexSeen = true)
include acquired valid seen

theorem settlePort_within (near : (indexDeviation (m.fcounts p) m.feedback[p].count (m.fnum p P.fbIndexPos)).natAbs ≤
      m.fnum p P.fbIndexTolerance) :
    ∃ (revolutions turns : Int) (overflow : Bool), settlePort p m = updFeedback p (fun f => { f with
      indexPending := none, count := m.fnum p P.fbIndexPos, revolutions := revolutions, turns := turns,
      indexDev := indexDeviation (m.fcounts p) m.feedback[p].count (m.fnum p P.fbIndexPos), indexSeen := true,
      overflow := overflow,
      corrections := if indexDeviation (m.fcounts p) m.feedback[p].count (m.fnum p P.fbIndexPos) = 0
        then f.corrections else inc32 f.corrections }) m := by
  have port := withoutIndex_port p m
  have takes := takeIndex_seen (p := p) (a := a) (b := b) (m := withoutIndex p m) counts gate (by rwa [port])
    (by rwa [port]) (by rwa [port]) (by rwa [port]) (by rwa [port])
  dsimp only at takes
  rw [if_pos (by rw [port]; exact near)] at takes
  refine ⟨m.feedback[p].revolutions - indexCarry (withoutIndex p m) p,
    m.feedback[p].turns - indexCarry (withoutIndex p m) p, m.feedback[p].overflow ||
      (indexDeviation (m.fcounts p) m.feedback[p].count (m.fnum p P.fbIndexPos) != 0 &&
        m.feedback[p].corrections == 0xFFFFFFFE), ?_⟩
  rw [settlePort_index index (by rw [takes, updFeedback_port, port]; exact frame), takes, port, withoutIndex,
    updFeedback_twice]
  exact updFeedback_congr rfl

theorem settlePort_beyond (far : m.fnum p P.fbIndexTolerance <
      (indexDeviation (m.fcounts p) m.feedback[p].count (m.fnum p P.fbIndexPos)).natAbs) :
    settlePort p m = raisePort F.fbIndexDeviation p false (updFeedback p (fun f => { f with
      indexPending := none, indexDev := indexDeviation (m.fcounts p) m.feedback[p].count (m.fnum p P.fbIndexPos),
      posValid := false, indexBlocked := true }) m) := by
  have port := withoutIndex_port p m
  have takes := takeIndex_seen (p := p) (a := a) (b := b) (m := withoutIndex p m) counts gate (by rwa [port])
    (by rwa [port]) (by rwa [port]) (by rwa [port]) (by rwa [port])
  dsimp only at takes
  rw [if_neg (by rw [port]; exact Nat.not_le_of_lt far)] at takes
  rw [settlePort_index index (by rw [takes, raisePort_feedback, updFeedback_port, port]; exact frame), takes, port,
    withoutIndex, updFeedback_twice]
  rfl

end
end

theorem settlePort_frame {p : Fin 6} {w : Word} {bad : Bool} {m : Module} (index : m.feedback[p].indexPending = none)
    (frame : m.feedback[p].ssiPending = some (w, bad)) :
    settlePort p m = updFeedback p (fun f => { f with
      ssiPending := none,
      ssiReading := some { word := w, lineBad := bad, tick := m.time.count.toNat, count := f.count, passed := f.passed,
                           readyAt := m.time.elapsed + m.ssiTicks p } }) m := by
  unfold settlePort
  rw [index]
  dsimp only
  rw [frame]

theorem settlePort_quiet {p : Fin 6} {m : Module} (h : m.feedback[p].waits = false) : settlePort p m = m := by
  simp only [Feedback.waits, Bool.or_eq_false_iff, Option.isSome_eq_false_iff, Option.isNone_iff_eq_none] at h
  obtain ⟨index, frame⟩ := h
  unfold settlePort
  rw [index]
  dsimp only
  rw [frame]

/-! ## An SSI word (R277, R278) -/

theorem useSsi_first {p : Fin 6} {x : SsiFrame} {frac : Nat} {m : Module} (first : m.feedback[p].ssiStarted = false)
    (clear : m.portBlocked p = false) (counts : m.fcounts p ≠ 0) (still : x.passed = m.feedback[p].passed) :
    ∃ revolutions turns : Int, useSsi p x frac m = updFeedback p (fun f => { f with
      count := (frac * m.fcounts p + 2 ^ 31) / 2 ^ 32 % m.fcounts p, revolutions := revolutions, turns := turns,
      posValid := true, acquire := 2, ssiStarted := true, speedValid := true }) m := by
  have one : Nat.max 1 (m.fcounts p) = m.fcounts p := Nat.max_eq_right (Nat.pos_of_ne_zero counts)
  have count (n : Nat) : ((((n % m.fcounts p : Nat) : Int) + (m.feedback[p].passed - x.passed)) % m.fcounts p).toNat =
      n % m.fcounts p := by
    rw [still, sub_self, add_zero, ← Int.natCast_mod, Int.toNat_natCast, Nat.mod_mod]
  unfold useSsi
  dsimp only
  rw [first, clear, one]
  simp only [Bool.not_false, if_true, Bool.false_eq_true, if_false, count]
  exact ⟨_, _, updFeedback_const ..⟩

theorem useSsi_mismatch {p : Fin 6} {x : SsiFrame} {frac : Nat} {m : Module} (started : m.feedback[p].ssiStarted = true)
    (counts : m.fcounts p ≠ 0) (far : tolWord (m.fpar p P.fbSsiTolerance) < (angleDiff (frac * m.fpoles p)
      (x.count * m.fpoles p % m.fcounts p * 2 ^ 32 / m.fcounts p)).natAbs) :
    useSsi p x frac m =
      raisePort F.fbSsiMismatch p false (updFeedback p (fun f => { f with posValid := false }) m) := by
  have one : Nat.max 1 (m.fcounts p) = m.fcounts p := Nat.max_eq_right (Nat.pos_of_ne_zero counts)
  unfold useSsi
  dsimp only
  rw [started, one, if_neg (by decide), if_pos far]

theorem ssiRead_invalid {p : Fin 6} {x : SsiFrame} {m : Module} (bad : x.lineBad = true)
    (few : m.feedback[p].ssiBad ≠ 2) :
    ssiRead p x m = portError p (updFeedback p (fun f => { f with
      ssiWord := x.word, ssiReading := none, ssiBad := f.ssiBad + 1 }) m) := by
  unfold ssiRead ssiInvalid
  dsimp only
  rw [bad, updFeedback_port, updFeedback_twice]
  simp only [Bool.true_or, if_true]
  rw [if_neg (by omega)]
  exact congrArg _ (updFeedback_congr rfl)

/-- A word that R277 does not call invalid. -/
theorem goodSsi_plausible {p : Fin 6} {x : SsiFrame} {m : Module} (good : m.goodSsi p x = true) :
    (x.lineBad || (m.fnum p P.fbSsiErrorBit < 32 && bit x.word (m.fnum p P.fbSsiErrorBit)) ||
      !m.ssiPlausible p x.tick (m.ssiPosition p x.word) || m.feedback[p].broken.testBit 4) = false := by
  simp only [Module.goodSsi, Bool.and_eq_true, Bool.not_eq_true'] at good
  obtain ⟨⟨⟨line, error⟩, plausible⟩, whole⟩ := good
  rw [line, error, plausible, whole]
  rfl

/-- The condition of a fault leaves the ports as they are. -/
theorem endCond_feedback (code detail : Nat) (m : Module) : (endCond code detail m).feedback = m.feedback := by
  obtain ⟨_, h, -⟩ := setCond_logsOnly code (· == detail) false m
  rw [endCond, h]

theorem endCond_epochs (code detail : Nat) (m : Module) : (endCond code detail m).epochs = m.epochs := by
  obtain ⟨_, h, -⟩ := setCond_logsOnly code (· == detail) false m
  rw [endCond, h]

theorem fpar_of_epochs {m n : Module} (h : n.epochs = m.epochs) (p : Fin 6) (id : Nat) : n.fpar p id = m.fpar p id := by
  unfold Module.fpar Module.rpar Module.regionImage
  rw [h]

theorem fpoles_of_epochs {m n : Module} (h : n.epochs = m.epochs) (p : Fin 6) : n.fpoles p = m.fpoles p := by
  unfold Module.fpoles Module.rnum Module.rpar Module.regionImage
  rw [h]

section
variable {p : Fin 6} {x : SsiFrame} {frac : Nat} {m n : Module} (good : m.goodSsi p x = true)
  (at_ : frac = m.ssiPosition p x.word * 2 ^ 32 / 2 ^ m.fnum p P.fbSsiTurnBits)
  (ended : n = endCond F.fbSsiError p.val (updFeedback p (fun f => { f with ssiWord := x.word, ssiReading := none }) m))
include good at_ ended

/-- A good word is taken by the rule of its source. -/
theorem ssiRead_good : ssiRead p x m = updFeedback p (fun f => { f with
    ssiBad := 0, ssiFresh := true, ssiAngle := word frac, ssiAt := some x.tick })
      (if m.fsource p = 3 then ssiAngleWord p x frac n else useSsi p x frac n) := by
  subst at_ ended
  unfold ssiRead
  dsimp only
  rw [goodSsi_plausible good]
  rfl

theorem ssiRead_first_angle (source : m.fsource p = 3) (noAngle : m.feedback[p].ssiAt = none)
    (noTrail : m.feedback[p].ssiTrail = []) (clear : n.portBlocked p = false) :
    ssiRead p x m = updFeedback p (fun f => { f with
      ssiBad := 0, ssiFresh := true, ssiAngle := word frac, ssiAt := some x.tick,
      ssiTrail := [(x.tick, (frac : Int))], angle := word (frac * m.fpoles p + offsetWord (m.fpar p P.fbAngleOffset)),
      angleAt := x.tick, posValid := true, speedValid := true, acquire := 2 }) n := by
  have port : n.feedback[p] = { m.feedback[p] with ssiWord := x.word, ssiReading := none } := by
    rw [ended, endCond_feedback, updFeedback_port]
  have epochs : n.epochs = m.epochs := by
    rw [ended, endCond_epochs]
    rfl
  rw [ssiRead_good good at_ ended, if_pos source]
  unfold ssiAngleWord
  dsimp only
  rw [clear, port, updFeedback_twice, fpoles_of_epochs epochs, fpar_of_epochs epochs]
  dsimp only
  rw [noAngle, noTrail]
  refine updFeedback_congr ?_
  rw [port]
  dsimp only
  rw [noTrail]
  simp [trailSpeed, trimTrail]

end

/-- Settles O29: each clause is the branch of the index, the frame or the word that its hypotheses name. -/
theorem indexAndFrameSettleAtTheEndOfTheTick : Obligations.IndexAndFrameSettleAtTheEndOfTheTick := by
  refine ⟨fun p m h => settlePort_quiet h, ?first, ?within, ?beyond, fun p w bad m index frame => settlePort_frame index frame,
    ?ssiFirst, ?mismatch, ?invalid, ?good⟩
  case first =>
    intro p a b m index frame counts gate whole free source fresh clear
    obtain ⟨t, h⟩ := settlePort_first index frame counts gate (by simpa using whole) (by simpa using free) source fresh
      (by simpa using clear)
    rw [h, updFeedback_port]
    exact ⟨rfl, rfl, rfl, rfl, rfl, rfl, _, updFeedback_const ..⟩
  case within =>
    intro p a b m index frame counts gate whole free acquired valid seen near
    obtain ⟨r, t, o, h⟩ := settlePort_within index frame counts gate (by simpa using whole) (by simpa using free)
      acquired valid seen near
    rw [h, updFeedback_port]
    exact ⟨rfl, rfl, rfl, _, updFeedback_const ..⟩
  case beyond =>
    intro p a b m index frame counts gate whole free acquired valid seen far
    exact settlePort_beyond index frame counts gate (by simpa using whole) (by simpa using free) acquired valid seen far
  case ssiFirst =>
    intro p x frac m first clear counts still
    obtain ⟨r, t, h⟩ := useSsi_first first (by simpa using clear) counts still
    rw [h, updFeedback_port]
    exact ⟨rfl, rfl, rfl, rfl, rfl, _, updFeedback_const ..⟩
  case mismatch =>
    intro p x frac m started counts far
    exact useSsi_mismatch started counts far
  case invalid =>
    intro p x m bad few
    exact ssiRead_invalid bad few
  case good =>
    intro p x frac m n good at_ ended
    refine ⟨fun source => ?_, fun source noAngle noTrail clear => ?_⟩
    · rw [ssiRead_good good at_ ended, if_neg (by rw [source]; decide)]
    · exact ssiRead_first_angle good at_ ended source noAngle noTrail (by simpa using clear)

end Sys2Proof.Machine

namespace Sys2Proof.Machine

/-! ## Checks that pass (R517, R530) -/

theorem firstFail_pass {c : Check} {cs : List Check} (hc : c = none) (h : firstFail cs = none) :
    firstFail (c :: cs) = none := by
  rw [firstFail_cons_none c cs hc, h]

theorem unlessFails_pass {c : Check} (h : c = none) (v : Verdict) : unlessFails c v = v := by
  rw [h]
  rfl

theorem failIf_pass {b : Bool} (h : b = false) (st : Status) (d : Nat) : failIf b st d = none :=
  (failIf_none b st d).2 h

theorem map_none {α : Type} {o : Option α} (h : o = none) (f : α → Status × Nat) : (o.map f : Check) = none := by
  rw [h]
  rfl

theorem checkLockstep_free {opcode : Nat} (h : needsLockstep opcode = false) (m : Module) :
    checkLockstep opcode m = none := failIf_pass (by rw [h]; rfl) _ _

theorem checkLockstep_covered {m : Module} (h : m.lockstepRequired = false) (opcode : Nat) :
    checkLockstep opcode m = none := failIf_pass (by rw [h, Bool.and_false]) _ _

theorem covered_of_not {m : Module} (h : (!m.lockstepRequired) = true) : m.lockstepRequired = false := by
  simpa using h

/-- Row 3 passes for what is not relayed and not of the system class. -/
theorem checkRelayed_direct {opcode : Nat} {h : Hdr} (direct : h.relayed = false) (class_ : isSystemClass opcode = false)
    (m : Module) : checkRelayed opcode h m = none := by
  rw [checkRelayed, direct, class_]
  rfl

/-- Row 3 passes at a Headstock that is not silenced. -/
theorem checkRelayed_head {opcode : Nat} {h : Hdr} {m : Module} (direct : h.relayed = false) (head : m.isHead = true)
    (heard : m.sys.silenced = false) : checkRelayed opcode h m = none := by
  rw [checkRelayed, direct, head, heard, Bool.and_false]
  simp [firstFail, failIf]

/-- Row 3 passes at a Tailstock for what its Headstock relays over the axle link. -/
theorem checkRelayed_viaHead {opcode : Nat} {h : Hdr} {m : Module} (tail : m.isHead = false)
    (relayed : h.relayed = true) (link : ((h.transport == .cn2 || h.transport == .cn3) && h.fromHead) = true) :
    checkRelayed opcode h m = none := by
  rw [checkRelayed, relayed, tail, link]
  simp [firstFail, failIf]

/-- Row 3 passes for what the Headstock relays over the axle link and is not of the system class. -/
theorem checkRelayed_link {opcode : Nat} {h : Hdr} (relayed : h.relayed = true)
    (link : ((h.transport == .cn2 || h.transport == .cn3) && h.fromHead) = true)
    (class_ : isSystemClass opcode = false) (m : Module) : checkRelayed opcode h m = none := by
  rw [checkRelayed, relayed, link, class_]
  rfl

section
variable {h : Hdr} {ws : List Word} {ok : Nat → Bool} {t : Timing3} {enc : Bool}

theorem ownWords_untimed (untimed : h.timed = false) : ownWords h ws = ws := by
  rw [ownWords, untimed]
  rfl

theorem checkLength_untimed (untimed : h.timed = false) (length : ok ws.length = true) : checkLength h ws ok = none :=
  failIf_pass (by rw [ownWords_untimed untimed, untimed, length]; rfl) _ _

theorem checkEncoding_untimed (untimed : h.timed = false) (free : t ≠ .required) (encoding : enc = true) :
    checkEncoding h t enc = none := failIf_pass (by rw [untimed, encoding]; cases t <;> simp_all) _ _

theorem checkInstant_untimed (untimed : h.timed = false) (m : Module) : checkInstant h ws m = none :=
  failIf_pass (by rw [untimed]; rfl) _ _

/-- The shared checks pass for an untimed request whose length, encoding, origin and coverage are right. -/
theorem prelude_untimed {opcode : Nat} {m : Module} (untimed : h.timed = false) (free : t ≠ .required)
    (length : ok ws.length = true) (encoding : enc = true) (origin : checkRelayed opcode h m = none)
    (coverage : checkLockstep opcode m = none) : prelude opcode h ws ok t enc m = none :=
  (prelude_none ..).2 ⟨checkLength_untimed untimed length, checkEncoding_untimed untimed free encoding, origin, coverage,
    checkInstant_untimed untimed m⟩

end

section
variable {h : Hdr} {lo hi : Word} {ws : List Word} {ok : Nat → Bool} {enc : Bool}

theorem ownWords_timed (timed : h.timed = true) : ownWords h (lo :: hi :: ws) = ws := by
  rw [ownWords, timed]
  rfl

theorem checkLength_timed (timed : h.timed = true) (length : ok ws.length = true) :
    checkLength h (lo :: hi :: ws) ok = none :=
  failIf_pass (by rw [ownWords_timed timed, length]; simp) _ _

theorem checkEncoding_timed (timed : h.timed = true) (encoding : enc = true) : checkEncoding h .optional enc = none :=
  failIf_pass (by rw [timed, encoding]; rfl) _ _

theorem checkInstant_ahead {v : List Word} {m : Module} (ahead : m.ahead v = true) : checkInstant h v m = none := by
  have : m.time.count.toNat ≤ (instantOf v).toNat := of_decide_eq_true ahead
  exact failIf_pass (by simp; omega) _ _

/-- The shared checks pass for a timed request whose instant has not passed. -/
theorem prelude_timed {opcode : Nat} {m : Module} (timed : h.timed = true) (length : ok ws.length = true)
    (encoding : enc = true) (origin : checkRelayed opcode h m = none) (coverage : checkLockstep opcode m = none)
    (ahead : m.ahead (lo :: hi :: ws) = true) : prelude opcode h (lo :: hi :: ws) ok .optional enc m = none :=
  (prelude_none ..).2 ⟨checkLength_timed timed length, checkEncoding_timed timed encoding, origin, coverage,
    checkInstant_ahead ahead⟩

end

theorem plain_untimed {h : Hdr} (plain : h.plain = true) : h.timed = false := by
  simp only [Hdr.plain, Bool.and_eq_true, Bool.not_eq_true'] at plain
  exact plain.1

theorem plain_direct {h : Hdr} (plain : h.plain = true) : h.relayed = false := by
  simp only [Hdr.plain, Bool.and_eq_true, Bool.not_eq_true'] at plain
  exact plain.2

theorem onlyTimed_timed {h : Hdr} (only : h.onlyTimed = true) : h.timed = true := by
  simp only [Hdr.onlyTimed, Bool.and_eq_true] at only
  exact only.1

theorem onlyTimed_direct {h : Hdr} (only : h.onlyTimed = true) : h.relayed = false := by
  simp only [Hdr.onlyTimed, Bool.and_eq_true, Bool.not_eq_true'] at only
  exact only.2

/-- What comes relayed from the Headstock is untimed, relayed and came over the axle link. -/
theorem viaHead_parts {h : Hdr} (via : h.viaHead = true) :
    h.timed = false ∧ h.relayed = true ∧ ((h.transport == .cn2 || h.transport == .cn3) && h.fromHead) = true := by
  simp only [Hdr.viaHead, Bool.and_eq_true, Bool.not_eq_true'] at via
  obtain ⟨⟨⟨untimed, relayed⟩, head⟩, link⟩ := via
  exact ⟨untimed, relayed, by rw [link, head]; rfl⟩

/-- The shared checks pass for a plain request that needs no coverage and no Headstock. -/
theorem prelude_plain {opcode : Nat} {h : Hdr} {ws : List Word} {ok : Nat → Bool} {enc : Bool} {m : Module}
    (plain : h.plain = true) (length : ok ws.length = true) (encoding : enc = true)
    (class_ : isSystemClass opcode = false) (coverage : checkLockstep opcode m = none) :
    prelude opcode h ws ok .never enc m = none :=
  prelude_untimed (plain_untimed plain) (by decide) length encoding (checkRelayed_direct (plain_direct plain) class_ m)
    coverage

/-- The shared checks pass for a timed request that needs no Headstock. -/
theorem prelude_onlyTimed {opcode : Nat} {h : Hdr} {lo hi : Word} {ws : List Word} {ok : Nat → Bool} {enc : Bool}
    {m : Module} (only : h.onlyTimed = true) (length : ok ws.length = true) (encoding : enc = true)
    (class_ : isSystemClass opcode = false) (coverage : checkLockstep opcode m = none)
    (ahead : m.ahead (lo :: hi :: ws) = true) : prelude opcode h (lo :: hi :: ws) ok .optional enc m = none :=
  prelude_timed (onlyTimed_timed only) length encoding (checkRelayed_direct (onlyTimed_direct only) class_ m) coverage
    ahead

/-! ## The verdict becomes the answer (R523, R529, R545) -/

section
variable (opcode : Nat) (h : Hdr) (ws : List Word) (st : Stamps) {m : Module} (attends : m.attends = true)
  (stays : isRestart opcode h ws m = false)
include attends stays

/-- A command that the module takes at once is answered by its verdict. -/
theorem hostCommand_answer : hostCommand opcode h ws st m = answer opcode h ws.length m (handle opcode h ws st m) := by
  rw [hostCommand_attends opcode h ws st attends, runCommand, stays]
  rfl

theorem host_refused {status : Status} {d : Nat} (v : handle opcode h ws st m = .refuse status d) (s : State) :
    became (hostCommand opcode h ws st m) s = became (refuse opcode h ws.length status d m) s := by
  rw [hostCommand_answer _ _ _ _ attends stays, v]
  rfl

theorem host_done {data : List Word} {n : Module} (v : handle opcode h ws st m = .done data n) (s : State) :
    became (hostCommand opcode h ws st m) s = replied opcode h ws.length 0 data n s := by
  rw [hostCommand_answer _ _ _ _ attends stays, v]
  rfl

theorem host_scheduled {data : List Word} {n : Module} (v : handle opcode h ws st m = .scheduled data n) (s : State) :
    became (hostCommand opcode h ws st m) s = replied opcode h ws.length 1 data n s := by
  rw [hostCommand_answer _ _ _ _ attends stays, v]
  rfl

theorem host_waits {n : Module} (v : handle opcode h ws st m = .waits n) (s : State) :
    became (hostCommand opcode h ws st m) s = accepted n s := by
  rw [hostCommand_answer _ _ _ _ attends stays, v]
  rfl

theorem host_pends {n : Module} (v : handle opcode h ws st m = .pends n) (s : State) :
    became (hostCommand opcode h ws st m) s = became n s := by
  rw [hostCommand_answer _ _ _ _ attends stays, v]
  rfl

end

/-! ## At once, or pending (R526, R527) -/

theorem nowOrTimed_now {h : Hdr} (untimed : h.timed = false) (opcode : Nat) (ws : List Word) (m : Module)
    (effect : Module → Module) : nowOrTimed opcode h ws m effect = .done [] (effect m) := by
  rw [nowOrTimed, untimed]
  rfl

theorem nowOrTimed_busy {h : Hdr} {m : Module} (timed : h.timed = true) (full : 32 ≤ m.interp.timed.length)
    (opcode : Nat) (ws : List Word) (effect : Module → Module) : nowOrTimed opcode h ws m effect = .refuse .busy 0 := by
  rw [nowOrTimed, timed, if_pos rfl, if_pos full]

theorem nowOrTimed_pending {h : Hdr} {m : Module} (timed : h.timed = true) (room : m.interp.timed.length < 32)
    (opcode : Nat) (ws : List Word) (effect : Module → Module) :
    nowOrTimed opcode h ws m effect = .scheduled [] (placeTimed opcode h ws m) := by
  rw [nowOrTimed, timed, if_pos rfl, if_neg (Nat.not_le_of_lt room)]

end Sys2Proof.Machine

namespace Sys2Proof.Machine

/-! ## WRITE_LIVE (R534) -/

/-- Every pair of a WRITE_LIVE passes its encoding. -/
def pairsEncoded (ps : List (Word × Word)) : Prop :=
  (indexed ps).all (fun p => (pairEncoding p.1 p.2).isNone) = true

theorem writeLive_passes {h : Hdr} {ws : List Word} {m : Module}
    (length : checkLength h ws (fun n => 2 ≤ n && n ≤ 60 && n % 2 == 0) = none)
    (timing : checkEncoding h .optional true = none) (pairs : pairsEncoded (pairsOf (ownWords h ws)))
    (origin : checkRelayed 0x13 h m = none) (instant : checkInstant h ws m = none)
    (live : liveChecks (pairsOf (ownWords h ws)) m = none) :
    writeLive h ws m = nowOrTimed 0x13 h ws m (applyPairs none (pairsOf (ownWords h ws))) := by
  refine unlessFails_pass ((firstFail_none _).2 fun c hc => ?_) _
  simp only [List.mem_append, List.mem_cons, List.not_mem_nil, or_false, List.mem_map] at hc
  rcases hc with ((rfl | rfl) | ⟨p, hp, rfl⟩) | rfl | rfl | rfl
  · exact length
  · exact timing
  · exact Option.isNone_iff_eq_none.1 (List.all_eq_true.1 pairs p hp)
  · exact origin
  · exact instant
  · exact live

section
variable {ws : List Word} (least : 2 ≤ ws.length) (most : ws.length ≤ 60) (even : ws.length % 2 = 0)
  (pairs : pairsEncoded (pairsOf ws)) {m : Module} (live : liveChecks (pairsOf ws) m = none)
include least most even pairs live

theorem writeLive_now {h : Hdr} (plain : h.plain = true) :
    writeLive h ws m = .done [] (applyPairs none (pairsOf ws) m) := by
  have untimed := plain_untimed plain
  have own : ownWords h ws = ws := ownWords_untimed untimed
  rw [writeLive_passes (checkLength_untimed untimed (by simp [least, most, even]))
      (checkEncoding_untimed untimed (by decide) rfl) (by rwa [own])
      (checkRelayed_direct (plain_direct plain) rfl m) (checkInstant_untimed untimed m) (by rwa [own]), own,
    nowOrTimed_now untimed]

theorem writeLive_timed {h : Hdr} {lo hi : Word} (only : h.onlyTimed = true) (ahead : m.ahead (lo :: hi :: ws) = true) :
    writeLive h (lo :: hi :: ws) m = nowOrTimed 0x13 h (lo :: hi :: ws) m (applyPairs none (pairsOf ws)) := by
  have timed := onlyTimed_timed only
  have own : ownWords h (lo :: hi :: ws) = ws := ownWords_timed timed
  rw [writeLive_passes (checkLength_timed timed (by simp [least, most, even])) (checkEncoding_timed timed rfl)
    (by rwa [own]) (checkRelayed_direct (onlyTimed_direct only) rfl m) (checkInstant_ahead ahead) (by rwa [own]), own]

end

/-! ## TORQUE_SETPOINT and SPEED_SETPOINT (R531) -/

theorem setpointOpcode_class (speed : Bool) : isSystemClass (setpointOpcode speed) = false := by
  cases speed <;> rfl

/-- A channel word of 0 or 1 has its reserved bits clear. -/
theorem channel_bits {c : Word} (channel : c.toNat ≤ 1) : bits c 31 1 = 0 := by
  rw [bits_eq_div_mod]
  omega

section
variable {speed : Bool} {c v : Word} (channel : c.toNat ≤ 1) {m : Module} (coverage : m.lockstepRequired = false)
  (passes : setpointChecks speed [c, v] m = none)
include channel coverage passes

theorem setpoint_now {h : Hdr} (plain : h.plain = true) :
    setpoint speed h [c, v] m = .done [] (applyPairs none [setpointPair speed [c, v]] m) := by
  have own : ownWords h [c, v] = [c, v] := ownWords_untimed (plain_untimed plain)
  unfold setpoint
  dsimp only
  rw [own]
  exact (unlessFails_pass (firstFail_pass (prelude_untimed (plain_untimed plain) (by decide) rfl
    (by simp [channel_bits channel]) (checkRelayed_direct (plain_direct plain) (setpointOpcode_class speed) _)
    (checkLockstep_covered coverage _)) (firstFail_pass passes rfl)) _).trans
    (nowOrTimed_now (plain_untimed plain) ..)

theorem setpoint_timed {h : Hdr} {lo hi : Word} (only : h.onlyTimed = true) (ahead : m.ahead [lo, hi, c, v] = true) :
    setpoint speed h [lo, hi, c, v] m =
      nowOrTimed (setpointOpcode speed) h [lo, hi, c, v] m (applyPairs none [setpointPair speed [c, v]]) := by
  have own : ownWords h [lo, hi, c, v] = [c, v] := ownWords_timed (onlyTimed_timed only)
  unfold setpoint
  dsimp only
  rw [own]
  exact unlessFails_pass (firstFail_pass (prelude_onlyTimed only rfl (by simp [channel_bits channel])
    (setpointOpcode_class speed) (checkLockstep_covered coverage _) ahead) (firstFail_pass passes rfl)) _

end

/-! ## SHIFT_REQUEST and PARK_LOCK (R392, R393) -/

theorem moveOpcode_class (park : Bool) : isSystemClass (moveOpcode park) = false := by
  cases park <;> rfl

section
variable {park : Bool} {w : Word} (reserved : bits w 31 5 = 0) (target : park = true → moveTarget w ≤ 1) {m : Module}
  (coverage : m.lockstepRequired = false) (passes : moveChecks park w m = none)
include reserved target coverage passes

omit coverage passes in
theorem move_encoding : (bits w 31 5 == 0 && (!park || moveTarget w ≤ 1)) = true := by
  cases park
  · simp [reserved]
  · simp [reserved, target rfl]

theorem moveRequest_now {h : Hdr} (plain : h.plain = true) :
    moveRequest park h [w] m = .done [] (startMove (moveActuator w) (moveTarget w) m) := by
  have untimed := plain_untimed plain
  have own : ownWords h [w] = [w] := ownWords_untimed untimed
  unfold moveRequest
  dsimp only
  rw [own]
  exact (unlessFails_pass (firstFail_pass (checkLockstep_covered coverage _)
    (firstFail_pass (checkLength_untimed untimed rfl)
    (firstFail_pass (checkEncoding_untimed untimed (by decide) (move_encoding reserved target))
    (firstFail_pass (checkRelayed_direct (plain_direct plain) (moveOpcode_class park) m)
    (firstFail_pass passes (firstFail_pass (checkInstant_untimed untimed m) rfl)))))) _).trans
    (nowOrTimed_now untimed ..)

theorem moveRequest_timed {h : Hdr} {lo hi : Word} (only : h.onlyTimed = true) (ahead : m.ahead [lo, hi, w] = true) :
    moveRequest park h [lo, hi, w] m =
      nowOrTimed (moveOpcode park) h [lo, hi, w] m (startMove (moveActuator w) (moveTarget w)) := by
  have timed := onlyTimed_timed only
  have own : ownWords h [lo, hi, w] = [w] := ownWords_timed timed
  unfold moveRequest
  dsimp only
  rw [own]
  exact unlessFails_pass (firstFail_pass (checkLockstep_covered coverage _)
    (firstFail_pass (checkLength_timed timed rfl)
    (firstFail_pass (checkEncoding_timed timed (move_encoding reserved target))
    (firstFail_pass (checkRelayed_direct (onlyTimed_direct only) (moveOpcode_class park) m)
    (firstFail_pass passes (firstFail_pass (checkInstant_ahead ahead) rfl)))))) _

end

/-- Settles O30: each of the five comes to `nowOrTimed`, which has room for 32. -/
theorem timedCommandsHaveRoomForThirtyTwo : Obligations.TimedCommandsHaveRoomForThirtyTwo := by
  refine ⟨?live, ?torque, ?speed, ?shift, ?park⟩
  case live =>
    rintro dt ⟨h, _⟩ lo hi ws s _ rfl attends only rfl ahead full least most even pairs live
    exact host_refused 0x13 h (lo :: hi :: ws) noStamps attends rfl ((writeLive_timed least most even pairs live only ahead).trans
      (nowOrTimed_busy (onlyTimed_timed only) full ..)) s
  case torque =>
    rintro dt ⟨h, _⟩ lo hi _ c v s _ rfl attends only rfl ahead full rfl channel coverage passes
    exact host_refused 0x40 h [lo, hi, c, v] noStamps attends rfl ((setpoint_timed channel (covered_of_not coverage) passes only ahead).trans
      (nowOrTimed_busy (onlyTimed_timed only) full ..)) s
  case speed =>
    rintro dt ⟨h, _⟩ lo hi _ c v s _ rfl attends only rfl ahead full rfl channel coverage passes
    exact host_refused 0x41 h [lo, hi, c, v] noStamps attends rfl ((setpoint_timed channel (covered_of_not coverage) passes only ahead).trans
      (nowOrTimed_busy (onlyTimed_timed only) full ..)) s
  case shift =>
    rintro dt ⟨h, _⟩ lo hi _ w s _ rfl attends only rfl ahead full rfl reserved coverage passes
    exact host_refused 0x48 h [lo, hi, w] noStamps attends rfl ((moveRequest_timed reserved (fun h => absurd h Bool.false_ne_true)
      (covered_of_not coverage) passes only ahead).trans (nowOrTimed_busy (onlyTimed_timed only) full ..)) s
  case park =>
    rintro dt ⟨h, _⟩ lo hi _ w s _ rfl attends only rfl ahead full rfl reserved coverage passes target
    exact host_refused 0x49 h [lo, hi, w] noStamps attends rfl ((moveRequest_timed reserved (fun _ => target)
      (covered_of_not coverage) passes only ahead).trans (nowOrTimed_busy (onlyTimed_timed only) full ..)) s

end Sys2Proof.Machine

namespace Sys2Proof.Machine

/-- READ_SLACK with CLEAR has its bit set. -/
theorem clear_bit (v : Word) : bit (v ||| 0x00100000) 20 = true := by
  have set : Nat.testBit (0x00100000 : Word).toNat 20 = true := by decide
  rw [bit, BitVec.toNat_or, Nat.testBit_or, set, Bool.or_true]

/-! ## Commands that read (R532, R533, R540) -/

section
variable {h : Hdr} (plain : h.plain = true) {m : Module}
include plain

theorem getStatus_done : getStatus h [] m = .done (statusData m) m :=
  unlessFails_pass (prelude_plain plain rfl rfl rfl (checkLockstep_free rfl m)) _

theorem echo_done {ws : List Word} (length : ws.length ≤ 61) : echo h ws m = .done ws m :=
  unlessFails_pass (prelude_plain plain (by simpa using length) rfl rfl (checkLockstep_free rfl m)) _

theorem readFaults_done {w : Word} (reserved : bits w 31 8 = 0) :
    readFaults h [w] m = .done (faultData (bits w 7 0) m)
      (clearFaults ((if h.data then returnedFaults (bits w 7 0) m else []).filter (m.clearable 2)) m) :=
  unlessFails_pass (prelude_plain plain rfl (by simpa using reserved) rfl (checkLockstep_free rfl m)) _

theorem readParam_done {ws : List Word} (least : 1 ≤ ws.length) (most : ws.length ≤ 61)
    (width : totalWidth (ws.map (·.toNat)) ≤ 61) (short : ws.all (fun w => w.toNat < 65536) = true)
    (readable : unreadable true (ws.map (·.toNat)) = none) :
    readParam h ws m = .done ((ws.map (·.toNat)).flatMap (fun id => readInEffect id m)) m := by
  have untimed := plain_untimed plain
  have within : (indexed (ws.map (·.toNat))).find? (fun p => 2 ^ 16 ≤ p.2) = none := by
    rw [List.find?_eq_none]
    intro p hp
    obtain ⟨w, hw, e⟩ := List.mem_map.1 (List.of_mem_zip (a := p.1) (b := p.2) hp).2
    have := of_decide_eq_true (List.all_eq_true.1 short w hw)
    simp only [decide_eq_true_eq]
    omega
  exact unlessFails_pass (firstFail_pass (checkLength_untimed untimed (by simp [least, most, width]))
    (firstFail_pass (checkEncoding_untimed untimed (by decide) rfl) (firstFail_pass (map_none within _)
    (firstFail_pass (checkRelayed_direct (plain_direct plain) rfl m)
    (firstFail_pass (map_none readable _) rfl))))) _

section
variable {w : Word} (reserved : bits w 31 24 = 0) (some_ : bits w 21 16 ≠ 0) (width : totalWidth (blockIds w) ≤ 61)
include reserved some_ width

theorem readParamBlock_active (slot : bits w 23 22 = 0) (readable : unreadable true (blockIds w) = none) :
    readParamBlock h [w] m = .done ((blockIds w).flatMap (fun id => readInEffect id m)) m := by
  have untimed := plain_untimed plain
  unfold readParamBlock
  dsimp only
  simp only [List.getD_cons_zero, slot]
  exact unlessFails_pass (firstFail_pass (checkLength_untimed untimed (by simpa using width))
    (firstFail_pass (checkEncoding_untimed untimed (by decide) (by simp [reserved, some_]))
    (firstFail_pass (checkRelayed_direct (plain_direct plain) rfl m)
    (firstFail_pass (map_none readable _) rfl)))) _

/-- READ_PARAM_BLOCK of a slot that holds an image. -/
theorem readParamBlock_slot {img : Image} {k : Nat} (slot : bits w 23 22 = k) (other : k = 1 ∨ k = 2)
    (image : (if k = 1 then m.epochs.staged else if m.epochs.cellarBad then none else m.epochs.cellar) = some img)
    (readable : unreadable false (blockIds w) = none) :
    readParamBlock h [w] m = .done ((blockIds w).map (fun id => img.read id)) m := by
  have untimed := plain_untimed plain
  unfold readParamBlock
  dsimp only
  simp only [List.getD_cons_zero, slot, image]
  have apart : k ≠ 0 ∧ k ≠ 3 := by omega
  rw [if_neg apart.1]
  refine unlessFails_pass (firstFail_pass (checkLength_untimed untimed (by simpa using width))
    (firstFail_pass (checkEncoding_untimed untimed (by decide) (by simp [reserved, some_, apart.2]))
    (firstFail_pass (checkRelayed_direct (plain_direct plain) rfl m)
    (firstFail_pass (map_none (by rwa [beq_eq_false_iff_ne.2 apart.1]) _)
    (firstFail_pass (failIf_pass (by simp) _ _) (firstFail_pass (failIf_pass (by simp) _ _) rfl)))))) _

end

theorem readLaunch_done {w : Word} (encoding : launchWordOk w = true) (within : launchFirst w + launchCount w ≤ 512)
    (few : launchCount w ≤ 30) (slot : (launchSlot w ≠ 1 || m.epochs.staged.isSome) = true) :
    readLaunch h [w] m = .done ((List.range (launchCount w)).flatMap (fun i =>
      [((if launchSlot w = 1 then m.epochs.staged.getD m.epochs.active else m.epochs.active).entry
          (launchRegion w) (launchFirst w + i)).1,
       ((if launchSlot w = 1 then m.epochs.staged.getD m.epochs.active else m.epochs.active).entry
          (launchRegion w) (launchFirst w + i)).2])) m :=
  unlessFails_pass (firstFail_pass (failIf_pass rfl _ _)
    (firstFail_pass (failIf_pass (by simp [encoding, plain_untimed plain]) _ _)
    (firstFail_pass (checkRelayed_direct (plain_direct plain) rfl m)
    (firstFail_pass (failIf_pass (by simp; omega) _ _)
    (firstFail_pass (failIf_pass (by simp at slot ⊢; tauto) _ _) rfl))))) _

/-! ## READ_SLACK (R541) -/

/-- The indexes that a READ_SLACK word names. -/
def slackIndexes (w : Word) : List Nat := (List.range (bits w 15 10)).map (bits w 8 0 + ·)

/-- The data of READ_SLACK: the records of the entries named. -/
def slackData (n : Fin 8) (w : Word) (m : Module) : List Word :=
  (slackIndexes w).flatMap (fun e =>
    if clusterMask ((m.regionImage n).entry n.val e).1 = 0 then EntryRec.init.words false
    else ((m.regions[n]).slackRec e).words (isRunAhead ((m.regionImage n).entry n.val e).1))

/-- The records of the entries named, cleared. -/
def clearSlack (n : Fin 8) (w : Word) (m : Module) : Module :=
  updRegion n (fun x => { x with
    records := x.records.map (fun p => if (slackIndexes w).contains p.1 then (p.1, p.2.cleared) else p) }) m

theorem readSlack_done {w : Word} {n : Fin 8} (high : bits w 31 21 = 0) (bit19 : bit w 19 = false)
    (bit9 : bit w 9 = false) (some_ : bits w 15 10 ≠ 0) (within : bits w 8 0 + bits w 15 10 ≤ 512)
    (few : bits w 15 10 ≤ 30) (region : bits w 18 16 = n.val) (runs : m.dieRuns (regionDie n) = true) :
    readSlackV h [w] m = .done (slackData n w m) (if bit w 20 then clearSlack n w m else m) := by
  obtain ⟨n, hn⟩ := n
  change bits w 18 16 = n at region
  subst region
  exact unlessFails_pass (firstFail_pass (failIf_pass rfl _ _)
    (firstFail_pass (failIf_pass (by simp [plain_untimed plain, high, bit19, bit9, some_]) _ _)
    (firstFail_pass (checkRelayed_direct (plain_direct plain) rfl m)
    (firstFail_pass (failIf_pass (by simp; omega) _ _)
    (firstFail_pass (failIf_pass (by simpa using runs) _ _) rfl))))) _

/-! ## SCRUB_CONTROL (R612) -/

section
variable {w : Word} {sc : Fin 5} (high : bits w 31 16 = 0) (low : bits w 7 1 = 0) (names : bits w 15 8 = sc.val)
  (supplied : m.dies[scrubberDie sc].supply ≠ 0) (runs : (sc.val < 3 || m.dieRuns (scrubberDie sc)) = true)
include high low names supplied runs

theorem scrubControl_eq : scrubControl h [w] m =
    (let data := [word (m.memory.scrubbers[sc]).lap]
     if !bit w 0 then .done data m
     else if sc.val < 3 then .done data (restartLap sc m)
     else .waits (holdWrites (if sc.val = 3 then 0 else 2)
       { (waitingFor 0x76 h 1 (scrubberDie sc).val m) with words := data } m)) := by
  have value : bits w 15 8 % 5 = sc.val := by rw [names]; exact Nat.mod_eq_of_lt sc.isLt
  have encoding : (bits w 31 16 == 0 && bits w 7 1 == 0 && decide (bits w 15 8 ≤ 4)) = true := by
    rw [high, low, names, decide_eq_true (Nat.le_of_lt_succ sc.isLt)]
    rfl
  have accessible : (m.dies[scrubberDie sc].supply == 0 || (decide (3 ≤ sc.val) && !m.dieRuns (scrubberDie sc))) =
      false := by
    rw [beq_eq_false_iff_ne.2 supplied, Bool.false_or]
    rcases Bool.or_eq_true _ _ ▸ runs with few | runs
    · rw [decide_eq_false (Nat.not_le_of_lt (of_decide_eq_true few)), Bool.false_and]
    · rw [runs, Bool.not_true, Bool.and_false]
  unfold scrubControl
  dsimp only
  simp only [List.getD_cons_zero, value]
  exact unlessFails_pass (firstFail_pass (prelude_plain plain rfl encoding rfl (checkLockstep_free rfl m))
    (firstFail_pass (failIf_pass accessible _ _) rfl)) _

end

end

/-- The word of SCRUB_CONTROL names its scrubber. -/
theorem scrubWord_fields (sc : Fin 5) (restart : Bool) (w : Word)
    (hw : w = pack (if restart then [(sc.val, 8), (1, 0)] else [(sc.val, 8)])) :
    bits w 31 16 = 0 ∧ bits w 7 1 = 0 ∧ bits w 15 8 = sc.val ∧ bit w 0 = restart := by
  subst hw
  revert sc restart
  decide

/-- Settles O31: each command passes its checks and answers what its rule reads. -/
theorem readingCommandsComplete : Obligations.ReadingCommandsComplete := by
  refine ⟨?status, ?echo, ?param, ?active, ?staged, ?cellar, ?launch, ?slack, ?clear, ?scrub, ?restart, ?afe, ?faults⟩
  case status =>
    rintro dt ⟨h, _⟩ s _ rfl attends plain rfl
    exact host_done 0x01 h [] noStamps attends rfl (getStatus_done plain) s
  case echo =>
    rintro dt ⟨h, ws⟩ s _ rfl attends plain length
    exact host_done 0x02 h ws noStamps attends rfl (echo_done plain length) s
  case param =>
    rintro dt ⟨h, ws⟩ s _ rfl attends plain least most width short readable
    exact host_done 0x10 h ws noStamps attends rfl (readParam_done plain least most width short readable) s
  case active =>
    rintro dt ⟨h, _⟩ w s _ rfl attends plain rfl reserved slot some_ width readable
    exact host_done 0x12 h [w] noStamps attends rfl (readParamBlock_active plain reserved some_ width slot readable) s
  case staged =>
    rintro dt ⟨h, _⟩ w img s _ rfl attends plain rfl reserved slot some_ width readable staged
    exact host_done 0x12 h [w] noStamps attends rfl
      (readParamBlock_slot plain reserved some_ width slot (.inl rfl) staged readable) s
  case cellar =>
    rintro dt ⟨h, _⟩ w img s _ rfl attends plain rfl reserved slot some_ width readable cellar good
    have image : (if (advance dt s.mod).epochs.cellarBad then none else (advance dt s.mod).epochs.cellar) = some img := by
      rw [if_neg (by simpa using good), cellar]
    exact host_done 0x12 h [w] noStamps attends rfl
      (readParamBlock_slot plain reserved some_ width slot (.inr rfl) image readable) s
  case launch =>
    rintro dt ⟨h, _⟩ w s _ rfl attends plain rfl encoding within few slot
    exact host_done 0x25 h [w] noStamps attends rfl (readLaunch_done plain encoding within few slot) s
  case slack =>
    rintro dt ⟨h, _⟩ w n s _ rfl attends plain rfl keep high bit19 bit9 some_ within few region runs
    refine host_done 0x77 h [w] noStamps attends rfl ((readSlack_done plain high (by simpa using bit19)
      (by simpa using bit9) some_ within few region runs).trans ?_) s
    rw [if_neg (by simpa using keep)]
    rfl
  case clear =>
    rintro dt ⟨h, _⟩ v w n s _ rfl attends plain rfl rfl high bit19 bit9 some_ within few region runs
    refine host_done 0x77 h [v ||| 0x00100000] noStamps attends rfl ((readSlack_done plain high (by simpa using bit19)
      (by simpa using bit9) some_ within few region runs).trans ?_) s
    rw [if_pos (clear_bit v)]
    rfl
  case scrub =>
    rintro dt h sc s _ rfl attends plain supplied runs
    obtain ⟨high, low, names, keep⟩ := scrubWord_fields sc false _ rfl
    refine host_done 0x76 h [_] noStamps attends rfl ((scrubControl_eq plain high low names supplied runs).trans ?_) s
    dsimp only
    rw [keep]
    rfl
  case restart =>
    rintro dt h sc s _ rfl attends plain supplied few
    obtain ⟨high, low, names, again⟩ := scrubWord_fields sc true _ rfl
    refine host_done 0x76 h [_] noStamps attends rfl
      ((scrubControl_eq plain high low names supplied (by rw [decide_eq_true few]; rfl)).trans ?_) s
    dsimp only
    rw [again, if_neg (by decide), if_pos few]
    rfl
  case afe =>
    rintro dt h sc s _ rfl attends plain supplied afe runs
    obtain ⟨high, low, names, again⟩ := scrubWord_fields sc true _ rfl
    refine host_waits 0x76 h [_] noStamps attends rfl
      ((scrubControl_eq plain high low names supplied (by rw [runs, Bool.or_true])).trans ?_) s
    dsimp only
    rw [again, if_neg (by decide), if_neg (Nat.not_lt_of_le afe)]
  case faults =>
    rintro dt ⟨h, _⟩ w s _ rfl attends plain rfl reserved
    exact host_done 0x73 h [w] noStamps attends rfl (readFaults_done plain reserved) s

end Sys2Proof.Machine

namespace Sys2Proof.Machine

/-! ## Staging (R534, R560) -/

section
variable {h : Hdr} {m : Module}

theorem openStaging_done (plain : h.plain = true) {src num : Word} (source : src.toNat ≤ 2) (some_ : num ≠ 0)
    (other : num ≠ m.epochs.active.number) (unkept : m.epochs.cellar.any (fun c => c.number == num) = false)
    (free : m.epochs.staged = none) (kept : (src ≠ 1 || (m.epochs.cellar.isSome && !m.epochs.cellarBad)) = true) :
    openStaging h [src, num] m = .done [] { m with epochs := { m.epochs with
      staged := some { (if src = 0 then m.epochs.active else if src = 1 then m.epochs.cellar.getD factoryImage
        else factoryImage) with number := num }, stagedBad := false } } := by
  have encoding : (bits src 31 2 == 0 && bits src 1 0 != 3) = true := by
    simp only [bits_eq_div_mod, Bool.and_eq_true, beq_iff_eq, bne_iff_ne]
    omega
  have fresh : (num == 0 || num == m.epochs.active.number || m.epochs.cellar.any (fun c => c.number == num)) = false := by
    rw [beq_eq_false_iff_ne.2 some_, beq_eq_false_iff_ne.2 other, unkept]
    rfl
  have whole : (src == 1 && (m.epochs.cellar.isNone || m.epochs.cellarBad)) = false := by
    rw [Bool.or_eq_true, decide_eq_true_eq, Bool.and_eq_true, Bool.not_eq_true'] at kept
    rcases kept with elsewhere | ⟨holds, good⟩
    · rw [beq_eq_false_iff_ne.2 elsewhere, Bool.false_and]
    · rw [Option.isNone_eq_false_iff.2 holds, good, Bool.or_false, Bool.and_false]
  exact unlessFails_pass (firstFail_pass (prelude_plain plain rfl encoding rfl (checkLockstep_free rfl m))
    (firstFail_pass (failIf_pass fresh _ _) (firstFail_pass (failIf_pass (by rw [free]; rfl) _ _)
    (firstFail_pass (failIf_pass whole _ _) rfl)))) _

theorem stageParam_done {ws : List Word} {img : Image} (staged : m.epochs.staged = some img)
    (passes : stageParamCheck h ws m = none) :
    stageParam h ws m = .done [] { m with epochs := { m.epochs with
      staged := some (img.writePairs m.epochs.active (pairsOf ws)) } } := by
  rw [stageParam, unlessFails_pass passes, updEpochs, staged]
  rfl

theorem stageLaunch_done (plain : h.plain = true) {w : Word} {ws : List Word} {img : Image}
    (length : ws.length = 2 * launchCount w) (encoding : launchWordOk w = true) (slot : launchSlot w = 1)
    (entries : (pairsOf ws).all (fun e => launchClass e.1 != 3 && bits e.2 15 10 == 0) = true)
    (within : launchFirst w + launchCount w ≤ 512) (few : launchCount w ≤ 30) (staged : m.epochs.staged = some img)
    (thawed : m.frozen = false) :
    stageLaunch h (w :: ws) m = .done [] { m with epochs := { m.epochs with
      staged := some ((indexed (pairsOf ws)).foldl
        (fun i p => i.writeEntry (launchRegion w) (launchFirst w + p.1) p.2.1 p.2.2) img) } } := by
  have untimed := plain_untimed plain
  have counted : ((w :: ws).length != 1 + 2 * launchCount w || h.timed && decide ((w :: ws).length < 2)) = false := by
    simp [untimed, length, Nat.add_comm]
  have encoded : (!launchWordOk w || launchSlot w != 1 || h.timed ||
      (pairsOf ws).any (fun e => launchClass e.1 == 3 || bits e.2 15 10 != 0)) = false := by
    have whole : (pairsOf ws).any (fun e => launchClass e.1 == 3 || bits e.2 15 10 != 0) = false := by
      simpa [List.any_eq_false] using entries
    simp [encoding, slot, untimed, whole]
  refine (unlessFails_pass (firstFail_pass (failIf_pass counted _ _) (firstFail_pass (failIf_pass encoded _ _)
    (firstFail_pass (checkRelayed_direct (plain_direct plain) rfl m)
    (firstFail_pass (failIf_pass (by simp; omega) _ _)
    (firstFail_pass (failIf_pass (by rw [staged]; rfl) _ _) (firstFail_pass (failIf_pass thawed _ _) rfl)))))) _).trans ?_
  rw [updEpochs, staged]
  rfl

theorem discardStaged_done (plain : h.plain = true) (staged : m.epochs.staged.isSome = true) (thawed : m.frozen = false) :
    discardStaged h [] m = .done [] { m with epochs := { m.epochs with staged := none, stagedBad := false } } :=
  unlessFails_pass (firstFail_pass (prelude_plain plain rfl rfl rfl (checkLockstep_free rfl m))
    (firstFail_pass (failIf_pass (by rw [Option.isNone_eq_false_iff]; exact staged) _ _)
    (firstFail_pass (failIf_pass thawed _ _) rfl))) _

/-! ## Commit and revert (R562, R570, R494) -/

/-- The image that a commit or a revert makes active. -/
def sourceImage (revert : Bool) (m : Module) : Image :=
  (if revert then m.epochs.cellar else m.epochs.staged).getD m.epochs.active

/-- The opcode of a commit or a revert. -/
def commitOpcode (revert : Bool) : Nat := if revert then 0x23 else 0x21

/-- The epochs with an action that waits for the vote. -/
def withProvisional (p : Provisional) (m : Module) : Module := { m with epochs := { m.epochs with provisional := some p } }

section
variable {revert : Bool} {ws : List Word} (passes : commitChecks revert h ws m = none) (lead : checkLead h ws m = none)
include passes lead

theorem commitOrRevert_alone (others : m.leadsOthers = false) (unasked : m.asked h = false) :
    commitOrRevert revert h ws m = .scheduled [] (makePending revert (commitInstant h ws m) false m) := by
  unfold commitOrRevert
  dsimp only
  rw [unlessFails_pass (firstFail_pass passes (firstFail_pass lead rfl)), others, unasked]
  rfl

theorem commitOrRevert_asked (others : m.leadsOthers = false) (asked : m.asked h = true) :
    commitOrRevert revert h ws m = .scheduled [] (withProvisional
      { revert := revert, instant := commitInstant h ws m, confirmed := false, asked := 0, replies := [] } m) := by
  unfold commitOrRevert
  dsimp only
  rw [unlessFails_pass (firstFail_pass passes (firstFail_pass lead rfl)), others, asked]
  rfl

theorem commitOrRevert_leads (others : m.leadsOthers = true) :
    commitOrRevert revert h ws m = .waits ((m.otherNodes.foldl
      (fun x n => relayTo n (relayedCommit revert (commitInstant h ws m) (sourceImage revert m)) x)
      (withProvisional { revert := revert, instant := commitInstant h ws m, confirmed := false,
                         asked := m.sys.admittedMask - 2 ^ m.straps.node.val, replies := [] } m)).withWaiting
        (waitingFor (commitOpcode revert) h ws.length 0 m)) := by
  unfold commitOrRevert
  dsimp only
  rw [unlessFails_pass (firstFail_pass passes (firstFail_pass lead rfl)), others]
  rfl

end

/-! ## EPOCH_CONFIRM (R494) -/

theorem epochConfirm_eq (via : h.viaHead = true) {w : Word} (choice : w.toNat ≤ 1) {p : Provisional}
    (waits : m.epochs.provisional = some p)
    (early : m.time.count.toNat + m.num P.sysCommitConfirm ≤ p.instant.toNat) :
    epochConfirm h [w] m =
      if w = 1 then .done [] (makePending p.revert p.instant true m)
      else .done [] { m with epochs := { m.epochs with provisional := none } } := by
  obtain ⟨untimed, relayed, link⟩ := viaHead_parts via
  unfold epochConfirm
  dsimp only
  rw [waits]
  exact unlessFails_pass (firstFail_pass (prelude_untimed untimed (by decide) rfl (by simpa using choice)
      (checkRelayed_link relayed link rfl m) (checkLockstep_free rfl m))
    (firstFail_pass (failIf_pass (by rw [relayed]; rfl) _ _)
    (firstFail_pass (failIf_pass (by simpa using early) _ _) rfl))) _

end

/-- Settles O32: each command passes its checks and does to the epochs what its rule says. -/
theorem stagingCommandsComplete : Obligations.StagingCommandsComplete := by
  refine ⟨?open_, ?param, ?launch, ?discard, ?commit, ?commitAsked, ?commitLeads, ?revert, ?revertAsked, ?revertLeads,
    ?confirm, ?drop⟩
  case open_ =>
    rintro dt ⟨h, _⟩ src num s _ rfl attends plain rfl source some_ other unkept free kept
    exact host_done 0x20 h [src, num] noStamps attends rfl
      (openStaging_done plain source some_ other (by simpa using unkept) free kept) s
  case param =>
    rintro dt ⟨h, ws⟩ img s _ rfl attends plain staged passes
    exact host_done 0x11 h ws noStamps attends rfl (stageParam_done staged passes) s
  case launch =>
    rintro dt ⟨h, _⟩ w ws img s _ rfl attends plain rfl length encoding slot entries within few staged thawed
    exact host_done 0x24 h (w :: ws) noStamps attends rfl
      (stageLaunch_done plain length encoding slot entries within few staged (by simpa using thawed)) s
  case discard =>
    rintro dt ⟨h, _⟩ s _ rfl attends plain rfl staged thawed
    exact host_done 0x22 h [] noStamps attends rfl (discardStaged_done plain staged (by simpa using thawed)) s
  case commit =>
    rintro dt ⟨h, ws⟩ s _ rfl attends passes lead others unasked
    exact host_scheduled 0x21 h ws noStamps attends rfl
      (commitOrRevert_alone passes lead (by simpa using others) (by simpa using unasked)) s
  case commitAsked =>
    rintro dt ⟨h, ws⟩ s _ rfl attends passes lead others asked
    exact host_scheduled 0x21 h ws noStamps attends rfl
      (commitOrRevert_asked passes lead (by simpa using others) asked) s
  case commitLeads =>
    rintro dt ⟨h, ws⟩ _ s _ rfl attends passes lead others rfl
    exact host_waits 0x21 h ws noStamps attends rfl (commitOrRevert_leads passes lead others) s
  case revert =>
    rintro dt ⟨h, ws⟩ s _ rfl attends passes lead others unasked
    exact host_scheduled 0x23 h ws noStamps attends rfl
      (commitOrRevert_alone passes lead (by simpa using others) (by simpa using unasked)) s
  case revertAsked =>
    rintro dt ⟨h, ws⟩ s _ rfl attends passes lead others asked
    exact host_scheduled 0x23 h ws noStamps attends rfl
      (commitOrRevert_asked passes lead (by simpa using others) asked) s
  case revertLeads =>
    rintro dt ⟨h, ws⟩ _ s _ rfl attends passes lead others rfl
    exact host_waits 0x23 h ws noStamps attends rfl (commitOrRevert_leads passes lead others) s
  case confirm =>
    rintro dt ⟨h, _⟩ p s _ rfl attends via rfl waits early
    exact host_done 0x26 h [1] noStamps attends rfl ((epochConfirm_eq via (by decide) waits early).trans (if_pos rfl)) s
  case drop =>
    rintro dt ⟨h, _⟩ p s _ rfl attends via rfl waits early
    exact host_done 0x26 h [0] noStamps attends rfl
      ((epochConfirm_eq via (by decide) waits early).trans (if_neg (by decide))) s

end Sys2Proof.Machine

namespace Sys2Proof.Machine

/-! ## WRITE_LIVE of one parameter (R45, R136, R595) -/

/-- A pair whose value the parameter takes has an encoding it defines. -/
theorem pairEncoding_of_pairValue {cls : Access} {i : Nat} {p : Word × Word} (short : p.1.toNat < 2 ^ 16)
    (h : pairValue cls i p = none) : pairEncoding i p = none := by
  unfold pairValue at h
  unfold pairEncoding
  rw [if_neg (Nat.not_le_of_lt short)]
  split at h
  case h_1 => exact absurd h (Option.some_ne_none _)
  case h_2 r known =>
    split_ifs at h
    exact if_neg (by rw [Option.map_eq_none_iff.1 h]; exact (Option.some_ne_none _).symm)

/-- The live checks of one pair are those of its value, its range and its own rules. -/
theorem liveChecks_one {p : Word × Word} {m : Module} (h : liveChecks [p] m = none) : pairValue .rwL 0 p = none :=
  (firstFail_none _).1 h _ (List.mem_cons_self)

/-- WRITE_LIVE of one parameter with an encoding it defines. -/
theorem writeLive_one {h : Hdr} (plain : h.plain = true) {p : Word × Word} {m : Module} (short : p.1.toNat < 2 ^ 16)
    (live : liveChecks [p] m = none) : writeLive h [p.1, p.2] m = .done [] (applyLive none m p) :=
  writeLive_now (ws := [p.1, p.2]) (Nat.le_refl 2) (Nat.le_add_left 2 58) (Nat.mod_self 2)
    (List.all_eq_true.2 fun q hq => by
      rw [List.mem_singleton.1 hq]
      exact Option.isNone_iff_eq_none.2 (pairEncoding_of_pairValue short (liveChecks_one live))) live plain

/-- The row of one parameter written by WRITE_LIVE, not timed. -/
theorem host_writeLive {h : Hdr} (plain : h.plain = true) (instant : Tick) (id : Nat) (value : Word) {m n : Module}
    (attends : m.attends = true) (short : (word id).toNat < 2 ^ 16) (live : liveChecks [(word id, value)] m = none)
    (becomes : applyLive none m (word id, value) = n) (s : State) :
    became (hostCommand 0x13 h (liveWriteWords h instant id value) noStamps m) s = replied 0x13 h 2 0 [] n s := by
  have words : liveWriteWords h instant id value = [word id, value] := by
    rw [liveWriteWords, plain_untimed plain]
    rfl
  rw [words, ← becomes]
  exact host_done 0x13 h [word id, value] noStamps attends rfl (writeLive_one plain (p := (word id, value)) short live) s

theorem fabricSupply_id (d : Fin 2) : (word (P.fabricSupplyCf0 + d.val)).toNat = P.fabricSupplyCf0 + d.val := by
  revert d
  decide

theorem applyLive_fabricSupply (d : Fin 2) (value : Word) (m : Module) :
    applyLive none m (word (P.fabricSupplyCf0 + d.val), value) =
      setSupply d (storedWord m.epochs.active (P.fabricSupplyCf0 + d.val) value) m := by
  fin_cases d <;> rfl

/-- FLOG_ERASE written with 1 passes its checks in STANDBY and READY. -/
theorem liveChecks_flogErase {m : Module} (label : m.label = .standby ∨ m.label = .ready)
    (idle : m.faults.erasing = false) : liveChecks [(word P.flogErase, 1)] m = none := by
  have value : pairValue .rwL 0 (word P.flogErase, 1) = none := by decide
  have range : liveRange m 0 (word P.flogErase, 1) = none := rfl
  have own : liveOwn m 0 (word P.flogErase, 1) = none := by
    have pass : firstFail [failIf m.faults.erasing .busy, failIf (m.label != .standby && m.label != .ready) .stateForbids] =
        none := firstFail_pass (failIf_pass idle _ _) (firstFail_pass (failIf_pass (by
          rcases label with h | h <;> rw [h] <;> decide) _ _) rfl)
    exact map_none pass _
  exact firstFail_pass value (firstFail_pass range (firstFail_pass own rfl))

/-! ## What a setpoint writes (R207, R531) -/

/-- A live-class write that waits for the boundary of its region. -/
def liveWriteNow (id : Nat) (v : Word) (m : Module) : Module :=
  { m with interp := { m.interp with liveWrites := m.interp.liveWrites ++
    [{ id := id, value := storedWord m.epochs.active id v, from_ := m.time.count, atInstant := false }] } }

theorem applyPairs_setpoint (speed : Bool) {c : Word} (channel : c.toNat ≤ 1) (v : Word) (m : Module) :
    applyPairs none [setpointPair speed [c, v]] m = liveWriteNow (setpointId speed c.toNat) v m := by
  obtain rfl | rfl : c = 0 ∨ c = 1 := by
    rw [← BitVec.toNat_inj, ← BitVec.toNat_inj]
    exact Nat.le_one_iff_eq_zero_or_eq_one.1 channel
  · cases speed <;> rfl
  · cases speed <;> rfl

/-! ## A timed command among the pending ones (R526) -/

theorem placeTimed_eq {h : Hdr} (timed : h.timed = true) (opcode : Nat) (lo hi : Word) (ws : List Word) (m : Module) :
    placeTimed opcode h (lo :: hi :: ws) m = { m with interp := { m.interp with
      timed := m.interp.timed ++ [{ opcode := opcode, hdr := h, words := ws, instant := tickOf lo hi }] } } := by
  rw [placeTimed, ownWords_timed timed]
  rfl

/-- A timed command that passes its checks and finds room becomes pending. -/
theorem host_timed (opcode : Nat) {h : Hdr} (lo hi : Word) (ws : List Word) {m : Module} (attends : m.attends = true)
    (stays : isRestart opcode h (lo :: hi :: ws) m = false) (timed : h.timed = true)
    (room : m.interp.timed.length < 32) {effect : Module → Module}
    (v : handle opcode h (lo :: hi :: ws) noStamps m = nowOrTimed opcode h (lo :: hi :: ws) m effect) (s : State) :
    became (hostCommand opcode h (lo :: hi :: ws) noStamps m) s =
      replied opcode h (ws.length + 2) 1 [] { m with interp := { m.interp with
        timed := m.interp.timed ++ [{ opcode := opcode, hdr := h, words := ws, instant := tickOf lo hi }] } } s := by
  rw [← placeTimed_eq timed]
  exact host_scheduled opcode h (lo :: hi :: ws) noStamps attends stays
    (v.trans (nowOrTimed_pending timed room ..)) s

/-- Settles O33: each write passes its checks and is applied, or waits for its instant. -/
theorem liveWritesComplete : Obligations.LiveWritesComplete := by
  refine ⟨?now, ?timed, ?supply, ?supplyDone, ?record, ?count, ?erase, ?eraseDone, ?torque, ?torqueTimed, ?speed,
    ?speedTimed⟩
  case now =>
    rintro dt ⟨h, ws⟩ s _ rfl attends plain least most even pairs live
    exact host_done 0x13 h ws noStamps attends rfl (writeLive_now least most even pairs live plain) s
  case timed =>
    rintro dt ⟨h, _⟩ lo hi ws s _ rfl attends only rfl ahead room least most even pairs live
    exact host_timed 0x13 lo hi ws attends rfl (onlyTimed_timed only) room
      (writeLive_timed least most even pairs live only ahead) s
  case supply =>
    rintro dt h instant d value s _ rfl attends plain encoding live
    exact host_writeLive plain instant _ value attends (by rw [fabricSupply_id]; fin_cases d <;> decide) live
      (applyLive_fabricSupply d value _) s
  case supplyDone =>
    rintro dt d s _ rfl up busy
    refine congrArg (became · s) ((awake_up (supplyDone d) up).trans ?_)
    fin_cases d <;> rfl
  case record =>
    rintro dt h instant value s _ rfl attends plain live
    exact host_writeLive plain instant P.flogRecordSelect value attends (by decide) live rfl s
  case count =>
    rintro dt h instant value s _ rfl attends plain live
    exact host_writeLive plain instant P.flogCountSelect value attends (by decide) live rfl s
  case erase =>
    rintro dt h instant s _ rfl attends plain label idle
    exact host_writeLive plain instant P.flogErase 1 attends (by decide)
      (liveChecks_flogErase (by simpa using label) (by simpa using idle)) rfl s
  case eraseDone =>
    rintro dt s _ rfl up erasing
    refine congrArg (became · s) ((awake_up flogEraseDone up).trans ?_)
    exact if_neg (by rw [erasing]; decide)
  case torque =>
    rintro dt ⟨h, _⟩ c v s _ rfl attends plain rfl channel coverage passes
    exact host_done 0x40 h [c, v] noStamps attends rfl ((setpoint_now channel (covered_of_not coverage) passes plain).trans
      (congrArg (Verdict.done []) (applyPairs_setpoint false channel v _))) s
  case torqueTimed =>
    rintro dt ⟨h, _⟩ lo hi _ c v s _ rfl attends only rfl ahead room rfl channel coverage passes
    exact host_timed 0x40 lo hi [c, v] attends rfl (onlyTimed_timed only) room
      (setpoint_timed channel (covered_of_not coverage) passes only ahead) s
  case speed =>
    rintro dt ⟨h, _⟩ c v s _ rfl attends plain rfl channel coverage passes
    exact host_done 0x41 h [c, v] noStamps attends rfl ((setpoint_now channel (covered_of_not coverage) passes plain).trans
      (congrArg (Verdict.done []) (applyPairs_setpoint true channel v _))) s
  case speedTimed =>
    rintro dt ⟨h, _⟩ lo hi _ c v s _ rfl attends only rfl ahead room rfl channel coverage passes
    exact host_timed 0x41 lo hi [c, v] attends rfl (onlyTimed_timed only) room
      (setpoint_timed channel (covered_of_not coverage) passes only ahead) s

/-! ## Loops (R214, R537) -/

theorem loopClose_done {h : Hdr} (plain : h.plain = true) {w : Word} {m : Module} (mask : maskOk w = true)
    (coverage : m.lockstepRequired = false) (loops : (maskLoops w).all (fun l => (closeCheck m l).isNone) = true) :
    loopCloseCmd h [w] m = .done [] ((maskLoops w).foldl closeLoop m) := by
  refine unlessFails_pass (firstFail_pass (prelude_plain plain rfl mask rfl (checkLockstep_covered coverage _))
    ((firstFail_none _).2 fun c hc => ?_)) _
  obtain ⟨l, hl, rfl⟩ := List.mem_map.1 hc
  exact Option.isNone_iff_eq_none.1 (List.all_eq_true.1 loops l hl)

/-- Settles O34: each command passes its checks and takes its loops or starts its move. -/
theorem loopAndMoveCommandsComplete : Obligations.LoopAndMoveCommandsComplete := by
  refine ⟨?open_, ?close_, ?shift, ?shiftTimed, ?park, ?parkTimed⟩
  case open_ =>
    rintro dt ⟨h, _⟩ w s _ rfl attends plain rfl mask
    exact host_done 0x42 h [w] noStamps attends rfl
      (unlessFails_pass (prelude_plain plain rfl mask rfl (checkLockstep_free rfl _)) _) s
  case close_ =>
    rintro dt ⟨h, _⟩ w s _ rfl attends plain rfl mask coverage loops
    exact host_done 0x43 h [w] noStamps attends rfl (loopClose_done plain mask (covered_of_not coverage) loops) s
  case shift =>
    rintro dt ⟨h, _⟩ w s _ rfl attends plain rfl reserved coverage passes
    exact host_done 0x48 h [w] noStamps attends rfl
      (moveRequest_now reserved (fun park => absurd park Bool.false_ne_true) (covered_of_not coverage) passes plain) s
  case shiftTimed =>
    rintro dt ⟨h, _⟩ lo hi _ w s _ rfl attends only rfl ahead room rfl reserved coverage passes
    exact host_timed 0x48 lo hi [w] attends rfl (onlyTimed_timed only) room
      (moveRequest_timed reserved (fun park => absurd park Bool.false_ne_true) (covered_of_not coverage) passes only ahead) s
  case park =>
    rintro dt ⟨h, _⟩ w s _ rfl attends plain rfl reserved coverage passes target
    exact host_done 0x49 h [w] noStamps attends rfl
      (moveRequest_now reserved (fun _ => target) (covered_of_not coverage) passes plain) s
  case parkTimed =>
    rintro dt ⟨h, _⟩ lo hi _ w s _ rfl attends only rfl ahead room rfl reserved coverage passes target
    exact host_timed 0x49 lo hi [w] attends rfl (onlyTimed_timed only) room
      (moveRequest_timed reserved (fun _ => target) (covered_of_not coverage) passes only ahead) s

end Sys2Proof.Machine

namespace Sys2Proof.Machine

/-! ## Charging and the outlet (R297, R315, R316, R327, R333 … R335) -/

theorem checkAdmitted_pass {m : Module} (h : m.isAdmitted = true) : checkAdmitted m = none :=
  failIf_pass (by rw [h]; rfl) _ _

/-- A module in RUN that is not on its way out of it. -/
theorem leavingRun_settled {m : Module} (h : m.inTransition = false) : m.leavingRun = false := by
  rw [Module.leavingRun, h, Bool.and_false]

section
variable {h : Hdr} (plain : h.plain = true) {m : Module}
include plain

section
variable (coverage : m.lockstepRequired = false) (pattern : chargePattern m = false) (admitted : m.isAdmitted = true)
  (idle : m.charger.state = 0) (run : m.label = .run) (settled : m.inTransition = false)
  (closed : m.converter.closed = true)
include coverage pattern admitted idle run settled closed

theorem chargeStart_done {i v : Word} (finiteI : F32.nonFinite i = false) (positive : F32.lt 0 i = true)
    (most : F32.lt (m.par P.cvIbatChgMax) i = false) (finiteV : F32.nonFinite v = false)
    (above : F32.le (m.par P.cvVbatMin) v = true) (below : F32.le v (m.par P.cvVbatMax) = true)
    (enabled : m.num P.cgEnable = 1) (sound : m.chargerFault = false) :
    chargeStart h [i, v] m = .done [] (keepCheckpoint 3 (enterState 1 (updCharger (fun c => { c with
      session := true, ending := false, timerW := 0, timerHalf := false, derated := false, phase := 0, integ := 0,
      pref := 0, endSince := none, failSince := none, presentSince := none })
      { m with live := { m.live with cgISet := i, cgVSet := v } }))) := by
  have current : (F32.nonFinite i || !F32.lt 0 i || F32.lt (m.par P.cvIbatChgMax) i) = false := by
    rw [finiteI, positive, most]
    rfl
  have voltage : (F32.nonFinite v || !between (m.par P.cvVbatMin) v (m.par P.cvVbatMax)) = false := by
    rw [finiteV, between, above, below]
    rfl
  have state : (m.leavingRun || m.label != .run || m.num P.cgEnable != 1 || !m.converter.closed || m.chargerFault) =
      false := by
    rw [leavingRun_settled settled, run, enabled, closed, sound]
    rfl
  exact unlessFails_pass (firstFail_pass (prelude_plain plain rfl rfl rfl (checkLockstep_covered coverage _))
    (firstFail_pass (failIf_pass current _ _) (firstFail_pass (failIf_pass voltage _ _)
    (firstFail_pass (failIf_pass pattern _ _) (firstFail_pass (checkAdmitted_pass admitted)
    (firstFail_pass (failIf_pass (by rw [idle]; rfl) _ _) (firstFail_pass (failIf_pass state _ _) rfl))))))) _

theorem exportStartAc_done (enabled : m.num P.exAcEnable = 1) (pilot : m.charger.pilot = 0)
    (quiet : lasted m.time.elapsed m.charger.quietSince 400000000 = true) :
    exportStart h [0] m = .done [] (enterState 7 (busStart (updCharger (fun c => { c with
      exportV := 0, exportStep := 0, formPhase := 0, limitSince := none, apparentSince := none,
      deviationSince := none }) m))) := by
  have state : (m.leavingRun || m.label != .run || m.num P.exAcEnable != 1 || !m.converter.closed ||
      m.charger.pilot != 0 || !lasted m.time.elapsed m.charger.quietSince 400000000) = false := by
    rw [leavingRun_settled settled, run, enabled, closed, pilot, quiet]
    rfl
  exact unlessFails_pass (firstFail_pass (prelude_plain plain rfl rfl rfl (checkLockstep_covered coverage _))
    (firstFail_pass (failIf_pass pattern _ _) (firstFail_pass (checkAdmitted_pass admitted)
    (firstFail_pass (failIf_pass (by rw [idle]; rfl) _ _) (firstFail_pass (failIf_pass state _ _) rfl))))) _

end

theorem chargeStop_done : chargeStop h [] m = .done [] (stopSession m) :=
  unlessFails_pass (prelude_plain plain rfl rfl rfl (checkLockstep_free rfl m)) _

theorem exportStartDc_done (coverage : m.lockstepRequired = false) (pattern : m.patterned .cv = false)
    (admitted : m.isAdmitted = true) (may : exportDcOk m = true) :
    exportStart h [1] m = .done [] { m with converter := { m.converter with
      outlet := if m.converter.outlet = 0 then 1 else m.converter.outlet } } :=
  unlessFails_pass (firstFail_pass (prelude_plain plain rfl rfl rfl (checkLockstep_covered coverage _))
    (firstFail_pass (failIf_pass pattern _ _) (firstFail_pass (checkAdmitted_pass admitted)
    (firstFail_pass (failIf_pass (by rw [may]; rfl) _ _) rfl)))) _

theorem exportStopAc_done : exportStop h [0] m = .done [] (stopExport m) :=
  unlessFails_pass (prelude_plain plain rfl rfl rfl (checkLockstep_free rfl m)) _

theorem exportStopDc_done : exportStop h [1] m = .done [] (endDcExport m) :=
  unlessFails_pass (prelude_plain plain rfl rfl rfl (checkLockstep_free rfl m)) _

end

theorem stopSession_running {m : Module} (state : m.charger.state = 4 ∨ m.charger.state = 5) :
    stopSession m = startHandover false true m := by
  unfold stopSession
  rcases state with h | h <;> simp only [h]

theorem startHandover_end (m : Module) : startHandover false true m = { m with charger := { m.charger with
    handStep := 1, handAt := m.time.elapsed, ending := true, state := 6, entered := m.time.elapsed } } := by
  unfold startHandover enterState updCharger
  simp only [Bool.or_true, Bool.false_eq_true, if_false]

theorem stopExport_running {m : Module} (state : m.charger.state = 7 ∨ m.charger.state = 8) :
    stopExport m = { m with charger := { m.charger with
      exportFrom := m.charger.exportV, exportStep := 0, state := 9, entered := m.time.elapsed } } := if_pos state

theorem exportAc_state (m : Module) : enterState 7 (busStart (updCharger (fun c => { c with
      exportV := 0, exportStep := 0, formPhase := 0, limitSince := none, apparentSince := none,
      deviationSince := none }) m)) = { m with charger := { m.charger with
    exportV := 0, exportStep := 0, formPhase := 0, limitSince := none, apparentSince := none, deviationSince := none,
    closePv := true, closeDb := true, state := 7, entered := m.time.elapsed } } := by
  simp only [enterState, busStart, updCharger]

theorem chargeStart_state (i v : Word) (m : Module) : enterState 1 (updCharger (fun c => { c with
      session := true, ending := false, timerW := 0, timerHalf := false, derated := false, phase := 0, integ := 0,
      pref := 0, endSince := none, failSince := none, presentSince := none })
      { m with live := { m.live with cgISet := i, cgVSet := v } }) = { m with
    live := { m.live with cgISet := i, cgVSet := v }, charger := { m.charger with
      session := true, ending := false, timerW := 0, timerHalf := false, derated := false, phase := 0, integ := 0,
      pref := 0, endSince := none, failSince := none, presentSince := none, state := 1, entered := m.time.elapsed } } := by
  simp only [enterState, updCharger]

/-- Settles O35: each row passes its checks and does what its rule says. -/
theorem chargeCommandsComplete : Obligations.ChargeCommandsComplete := by
  refine ⟨?start, ?stop, ?startAc, ?startDc, ?stopAc, ?stopDc⟩
  case start =>
    rintro dt ⟨h, _⟩ i v s _ rfl attends plain rfl coverage finiteI positive most finiteV above below pattern admitted
      idle run settled enabled closed sound
    refine host_done 0x60 h [i, v] noStamps attends rfl ((chargeStart_done plain (by simpa using coverage)
      (by simpa using pattern) admitted idle run (by simpa using settled) closed (by simpa using finiteI) positive
      (by simpa using most) (by simpa using finiteV) above below enabled (by simpa using sound)).trans ?_) s
    rw [chargeStart_state]
  case stop =>
    rintro dt ⟨h, _⟩ s _ rfl attends plain rfl state
    refine host_done 0x61 h [] noStamps attends rfl ((chargeStop_done plain).trans ?_) s
    rw [stopSession_running (by simpa using state), startHandover_end]
  case startAc =>
    rintro dt h s _ rfl attends plain coverage pattern admitted idle run settled enabled closed pilot quiet
    refine host_done 0x62 h [0] noStamps attends rfl ((exportStartAc_done plain (by simpa using coverage)
      (by simpa using pattern) admitted idle run (by simpa using settled) closed enabled pilot quiet).trans ?_) s
    rw [exportAc_state]
  case startDc =>
    rintro dt h s _ rfl attends plain coverage pattern admitted may
    exact host_done 0x62 h [1] noStamps attends rfl (exportStartDc_done plain (by simpa using coverage)
      (by simpa using pattern) admitted may) s
  case stopAc =>
    rintro dt h s _ rfl attends plain state
    refine host_done 0x63 h [0] noStamps attends rfl ((exportStopAc_done plain).trans ?_) s
    rw [stopExport_running (by simpa using state)]
  case stopDc =>
    rintro dt h s _ rfl attends plain
    exact host_done 0x63 h [1] noStamps attends rfl (exportStopDc_done plain) s

end Sys2Proof.Machine

namespace Sys2Proof.Machine

/-! ## MEASURE_TEMP (R84, R539) -/

/-- A die without a crossing for its commands has no clocked domain that is measured. -/
theorem measured_nil {d : Nat} {m : Module} (le : d ≤ 45) (none_ : commandCrossing d = none) : m.measured d = [] := by
  have h4 : d ≠ 4 := fun h => by rw [h] at none_; exact absurd none_ (by decide)
  have h5 : d ≠ 5 := fun h => by rw [h] at none_; exact absurd none_ (by decide)
  have h7 : d ≠ 7 := fun h => by rw [h] at none_; exact absurd none_ (by decide)
  have all : d ≠ 63 := by omega
  refine List.filter_eq_nil_iff.2 fun k mem => ?_
  simp only [List.mem_cons, List.not_mem_nil, or_false] at mem
  rcases mem with rfl | rfl | rfl <;> simp [h4, h5, h7, all]

/-- A die with a crossing for its commands is the only one that naming it measures. -/
theorem measured_one {d : Nat} {i : Fin 22} {m : Module} (some_ : commandCrossing d = some i) :
    ∃ k : Fin 46, k.val = d ∧ m.measured d = [k] := by
  unfold commandCrossing at some_
  split at some_
  · exact ⟨4, rfl, rfl⟩
  · exact ⟨5, rfl, rfl⟩
  · exact ⟨7, rfl, rfl⟩
  · cases some_

/-- The words to the dies measured, as one word each over the crossings they have. -/
theorem sendMeasured_eq (ks : List (Fin 46)) (m : Module) : ks.foldl (fun m k => match commandCrossing k.val with
      | some i => sendCommand i m
      | none => m) m = (ks.filterMap (fun k => commandCrossing k.val)).foldl (fun x i => sendCommand i x) m := by
  rw [List.foldl_filterMap]
  congr 1
  funext x k
  cases commandCrossing k.val <;> rfl

theorem measureTemp_waits {h : Hdr} (plain : h.plain = true) {w : Word} {m : Module} (reserved : bits w 31 6 = 0)
    (die : bits w 5 0 ≤ 45 ∨ bits w 5 0 = 0x3F)
    (supplied : bits w 5 0 ≤ 45 → (m.dies.toList.getD (bits w 5 0) (Die.init 0)).supply ≠ 0)
    (clocked : (m.measured (bits w 5 0)).any (fun k => m.clockedStopped k.val) = false) :
    measureTemp h [w] m = .waits (((m.measured (bits w 5 0)).filterMap (fun k => commandCrossing k.val)).foldl
      (fun x i => sendCommand i x) (m.withWaiting (waitingFor 0x70 h 1 (bits w 5 0) m))) := by
  have enc : (bits w 31 6 == 0 && (bits w 5 0 ≤ 45 || bits w 5 0 == 0x3F)) = true := by simpa [reserved] using die
  have runs : ((bits w 5 0 ≤ 45 && (m.dies.toList.getD (bits w 5 0) (Die.init 0)).supply == 0) ||
      (m.measured (bits w 5 0)).any (fun k => m.clockedStopped k.val)) = false := by
    rw [clocked, Bool.or_false, Bool.and_eq_false_imp]
    exact fun le => beq_eq_false_iff_ne.2 (supplied (of_decide_eq_true le))
  exact (unlessFails_pass (firstFail_pass (prelude_plain plain rfl enc rfl (checkLockstep_free rfl m))
    (firstFail_pass (failIf_pass runs _ _) rfl)) _).trans (congrArg Verdict.waits (sendMeasured_eq _ _))

/-! ## SELFTEST (R538) -/

theorem testTarget_word (t : TestTarget) : testTarget t.word = some t := by
  cases t with
  | sup => decide
  | fabric d => revert d; decide
  | island i => revert i; decide
  | comparator a k => revert a k; decide
  | detector a i => revert a i; decide

section
variable {h : Hdr} (plain : h.plain = true) {m : Module}
include plain

/-- A SELFTEST that names a target is decided by the checks of that target. -/
theorem selftest_named (t : TestTarget) : selftest h [t.word] m = match t with
    | .sup => selftestSup h m
    | .fabric d => selftestFabric h d m
    | .island i => selftestIsland h i m
    | .comparator a k => selftestTwin h a false (m.idleComparator a k) m
    | .detector a i => selftestTwin h a true (m.idleDetector a i) m := by
  have untimed := plain_untimed plain
  refine (unlessFails_pass (firstFail_pass (checkLength_untimed untimed rfl) (firstFail_pass
    (checkEncoding_untimed untimed (by decide) ?_) rfl)) _).trans ?_
  · exact (congrArg Option.isSome (testTarget_word t)).trans rfl
  · rw [List.getD_cons_zero, testTarget_word]
    cases t <;> rfl

/-- The first two checks of every target: a plain request is neither timed nor relayed. -/
theorem target_checks {cs : List Check} (rest : firstFail cs = none) :
    firstFail (failIf h.timed .reservedEncoding ::
      failIf (h.relayed && !((h.transport == .cn2 || h.transport == .cn3) && h.fromHead)) .reservedEncoding :: cs) = none :=
  firstFail_pass (failIf_pass (plain_untimed plain) _ _)
    (firstFail_pass (failIf_pass (by rw [plain_direct plain]; rfl) _ _) rest)

theorem selftestSup_scheduled (ready : m.label = .ready) (idle : m.lockstep.bist = 0) :
    selftestSup h m = .scheduled []
      { m with lockstep := { m.lockstep with bist := 1, bistFailed := false, delay := [] } } :=
  unlessFails_pass (target_checks plain (firstFail_pass (failIf_pass (by rw [ready]; rfl) _ _)
    (firstFail_pass (failIf_pass (by rw [idle]; rfl) _ _) rfl))) _

omit plain in
theorem fabricDie_eq (d : Fin 2) : (if d.val = 0 then 2 else 3 : Fin 46) = if d = 0 then 2 else 3 := by
  revert d
  decide

theorem selftestFabric_scheduled (d : Fin 2) (ready : m.label = .ready) (runs : m.dieRuns (if d = 0 then 2 else 3) = true)
    (free : (List.finRange 8).any (fun n => regionDie n == (if d = 0 then 2 else 3 : Fin 46) && (m.regions[n]).held) =
      false) : selftestFabric h d m = .scheduled []
      (zeroRegions d.val (mapRegions d.val (fun r => { r.stop with held := true }) m)) := by
  have die := fabricDie_eq d
  exact unlessFails_pass (target_checks plain (firstFail_pass (failIf_pass (by rw [ready]; rfl) _ _)
    (firstFail_pass (failIf_pass (by rw [die, runs]; rfl) _ _)
    (firstFail_pass (failIf_pass (by rw [die]; exact free) _ _) rfl)))) _

theorem selftestIsland_waits (i : Fin 36) (awake : m.atLeastReady = true) (idle : m.gateBusy = false)
    (off : (m.driven && !m.heldOff i) = false) (runs : m.dieRuns 7 = true) :
    selftestIsland h i m = .waits (holdWrites 4 (waitingFor 0x71 h 1 (10 + i.val) m) m) :=
  unlessFails_pass (target_checks plain (firstFail_pass (failIf_pass (by rw [awake]; rfl) _ _)
    (firstFail_pass (failIf_pass idle _ _) (firstFail_pass (failIf_pass off _ _)
    (firstFail_pass (failIf_pass (by rw [runs]; rfl) _ _) rfl))))) _

theorem selftestTwin_waits (a : Fin 2) (detector : Bool) {idle : Option Nat} {j : Nat} (awake : m.atLeastReady = true)
    (found : idle = some j) (free : m.twinBusy a = false) (runs : m.afeRuns a = true) :
    selftestTwin h a detector idle m = .waits (holdWrites (if a.val = 0 then 0 else 2)
      { (waitingFor 0x71 h 1 (twinTarget a detector) m) with key := j } m) := by
  subst found
  exact unlessFails_pass (target_checks plain (firstFail_pass (failIf_pass (by rw [awake]; rfl) _ _)
    (firstFail_pass rfl (firstFail_pass (failIf_pass free _ _)
    (firstFail_pass (failIf_pass (by rw [runs]; rfl) _ _) rfl))))) _

/-! ## CALIBRATE, FILL_MEMORY, GATE_DIAG and ACK_FAULTS (R370, R416, R540, R609) -/

theorem calibrate_waits {w : Word} {a : Fin 2} (reserved : bits w 31 1 = 0) (afe : a.val = w.toNat % 2)
    (awake : m.atLeastReady = true) (idle : m.afe[a].sweep = false) (free : m.writesOut (4 + a.val) 0x72 = false)
    (runs : m.afeRuns a = true) : calibrate h [w] m = .waits
      (holdWrites (if a.val = 0 then 0 else 2) (waitingFor 0x72 h 1 (4 + a.val) m) m) := by
  obtain rfl : a = ⟨w.toNat % 2, Nat.mod_lt _ (by decide)⟩ := Fin.ext afe
  exact unlessFails_pass (firstFail_pass (prelude_plain plain rfl (beq_iff_eq.2 reserved) rfl (checkLockstep_free rfl m))
    (firstFail_pass (failIf_pass (by rw [awake]; rfl) _ _)
    (firstFail_pass (failIf_pass ((congrArg₂ or idle free).trans rfl) _ _)
    (firstFail_pass (failIf_pass ((congrArg not runs).trans rfl) _ _) rfl)))) _

theorem gateDiag_waits {w : Word} (reserved : bits w 31 1 = 0) (ready : m.label = .ready)
    (low : F32.lt (F32.ofNat 60) (m.diagVdc w.toNat) = false) (idle : m.gateBusy = false) (runs : m.dieRuns 7 = true) :
    gateDiag h [w] m = .waits (holdWrites 4 (waitingFor 0x78 h 1 w.toNat m) m) := by
  have enc : (h.timed || bits w 31 1 != 0) = false := by rw [plain_untimed plain, reserved]; rfl
  have state : (m.label != .ready || F32.lt (F32.ofNat 60) (m.diagVdc w.toNat)) = false := by rw [ready, low]; rfl
  exact unlessFails_pass (firstFail_pass (failIf_pass rfl _ _) (firstFail_pass (failIf_pass enc _ _)
    (firstFail_pass (checkRelayed_direct (plain_direct plain) rfl m) (firstFail_pass (failIf_pass state _ _)
    (firstFail_pass (failIf_pass idle _ _) (firstFail_pass (failIf_pass (by rw [runs]; rfl) _ _) rfl)))))) _

theorem ackFaults_done {w : Word} (reserved : bits w 15 0 = 0)
    (known : (bits w 31 16 == 0 || (faultInfo (bits w 31 16)).isSome) = true) : ackFaults h [w] m = .done
      [pack [((ackedFaults (bits w 31 16) m).length, 16), ((acknowledge (bits w 31 16) m).faults.active.length, 0)]]
      (acknowledge (bits w 31 16) m) := by
  have code : (bits w 31 16 != 0 && (faultInfo (bits w 31 16)).isNone) = false := by
    cases zero : bits w 31 16 == 0 <;> cases info : faultInfo (bits w 31 16) <;> simp_all
  rw [ackFaults, List.getD_cons_zero]
  exact unlessFails_pass (firstFail_pass (prelude_plain plain rfl (beq_iff_eq.2 reserved) rfl (checkLockstep_free rfl m))
    (firstFail_pass (failIf_pass code _ _) rfl)) _

/-- The regions of a fabric die stop and are held where the die is one of those filled. -/
def holdFilled (dies : List (Fin 46)) (d : Nat) (m : Module) : Module :=
  if dies.contains (if d = 0 then 2 else 3) then
    zeroRegions d (mapRegions d (fun r => { r.stop with held := true }) m) else m

theorem fillMemory_scheduled {w : Word} {dies : List (Fin 46)} (high : bits w 31 16 = 0) (low : bits w 7 0 = 0)
    (block : (bits w 15 8 == 0xFF || (9 ≤ bits w 15 8 && blockValid (bits w 15 8))) = true) (ready : m.label = .ready)
    (named : dies = (List.finRange 46).filter (fun d => (fillBlocks (bits w 15 8)).any (fun c => blockDie c == d)))
    (run : dies.all (fun d => m.dieRuns d) = true)
    (free : dies.any (fun d => m.memory.filling.any (fun c => blockDie c == d) || (List.finRange 8).any
      (fun n => regionDie n == d && (m.regions[n]).held)) = false) :
    fillMemory h [w] m = .scheduled [] (holdFilled dies 1 (holdFilled dies 0
      { m with memory := { m.memory with filling := m.memory.filling ++ fillBlocks (bits w 15 8) } })) := by
  subst named
  have enc : (bits w 31 16 == 0 && bits w 7 0 == 0 && (bits w 15 8 == 0xFF || (9 ≤ bits w 15 8 &&
      blockValid (bits w 15 8)))) = true := by rw [high, low, block]; rfl
  have stopped := List.not_all_eq_any_not .. ▸ congrArg not run
  exact unlessFails_pass (firstFail_pass (prelude_plain plain rfl enc rfl (checkLockstep_free rfl m))
    (firstFail_pass (failIf_pass (by rw [ready]; rfl) _ _) (firstFail_pass (failIf_pass stopped _ _)
    (firstFail_pass (failIf_pass free _ _) rfl)))) _

end

/-- Settles O36: each row passes its checks and does what its rule says. -/
theorem serviceCommandsComplete : Obligations.ServiceCommandsComplete := by
  refine ⟨?plainDie, ?crossedDie, ?allDies, ?sup, ?fabric, ?island, ?comparator, ?detector, ?calibrate, ?fill, ?diag, ?ack⟩
  case plainDie =>
    rintro dt ⟨h, _⟩ w s m rfl attends plain rfl reserved die supplied none_
    have nil := measured_nil (m := advance dt s.mod) die none_
    refine host_waits 0x70 h [w] noStamps attends rfl ((measureTemp_waits plain reserved (.inl die) (fun _ => supplied)
      (by rw [nil]; rfl)).trans ?_) s
    rw [nil]
    rfl
  case crossedDie =>
    rintro dt ⟨h, _⟩ w i s m rfl attends plain rfl reserved die supplied runs some_
    obtain ⟨k, hk, one⟩ := measured_one (m := advance dt s.mod) some_
    refine host_waits 0x70 h [w] noStamps attends rfl ((measureTemp_waits plain reserved (.inl die) (fun _ => supplied)
      (by simpa [one, hk] using runs)).trans ?_) s
    simp only [one, List.filterMap_cons, hk, some_, List.filterMap_nil, List.foldl_cons, List.foldl_nil]
    rfl
  case allDies =>
    rintro dt ⟨h, _⟩ s m rfl attends plain rfl runs
    exact host_waits 0x70 h [0x3F] noStamps attends rfl (measureTemp_waits plain rfl (.inr rfl)
      (fun le => absurd le (by decide)) (Bool.eq_false_of_not_eq_true' runs)) s
  case sup =>
    rintro dt h s m rfl attends plain ready idle
    exact host_scheduled 0x71 h [TestTarget.sup.word] noStamps attends rfl
      ((selftest_named plain .sup).trans (selftestSup_scheduled plain ready idle)) s
  case fabric =>
    rintro dt h d s m rfl attends plain ready runs free
    exact host_scheduled 0x71 h [(TestTarget.fabric d).word] noStamps attends rfl
      ((selftest_named plain (.fabric d)).trans (selftestFabric_scheduled plain d ready runs
        (Bool.eq_false_of_not_eq_true' free))) s
  case island =>
    rintro dt h i s m rfl attends plain awake idle off runs
    exact host_waits 0x71 h [(TestTarget.island i).word] noStamps attends rfl
      ((selftest_named plain (.island i)).trans (selftestIsland_waits plain i awake (by simpa using idle)
        (by simpa [Classical.or_iff_not_imp_left] using off) runs)) s
  case comparator =>
    rintro dt h a k j s m rfl attends plain awake found free runs
    exact host_waits 0x71 h [(TestTarget.comparator a k).word] noStamps attends rfl
      ((selftest_named plain (.comparator a k)).trans (selftestTwin_waits plain a false awake found
        (by simpa using free) runs)) s
  case detector =>
    rintro dt h a i j s m rfl attends plain awake found free runs
    exact host_waits 0x71 h [(TestTarget.detector a i).word] noStamps attends rfl
      ((selftest_named plain (.detector a i)).trans (selftestTwin_waits plain a true awake found
        (by simpa using free) runs)) s
  case calibrate =>
    rintro dt ⟨h, _⟩ w a s m rfl attends plain rfl reserved afe awake idle free runs
    exact host_waits 0x72 h [w] noStamps attends rfl (calibrate_waits plain reserved afe awake
      (Bool.eq_false_of_not_eq_true' idle) (by simpa using free) runs) s
  case fill =>
    rintro dt ⟨h, _⟩ w dies filled upper s m rfl attends plain rfl high low block ready named run free rfl rfl
    exact host_scheduled 0x75 h [w] noStamps attends rfl (fillMemory_scheduled plain high low (by simpa using block) ready
      named run (Bool.eq_false_of_not_eq_true' free)) s
  case diag =>
    rintro dt ⟨h, _⟩ w s m rfl attends plain rfl reserved ready low idle runs
    exact host_waits 0x78 h [w] noStamps attends rfl (gateDiag_waits plain reserved ready (by simpa using low)
      (by simpa using idle) runs) s
  case ack =>
    rintro dt ⟨h, _⟩ w s m rfl attends plain rfl reserved known
    exact host_done 0x74 h [w] noStamps attends rfl (ackFaults_done plain reserved (by simpa using known)) s

end Sys2Proof.Machine

namespace Sys2Proof.Machine

/-! ## Admission and release (R487, R488, R490) -/

theorem leads_parts {m : Module} (leads : m.leads = true) : m.isHead = true ∧ m.sys.silenced = false := by
  simpa only [Module.leads, Bool.and_eq_true, Bool.not_eq_true'] using leads

section
variable {opcode : Nat} {h : Hdr} {w : Word} {m : Module}

/-- The rows that R488 and R490 share pass at a Headstock that hears the node. -/
theorem nodeChecks_head (leads : m.leads = true) (plain : h.plain = true) (reserved : bits w 31 4 = 0)
    (quiet : m.wideCommit = false) (coverage : m.lockstepRequired = false) (other : nodeOf w ≠ m.straps.node)
    (heard : m.statusHeard (nodeOf w) = true) : nodeChecks opcode h [w] m = none := by
  obtain ⟨head, silenced⟩ := leads_parts leads
  have untimed := plain_untimed plain
  unfold nodeChecks
  simp only [ownWords_untimed untimed, List.getD_cons_zero]
  exact firstFail_pass (prelude_untimed untimed (by decide) rfl (beq_iff_eq.2 reserved)
      (checkRelayed_head (plain_direct plain) head silenced) (checkLockstep_covered coverage _))
    (firstFail_pass (failIf_pass (by rw [head, heard, beq_false_of_ne other]; rfl) _ _)
    (firstFail_pass (failIf_pass quiet _ _) rfl))

/-- They pass at a Tailstock for what its Headstock relays. -/
theorem nodeChecks_tail (via : h.viaHead = true) (reserved : bits w 31 4 = 0) (quiet : m.wideCommit = false)
    (coverage : m.lockstepRequired = false) (tail : m.isHead = false) : nodeChecks opcode h [w] m = none := by
  obtain ⟨untimed, relayed, link⟩ := viaHead_parts via
  unfold nodeChecks
  simp only [ownWords_untimed untimed, List.getD_cons_zero]
  exact firstFail_pass (prelude_untimed untimed (by decide) rfl (beq_iff_eq.2 reserved)
      (checkRelayed_viaHead tail relayed link) (checkLockstep_covered coverage _))
    (firstFail_pass (failIf_pass (by rw [tail]; rfl) _ _) (firstFail_pass (failIf_pass quiet _ _) rfl))

theorem admitTailstock_pends (checks : nodeChecks 0x80 h [w] m = none) (plain : h.plain = true) (head : m.isHead = true)
    (apart : m.inSet (nodeOf w).val = false) (single : (m.sys.nodes[nodeOf w]).conflict = false) :
    admitTailstock h [w] m = .pends (relayTo (nodeOf w).val (readSetCrc h.tag) (m.withWaiting
      { (waitingFor 0x80 h 1 (nodeOf w).val m) with words := [w], key := 0x10 * 256 + h.tag.toNat })) := by
  have untimed := plain_untimed plain
  refine (unlessFails_pass checks _).trans ?_
  simp only [ownWords_untimed untimed, List.getD_cons_zero]
  rw [if_pos head, if_neg (by rw [apart]; decide), if_neg (by rw [single]; decide), untimed, if_neg (by simp)]
  rfl

theorem admitTailstock_member (checks : nodeChecks 0x80 h [w] m = none) (plain : h.plain = true) (head : m.isHead = true)
    (member : m.inSet (nodeOf w).val = true) : admitTailstock h [w] m = .done [] m := by
  have untimed := plain_untimed plain
  refine (unlessFails_pass checks _).trans ?_
  simp only [ownWords_untimed untimed, List.getD_cons_zero]
  rw [if_pos head, if_pos member]

theorem admitTailstock_tail (checks : nodeChecks 0x80 h [w] m = none) (untimed : h.timed = false)
    (tail : m.isHead = false) (outside : m.sys.admitted = false) (own : ownAdmitCheck m = none) :
    admitTailstock h [w] m = .done [] (becomeAdmitted m) := by
  refine (unlessFails_pass checks _).trans ?_
  rw [if_neg (by rw [tail]; decide), if_neg (by rw [outside]; decide), unlessFails_pass own]
  exact nowOrTimed_now untimed ..

theorem releaseTailstock_done (checks : nodeChecks 0x81 h [w] m = none) (untimed : h.timed = false)
    (mayLeave : releaseCheck (nodeOf w) m = none) : releaseTailstock h [w] m = .done [] (takeRelease (nodeOf w)
      (if m.isHead then relayTo (nodeOf w).val (nodePacket 0x81 h [w]) m else m)) := by
  unfold releaseTailstock
  simp only [ownWords_untimed untimed, List.getD_cons_zero]
  exact (unlessFails_pass (firstFail_pass checks (firstFail_pass mayLeave rfl)) _).trans (nowOrTimed_now untimed ..)

/-! ## Time agreement (R479, R480) -/

theorem timeSync_scheduled (leads : m.leads = true) (plain : h.plain = true) (high : bits w 31 17 = 0)
    (low : bits w 15 4 = 0) (known : (bit w 16 || m.heard (nodeOf w)) = true) (idle : m.sys.measurement = none) :
    timeSync h [w] m = .scheduled [] (startMeasure ((if bit w 16 then (List.finRange 16).filter
      (fun k => k != m.straps.node && ((m.sys.nodes[k]).porch || m.inSet k.val)) else [nodeOf w]).map (·.val)) m) := by
  obtain ⟨head, silenced⟩ := leads_parts leads
  have enc : (bits w 31 17 == 0 && bits w 15 4 == 0) = true := by rw [high, low]; rfl
  have unknown : (!bit w 16 && !m.heard (nodeOf w)) = false := by rw [← Bool.not_or, known]; rfl
  exact unlessFails_pass (firstFail_pass (prelude_untimed (plain_untimed plain) (by decide) rfl enc
      (checkRelayed_head (plain_direct plain) head silenced) (checkLockstep_free rfl m))
    (firstFail_pass (failIf_pass unknown _ _) (firstFail_pass (failIf_pass (by rw [idle]; rfl) _ _) rfl))) _

theorem timeSyncProbe_done (via : h.viaHead = true) (tail : m.isHead = false) (t2 t3 : Tick) :
    timeSyncProbe h t2 t3 m = .done (tickWords t2 ++ tickWords t3) m := by
  obtain ⟨untimed, relayed, link⟩ := viaHead_parts via
  exact unlessFails_pass (prelude_untimed untimed (by decide) rfl relayed (checkRelayed_viaHead tail relayed link)
    (checkLockstep_free rfl m)) _

/-- A request of opcode 0x82 that is not relayed is a TIME_SYNC of the host. -/
theorem handle_timeSync (direct : h.relayed = false) (ws : List Word) (st : Stamps) :
    handle 0x82 h ws st m = timeSync h ws m := if_neg (by rw [direct, Bool.false_and]; decide)

/-- A relayed request of opcode 0x82 without words is a probe. -/
theorem handle_timeSyncProbe (relayed : h.relayed = true) (st : Stamps) :
    handle 0x82 h [] st m = timeSyncProbe h (m.stampOf st.rx) (m.stampOf st.tx) m := if_pos (by rw [relayed]; rfl)

/-! ## Allocation and relay (R498 … R500, R541) -/

theorem allocateTorque_scheduled {ws : List Word} (checks : allocChecks h ws m = none) : allocateTorque h ws m =
    .scheduled [] (if m.isHead then
      sendAllocation { instant := instantOf ws, shares := allocShares (ws.drop 2), realloc := false }
        { m with sys := { m.sys with
            held := holdAllocation { instant := instantOf ws, shares := allocShares (ws.drop 2), realloc := false } m.sys.held,
            lastAccepted := some (instantOf ws) } }
      else { m with sys := { m.sys with
            held := holdAllocation { instant := instantOf ws, shares := allocShares (ws.drop 2), realloc := false } m.sys.held,
            lastAccepted := some (instantOf ws) } }) := unlessFails_pass checks _

theorem relay_waits {v : Word} {ws : List Word} (checks : relayChecks h (w :: v :: ws) m = none) :
    relay h (w :: v :: ws) m = .waits (relayTo (nodeOf w).val
      (((v ||| 2) :: ws.dropLast) ++ [crc32c ((v ||| 2) :: ws.dropLast)])
      (m.withWaiting { (waitingFor 0x84 h (w :: v :: ws).length (nodeOf w).val m) with key := bits (v ||| 2) 31 16 })) :=
  unlessFails_pass checks _

end

/-- Settles O37: each row passes its checks and does what its rule says. -/
theorem systemCommandsComplete : Obligations.SystemCommandsComplete := by
  refine ⟨?admission, ?member, ?admitted, ?release, ?released, ?sync, ?probe, ?allocTail, ?allocHead, ?relay⟩
  case admission =>
    rintro dt ⟨h, _⟩ w n s m rfl attends leads plain rfl reserved rfl quiet coverage other heard apart single
    exact host_pends 0x80 h [w] noStamps attends rfl (admitTailstock_pends (nodeChecks_head leads plain reserved
      (by simpa using quiet) (covered_of_not coverage) other heard) plain (leads_parts leads).1
      (Bool.eq_false_of_not_eq_true' apart) (Bool.eq_false_of_not_eq_true' single)) s
  case member =>
    rintro dt ⟨h, _⟩ w n s m rfl attends leads plain rfl reserved rfl quiet coverage other heard member
    exact host_done 0x80 h [w] noStamps attends rfl (admitTailstock_member (nodeChecks_head leads plain reserved
      (by simpa using quiet) (covered_of_not coverage) other heard) plain (leads_parts leads).1 member) s
  case admitted =>
    rintro dt ⟨h, _⟩ w n s m rfl attends via rfl reserved rfl quiet coverage tail outside own
    have tail := Bool.eq_false_of_not_eq_true' tail
    exact host_done 0x80 h [w] noStamps attends rfl (admitTailstock_tail (nodeChecks_tail via reserved
      (by simpa using quiet) (covered_of_not coverage) tail) (viaHead_parts via).1 tail
      (Bool.eq_false_of_not_eq_true' outside) own) s
  case release =>
    rintro dt ⟨h, _⟩ w n s m rfl attends leads plain rfl reserved rfl quiet coverage other heard mayLeave
    refine host_done 0x81 h [w] noStamps attends rfl ((releaseTailstock_done (nodeChecks_head leads plain reserved
      (by simpa using quiet) (covered_of_not coverage) other heard) (plain_untimed plain) mayLeave).trans ?_) s
    rw [if_pos (leads_parts leads).1]
  case released =>
    rintro dt ⟨h, _⟩ w n s m rfl attends via rfl reserved rfl quiet coverage tail mayLeave
    have tail := Bool.eq_false_of_not_eq_true' tail
    refine host_done 0x81 h [w] noStamps attends rfl ((releaseTailstock_done (nodeChecks_tail via reserved
      (by simpa using quiet) (covered_of_not coverage) tail) (viaHead_parts via).1 mayLeave).trans ?_) s
    rw [if_neg (by rw [tail]; decide)]
  case sync =>
    rintro dt ⟨h, _⟩ w s m rfl attends leads plain rfl high low known idle
    exact host_scheduled 0x82 h [w] noStamps attends rfl ((handle_timeSync (plain_direct plain) [w] noStamps).trans
      (timeSync_scheduled leads plain high low (by simpa using known) idle)) s
  case probe =>
    rintro dt h t2 t3 s m rfl attends via tail
    exact host_done 0x82 h [] { rx := t2, tx := t3 } attends rfl ((handle_timeSyncProbe (viaHead_parts via).2.1 _).trans
      (timeSyncProbe_done via (Bool.eq_false_of_not_eq_true' tail) _ _)) s
  case allocTail =>
    rintro dt ⟨h, ws⟩ s m rfl attends checks tail
    refine host_scheduled 0x83 h ws noStamps attends rfl ((allocateTorque_scheduled checks).trans ?_) s
    rw [if_neg (by simpa using tail)]
  case allocHead =>
    rintro dt ⟨h, ws⟩ s m rfl attends checks head
    refine host_scheduled 0x83 h ws noStamps attends rfl ((allocateTorque_scheduled checks).trans ?_) s
    rw [if_pos head]
  case relay =>
    rintro dt ⟨h, _⟩ w v ws n body s m rfl attends checks rfl rfl rfl
    exact host_waits 0x84 h (w :: v :: ws) noStamps attends rfl (relay_waits checks) s

end Sys2Proof.Machine

namespace Sys2Proof.Machine

/-! ## Power state, debug and resets (R43, R170, R542, R550) -/

section
variable {h : Hdr} (plain : h.plain = true) {w : Word} {m : Module}
include plain

/-- The checks of SET_POWER_STATE that come before the state it names is looked at. -/
theorem setPowerState_eq (reserved : bits w 31 3 = 0) (on : powerOf (bits w 2 0) ≠ .off) : setPowerState h [w] m =
    if powerOf (bits w 2 0) == m.label then .done [] m
    else unlessFails (firstFail
      [failIf (!legalTarget m.label (powerOf (bits w 2 0))) .illegalTransition,
       failIf (m.inTransition || m.commitPending || (powerOf (bits w 2 0) == .sleep && m.epochs.flashPending)) .busy,
       failIf (m.lockstepRequired && (powerOf (bits w 2 0) == .armed || powerOf (bits w 2 0) == .run)) .lockstepRequired,
       failIf (powerOf (bits w 2 0) == .run && !m.isAdmitted) .notAdmitted,
       failIf (powerOf (bits w 2 0) == .armed && m.armBlocked) .stateForbids,
       failIf (m.driven && (powerOf (bits w 2 0)).code ≤ 3 && m.tooFast) .stateForbids])
      (.scheduled [] (beginLeg (powerOf (bits w 2 0)) (stepTowards m.label (powerOf (bits w 2 0))) m)) := by
  have untimed := plain_untimed plain
  have enc : (h.timed || bits w 31 3 != 0 || powerOf (bits w 2 0) == .off) = false := by
    rw [untimed, reserved, beq_false_of_ne on]
    rfl
  exact unlessFails_pass (firstFail_pass (failIf_pass (by rw [untimed]; rfl) _ _) (firstFail_pass (failIf_pass enc _ _)
    (firstFail_pass (checkRelayed_direct (plain_direct plain) rfl m) rfl))) _

theorem setPowerState_stays (reserved : bits w 31 3 = 0) (same : powerOf (bits w 2 0) = m.label) (on : m.label ≠ .off) :
    setPowerState h [w] m = .done [] m := by
  rw [setPowerState_eq plain reserved (same ▸ on), if_pos (beq_iff_eq.2 same)]

theorem setPowerState_begins {t : Power} (reserved : bits w 31 3 = 0) (named : t = powerOf (bits w 2 0)) (on : t ≠ .off)
    (other : t ≠ m.label) (legal : legalTarget m.label t = true)
    (free : (m.inTransition || m.commitPending || (t == .sleep && m.epochs.flashPending)) = false)
    (coverage : (m.lockstepRequired && (t == .armed || t == .run)) = false) (admitted : (t == .run && !m.isAdmitted) = false)
    (unblocked : (t == .armed && m.armBlocked) = false) (slow : (m.driven && t.code ≤ 3 && m.tooFast) = false) :
    setPowerState h [w] m = .scheduled [] (beginLeg t (stepTowards m.label t) m) := by
  subst named
  rw [setPowerState_eq plain reserved on, if_neg (by simpa using other)]
  exact unlessFails_pass (firstFail_pass (failIf_pass (by rw [legal]; rfl) _ _) (firstFail_pass (failIf_pass free _ _)
    (firstFail_pass (failIf_pass coverage _ _) (firstFail_pass (failIf_pass admitted _ _)
    (firstFail_pass (failIf_pass unblocked _ _) (firstFail_pass (failIf_pass slow _ _) rfl)))))) _

theorem debugAttach_done (idle : m.driven = false) : debugAttach h [] m = .done [] { m with lockstep := { m.lockstep with
    debug := true, mode := if m.lockstep.mode = .lockstep then .suspended else m.lockstep.mode, rollback := false,
    delay := [] } } :=
  unlessFails_pass (firstFail_pass (prelude_plain plain rfl rfl rfl (checkLockstep_free rfl m))
    (firstFail_pass (failIf_pass idle _ _) rfl)) _

end

theorem word_die (d : Fin 46) : bits (word d.val) 31 6 = 0 ∧ bits (word d.val) 5 0 = d.val ∧ (word d.val).toNat % 46 = d.val := by
  revert d
  decide

theorem getD_die (m : Module) (d : Fin 46) : m.dies.toList.getD d.val (Die.init 0) = m.dies[d] := by
  simp

theorem resetDieCheck_none {h : Hdr} (plain : h.plain = true) {d : Fin 46} {m : Module}
    (may : d.val = 0 ∨ resettable d.val = true)
    (state : (if d.val = 0 then m.label != .standby && m.label != .ready else m.label != .ready || m.inTransition) = false)
    (released : m.dies[d].inReset = false) : resetDieCheck h [word d.val] m = none := by
  obtain ⟨high, die, -⟩ := word_die d
  have enc : (bits (word d.val) 31 6 == 0 && bits (word d.val) 5 0 ≤ 45) = true := by
    rw [high, die, decide_eq_true (Nat.le_of_lt_succ d.isLt)]
    rfl
  have legal : (d.val != 0 && !resettable d.val) = false := by
    rcases may with zero | may
    · rw [zero]; rfl
    · rw [may, Bool.not_true, Bool.and_false]
  unfold resetDieCheck
  simp only [List.getD_cons_zero, die, getD_die]
  exact firstFail_pass (prelude_plain plain rfl (by simpa only [die] using enc) rfl (checkLockstep_free rfl m))
    (firstFail_pass (failIf_pass legal _ _) (firstFail_pass (failIf_pass state _ _)
    (firstFail_pass (failIf_pass released _ _) rfl)))

theorem resetDie_waits {h : Hdr} {d : Fin 46} {m : Module} (passes : resetDieCheck h [word d.val] m = none) :
    resetDie h [word d.val] m =
      .waits (holdDie d (sendResetFrames d ((unstick d m).withWaiting (waitingFor 0xF1 h 1 d.val m)))) := by
  have same : (⟨(word d.val).toNat % 46, Nat.mod_lt _ (by decide)⟩ : Fin 46) = d := Fin.ext (word_die d).2.2
  unfold resetDie
  simp only [List.getD_cons_zero, same]
  rw [unlessFails_pass passes, (word_die d).2.2]

theorem die_of_resettable {d : Fin 46} (may : resettable d.val = true) : d.val ≠ 0 := by
  intro zero
  rw [zero] at may
  exact absurd may (by decide)

/-- Naming a die other than SUP is no restart of the module. -/
theorem isRestart_die {h : Hdr} {d : Fin 46} {m : Module} (other : d.val ≠ 0) : isRestart 0xF1 h [word d.val] m = false := by
  have named : ([word d.val] == [(0 : Word)]) = false := beq_false_of_ne fun eq => other (by
    have zero : word d.val = 0 := List.singleton_inj.1 eq
    have back := (word_die d).2.2
    rw [zero] at back
    exact back.symm)
  rw [isRestart, named]
  rfl

theorem moduleRestart_passed {h : Hdr} {b : Boot} {m : Module} (passes : resetDieCheck h [0] m = none) :
    moduleRestart h b m = restartNow b (sendNew m (sendReply 0xF1 h 1 0 0 [] (countAccepted m))) := by
  unfold moduleRestart
  rw [passes]

theorem dieResetRelease_released {d : Fin 46} {m : Module} (held : m.dies[d].inReset = true)
    (supplied : m.dies[d].supply = 1) :
    dieResetRelease d m = resolveWaiting [0xF1] (· == d.val) 0 0 [] (releaseDie d m) :=
  if_neg (by rw [held, supplied]; decide)

/-- Settles O38: each row passes its checks and does what its rule says. -/
theorem moduleCommandsComplete : Obligations.ModuleCommandsComplete := by
  refine ⟨?stays, ?begins, ?debug, ?die, ?restart, ?release⟩
  case stays =>
    rintro dt ⟨h, _⟩ w s m rfl attends plain rfl reserved same on
    exact host_done 0x30 h [w] noStamps attends rfl (setPowerState_stays plain reserved same on) s
  case begins =>
    rintro dt ⟨h, _⟩ w t s m rfl attends plain rfl reserved named on other legal settled quiet programmed coverage
      admitted unblocked slow
    have free : ((advance dt s.mod).inTransition || (advance dt s.mod).commitPending ||
        (t == .sleep && (advance dt s.mod).epochs.flashPending)) = false := by
      rw [Bool.eq_false_of_not_eq_true' settled, Bool.eq_false_of_not_eq_true' quiet,
        Bool.eq_false_of_not_eq_true' programmed]
      rfl
    have inSystem : (t == .run && !(advance dt s.mod).isAdmitted) = false := by
      rcases (by simpa using admitted : t ≠ .run ∨ (advance dt s.mod).isAdmitted = true) with out | member
      · rw [beq_false_of_ne out, Bool.false_and]
      · rw [member, Bool.not_true, Bool.and_false]
    exact host_scheduled 0x30 h [w] noStamps attends rfl (setPowerState_begins plain reserved named on other legal free
      (Bool.eq_false_of_not_eq_true' coverage) inSystem (Bool.eq_false_of_not_eq_true' unblocked)
      (Bool.eq_false_of_not_eq_true' slow)) s
  case debug =>
    rintro dt ⟨h, _⟩ s m rfl attends plain rfl idle
    exact host_done 0xF0 h [] noStamps attends rfl (debugAttach_done plain (Bool.eq_false_of_not_eq_true' idle)) s
  case die =>
    rintro dt ⟨h, _⟩ w d s m rfl attends plain rfl rfl may ready settled released
    have other := die_of_resettable may
    exact host_waits 0xF1 h [word d.val] noStamps attends (isRestart_die other) (resetDie_waits
      (resetDieCheck_none plain (.inr may) (by rw [if_neg other, ready, Bool.eq_false_of_not_eq_true' settled]; rfl)
        (Bool.eq_false_of_not_eq_true' released))) s
  case restart =>
    rintro dt h b s m rfl attends plain label released
    have state : ((advance dt s.mod).label != .standby && (advance dt s.mod).label != .ready) = false := by
      rcases (by simpa using label : (advance dt s.mod).label = .standby ∨ (advance dt s.mod).label = .ready)
        with standby | ready
      · rw [standby]; rfl
      · rw [ready]; rfl
    exact congrArg (became · s) ((restartCommand_attends attends).trans (moduleRestart_passed
      (resetDieCheck_none (d := 0) plain (.inl rfl) state (Bool.eq_false_of_not_eq_true' released))))
  case release =>
    rintro dt d s m rfl up held supplied
    exact congrArg (became · s) ((awake_up (dieResetRelease d) up).trans (dieResetRelease_released held supplied))

/-! ## Packets (R516, R517) -/

/-- A packet that passes the header checks runs its command at once where nothing holds it. -/
theorem packetWords_runs {q : QueuedPacket} {m : Module} (attends : m.attends = true) (two : 2 ≤ q.words.length)
    (sixtyFour : q.words.length ≤ 64) (request : bit (q.words.getD 0 0) 3 = false) (header : headerCheck q.words = none) :
    packetWords q m = runCommand (bits (q.words.getD 0 0) 31 24)
      (hdrOf q.transport q.sender q.via q.fromHead (q.words.getD 0 0)) (q.words.drop 1).dropLast q.stamps m := by
  have decodes : decodable q.words = true := by
    rw [decodable, decide_eq_true two, decide_eq_true sixtyFour, request]
    rfl
  rw [packetWords_of_decodable m decodes, attends_listens attends, if_pos rfl]
  unfold arrives
  rw [attends_packet attends, takePacket, header]
  rfl

/-- Settles O39: a packet that nothing holds is its command, and one that cannot be decoded is counted. -/
theorem packetCommandsComplete : Obligations.PacketCommandsComplete := by
  refine ⟨?packet, ?undecodable⟩
  case packet =>
    rintro dt t sender via fromHead words stamps s m rfl attends two sixtyFour request header
    exact congrArg (became · s) (packetWords_runs (q := packetOf t sender via fromHead words stamps) attends two sixtyFour
      (Bool.eq_false_of_not_eq_true' request) header)
  case undecodable =>
    rintro dt s m rfl listens
    exact congrArg (became · s) ((awake_up (onDie 0 countUndecodable) (up_of_listens listens)).trans
      (onDie_runs _ (dieRuns_of_listens listens)))

end Sys2Proof.Machine

namespace Sys2Proof.Machine

/-! ## One frame and the reassembly (R520, R521) -/

/-- The control byte of a later frame: no reserved bit, not the first, its number; the last where bit 6 is set. -/
theorem control_bits {c k : Nat} (low : k < 16) (value : c = k ∨ c = 64 + k) : c.testBit 4 = false ∧ c.testBit 5 = false ∧
    c.testBit 7 = false ∧ c.testBit 6 = decide (c = 64 + k) ∧ c % 16 = k := by
  simp only [Nat.testBit_eq_decide_div_mod_eq]
  refine ⟨decide_eq_false (by omega), decide_eq_false (by omega), decide_eq_false (by omega), ?_, by omega⟩
  rw [decide_eq_decide]
  omega

section
variable {t : Transport} {sender : Nat} {v : Via} {fromHead : Bool} {s : Stamps} {m : Module}

theorem noReassembly_nil (none_ : m.interp.reassemblies = []) : m.noReassembly t sender := by
  rw [Module.noReassembly, none_]
  rfl

/-- A last frame with enough bytes completes the packet; what follows the packet is not part of it. -/
theorem extend_completes (r : Reassembly) {data : List Byte} (enough : r.total ≤ r.bytes.length + data.length) :
    extend t sender fromHead true r data s m = packetBytes t sender r.via fromHead ((r.bytes ++ data).take r.total) s
      { m with interp := { m.interp with
        reassemblies := m.interp.reassemblies.filter (fun r => !sameReassembly t sender r) } } := by
  unfold extend
  dsimp only
  rw [if_pos rfl, if_neg (by rw [List.length_append]; omega)]

/-- A first frame that holds the whole packet delivers it. -/
theorem takeSegment_whole {n : Byte} {rest : List Byte} (two : 2 ≤ n.toNat) (sixtyFour : n.toNat ≤ 64)
    (enough : 4 * n.toNat ≤ rest.length) (none_ : m.interp.reassemblies = []) :
    takeSegment t sender v fromHead (0xC0 :: n :: rest) s m =
      packetBytes t sender v fromHead (rest.take (4 * n.toNat)) s m := by
  have first := takeSegment_first (t := t) (sender := sender) v fromHead (noReassembly_nil none_) true n.toNat rest s two
    sixtyFour (.inl rfl)
  rw [BitVec.ofNat_toNat, BitVec.setWidth_eq] at first
  refine first.trans ((extend_completes _ (by simpa using enough)).trans ?_)
  rw [drop_noReassembly (noReassembly_nil none_)]
  rfl

/-- A first frame on CN1 that is not the last opens the reassembly. -/
theorem takeSegment_opens {n : Byte} {rest : List Byte} (fd : v.classical = false)
    (full : (0x80 :: n :: rest : List Byte).length = 64) (sixteen : 16 ≤ n.toNat) (sixtyFour : n.toNat ≤ 64)
    (none_ : m.interp.reassemblies = []) : takeSegment .cn1 sender v fromHead (0x80 :: n :: rest) s m =
      { m with interp := { m.interp with reassemblies :=
          [{ transport := .cn1, sender := sender, total := 4 * n.toNat, bytes := rest, nextSeq := 1,
             lastAt := m.time.elapsed, via := v }] } } := by
  have length : rest.length = 62 := by simpa using full
  have first := takeSegment_first (t := .cn1) (sender := sender) v fromHead (noReassembly_nil none_) false n.toNat rest s
    (by omega) sixtyFour (.inr (by rw [length, frameRoom, fd]; rfl))
  rw [BitVec.ofNat_toNat, BitVec.setWidth_eq] at first
  refine first.trans ((extend_open fromHead _ rest s (drop_noReassembly (noReassembly_nil none_))
    (by simp only [List.nil_append]; omega)).trans ?_)
  rw [Module.withReassembly, none_]
  rfl

end

section
variable {sender : Nat} {v : Via} {fromHead : Bool} {s : Stamps} {m : Module} {q : Reassembly} {c : Byte} {rest : List Byte}
variable (open_ : m.interp.reassemblies = [q]) (bus : q.transport = .cn1)
include open_ bus

theorem find?_open : m.interp.reassemblies.find? (sameReassembly .cn1 sender) = some q := by
  rw [open_, List.find?_singleton, if_pos (by rw [sameReassembly, bus]; rfl)]

theorem filter_open : m.interp.reassemblies.filter (fun r => !sameReassembly .cn1 sender r) = [] := by
  have same : sameReassembly .cn1 sender q = true := by rw [sameReassembly, bus]; rfl
  rw [open_]
  simp [same]

/-- The one reassembly of CN1 is discarded and counted. -/
theorem dropSegment_open : dropSegment .cn1 sender m = { m with interp := { m.interp with
    segmentDrops := inc32 m.interp.segmentDrops, reassemblies := [], undecodable := inc32 m.interp.undecodable } } := by
  rw [dropSegment, filter_open open_ bus]
  rfl

/-- A later frame in its order and in time, with its framing right, extends the open reassembly. -/
theorem takeSegment_next {k : Nat} (low : k < 16) (value : c.toNat = k ∨ c.toNat = 64 + k) (order : k = q.nextSeq)
    (time : m.time.elapsed ≤ q.lastAt + 4000000)
    (framing : c.toNat = 64 + k ∨ (v.classical = false ∧ (c :: rest).length = 64)) :
    takeSegment .cn1 sender v fromHead (c :: rest) s m =
      extend .cn1 sender fromHead (decide (c.toNat = 64 + k)) q rest s m := by
  obtain ⟨b4, b5, b7, b6, number⟩ := control_bits low value
  have framed : badFraming .cn1 v.classical (c :: rest) = false := by
    unfold badFraming
    simp only [List.getD_cons_zero]
    rw [b4, b5, b6]
    rcases framing with last | ⟨fd, full⟩
    · rw [decide_eq_true last]
      rfl
    · rw [fd, full]
      cases decide (c.toNat = 64 + k) <;> rfl
  unfold takeSegment
  simp only [List.getD_cons_zero]
  rw [framed, if_neg Bool.false_ne_true, b7, if_neg Bool.false_ne_true, find?_open open_ bus]
  dsimp only
  rw [number, order, if_neg (by simpa using time), b6, order]
  rfl

/-- A frame out of its order ends the reassembly without a packet. -/
theorem takeSegment_disorder (low : c.toNat < 16) (order : c.toNat ≠ q.nextSeq) :
    takeSegment .cn1 sender v fromHead (c :: rest) s m = dropSegment .cn1 sender m := by
  obtain ⟨-, -, b7, -, number⟩ := control_bits low (.inl rfl)
  unfold takeSegment
  simp only [List.getD_cons_zero]
  rw [b7, if_neg (c := false = true) Bool.false_ne_true, find?_open open_ bus]
  dsimp only
  rw [number, if_pos (c := (q.nextSeq != c.toNat || _) = true) (by simp [Ne.symm order]), ite_self]

end

/-- A reassembly is its own. -/
theorem sameReassembly_self (q : Reassembly) : sameReassembly q.transport q.sender q = true := by
  unfold sameReassembly
  split
  case isTrue h => exact h
  case isFalse h => simp [bne, h]

theorem segmentTimeout_overdue {q : Reassembly} {m : Module} (open_ : m.interp.reassemblies = [q])
    (late : q.lastAt + 4000000 < m.time.elapsed) : segmentTimeout m = { m with interp := { m.interp with
      segmentDrops := inc32 m.interp.segmentDrops, reassemblies := [], undecodable := inc32 m.interp.undecodable } } := by
  have gone : [q].filter (fun r => !sameReassembly q.transport q.sender r) = [] := by simp [sameReassembly_self]
  rw [segmentTimeout, open_, List.filter_singleton, decide_eq_true late, cond_true, List.foldl_cons, List.foldl_nil,
    dropSegment, open_, gone]
  rfl

theorem segmentTimeout_young {m : Module}
    (young : (m.interp.reassemblies.all fun q => m.time.elapsed ≤ q.lastAt + 4000000) = true) : segmentTimeout m = m := by
  have none_ : m.interp.reassemblies.filter (fun r => r.lastAt + 4000000 < m.time.elapsed) = [] := by
    simpa using young
  rw [segmentTimeout, none_]
  rfl

section
variable {sender : Nat} {v : Via} {s : Stamps} {bytes : List Byte} {m : Module} (listens : m.listens = true)
  (runs : m.dieRuns 6 = true)
include listens runs

theorem segmentFrame_cn1 (fromHead : Bool) :
    segmentFrame .cn1 sender v fromHead bytes s m = takeSegment .cn1 sender v fromHead bytes s m := by
  unfold segmentFrame
  rw [listens, runs]
  rfl

/-- A first copy of a segment frame on CN2 from a Tailstock. -/
theorem segmentFrame_cn2 {node : Fin 16} (named : node = ⟨sender % 16, Nat.mod_lt _ (by decide)⟩)
    (fresh : (hearFrame 0 node m).copySeen (0x180 + node.val) node.val (bytes.getD 0 0).toNat = false) :
    segmentFrame .cn2 sender v false bytes s m = takeSegment .cn2 node.val v false (bytes.drop 1) s
      (noteCopy (0x180 + node.val) node.val (bytes.getD 0 0).toNat (hearFrame 0 node m)) := by
  subst named
  unfold segmentFrame
  rw [listens, runs]
  exact if_neg (Bool.eq_false_iff.1 fresh)

/-- A copy that was seen before only counts as heard. -/
theorem segmentFrame_cn3_seen {node : Fin 16} (named : node = ⟨sender % 16, Nat.mod_lt _ (by decide)⟩)
    (seen : (headHeard (hearFrame 1 node m)).copySeen (0x100 + m.straps.node.val) node.val (bytes.getD 0 0).toNat = true) :
    segmentFrame .cn3 sender v true bytes s m = headHeard (hearFrame 1 node m) := by
  subst named
  unfold segmentFrame
  rw [listens, runs]
  exact if_pos seen

end

theorem queueFull_room {q : QueuedPacket} {m : Module} (room : m.waitingOn q.transport < 16) : queueFull q m = m :=
  if_pos (by simp [room])

/-- Settles O40: each event takes the branch its hypotheses name. -/
theorem queueAndSegmentEventsComplete : Obligations.QueueAndSegmentEventsComplete := by
  refine ⟨?full, ?room, ?whole, ?opens, ?extended, ?completes, ?disorder, ?link, ?seen, ?overdue, ?young, ?frame, ?escape⟩
  case full =>
    rintro dt t sender via fromHead words stamps s m rfl listens full
    exact congrArg (became · s) (queueFull_of_full (q := packetOf t sender via fromHead words stamps) listens full)
  case room =>
    rintro dt t sender via fromHead words stamps s m rfl room
    exact congrArg (became · s) (queueFull_room (q := packetOf t sender via fromHead words stamps) room)
  case whole =>
    rintro dt sender via fromHead bytes stamps n rest s m rfl listens runs rfl two sixtyFour enough none_
    exact congrArg (became · s) ((segmentFrame_cn1 listens runs fromHead).trans
      (takeSegment_whole two sixtyFour enough none_))
  case opens =>
    rintro dt sender via fromHead bytes stamps n rest s m rfl listens runs rfl fd full sixteen sixtyFour none_
    exact congrArg (became · s) ((segmentFrame_cn1 listens runs fromHead).trans
      (takeSegment_opens (Bool.eq_false_of_not_eq_true' fd) full sixteen sixtyFour none_))
  case extended =>
    rintro dt sender via fromHead bytes stamps q c rest s m rfl listens runs open_ bus time rfl low order fd full bound
    refine congrArg (became · s) ((segmentFrame_cn1 listens runs fromHead).trans ((takeSegment_next open_ bus low (.inl rfl)
      order time (.inr ⟨Bool.eq_false_of_not_eq_true' fd, full⟩)).trans ?_))
    rw [decide_eq_false (by omega), extend_open fromHead q rest stamps rfl (by rw [List.length_append]; omega),
      Module.withReassembly, filter_open open_ bus]
    rfl
  case completes =>
    rintro dt sender via fromHead bytes stamps q c rest s m rfl listens runs open_ bus time rfl low high order enough
    refine congrArg (became · s) ((segmentFrame_cn1 listens runs fromHead).trans ((takeSegment_next open_ bus
      (k := q.nextSeq) (by omega) (.inr order) rfl time (.inl order)).trans ?_))
    rw [decide_eq_true order, extend_completes q enough, filter_open open_ bus]
  case disorder =>
    rintro dt sender via fromHead bytes stamps q c rest s m rfl listens runs open_ bus rfl low order
    exact congrArg (became · s) ((segmentFrame_cn1 listens runs fromHead).trans
      ((takeSegment_disorder open_ bus low order).trans (dropSegment_open open_ bus)))
  case link =>
    rintro dt sender via bytes stamps seq n rest node m1 s m rfl listens runs rfl two sixtyFour enough named rfl fresh none_
    exact congrArg (became · s) ((segmentFrame_cn2 (bytes := seq :: 0xC0 :: n :: rest) listens runs named (Bool.eq_false_of_not_eq_true' fresh)).trans
      (takeSegment_whole two sixtyFour enough none_))
  case seen =>
    rintro dt sender via bytes stamps node m1 s m rfl listens runs named rfl seen
    exact congrArg (became · s) (segmentFrame_cn3_seen listens runs named seen)
  case overdue =>
    rintro dt q s m rfl up open_ late
    exact congrArg (became · s) ((awake_up segmentTimeout up).trans (segmentTimeout_overdue open_ late))
  case young =>
    rintro dt s m rfl up young
    exact congrArg (became · s) ((awake_up segmentTimeout up).trans (segmentTimeout_young young))
  case frame =>
    rintro dt bytes bs s m rfl listens some_ read
    refine congrArg (became · s) ((if_neg (by simpa [listens] using some_)).trans ?_)
    rw [read]
    rfl
  case escape =>
    rintro dt bytes s m rfl listens some_ read
    refine congrArg (became · s) ((if_neg (by simpa [listens] using some_)).trans ?_)
    rw [read]
    rfl

/-! ## Replies that wait and timed commands (R523, R526, R528) -/

theorem replySend_ready {i : Nat} {w : Waiting} {st d : Nat} {data : List Word} {m : Module}
    (waits : m.interp.waiting[i]? = some w) (ready : w.result = some (st, d, data)) :
    replySend i m = sendReply w.opcode w.hdr w.count st d data
      { m with interp := { m.interp with waiting := m.interp.waiting.eraseIdx i } } := by
  unfold replySend
  rw [waits]
  dsimp only
  rw [ready]

theorem replySend_open {i : Nat} {w : Waiting} {m : Module} (waits : m.interp.waiting[i]? = some w)
    (open_ : w.result = none) : replySend i m = m := by
  unfold replySend
  rw [waits]
  dsimp only
  rw [open_]

section
variable {t : TimedCmd} {m : Module} (due : dueTimed m.time.count m.interp.timed = some t)
include due

theorem timedDue_runs (pass : recheck t m = none) :
    timedDue m = timedEffect t { m with interp := { m.interp with timed := m.interp.timed.erase t } } := by
  unfold timedDue
  rw [due]
  dsimp only
  rw [pass]

theorem timedDue_dropped (fails : (recheck t m).isSome = true) :
    timedDue m = raise F.cmdTimedDropped (t.opcode * 256 + t.hdr.tag.toNat) false { m with interp := { m.interp with
      timed := m.interp.timed.erase t, timedDropped := inc32 m.interp.timedDropped } } := by
  obtain ⟨_, check⟩ := Option.isSome_iff_exists.1 fails
  unfold timedDue
  rw [due]
  dsimp only
  rw [check]

end

theorem timedDue_none {m : Module} (none_ : dueTimed m.time.count m.interp.timed = none) : timedDue m = m := by
  unfold timedDue
  rw [none_]

/-- Settles O41: a reply leaves once it has its result; the first due command is taken out and runs or is dropped. -/
theorem replyAndTimedCommandEventsComplete : Obligations.ReplyAndTimedCommandEventsComplete := by
  refine ⟨?ready, ?open_, ?runs, ?dropped, ?idle⟩
  case ready =>
    rintro dt i w st d data s m rfl up waits ready
    exact congrArg (became · s) ((awake_up (replySend i) up).trans (replySend_ready waits ready))
  case open_ =>
    rintro dt i w s m rfl up waits open_
    exact congrArg (became · s) ((awake_up (replySend i) up).trans (replySend_open waits open_))
  case runs =>
    rintro dt t s m rfl up due pass
    exact congrArg (became · s) ((awake_up timedDue up).trans (timedDue_runs due pass))
  case dropped =>
    rintro dt t s m rfl up due fails
    exact congrArg (became · s) ((awake_up timedDue up).trans (timedDue_dropped due fails))
  case idle =>
    rintro dt s m rfl up none_
    exact congrArg (became · s) ((awake_up timedDue up).trans (timedDue_none none_))

end Sys2Proof.Machine

namespace Sys2Proof.Machine

/-! ## Events of a module that has started, on a die that runs (R42 … R44, R547) -/

section
variable {m : Module} (up : m.up = true) (f : Module → Module)
include up

theorem onRegion_runs {n : Fin 8} (runs : m.dieRuns (regionDie n) = true) : onRegion n f m = f m :=
  (awake_up _ up).trans (onDie_runs f runs)

theorem onGdc_runs (runs : m.dieRuns 7 = true) : onGdc f m = f m := (awake_up _ up).trans (onDie_runs f runs)

theorem onFlash_runs (runs : m.dieRuns 1 = true) : onFlash f m = f m := (awake_up _ up).trans (onDie_runs f runs)

theorem onBus_runs (sup : m.dieRuns 0 = true) (phy : m.dieRuns 6 = true) : onBus f m = f m :=
  (awake_up _ up).trans ((onDie_runs _ sup).trans (onDie_runs f phy))

theorem onIsland_runs {i : Fin 36} (supplied : m.islandSupplied i = true) : onIsland i f m = f m :=
  (awake_up _ up).trans (if_pos supplied)

end

theorem dieRuns_of_regionRuns {m : Module} {n : Fin 8} (runs : m.regionRuns n = true) : m.dieRuns (regionDie n) = true := by
  simp only [Module.regionRuns, Bool.and_eq_true] at runs
  exact runs.1.2

/-! ## An event completes with what its function makes of the module -/

section
variable {m n : Module} {f : Module → Module} (s : State)

theorem event (made : f m = n) : became (f m) s = became n s := congrArg (became · s) made

theorem awake_event (up : m.up = true) (made : f m = n) : became (awake f m) s = became n s :=
  event s ((awake_up f up).trans made)

theorem region_event (up : m.up = true) {k : Fin 8} (runs : m.dieRuns (regionDie k) = true) (made : f m = n) :
    became (onRegion k f m) s = became n s := event s ((onRegion_runs up f runs).trans made)

theorem gdc_event (up : m.up = true) (runs : m.dieRuns 7 = true) (made : f m = n) :
    became (onGdc f m) s = became n s := event s ((onGdc_runs up f runs).trans made)

theorem flash_event (up : m.up = true) (runs : m.dieRuns 1 = true) (made : f m = n) :
    became (onFlash f m) s = became n s := event s ((onFlash_runs up f runs).trans made)

theorem bus_event (up : m.up = true) (sup : m.dieRuns 0 = true) (phy : m.dieRuns 6 = true) (made : f m = n) :
    became (onBus f m) s = became n s := event s ((onBus_runs up f sup phy).trans made)

theorem island_event (up : m.up = true) {i : Fin 36} (supplied : m.islandSupplied i = true) (made : f m = n) :
    became (onIsland i f m) s = became n s := event s ((onIsland_runs up f supplied).trans made)

end

/-! ## Two updates that make the same of an element are the same -/

theorem upd_congr {α : Type} {n : Nat} {v : Vector α n} {i : Fin n} {f g : α → α} (same : f v[i] = g v[i]) :
    Vector.upd v i f = Vector.upd v i g := by
  unfold Vector.upd
  rw [show f v[i.val] = g v[i.val] from same]

theorem updRegion_congr {n : Fin 8} {f g : Region → Region} {m : Module} (same : f m.regions[n] = g m.regions[n]) :
    updRegion n f m = updRegion n g m := by
  rw [updRegion, upd_congr same, updRegion]

theorem updCrossing_congr {i : Fin 22} {m : Module} {f g : Crossing → Crossing} (same : f m.crossings[i] = g m.crossings[i]) :
    updCrossing i f m = updCrossing i g m := by
  rw [updCrossing, upd_congr same, updCrossing]

end Sys2Proof.Machine

namespace Sys2Proof.Machine

/-! ## Boundaries, launches and arrivals (R68, R133, R406) -/

theorem periodBoundary_starts {n : Fin 8} {m m1 : Module} (valid : m.time.valid = true) (switched : m1 = switchRegion n m)
    (boundary : m1.atBoundary n = true)
    (stays : m.supply.transition.any (fun t => t.source == .ready && t.dest == .standby) = false)
    (runs : m.dieRuns (regionDie n) = true) :
    periodBoundary n m = takeLoops n (startRegion n (takeLive n (takeReleases n m1))) := by
  subst switched
  unfold periodBoundary
  dsimp only
  rw [valid, if_neg (by decide), boundary, if_neg (by decide), stays, if_neg (by decide), if_pos runs]

section
variable {n : Fin 8} {m : Module}

section
variable {e : Nat} {w : Word × Word} (runs : m.regionRuns n = true) (entry : w = (m.regionImage n).entry n.val e)
  (mask : clusterMask w.1 ≠ 0) (due : m.launchDue n w.1 = true) (on : (2 ≤ n.val || (m.regionImage n).trOn n.val) = true)
include runs entry mask due on

/-- A launch that is due starts or is skipped. -/
theorem launch_due : launch n e m = if skipped (m.regions[n]).level w.1 (m.launchPeriod n w.1) then
    updRegion n (fun r => { r with skips := inc32 r.skips }) m else startInstance n e w.1 w.2 m := by
  subst entry
  have off : (n.val < 2 && !(m.regionImage n).trOn n.val) = false := by
    rcases Bool.or_eq_true_iff.1 on with high | traction
    · rw [decide_eq_false (Nat.not_lt.2 (of_decide_eq_true high)), Bool.false_and]
    · rw [traction, Bool.not_true, Bool.and_false]
  unfold launch
  dsimp only
  rw [runs, due, off, beq_false_of_ne mask]
  rfl

end

theorem sampleWordArrival_crosses {a d : Fin 2} {q : QueueEntry} {lanes : List Nat}
    (oldest : m.afe[a].queue.find? (fun x => x.pendingFor d) = some q)
    (free : sendOn m.time.elapsed 1 (m.crossings[ringCrossing a d]).lanes = some lanes) (afe : m.afeRuns a = true)
    (fabric : m.dieRuns (if d = 0 then 2 else 3) = true) {code key : Nat} (channel : code = 256 * a.val + bits q.word 31 26)
    (trigger : key = 512 * bits q.word 25 20 + code) {m2 : Module}
    (taken : m2 = watchLink d code (
        ((List.finRange 8).filter (fun n => regionDie n == (if d = 0 then 2 else 3 : Fin 46))).foldl
          (fun x n => noteSample n key (sampleArrives n key q.word x)) (
            updCrossing (ringCrossing a d) (fun c => { c with lanes := lanes })
              (updAfe a (fun f => { f with queue := takeEntry d f.queue }) m)))) :
    sampleWordArrival a d m = if d.val = 0 then noteLink code m2 else m2 := by
  subst taken trigger channel
  unfold sampleWordArrival
  dsimp only
  rw [oldest]
  dsimp only
  rw [free]
  dsimp only
  rw [afe, fabricDie_eq, fabric, if_neg (by decide)]

/-! ## Lanes, keys and the collector (R104, R105, R110, R111) -/

/-- What is found for an entry is in flight under its identity, and not quenched. -/
theorem flight_any {e : Nat} {i : Instance} {r : Region}
    (found : r.flight.find? (fun i => i.entry == e && !i.quenched && i.lanesOn) = some i) :
    r.flight.any (fun j => j.id == i.id && !j.quenched) = true := by
  have holds := List.find?_some found
  simp only [Bool.and_eq_true] at holds
  obtain ⟨⟨-, live⟩, -⟩ := holds
  exact List.any_eq_true.2 ⟨i, List.mem_of_find?_eq_some found, by rw [beq_self_eq_true, live]; rfl⟩

/-- A request of what is in flight is raised. -/
theorem request_raised {e : Nat} {i : Instance}
    (found : (m.regions[n]).flight.find? (fun i => i.entry == e && !i.quenched && i.lanesOn) = some i) (input : Nat)
    (item : Item) : request n input i.id item m = updRegion n (fun x => { x with
      requests := x.requests ++ [{ input := input, entry := i.entry, launch := i.launch, item := item }] }) m :=
  updRegion_congr (if_pos (flight_any found))

theorem laneComplete_requests {unit : Fin 16} {e branch : Nat} {second : Bool} {i : Instance} {l : Lane}
    (found : (m.regions[n]).flight.find? (fun i => i.entry == e && !i.quenched && i.lanesOn) = some i)
    (lane : (m.regions[n]).laneFor i second branch = some l) (owner : l.unit = some unit.val)
    (written : l.complete (libraryEntry i.word1) = true) :
    laneComplete n unit e second branch m = updRegion n (fun x => { x with requests := x.requests ++
      [{ input := unit.val, entry := i.entry, launch := i.launch, item := .lane second branch }] }) m := by
  unfold laneComplete
  dsimp only
  rw [found]
  dsimp only
  rw [lane]
  dsimp only
  rw [owner, written, if_pos (by simp)]
  exact request_raised found unit.val (.lane second branch)

/-- The key that RESOLVE_KEY brings to the collector. -/
def Module.keyOf (m : Module) (n : Fin 8) (i : Instance) (key : Fin 32) : Nat :=
  match channelOf n with
  | some c => if isDecision (libraryEntry i.word1) then
      (decisionKey c i.period (i.underEpoch n ((i.seen.sampled m).view m))) ^^^ key.val else key.val
  | none => key.val

theorem resolveKey_requests {unit : Fin 16} {e : Nat} {second : Bool} {i : Instance} (key : Fin 32)
    (found : (m.regions[n]).flight.find? (fun i => i.entry == e && !i.quenched && i.lanesOn) = some i)
    (arrived : (m.samplesOf n i).all (fun k => i.arrived.contains k) = true) :
    resolveKey n unit e second key m = updRegion n (fun x => { x with requests := x.requests ++
      [{ input := unit.val, entry := i.entry, launch := i.launch, item := .key second (m.keyOf n i key % 32) }] }) m := by
  have none_ : (m.samplesOf n i).any (fun k => !i.arrived.contains k) = false := by
    rw [← List.not_all_eq_any_not, arrived]
    rfl
  unfold resolveKey
  rw [found]
  dsimp only
  rw [none_, if_neg (by decide)]
  exact request_raised found unit.val (.key second (m.keyOf n i key % 32))

theorem keyOf_decision {i : Instance} {c : Fin 2} (channel : channelOf n = some c)
    (decision : isDecision (libraryEntry i.word1) = true) (key : Fin 32) :
    m.keyOf n i key = (decisionKey c i.period (i.underEpoch n ((i.seen.sampled m).view m))) ^^^ key.val := by
  unfold Module.keyOf
  rw [channel]
  exact if_pos decision

theorem keyOf_program {i : Instance} (program : ((channelOf n).isSome && isDecision (libraryEntry i.word1)) = false)
    (key : Fin 32) : m.keyOf n i key = key.val := by
  unfold Module.keyOf
  cases channel : channelOf n with
  | none => rfl
  | some c =>
    rw [channel, Option.isSome_some, Bool.true_and] at program
    exact if_neg (by rw [program]; decide)

theorem collectorAccept_runs {moments : List (List (Nat × Bool))} {upsets : List (Nat × Nat × Word)}
    (runs : m.regionRuns n = true) : collectorAccept n moments upsets m = accept n (runUnits n moments upsets m) :=
  if_neg (by rw [runs]; decide)

theorem accept_lowest {q : Request} (first : lowest (m.regions[n]).requests = some q) : accept n m =
    updRegion n (fun x => { x with
      requests := x.requests.erase q,
      flight := updFlight q.id (fun i => { i with accepted := i.accepted ++ [(q.item, m.time.count)] }) x.flight }) m := by
  unfold accept
  rw [first]

theorem accept_empty (empty : (m.regions[n]).requests = []) : accept n m = m := by
  unfold accept
  rw [empty]
  rfl

/-! ## One launch at its commit instant (R113 … R121) -/

section
variable {deferred : Bool} {i : Instance} {m0 : Module} (runs : m.regionRuns n = true)
  (due : m.dueInstances n deferred = [i])
include runs due

/-- One due launch that is not deferred: its lanes are released, it is settled, and a fallback rolls the region back. -/
theorem evaluate_one (out : m.outcomeOf n i ≠ .deferred)
    (start : m0 = updRegion n (fun r => { (r.release [i.id] m.time.count.toNat) with
      flight := r.flight.filter (fun j => !j.dueNow deferred m.time.count) }) (tapToggle n m)) :
    evaluate n deferred m = checkRate n (if (m.outcomeOf n i).isFallback then rollback n (settleInstance n i m0)
      else settleInstance n i m0) := by
  have kept : [i].filter (fun i => m.outcomeOf n i == .deferred) = [] := by simp [out]
  have final : [i].filter (fun i => m.outcomeOf n i != .deferred) = [i] := by simp [out]
  subst start
  unfold evaluate
  simp only [due, kept, final]
  rw [runs, if_neg (by simp)]
  by_cases clean : m.outcomeOf n i = .clean
  · simp [clean, Outcome.isFallback]
  · simp [clean]

/-- One due launch that is deferred stays in flight for its full computation. -/
theorem evaluate_deferred (out : m.outcomeOf n i = .deferred)
    (start : m0 = updRegion n (fun r => { (r.release [] m.time.count.toNat) with
      flight := r.flight.filter (fun j => !j.dueNow deferred m.time.count) }) (tapToggle n m)) :
    evaluate n deferred m = checkRate n (settleInstance n i m0) := by
  have kept : [i].filter (fun i => m.outcomeOf n i == .deferred) = [i] := by simp [out]
  have final : [i].filter (fun i => m.outcomeOf n i != .deferred) = [] := by simp [out]
  subst start
  unfold evaluate
  simp only [due, kept, final]
  rw [runs, if_neg (by simp)]
  simp

end

section
variable {i : Instance}

theorem settleInstance_clean (out : m.outcomeOf n i = .clean) : settleInstance n i m = commitClean n i m := by
  rw [settleInstance, out]

theorem settleInstance_deferred (out : m.outcomeOf n i = .deferred) : settleInstance n i m = deferInstance n i m := by
  rw [settleInstance, out]

theorem settleInstance_fallback {o : Outcome} (out : m.outcomeOf n i = o) (rolls : o.isFallback = true ∨ o = .quench) :
    settleInstance n i m = commitFallback n i o m := by
  subst out
  unfold settleInstance
  split
  case h_1 clean => rw [clean] at rolls; exact absurd rolls (by decide)
  case h_2 deferred => rw [deferred] at rolls; exact absurd rolls (by decide)
  case h_3 => rfl

end

section
variable {deferred : Bool} {i : Instance} {m0 : Module} (runs : m.regionRuns n = true)
  (due : m.dueInstances n deferred = [i])
  (start : m0 = updRegion n (fun r => { (r.release [i.id] m.time.count.toNat) with
    flight := r.flight.filter (fun j => !j.dueNow deferred m.time.count) }) (tapToggle n m))
include runs due start

theorem evaluate_clean (out : m.outcomeOf n i = .clean) (out0 : m0.outcomeOf n i = .clean) :
    evaluate n deferred m = checkRate n (commitClean n i m0) := by
  rw [evaluate_one runs due (by rw [out]; decide) start, out, settleInstance_clean out0]
  rfl

theorem evaluate_fallback {o : Outcome} (out : m.outcomeOf n i = o) (out0 : m0.outcomeOf n i = o)
    (rolls : o.isFallback = true) : evaluate n deferred m = checkRate n (rollback n (commitFallback n i o m0)) := by
  have other : o ≠ .deferred := by rintro rfl; exact absurd rolls (by decide)
  rw [evaluate_one runs due (by rwa [out]) start, out, rolls, if_pos rfl, settleInstance_fallback out0 (.inl rolls)]

theorem evaluate_quench (out : m.outcomeOf n i = .quench) (out0 : m0.outcomeOf n i = .quench) :
    evaluate n deferred m = checkRate n (commitFallback n i .quench m0) := by
  rw [evaluate_one runs due (by rw [out]; decide) start, out, settleInstance_fallback out0 (.inr rfl)]
  rfl

end

end

/-- Settles O42: each event takes the branch its hypotheses name. -/
theorem regionEventsComplete : Obligations.RegionEventsComplete := by
  refine ⟨?boundary, ?launch, ?skip, ?sample, ?lane, ?decision, ?program, ?accept, ?idle, ?clean, ?fallback, ?quench,
    ?lateClean, ?lateFallback, ?lateQuench, ?deferred⟩
  case boundary =>
    rintro dt n m1 s m rfl up valid switched boundary stays runs
    exact congrArg (became · s) ((awake_up (periodBoundary n) up).trans (periodBoundary_starts valid switched boundary
      (Bool.eq_false_of_not_eq_true' stays) runs))
  case launch =>
    rintro dt n e w s m rfl up runs entry mask due on skip
    refine congrArg (became · s) ((onRegion_runs up (launch n e.val) (dieRuns_of_regionRuns runs)).trans
      ((launch_due runs entry mask due (by simpa using on)).trans (if_neg (by simpa using skip))))
  case skip =>
    rintro dt n e w s m rfl up runs entry mask due on skip
    exact congrArg (became · s) ((onRegion_runs up (launch n e.val) (dieRuns_of_regionRuns runs)).trans
      ((launch_due runs entry mask due (by simpa using on)).trans (if_pos skip)))
  case sample =>
    rintro dt a d q lanes code key m2 s m rfl up oldest free afe fabric channel trigger taken
    exact congrArg (became · s) ((awake_up (sampleWordArrival a d) up).trans
      (sampleWordArrival_crosses oldest free afe fabric channel trigger taken))
  case lane =>
    rintro dt n unit entry second branch i l s m rfl up runs found lane owner written
    exact congrArg (became · s) ((onRegion_runs up (laneComplete n unit entry second branch) runs).trans
      (laneComplete_requests found lane owner written))
  case decision =>
    rintro dt n unit entry second key i c s m rfl up runs found arrived channel decision
    refine congrArg (became · s) ((onRegion_runs up (resolveKey n unit entry second key) runs).trans
      ((resolveKey_requests key found arrived).trans ?_))
    rw [keyOf_decision channel decision]
  case program =>
    rintro dt n unit entry second key i s m rfl up runs found arrived program
    refine congrArg (became · s) ((onRegion_runs up (resolveKey n unit entry second key) runs).trans
      ((resolveKey_requests key found arrived).trans ?_))
    rw [keyOf_program (Bool.eq_false_of_not_eq_true' program)]
  case accept =>
    rintro dt n moments upsets m1 q s m rfl up runs rfl first
    exact congrArg (became · s) ((onRegion_runs up (collectorAccept n moments upsets) (dieRuns_of_regionRuns runs)).trans
      ((collectorAccept_runs runs).trans (accept_lowest first)))
  case idle =>
    rintro dt n moments upsets m1 s m rfl up runs rfl empty
    exact congrArg (became · s) ((onRegion_runs up (collectorAccept n moments upsets) (dieRuns_of_regionRuns runs)).trans
      ((collectorAccept_runs runs).trans (accept_empty empty)))
  case clean =>
    rintro dt n i m0 s m rfl up runs due start out out0
    exact congrArg (became · s) ((onRegion_runs up (evaluate n false) (dieRuns_of_regionRuns runs)).trans
      (evaluate_clean runs due start out out0))
  case fallback =>
    rintro dt n i m0 o s m rfl up runs due start out out0 rolls
    exact congrArg (became · s) ((onRegion_runs up (evaluate n false) (dieRuns_of_regionRuns runs)).trans
      (evaluate_fallback runs due start out out0 rolls))
  case quench =>
    rintro dt n i m0 s m rfl up runs due start out out0
    exact congrArg (became · s) ((onRegion_runs up (evaluate n false) (dieRuns_of_regionRuns runs)).trans
      (evaluate_quench runs due start out out0))
  case lateClean =>
    rintro dt n i m0 s m rfl up runs due start out out0
    exact congrArg (became · s) ((onRegion_runs up (evaluate n true) (dieRuns_of_regionRuns runs)).trans
      (evaluate_clean runs due start out out0))
  case lateFallback =>
    rintro dt n i m0 o s m rfl up runs due start out out0 rolls
    exact congrArg (became · s) ((onRegion_runs up (evaluate n true) (dieRuns_of_regionRuns runs)).trans
      (evaluate_fallback runs due start out out0 rolls))
  case lateQuench =>
    rintro dt n i m0 s m rfl up runs due start out out0
    exact congrArg (became · s) ((onRegion_runs up (evaluate n true) (dieRuns_of_regionRuns runs)).trans
      (evaluate_quench runs due start out out0))
  case deferred =>
    rintro dt n i m0 s m rfl up runs due start out out0
    refine congrArg (became · s) ((onRegion_runs up (evaluate n false) (dieRuns_of_regionRuns runs)).trans
      ((evaluate_deferred runs due out start).trans ?_))
    rw [settleInstance_deferred out0]

end Sys2Proof.Machine

namespace Sys2Proof.Machine

/-! ## The fabric, its windows, checkpoints and tests (R100, R122, R125, R137) -/

theorem checkRate_raises {n : Fin 8} {m : Module} (above : m.rnum n P.fallbackRateLimit < (m.regions[n]).window)
    (new : (m.regions[n]).windowRaised = false) : checkRate n m = raise F.fabricFallbackRate (fabricDetail n.val 0 0) false
      (updRegion n (fun r => { r with windowRaised := true }) m) := by
  unfold checkRate
  dsimp only
  rw [new, decide_eq_true above]
  rfl

section
variable {m : Module} (boundary : m.time.count.toNat % 400000000 = 0)
include boundary

theorem windowBegin_ends (ends : m.time.carryWindow = false) : windowBegin m = windowsEnd m := by
  rw [windowBegin, boundary, ends]
  rfl

theorem windowBegin_carried (carried : m.time.carryWindow = true) :
    windowBegin m = { m with time := { m.time with carryWindow := false } } := by
  rw [windowBegin, boundary, carried]
  rfl

end

theorem checkpointError_raises {n : Fin 8} {m : Module} (runs : m.dieRuns (regionDie n) = true) :
    checkpointError n m = raise F.fabricCheckpointError (fabricDetail n.val 0 0) true
      (updRegion n (fun r => { r with checkpointValid := false, rebuilding := false }) m) :=
  if_neg (by rw [runs]; decide)

theorem checkpointRebuilt_ends {n : Fin 8} {m m1 : Module} (rebuilding : (m.regions[n]).rebuilding = true)
    (made : m1 = updRegion n (fun x => { x with
      checkpointValid := true, rebuilding := false, shadow := carriedPart x.memory }) m) :
    checkpointRebuilt n m = endCond F.fabricCheckpointError (fabricDetail n.val 0 0)
      { m1 with checkpoints := Saved.take n.val (m1.regionImage n) m1.saved m1.checkpoints } := by
  have valid : (m1.regions[n]).checkpointValid = true := by
    rw [made, updRegion_regions, getElem_upd_self]
  unfold checkpointRebuilt
  rw [rebuilding, if_neg (by decide)]
  dsimp only
  rw [← made, keepCheckpoint, if_pos valid]

section
variable {d : Fin 2} {failed : Nat} {m : Module} (runs : m.dieRuns (if d = 0 then 2 else 3 : Fin 46) = true)
  (held : ((List.finRange 8).filter (fun n => regionDie n == (if d = 0 then 2 else 3 : Fin 46))).all
    (fun n => (m.regions[n]).held) = true)
  (filled : m.memory.filling.any (fun b => 16 ≤ b && (b - 16) / 64 == d.val) = false)
include runs held filled

/-- The end of a BIST: the regions of the die go on with the marks of the clusters that failed. -/
theorem fabricBistDone_ends : fabricBistDone d failed m =
    ((List.finRange 8).filter (fun n => regionDie n == (if d = 0 then 2 else 3 : Fin 46))).foldl
      (fun x n => if failed / 2 ^ (4 * (n.val % 4)) % 16 = 0 then x else
        raise F.fabricBistFail (fabricDetail n.val 0 0) false x)
      (((List.finRange 8).filter (fun n => regionDie n == (if d = 0 then 2 else 3 : Fin 46))).foldl
        (fun x n => updRegion n (fun r => { r.resume with failed := failed / 2 ^ (4 * (n.val % 4)) % 16 }) x)
        (updDie (if d = 0 then 2 else 3 : Fin 46) (fun x => { x with bist := if failed % 2 ^ 16 = 0 then 1 else 2 }) m)) := by
  unfold fabricBistDone
  simp only [fabricDie_eq]
  rw [runs, held, filled, if_neg (by decide)]

theorem fabricBistDone_passed (passed : failed % 65536 = 0) : fabricBistDone d failed m =
    ((List.finRange 8).filter (fun n => regionDie n == (if d = 0 then 2 else 3 : Fin 46))).foldl
      (fun x n => updRegion n (fun r => { r.resume with failed := 0 }) x)
      (updDie (if d = 0 then 2 else 3 : Fin 46) (fun x => { x with bist := 1 }) m) := by
  have mask (n : Fin 8) : failed / 2 ^ (4 * (n.val % 4)) % 16 = 0 := by
    have : n.val % 4 < 4 := Nat.mod_lt _ (by decide)
    interval_cases n.val % 4 <;> omega
  rw [fabricBistDone_ends runs held filled]
  simp only [mask, if_true, List.foldl_fixed, if_pos (show failed % 2 ^ 16 = 0 from passed)]

theorem fabricBistDone_failed (failing : failed % 65536 ≠ 0) : fabricBistDone d failed m =
    ((List.finRange 8).filter (fun n => regionDie n == (if d = 0 then 2 else 3 : Fin 46))).foldl
      (fun x n => if failed / 2 ^ (4 * (n.val % 4)) % 16 = 0 then x else
        raise F.fabricBistFail (fabricDetail n.val 0 0) false x)
      (((List.finRange 8).filter (fun n => regionDie n == (if d = 0 then 2 else 3 : Fin 46))).foldl
        (fun x n => updRegion n (fun r => { r.resume with failed := failed / 2 ^ (4 * (n.val % 4)) % 16 }) x)
        (updDie (if d = 0 then 2 else 3 : Fin 46) (fun x => { x with bist := 2 }) m)) := by
  rw [fabricBistDone_ends runs held filled]
  simp only [if_neg (show ¬failed % 2 ^ 16 = 0 from failing)]

end

/-! ## Crossings (R83, R85) -/

section
variable {i : Fin 22} {m : Module} (up : m.up = true)
include up

theorem eventOverflow_raises (ran : ((m.crossings[i].line.overflow && m.crossings[i].line.busy ≤ m.time.elapsed) ||
      (m.crossings[i].hpLine.overflow && m.crossings[i].hpLine.busy ≤ m.time.elapsed)) = true) :
    eventOverflow i m = raise F.xingEventOverflow i.val false (updCrossing i (fun c => { c with
      overflow := true,
      line := if c.line.overflow && c.line.busy ≤ m.time.elapsed then c.line.overrun m.time.elapsed else c.line,
      hpLine := if c.hpLine.overflow && c.hpLine.busy ≤ m.time.elapsed then c.hpLine.overrun m.time.elapsed
        else c.hpLine }) m) := by
  have awake_ : ¬m.label.code < 2 := Nat.not_lt.2 (of_decide_eq_true up)
  unfold eventOverflow
  dsimp only
  rw [ran, decide_eq_false awake_]
  rfl

theorem eventOverflow_line (ran : (m.crossings[i]).line.overflow = true)
    (free : (m.crossings[i]).line.busy ≤ m.time.elapsed) (quiet : (m.crossings[i]).hpLine.overflow = false) :
    eventOverflow i m = raise F.xingEventOverflow i.val false (updCrossing i (fun c => { c with
      overflow := true, line := c.line.overrun m.time.elapsed }) m) := by
  rw [eventOverflow_raises up (by rw [ran, decide_eq_true free]; rfl)]
  refine congrArg _ (updCrossing_congr ?_)
  rw [ran, decide_eq_true free, quiet]
  rfl

theorem eventOverflow_hpLine (ran : (m.crossings[i]).hpLine.overflow = true)
    (free : (m.crossings[i]).hpLine.busy ≤ m.time.elapsed) (quiet : (m.crossings[i]).line.overflow = false) :
    eventOverflow i m = raise F.xingEventOverflow i.val false (updCrossing i (fun c => { c with
      overflow := true, hpLine := c.hpLine.overrun m.time.elapsed }) m) := by
  rw [eventOverflow_raises up (by rw [ran, decide_eq_true free, Bool.and_self, Bool.or_true])]
  refine congrArg _ (updCrossing_congr ?_)
  rw [ran, decide_eq_true free, quiet]
  rfl

end

theorem stallTimeout_ends {d : Fin 46} {i : Fin 22} {ws : List Waiting} {k : Nat} {m : Module}
    (crossing : commandCrossing d.val = some i)
    (overdue : (m.crossings[i]).stalled.any (fun t => t + 4000 ≤ m.time.elapsed) = true)
    (settled : ws = m.interp.waiting.map (fun w => if overdueAccess d.val m.time.elapsed w then
      { w with heldUntil := none, result := some (Status.domainStopped.code, d.val, []) } else w))
    (count : k = (m.interp.waiting.filter (overdueAccess d.val m.time.elapsed)).length) :
    stallTimeout d m = undoAccess d.val (updCrossing i (fun c => { c with
        stalled := (ws.find? (addresses d.val)).map (·.since) })
      { m with interp := { m.interp with
        accepted := m.interp.accepted - k, rejected := satAdd 0xFFFFFFFF m.interp.rejected k, waiting := ws } }) := by
  subst settled count
  unfold stallTimeout
  rw [crossing]
  dsimp only
  rw [overdue, if_neg (by decide)]

/-- Settles O43: each event takes the branch its hypotheses name. -/
theorem fabricEventsComplete : Obligations.FabricEventsComplete := by
  refine ⟨?stuck, ?rate, ?window, ?carried, ?error, ?rebuilt, ?passed, ?failed, ?line, ?hpLine, ?stall⟩
  case stuck =>
    rintro dt n u s m rfl up runs
    exact region_event s up runs rfl
  case rate =>
    rintro dt n s m rfl up runs above new
    exact region_event s up runs (checkRate_raises above (Bool.eq_false_of_not_eq_true' new))
  case window =>
    rintro dt s m rfl up boundary ends
    exact awake_event s up (windowBegin_ends boundary (Bool.eq_false_of_not_eq_true' ends))
  case carried =>
    rintro dt s m rfl up boundary carried
    exact awake_event s up (windowBegin_carried boundary carried)
  case error =>
    rintro dt n s m rfl up runs
    exact region_event s up runs (checkpointError_raises runs)
  case rebuilt =>
    rintro dt n m1 s m rfl up runs rebuilding made
    exact region_event s up runs (checkpointRebuilt_ends rebuilding made)
  case passed =>
    rintro dt d failed s m rfl up runs held filled passed
    exact awake_event s up (fabricBistDone_passed runs held (Bool.eq_false_of_not_eq_true' filled) passed)
  case failed =>
    rintro dt d failed ns mask s m rfl up runs held filled failing rfl rfl
    exact awake_event s up (fabricBistDone_failed runs held (Bool.eq_false_of_not_eq_true' filled) failing)
  case line =>
    rintro dt i s m rfl up ran free quiet
    exact event s (eventOverflow_line up ran free (Bool.eq_false_of_not_eq_true' quiet))
  case hpLine =>
    rintro dt i s m rfl up ran free quiet
    exact event s (eventOverflow_hpLine up ran free (Bool.eq_false_of_not_eq_true' quiet))
  case stall =>
    rintro dt d i ws k s m rfl up crossing overdue settled count
    exact awake_event s up (congrArg drainQueue (stallTimeout_ends crossing overdue settled count))

end Sys2Proof.Machine

namespace Sys2Proof.Machine

/-! ## References of the Spindle (R66) -/

theorem not_down {m : Module} (up : m.up = true) : decide (m.label.code < 2) = false :=
  decide_eq_false (Nat.not_lt.2 (of_decide_eq_true up))

section
variable {m : Module} (up : m.up = true)
include up

section
variable (external : m.num P.tsMode = 1) (new : m.time.tsFault = false) (used : m.time.ref = .ts)
include external new used

theorem tsRefLost_crystal (sound : m.time.xtalFault = false) : tsRefLost m = raise F.spindleTsRefLost 0 true
    { m with time := { m.time with tsFault := true, refLossCount := inc32 m.time.refLossCount, ref := .crystal } } := by
  unfold tsRefLost
  rw [not_down up, external, new, used, sound]
  rfl

theorem tsRefLost_holdover (faulty : m.time.xtalFault = true) : tsRefLost m = raise F.spindleRefLost 0 true
    { m with time := { m.time with tsFault := true, refLossCount := inc32 m.time.refLossCount, ref := .holdover } } := by
  unfold tsRefLost
  rw [not_down up, external, new, used, faulty]
  rfl

end

theorem xtalLost_holdover (new : m.time.xtalFault = false) (used : m.time.ref = .crystal) :
    xtalLost m = raise F.spindleRefLost 0 true
      { m with time := { m.time with xtalFault := true, refLossCount := inc32 m.time.refLossCount, ref := .holdover } } := by
  unfold xtalLost
  rw [not_down up, new, used]
  rfl

theorem spindleLost_raises (valid : m.time.valid = true) :
    spindleLost m = raise F.spindleLost 0 true { m with time := { m.time with valid := false } } := by
  unfold spindleLost
  rw [not_down up, valid]
  rfl

end

/-! ## Checkpoints and mismatches (R162 … R165) -/

theorem paired_bist {m : Module} (paired : m.paired = true) : m.lockstep.bist = 0 := by
  simp only [Module.paired, Bool.and_eq_true, beq_iff_eq] at paired
  exact paired.1.1.2

section
variable {main fallback parity : Bool} {ran : List Retirement} {p : Bool × Module} {m m2 : Module}
  (retired : p = retireAll ran (false, m)) (matched_ : p.1 = true) (paired : p.2.paired = true)
  (due : p.2.checkpointDue = true)
  (complete : p.2.lockstep.rollback = false ∨ p.2.lockstep.replay.length ≤ p.2.lockstep.replayed)
  (noted : m2 = noteTests main fallback parity true p.2)
include retired matched_ paired due complete noted

/-- A checkpoint that is due at a matched retirement compares the registers, then saves or reports a mismatch. -/
theorem checkpoint_due : checkpoint main fallback parity ran m =
    if m2.registersDiffer then mismatch 0 m2.lockstep.next0 false m2
    else saveCheckpoint (if m2.lockstep.rollback then endRollback m2 else m2) := by
  have open_ : (p.2.lockstep.rollback && p.2.lockstep.replayed < p.2.lockstep.replay.length) = false := by
    rcases complete with none_ | whole
    · rw [none_, Bool.false_and]
    · rw [decide_eq_false (Nat.not_lt.2 whole), Bool.and_false]
  unfold checkpoint
  simp only [← retired]
  rw [matched_, paired, due, open_, ← noted]
  rfl

theorem checkpoint_saved (same : m2.registersDiffer = false) (plain : m2.lockstep.rollback = false) :
    checkpoint main fallback parity ran m = saveCheckpoint m2 := by
  rw [checkpoint_due retired matched_ paired due complete noted, same, plain]
  rfl

theorem checkpoint_rolledBack (same : m2.registersDiffer = false) (running : m2.lockstep.rollback = true) :
    checkpoint main fallback parity ran m = saveCheckpoint (endRollback m2) := by
  rw [checkpoint_due retired matched_ paired due complete noted, same, running]
  rfl

theorem checkpoint_differs (differ : m2.registersDiffer = true) :
    checkpoint main fallback parity ran m = mismatch 0 m2.lockstep.next0 false m2 := by
  rw [checkpoint_due retired matched_ paired due complete noted, if_pos differ]

end

section
variable {core : Fin 2} {addr : Nat} {parity : Bool} {m : Module} (paired : m.paired = true)
  (compared : m.gating ≠ 2 ∨ parity = true)
include paired compared

/-- The first mismatch starts a rollback. -/
theorem mismatch_rollsBack (plain : m.lockstep.rollback = false) : mismatch core addr parity m = { m with lockstep := {
    reloadCores { m.lockstep with
      parityErrors := if parity then inc32 m.lockstep.parityErrors else m.lockstep.parityErrors } with
    rollback := true, mismatchTick := m.time.count, mismatchDetail := lockstepDetail core.val addr } } := by
  have reports : (!m.paired || (m.gating = 2 && !parity)) = false := by
    rcases compared with gates | error
    · rw [paired, decide_eq_false gates]; rfl
    · rw [paired, error]; simp
  unfold mismatch
  rw [reports, if_neg (by decide), plain, if_neg (by decide)]
  rfl

/-- A mismatch before the next checkpoint loses lockstep. -/
theorem mismatch_lost (running : m.lockstep.rollback = true) : mismatch core addr parity m =
    lockstepLost (lockstepDetail core.val addr) { m with lockstep := { m.lockstep with
      parityErrors := if parity then inc32 m.lockstep.parityErrors else m.lockstep.parityErrors } } := by
  have reports : (!m.paired || (m.gating = 2 && !parity)) = false := by
    rcases compared with gates | error
    · rw [paired, decide_eq_false gates]; rfl
    · rw [paired, error]; simp
  unfold mismatch
  rw [reports, if_neg (by decide), running, if_pos rfl]
  rfl

end

/-- Where the module runs a rollback, the queue waits. -/
theorem drainQueue_rollback {m : Module} (running : m.lockstep.rollback = true) : drainQueue m = m := if_pos running

section
variable {r : Retired} {d : DelayReg} {ds : List DelayReg} {m : Module} (paired : m.paired = true)
  (head : m.lockstep.delay = d :: ds) (three : 3 ≤ m.lockstep.delay.length)
include paired head three

/-- One retirement of core 1 is compared with the oldest one of core 0 that waits. -/
theorem runPair_core1 : runPair [.core1 r] m =
    if compareRetired d r m.lockstep != 0 then mismatch 1 r.address (compareRetired d r m.lockstep == 2) m
    else if m.lockstep.rollback && replayDiffers d.retired m.lockstep then lockstepLost m.lockstep.mismatchDetail m
    else { m with lockstep := matched d r m.lockstep } := by
  have ready : (!m.paired || m.lockstep.delay.length < 3) = false := by
    rw [paired, decide_eq_false (Nat.not_lt.2 three)]
    rfl
  have idle : ¬m.lockstep.bist = 2 := by rw [paired_bist paired]; decide
  have one : runPair [.core1 r] m = (retire (.core1 r) (false, m)).2 := by
    unfold runPair retireAll retireAll
    dsimp only
    rw [ite_self]
  rw [one]
  unfold retire
  dsimp only
  rw [if_neg idle]
  split
  case h_1 empty => rw [head] at empty; cases empty
  case h_2 d' ds' cons =>
    rw [head] at cons
    obtain ⟨rfl, rfl⟩ := List.cons.inj cons
    rw [ready, if_neg (by decide)]
    split <;> [rfl; split <;> rfl]

end

theorem retryFailed_rollback {m : Module} (running : m.lockstep.rollback = true) (ran : List Retirement) :
    retryFailed ran m = runPair ran m := if_pos running

/-! ## Logic BIST of SUP (R169) -/

theorem resumePair_bistFailed (now : Tick) (l : Lockstep) : (resumePair now l).bistFailed = l.bistFailed := by
  unfold resumePair
  dsimp only
  split <;> rfl

section
variable {main fallback parity : Bool} {m : Module}

theorem supBistDone_first (phase : m.lockstep.bist = 1) : supBistDone false main fallback parity m =
    noteTests main fallback parity false { m with lockstep := { resumePair m.time.count m.lockstep with
      bist := 2, bistFailed := m.lockstep.bistFailed || (main || fallback || parity) } } := by
  unfold supBistDone
  dsimp only
  rw [phase, Bool.or_false]
  rfl

theorem supBistDone_firstFails (phase : m.lockstep.bist = 1) : supBistDone true main fallback parity m =
    lockstepLost 0 (noteTests main fallback parity false (updDie 0 (fun d => { d with bist := 2 })
      { m with lockstep := { resumePair m.time.count m.lockstep with bist := 0, bistFailed := true } })) := by
  unfold supBistDone
  dsimp only
  rw [phase, Bool.or_true, Bool.true_or]
  rfl

theorem supBistDone_second (phase : m.lockstep.bist = 2) : supBistDone false main fallback parity m =
    updDie 0 (fun d => { d with bist := if m.lockstep.bistFailed then 2 else 1 })
      { m with lockstep := { resumePair m.time.count m.lockstep with bist := 0 } } := by
  have keeps : ({ resumePair m.time.count m.lockstep with bist := 0, bistFailed := m.lockstep.bistFailed } : Lockstep) =
      { resumePair m.time.count m.lockstep with bist := 0 } := by rw [← resumePair_bistFailed m.time.count]
  unfold supBistDone
  dsimp only
  rw [phase, Bool.or_false, ← keeps]
  simp only [updLockstep]
  rw [show (decide (2 = 1) && (main || fallback || parity)) = false from rfl, Bool.or_false]
  rfl

theorem supBistDone_secondFails (phase : m.lockstep.bist = 2) : supBistDone true main fallback parity m =
    lockstepLost 0 (updDie 0 (fun d => { d with bist := 2 })
      { m with lockstep := { resumePair m.time.count m.lockstep with bist := 0, bistFailed := true } }) := by
  unfold supBistDone
  dsimp only
  rw [phase, Bool.or_true, Bool.true_or]
  rfl

end

/-- Settles O44: each event takes the branch its hypotheses name. -/
theorem referenceAndLockstepEventsComplete : Obligations.ReferenceAndLockstepEventsComplete := by
  refine ⟨?tsCrystal, ?tsHoldover, ?crystal, ?spindle, ?tsBack, ?crystalBack, ?saved, ?ended, ?differs, ?differsAgain,
    ?matches_, ?rollsBack, ?lost, ?replay, ?first, ?firstFails, ?second, ?secondFails⟩
  case tsCrystal =>
    rintro dt s m rfl up external new used sound
    exact event s (tsRefLost_crystal up external (Bool.eq_false_of_not_eq_true' new) used
      (Bool.eq_false_of_not_eq_true' sound))
  case tsHoldover =>
    rintro dt s m rfl up external new used faulty
    exact event s (tsRefLost_holdover up external (Bool.eq_false_of_not_eq_true' new) used faulty)
  case crystal =>
    rintro dt s m rfl up new used
    exact event s (xtalLost_holdover up (Bool.eq_false_of_not_eq_true' new) used)
  case spindle =>
    rintro dt s m rfl up valid
    exact event s (spindleLost_raises up valid)
  case tsBack =>
    rintro dt s m rfl up
    exact awake_event s up rfl
  case crystalBack =>
    rintro dt s m rfl up
    exact awake_event s up rfl
  case saved =>
    rintro dt main fallback parity ran p m2 s m rfl up retired matched_ paired due plain noted same still
    exact awake_event s up (congrArg drainQueue (checkpoint_saved retired matched_ paired due
      (.inl (Bool.eq_false_of_not_eq_true' plain)) noted (Bool.eq_false_of_not_eq_true' same)
      (Bool.eq_false_of_not_eq_true' still)))
  case ended =>
    rintro dt main fallback parity ran p m2 s m rfl up retired matched_ paired due - whole noted same running
    exact awake_event s up (congrArg drainQueue (checkpoint_rolledBack retired matched_ paired due (.inr whole) noted
      (Bool.eq_false_of_not_eq_true' same) running))
  case differs =>
    rintro dt main fallback parity ran p m2 s m rfl up retired matched_ paired due plain noted differ paired2 gates still
    exact awake_event s up (congrArg drainQueue ((checkpoint_differs retired matched_ paired due
      (.inl (Bool.eq_false_of_not_eq_true' plain)) noted differ).trans
      (mismatch_rollsBack paired2 (.inl gates) (Bool.eq_false_of_not_eq_true' still))))
  case differsAgain =>
    rintro dt main fallback parity ran p m2 s m rfl up retired matched_ paired due - whole noted differ paired2 gates
      running
    exact awake_event s up (congrArg drainQueue ((checkpoint_differs retired matched_ paired due (.inr whole) noted
      differ).trans (mismatch_lost paired2 (.inl gates) running)))
  case matches_ =>
    rintro dt ran r d ds s m rfl up paired rfl head three equal replayed
    refine awake_event s up (congrArg drainQueue ((runPair_core1 paired head three).trans ?_))
    rw [equal, Bool.eq_false_of_not_eq_true' replayed]
    rfl
  case rollsBack =>
    rintro dt ran r d ds s m rfl up paired rfl head three gates differs plain
    refine awake_event s up ((congrArg drainQueue ((runPair_core1 paired head three).trans
      ((if_pos (bne_iff_ne.2 differs)).trans (mismatch_rollsBack paired (by simpa using gates)
        (Bool.eq_false_of_not_eq_true' plain))))).trans ((drainQueue_rollback rfl).trans ?_))
    simp only [beq_iff_eq]
    rfl
  case lost =>
    rintro dt ran r d ds s m rfl up paired rfl head three gates differs running
    refine awake_event s up (congrArg drainQueue ((runPair_core1 paired head three).trans
      ((if_pos (bne_iff_ne.2 differs)).trans ((mismatch_lost paired (by simpa using gates) running).trans ?_))))
    simp only [beq_iff_eq]
    rfl
  case replay =>
    rintro dt ran r d ds s m rfl up paired rfl head three running equal differs
    refine awake_event s up (congrArg drainQueue ((retryFailed_rollback running _).trans
      ((runPair_core1 paired head three).trans ?_)))
    rw [equal, running, differs]
    rfl
  case first =>
    rintro dt core main fallback parity s m rfl up phase core0
    obtain rfl := Bool.eq_false_of_not_eq_true' core0
    exact awake_event s up (supBistDone_first phase)
  case firstFails =>
    rintro dt core main fallback parity s m rfl up phase rfl
    exact awake_event s up (supBistDone_firstFails phase)
  case second =>
    rintro dt core main fallback parity s m rfl up phase core0
    obtain rfl := Bool.eq_false_of_not_eq_true' core0
    exact awake_event s up (supBistDone_second phase)
  case secondFails =>
    rintro dt core main fallback parity s m rfl up phase rfl
    exact awake_event s up (supBistDone_secondFails phase)

end Sys2Proof.Machine

namespace Sys2Proof.Machine

/-! ## Flying start, plausibility and patterns (R215, R219, R250 … R252) -/

section
variable {c : Fin 2} {m : Module}

theorem flyingStart_observed {o : Observation} (starting : (m.traction[c]).loop = .starting)
    (seen : observe c m = some o) :
    flyingStart c m = updTraction c (fun t => { t with startObs := some o.kept }) m := by
  unfold flyingStart
  rw [starting, seen]
  rfl

theorem flyingStart_blind (blind : observe c m = none) : flyingStart c m = m := by
  unfold flyingStart
  rw [blind]
  exact ite_self _

theorem flyingStart_other (other : (m.traction[c]).loop ≠ .starting) : flyingStart c m = m :=
  if_pos (bne_iff_ne.2 other)

theorem plausFault_raises {k : TrCheck}
    (on : (m.regionImage m.epochs.active.supFin).enables (tractionFunc c) = true) (driven : m.driven = true)
    (lasted_ : plausDwell c k m < (m.traction[c]).outsideFor[k.idx]) :
    plausFault c k m = raise (k.code + 0x1000 * c.val) 0 true m :=
  if_pos (by rw [on, driven, decide_eq_true lasted_]; rfl)

theorem preselectFor_channel0 {i : Fin 36} (low : i.val < 6) : preselectFor i m = preselect 0 m :=
  if_pos (if_pos low)

theorem preselectFor_channel1 {i : Fin 36} (six : 6 ≤ i.val) (twelve : i.val < 12) :
    preselectFor i m = preselect 1 m := by
  have func : islandFunc i.val = .tb := (if_neg (Nat.not_lt.2 six)).trans (if_pos twelve)
  rw [preselectFor, func]
  rfl

theorem reevaluate_same {p : Pattern} (now : m.patternOf (tractionFunc c) = p) (set_ : p ≠ .none)
    (sound : m.latchedShort (tractionFunc c) = false) (kept : (m.traction[c]).offByRow1 = false)
    (enabled : m.enHigh = true) (same : m.choosePattern c = p) :
    reevaluate c m = updTraction c (fun t => { t with offByRow1 := false }) m := by
  unfold reevaluate
  dsimp only
  rw [now, sound, kept, enabled, same, beq_false_of_ne set_]
  simp only [Bool.or_self, Bool.not_true, Bool.false_eq_true, if_false, beq_self_eq_true, if_true]

theorem reevaluate_off (short : m.patternOf (tractionFunc c) = .ascLow ∨ m.patternOf (tractionFunc c) = .ascHigh)
    (latched : m.latchedShort (tractionFunc c) = true) {m1 : Module}
    (put : m1 = putPattern (tractionFunc c) .off (m.faults.patternBy[(tractionFunc c).idx]).1
      (m.faults.patternBy[(tractionFunc c).idx]).2 (updTraction c (fun t => { t with offByRow1 := true }) m)) :
    reevaluate c m = { m1 with faults := { m1.faults with
      releasing := m1.faults.releasing.set (tractionFunc c).idx.val m.faults.releasing[(tractionFunc c).idx]
        (tractionFunc c).idx.isLt } } := by
  subst put
  unfold reevaluate
  dsimp only
  rw [latched]
  rcases short with low | high
  · rw [low]
    rfl
  · rw [high]
    rfl

end

/-- Settles O45: each event takes the branch its hypotheses name. -/
theorem tractionEventsComplete : Obligations.TractionEventsComplete := by
  refine ⟨?observed, ?blind, ?other, ?plaus, ?both, ?channel0, ?channel1, ?same, ?off, ?write⟩
  case observed =>
    rintro dt c o s m rfl up runs starting seen
    exact region_event s up runs (flyingStart_observed starting seen)
  case blind =>
    rintro dt c s m rfl up runs blind
    exact region_event s up runs (flyingStart_blind blind)
  case other =>
    rintro dt c s m rfl up runs other
    exact region_event s up runs (flyingStart_other other)
  case plaus =>
    rintro dt c k s m rfl up runs on driven lasted_
    exact region_event s up runs (plausFault_raises on driven lasted_)
  case both =>
    rintro dt s m rfl up
    exact awake_event s up rfl
  case channel0 =>
    rintro dt i s m rfl up low
    exact awake_event s up (preselectFor_channel0 low)
  case channel1 =>
    rintro dt i s m rfl up six twelve
    exact awake_event s up (preselectFor_channel1 six twelve)
  case same =>
    rintro dt c f p s m rfl up rfl now set_ sound kept enabled same
    exact awake_event s up (reevaluate_same now set_ (Bool.eq_false_of_not_eq_true' sound)
      (Bool.eq_false_of_not_eq_true' kept) enabled same)
  case off =>
    rintro dt c m1 s m rfl up short latched put
    exact awake_event s up (reevaluate_off (by simpa using short) latched put)
  case write =>
    rintro dt c s m rfl up runs
    exact region_event s up runs rfl

/-! ## Chopper and overvoltage (R241 … R248) -/

section
variable {m : Module}

theorem chopperPeriod_ends {vdc : Word} {current : Option Word} (period : m.tch ≠ 0)
    (boundary : m.time.count.toNat % m.tch = 0) (started : (m.regionImage 2).holds 2 0x061 = true)
    (valid : m.time.valid = true) : chopperPeriod vdc current m = { m with chopper := { m.chopper with
        startedAt := m.time.elapsed, ended := m.chopper.ended ++
          [(m.chopper.dutyNow, m.chopper.switchNow, vdc, current)],
        dutyNow := if !m.chopperRuns || m.chopperFailed || m.backstop || m.patterned .ch then 0 else m.chopper.duty,
        switchNow := if m.openMark 0 then 1 else if m.openMark 1 then 0 else m.time.count.toNat / m.tch % 2 } } :=
  if_neg (by simp [period, boundary, started, valid])

theorem chopperShort_raises {t : Nat} (seen : m.shortSeen = true) (since_ : m.chopper.shortSince = some t)
    (due : t + F32.usTicks (m.rpar 2 P.chShortDwell) ≤ m.time.elapsed) (new : m.hasFault F.chSwitchShort = false) :
    chopperShort m = raise F.chSwitchShort 7 true { m with chopper := { m.chopper with
      switch0 := 2, switch1 := 2, failed := true, duty := 0, dutyNow := 0 } } := by
  unfold chopperShort
  rw [since_, seen, new]
  dsimp only
  rw [decide_eq_true due]
  rfl

end

/-- Settles O46: each event takes the branch its hypotheses name. -/
theorem chopperEventsComplete : Obligations.ChopperEventsComplete := by
  refine ⟨?period, ?short, ?backstop, ?none_, ?ov1, ?ov2⟩
  case period =>
    rintro dt vdc current s m rfl up runs period boundary started valid
    exact gdc_event s up runs (chopperPeriod_ends period boundary started valid)
  case short =>
    rintro dt t s m rfl up runs seen since_ due new
    exact gdc_event s up runs (chopperShort_raises seen since_ due (Bool.eq_false_of_not_eq_true' new))
  case backstop =>
    rintro dt s m rfl up runs holds
    exact gdc_event s up runs (if_pos holds)
  case none_ =>
    rintro dt s m rfl up runs free
    exact gdc_event s up runs (if_neg (by simpa using free))
  case ov1 =>
    rintro dt s m rfl up reached
    exact awake_event s up (if_pos reached)
  case ov2 =>
    rintro dt s m rfl up reached
    exact awake_event s up (if_pos (by simpa using reached))

end Sys2Proof.Machine

namespace Sys2Proof.Machine

/-! ## An event at a port whose decoder runs (R260, R262, R264) -/

section
variable {p : Fin 6} {m : Module}

theorem withCapture_other (other : m.capturedNow p = false) (f : Module → Module) : withCapture p f m = f m :=
  if_neg (by rw [other]; decide)

theorem withCapture_now (now : m.capturedNow p = true) (f : Module → Module) : withCapture p f m =
    recapture p (f (updFeedback p (fun x => { x with
      edgesSinceCapture := x.capEdges, overRange := x.capOver, ssiFresh := x.capFresh }) m)) := if_pos now

/-- The event of a port, where no capture falls into its tick. -/
theorem onPort_event {f : Module → Module} {n : Module} (up : m.up = true) (runs : m.dieRuns 7 = true)
    (other : m.capturedNow p = false) (made : f m = n) :
    onPort p f m = axAfterPort p m (noteHallEdge p m n) := by
  rw [onPort, onGdc_runs up _ runs, atPort, withCapture_other other, made]

/-- The event of a port, where a capture of its tick takes it in. -/
theorem onPort_captured {f : Module → Module} {m1 n : Module} (up : m.up = true) (runs : m.dieRuns 7 = true)
    (now : m.capturedNow p = true) (before : m1 = updFeedback p (fun x => { x with
      edgesSinceCapture := x.capEdges, overRange := x.capOver, ssiFresh := x.capFresh }) m) (made : f m1 = n) :
    onPort p f m = axAfterPort p m (noteHallEdge p m (recapture p n)) := by
  rw [onPort, onGdc_runs up _ runs, atPort, withCapture_now now, ← before, made]

/-- An event on the lines of a port is one of its decoder while that runs. -/
theorem onLines_runs (runs : m.dieRuns 7 = true) (f : Module → Module) : onLines p f m = onPort p f m := if_pos runs

theorem onLines_stopped (up : m.up = true) (stopped : m.dieRuns 7 = false) (f : Module → Module) : onLines p f m = f m :=
  (if_neg (by rw [stopped]; decide)).trans (awake_up f up)

/-! ## What the decoder does (R262 … R285) -/

/-- An edge as the decoder takes it. -/
def decodeEdge (p : Fin 6) (e : PortEdge) (m : Module) : Module :=
  match e with
  | .up => if m.usesAbz p then quadEdge p (m.fnum p P.fbDirection == 1) m else m
  | .down => if m.usesAbz p then quadEdge p (!(m.fnum p P.fbDirection == 1)) m else m
  | .illegal => if m.usesAbz p then portError p (updFeedback p (fun f => { f with overRange := true }) m) else m
  | .hall s => if m.usesHall p then hallChange p s.val (updFeedback p (fun f => { f with hallNow := s.val }) m)
    else updFeedback p (Feedback.hallStands m.time.elapsed s.val) m

section
variable {held : Nat}

theorem fbEdge_filtered {e : PortEdge} (short : held < m.fnum p P.fbFilter) : fbEdge p e held m = m :=
  if_pos (decide_eq_true short)

section
variable (long : m.fnum p P.fbFilter ≤ held) (runs : m.dieRuns 7 = true)
include long runs

/-- An edge that stands for the filter time reaches the decoder. -/
theorem fbEdge_decoded (e : PortEdge) : fbEdge p e held m = decodeEdge p e m := by
  have passes : ¬decide (held < m.fnum p P.fbFilter) = true := by simpa using long
  have decodes : ¬(!m.decodes) = true := by rw [Module.decodes, runs]; decide
  cases e <;> exact (if_neg passes).trans (if_neg decodes)

theorem fbIndex_pending {a b : Bool} (abz : m.usesAbz p = true) :
    fbIndex p a b held m = updFeedback p (fun f => { f with indexPending := some (a, b) }) m :=
  if_neg (by rw [Module.decodes, runs, abz, decide_eq_false (Nat.not_lt.2 long)]; decide)

end

theorem fbIndex_filtered {a b : Bool} (short : held < m.fnum p P.fbFilter) : fbIndex p a b held m = m :=
  if_pos (by rw [decide_eq_true short, Bool.or_true])

/-- A change of the Hall lines, while no decoder runs, moves the lines alone. -/
theorem fbEdge_stopped (long : m.fnum p P.fbFilter ≤ held) (stopped : m.dieRuns 7 = false) (x : Fin 8) :
    fbEdge p (.hall x) held m = updFeedback p (Feedback.hallStands m.time.elapsed x.val) m := by
  unfold fbEdge
  rw [decide_eq_false (Nat.not_lt.2 long), if_neg (by decide), Module.decodes, stopped]
  rfl

end

theorem fbHallInvalid_raises (hall : m.usesHall p = true) (position : m.fsource p = 5)
    (lasted_ : lasted m.time.elapsed (m.feedback[p]).invalidSince (F32.usTicks (m.fpar p P.fbHallInvalidDwell)) = true) :
    fbHallInvalid p m = raisePort F.fbHallInvalid p true
      (updFeedback p (fun f => { f with posValid := false, speedValid := false }) m) := by
  unfold fbHallInvalid
  rw [hall, lasted_, position]
  rfl

theorem ssiFrame_pending {w : Word} {lineBad : Bool} (runs : m.dieRuns 7 = true) (ssi : m.usesSsi p = true)
    (interval : m.fnum p P.fbSsiInterval ≠ 0) (due : m.time.count.toNat % m.fnum p P.fbSsiInterval = 0) :
    ssiFrame p w lineBad m = updFeedback p (fun f => { f with ssiPending := some (w, lineBad) }) m :=
  if_neg (by simp [Module.decodes, runs, ssi, interval, due])

theorem fbStandstill_stands {e : Edge} {es : List Edge} (newest : (m.feedback[p]).edges = e :: es)
    (late : e.at_ + F32.usTicks (m.fpar p P.fbStandstillTimeout) ≤ m.time.count.toNat) :
    fbStandstill p m = updFeedback p (fun f => { f with stood := true }) m := by
  unfold fbStandstill
  rw [newest]
  exact if_neg (Nat.not_lt.2 late)

/-! ## Lines (R275 … R278) -/

section
variable {l : Fin 5}

theorem lineBreak_stopped (stopped : m.dieRuns 7 = false) :
    lineBreak p l m = updFeedback p (fun f => { f with broken := f.broken ||| 2 ^ l.val }) m :=
  if_pos (by rw [Module.decodes, stopped, Bool.not_false, Bool.or_true])

/-- A break of a line that the port uses is a fault, with what the line carried. -/
theorem lineBreak_used (runs : m.dieRuns 7 = true) (used : m.lineUsed p l.val = true) : lineBreak p l m =
    raisePort F.fbLineBreak p true (updFeedback p (fun f =>
      breakLine (m.fsource p) l.val { f with broken := f.broken ||| 2 ^ l.val }) m) := by
  have open_ : (!m.lineUsed p l.val || !m.decodes) = false := by rw [Module.decodes, used, runs]; rfl
  exact (if_neg (Bool.eq_false_iff.1 open_)).trans (congrArg _ (updFeedback_twice ..))

theorem lineBreak_ab (runs : m.dieRuns 7 = true) (used : m.lineUsed p l.val = true) (track : l.val ≤ 1) :
    lineBreak p l m = raisePort F.fbLineBreak p true (updFeedback p (fun f => { f with
      broken := f.broken ||| 2 ^ l.val, lost := f.lost ||| 2 ^ l.val, posValid := false, speedValid := false,
      edges := [] }) m) :=
  (lineBreak_used runs used).trans (congrArg _ (updFeedback_congr (if_pos track)))

theorem lineBreak_index (runs : m.dieRuns 7 = true) (used : m.lineUsed p l.val = true) (index : l.val = 2) :
    lineBreak p l m = raisePort F.fbLineBreak p true (updFeedback p (fun f => { f with
      broken := f.broken ||| 2 ^ l.val, lost := f.lost ||| 2 ^ l.val }) m) :=
  (lineBreak_used runs used).trans (congrArg _ (updFeedback_congr ((if_neg (by omega)).trans (if_pos index))))

theorem lineRestored_last (only : (m.feedback[p]).broken = 2 ^ l.val) :
    lineRestored p l m = endCond F.fbLineBreak p.val (updFeedback p (fun f => { f with broken := 0 }) m) := by
  have whole : updFeedback p (fun f => { f with
        broken := if f.broken.testBit l.val then f.broken - 2 ^ l.val else f.broken }) m =
      updFeedback p (fun f => { f with broken := 0 }) m := by
    refine updFeedback_congr ?_
    rw [only, Nat.testBit_two_pow_self, if_pos rfl, Nat.sub_self]
  have none_ : (updFeedback p (fun f => { f with broken := 0 }) m).lineBroken p = false := by
    rw [Module.lineBroken, updFeedback_port]
    simp [usesAny]
  unfold lineRestored
  rw [whole]
  exact if_neg (Bool.eq_false_iff.1 none_)

end

end

theorem epOverrun_raises {p : Fin 2} {m : Module} (runs : m.epRuns (epPort p) = true)
    (started : (m.feedback[epPort p]).epStart = 0)
    (beyond : 16 < (m.epTarget (epPort p) - (m.feedback[epPort p]).epCount).natAbs)
    (new : isActive m.faults.active F.fbEpOverrun p.val = false) :
    epOverrun p m = raisePort F.fbEpOverrun (epPort p) false m := by
  have still : (m.feedback[epPort p].epStart != 0) = false := by rw [started]; rfl
  unfold epOverrun
  dsimp only
  rw [runs, still, new, decide_eq_false (Nat.not_le.2 beyond), if_neg (by decide)]

/-- Settles O47: each event takes the branch its hypotheses name, then what the port does to its actuator. -/
theorem feedbackEventsComplete : Obligations.FeedbackEventsComplete := by
  refine ⟨?up, ?down, ?illegal, ?captured, ?filtered, ?stands, ?hall, ?index, ?indexFiltered, ?invalid, ?ssi, ?standstill,
    ?track, ?lineStopped, ?hallStopped, ?indexLine, ?restored, ?overrun⟩
  case up =>
    rintro dt p held s m rfl up runs other long abz
    exact event s ((onLines_runs runs _).trans (onPort_event up runs (Bool.eq_false_of_not_eq_true' other)
      ((fbEdge_decoded long runs .up).trans (if_pos abz))))
  case down =>
    rintro dt p held s m rfl up runs other long abz
    exact event s ((onLines_runs runs _).trans (onPort_event up runs (Bool.eq_false_of_not_eq_true' other)
      ((fbEdge_decoded long runs .down).trans (if_pos abz))))
  case illegal =>
    rintro dt p held s m rfl up runs other long abz
    exact event s ((onLines_runs runs _).trans (onPort_event up runs (Bool.eq_false_of_not_eq_true' other)
      ((fbEdge_decoded long runs .illegal).trans (if_pos abz))))
  case captured =>
    rintro dt p held m1 s m rfl up runs long abz now before
    have long1 : m1.fnum p P.fbFilter ≤ held := by rw [before]; exact long
    have runs1 : m1.dieRuns 7 = true := by rw [before]; exact runs
    have abz1 : m1.usesAbz p = true := by rw [before]; exact abz
    have direction : m1.fnum p P.fbDirection = (advance dt s.mod).fnum p P.fbDirection := by rw [before]; rfl
    exact event s ((onLines_runs runs _).trans (onPort_captured up runs now before
      ((fbEdge_decoded long1 runs1 .up).trans ((if_pos abz1).trans (by rw [direction])))))
  case filtered =>
    rintro dt p e held s m rfl up runs other short
    exact event s ((onLines_runs runs _).trans (onPort_event up runs (Bool.eq_false_of_not_eq_true' other)
      (fbEdge_filtered short)))
  case stands =>
    rintro dt p held x s m rfl up runs other long hall
    exact event s ((onLines_runs runs _).trans (onPort_event up runs (Bool.eq_false_of_not_eq_true' other)
      ((fbEdge_decoded long runs (.hall x)).trans (if_neg (by simpa using hall)))))
  case hall =>
    rintro dt p held x s m rfl up runs other long hall
    exact event s ((onLines_runs runs _).trans (onPort_event up runs (Bool.eq_false_of_not_eq_true' other)
      ((fbEdge_decoded long runs (.hall x)).trans (if_pos hall))))
  case index =>
    rintro dt p a b held s m rfl up runs other long abz
    exact event s (onPort_event up runs (Bool.eq_false_of_not_eq_true' other) (fbIndex_pending long runs abz))
  case indexFiltered =>
    rintro dt p a b held s m rfl up runs other short
    exact event s (onPort_event up runs (Bool.eq_false_of_not_eq_true' other) (fbIndex_filtered short))
  case invalid =>
    rintro dt p s m rfl up runs other hall position lasted_
    exact event s (onPort_event up runs (Bool.eq_false_of_not_eq_true' other) (fbHallInvalid_raises hall position lasted_))
  case ssi =>
    rintro dt p w lineBad s m rfl up runs other ssi interval due
    exact event s (onPort_event up runs (Bool.eq_false_of_not_eq_true' other) (ssiFrame_pending runs ssi interval due))
  case standstill =>
    rintro dt p e es s m rfl up runs newest late
    exact gdc_event s up runs (fbStandstill_stands newest late)
  case track =>
    rintro dt p l s m rfl up runs other used track
    exact event s ((onLines_runs runs _).trans (onPort_event up runs (Bool.eq_false_of_not_eq_true' other)
      (lineBreak_ab runs used track)))
  case lineStopped =>
    rintro dt p l s m rfl up stopped
    have stopped := Bool.eq_false_of_not_eq_true' stopped
    exact event s ((onLines_stopped up stopped _).trans (lineBreak_stopped stopped))
  case hallStopped =>
    rintro dt p held x s m rfl up stopped long
    have stopped := Bool.eq_false_of_not_eq_true' stopped
    exact event s ((onLines_stopped up stopped _).trans (fbEdge_stopped long stopped x))
  case indexLine =>
    rintro dt p l s m rfl up runs other used index
    exact event s ((onLines_runs runs _).trans (onPort_event up runs (Bool.eq_false_of_not_eq_true' other)
      (lineBreak_index runs used index)))
  case restored =>
    rintro dt p l s m rfl up only
    exact awake_event s up (lineRestored_last only)
  case overrun =>
    rintro dt p q s m rfl up runs rfl epRuns started beyond new
    exact gdc_event s up runs (epOverrun_raises epRuns started beyond (Bool.eq_false_of_not_eq_true' new))

end Sys2Proof.Machine

namespace Sys2Proof.Machine

/-! ## The legs of the converter (R303 … R306, R422) -/

section
variable {j : Fin 4} {m : Module}

/-- The module with a leg of the converter at the start of a cycle (R303). -/
def legStarted (j : Fin 4) (m : Module) : Module :=
  { m with converter := { m.converter with legs := Vector.upd m.converter.legs j (fun l => { l with
      ipk := l.nextIpk, slope := l.nextSlope, lowOn := true,
      onSince := m.time.count.toNat + (if l.cycling && !l.lowOn then m.rnum 2 (P.gdDeadTime + 0x80) else 0),
      trip := l.trip && !l.lowOn, cycling := true }) } }

section
variable (period : m.tsw ≠ 0) (boundary : m.inCycle j = 0) (driven : m.legDriven = true) (valid : m.time.valid = true)
include period boundary driven valid

theorem cycleStart_starts : cycleStart j m = legStarted j m := if_neg (by simp [period, boundary, driven, valid])

theorem legCycle_starts : legCycle j m =
    if m.regulationOf j == 2 then regulationDecision j 1 (legStarted j m) else legStarted j m := by
  have low : ((legStarted j m).converter.legs[j]).lowOn = true := by
    simp only [legStarted, getElem_upd_self]
  have since_ : m.time.count.toNat ≤ ((legStarted j m).converter.legs[j]).onSince := by
    simp only [legStarted, getElem_upd_self]
    exact Nat.le_add_right _ _
  unfold legCycle
  dsimp only
  rw [cycleStart_starts period boundary driven valid, low, decide_eq_true since_]
  rfl

end

theorem legTrip_trips {levels : List Word} (low : (m.converter.legs[j]).lowOn = true)
    (decides : m.diDecides j levels = true) : legTrip j levels m = noteEvent 1 { regulationDecision j 2 m with
      converter := { (regulationDecision j 2 m).converter with
        legs := Vector.upd (regulationDecision j 2 m).converter.legs j (fun l =>
          { l with lowOn := false, trip := true }) } } := by
  have low1 : ((regulationDecision j 2 m).converter.legs[j]).lowOn = true := low
  have decides1 : (regulationDecision j 2 m).diDecides j levels = true := decides
  unfold legTrip
  rw [low, decides, Bool.and_self, if_pos rfl]
  exact if_neg (not_or.2 ⟨by rw [low1]; decide, by rw [decides1]; decide⟩)

theorem dutyMaxEnd_ends (low : (m.converter.legs[j]).lowOn = true)
    (late : (F32.toInt (F32.mul (m.rpar 2 P.cvDutyMax) (F32.ofNat m.tsw))).toNat ≤ m.inCycle j) :
    dutyMaxEnd j m = { m with converter := { m.converter with
      legs := Vector.upd m.converter.legs j (fun l =>
        { l with lowOn := false, trip := false, dutyMaxAt := some m.time.elapsed }) } } :=
  if_neg (by rw [low]; simpa using late)

end

/-! ## Precharge and DC outlet (R297, R298, R311) -/

section
variable {m : Module}

theorem prechargeComplete_ends (runs : m.converter.precharge = 2 ∨ (m.converter.precharge ≠ 0 ∧ m.enabled .cv = false))
    (within : m.withinTol = true) (stands : lasted m.time.elapsed m.converter.withinSince 400000 = true) :
    prechargeComplete m = { m with
      supply := { m.supply with transition := m.supply.transition.map (fun t => { t with stage := 2 }) },
      converter := { m.converter with precharged := true, precharge := 0 } } := by
  refine if_neg ?_
  rw [within, stands]
  rcases runs with last | ⟨some_, off⟩
  · simp [last]
  · simp [some_, off]

theorem prechargeFail_fails (leg : m.supply.transition.any (fun t => t.source == .ready && t.dest == .armed) = true)
    (open_ : m.converter.precharged = false)
    (late : m.converter.prechargeAt + m.us P.cvPrechargeTimeout ≤ m.time.elapsed) :
    prechargeFail m = abandon 0xFF (raise F.cvPrechargeFail 0 false m) :=
  if_neg (by rw [leg, open_, decide_eq_false (Nat.not_lt.2 late)]; decide)

theorem dcExportEnd_hvil (runs : m.converter.outlet ≠ 0) (open_ : m.supply.hvil = false) :
    dcExportEnd .hvil m = raise F.doHvilOpen 0 false { m with converter := { m.converter with outlet := 0 } } :=
  if_neg (by simp [runs, outletCond, open_])

theorem dcExportEnd_overcurrent (runs : m.converter.outlet ≠ 0)
    (above : F32.lt (m.rpar 2 P.doITrip) (F32.abs m.converter.outletCurrent) = true) :
    dcExportEnd .overcurrent m = raise F.doOvercurrent 0 true { m with converter := { m.converter with outlet := 0 } } :=
  if_neg (by simp [runs, outletCond, above])

/-! ## The charger (R320 … R336) -/

theorem loseSource_fails (heard : m.charger.heard = true) (open_ : m.charger.pfClosed = false)
    (lost : lasted m.time.elapsed m.charger.failSince 8000000 = true) (charging : m.charger.state = 4)
    (switched : m.charger.s2 = true) (ac : m.charger.acOk = false) (pilot : m.charger.pilot < 4)
    (proximity : m.charger.proximity ≠ 5) : loseSource m = startHandover false false (raise F.cgAcLost 0 false
      (updCharger (fun c => { c with source := false, presentSince := none }) m)) := by
  unfold loseSource
  dsimp only
  rw [heard, open_, lost, charging, switched, ac, beq_false_of_ne proximity, if_neg (Nat.not_le.2 pilot),
    if_neg proximity, Bool.false_and, if_neg (by decide), if_pos (by decide), if_pos (by decide)]

theorem sourceLost_fails (heard : m.charger.heard = true) (open_ : m.charger.pfClosed = false)
    (lost : lasted m.time.elapsed m.charger.failSince 8000000 = true) (charging : m.charger.state = 4)
    (switched : m.charger.s2 = true) (ac : m.charger.acOk = false) (pilot : m.charger.pilot < 4)
    (proximity : m.charger.proximity ≠ 5) : sourceLost m = keepCheckpoint 3 (showCh (startHandover false false
      (raise F.cgAcLost 0 false { m with charger := { m.charger with source := false, presentSince := none } }))) := by
  rw [sourceLost, if_pos heard, loseSource_fails heard open_ lost charging switched ac pilot proximity]
  rfl

theorem chEvaluate_idle (idle : m.charger.evalDue = false) : chEvaluate m = m := if_pos (by rw [idle]; rfl)

theorem chEvaluate_due {m1 : Module} (due : m.charger.evalDue = true)
    (ticked : m1 = timerTick (updCharger (fun c => { c with evalDue := false }) m)) : chEvaluate m =
      keepCheckpoint 3 (showCh (exportRamp (stateTick
        (if m1.charger.state = 7 ∨ m1.charger.state = 8 then exportTick m1 else m1)))) := by
  subst ticked
  exact if_neg (by rw [due]; decide)

theorem cvFault_raises {k : CvCheck}
    (on : (m.regionImage m.epochs.active.supFin).enables (if k.conv then .cv else .cg) = true) (driven : m.driven = true)
    (lasted_ : F32.usTicks (m.rpar m.epochs.active.supFin k.dwell) < k.outside m) :
    cvFault k m = raise k.code k.detail true m := if_pos (by rw [on, driven, decide_eq_true lasted_]; rfl)

end

/-- The duty is the mean of the last four measured ones while the pilot switches. -/
theorem pilotClassify_eq (p : PilotLine) (m : Module) : pilotClassify p m = updCharger (fun c => { c with
    pilotSeen := threeInRow c.pilotSeen (pilotClass p),
    pilotIn := if (threeInRow c.pilotSeen (pilotClass p)).2 = 3 then pilotClass p else c.pilotIn,
    dutyIn := if p.pwm then meanDuty ((p.duties ++ m.charger.pilotDuties).take 4) else fOne,
    pilotDuties := if p.pwm then (p.duties ++ m.charger.pilotDuties).take 4 else [],
    digitalIn := between (dec 3 100)
      (if p.pwm then meanDuty ((p.duties ++ m.charger.pilotDuties).take 4) else fOne) (dec 7 100) }) m := by
  have duty (ds : List Word) : (if p.pwm then meanDuty (if p.pwm then ds else []) else fOne) =
      if p.pwm then meanDuty ds else fOne := by
    by_cases pwm : p.pwm = true
    · rw [if_pos pwm, if_pos pwm, if_pos pwm]
    · rw [if_neg pwm, if_neg pwm]
  unfold pilotClassify
  dsimp only
  rw [duty]

/-- Settles O48: each event takes the branch its hypotheses name. -/
theorem converterEventsComplete : Obligations.ConverterEventsComplete := by
  refine ⟨?decided, ?undecided, ?trip, ?dutyMax, ?precharged, ?prechargeFails, ?hvil, ?overcurrent, ?pilot, ?proximity,
    ?source, ?idle, ?charging, ?feeding, ?plaus⟩
  case decided =>
    rintro dt j s m rfl up runs period boundary driven valid regulation
    refine gdc_event s up runs ((legCycle_starts period boundary driven valid).trans ?_)
    rw [regulation]
    rfl
  case undecided =>
    rintro dt j s m rfl up runs period boundary driven valid regulation
    exact gdc_event s up runs ((legCycle_starts period boundary driven valid).trans
      (if_neg (by simpa using regulation)))
  case trip =>
    rintro dt j levels m1 s m rfl up runs rfl low decides
    exact gdc_event s up runs (legTrip_trips low decides)
  case dutyMax =>
    rintro dt j s m rfl up runs low late
    exact gdc_event s up runs (dutyMaxEnd_ends low late)
  case precharged =>
    rintro dt s m rfl up runs within stands
    exact awake_event s up (prechargeComplete_ends (by simpa using runs) within stands)
  case prechargeFails =>
    rintro dt s m rfl up leg open_ late
    exact awake_event s up (prechargeFail_fails leg (Bool.eq_false_of_not_eq_true' open_) late)
  case hvil =>
    rintro dt s m rfl up runs open_
    exact awake_event s up (dcExportEnd_hvil runs (Bool.eq_false_of_not_eq_true' open_))
  case overcurrent =>
    rintro dt s m rfl up runs above
    exact awake_event s up (dcExportEnd_overcurrent runs above)
  case pilot =>
    rintro dt p s m rfl up
    exact awake_event s up (pilotClassify_eq p _)
  case proximity =>
    rintro dt resistance s m rfl up
    exact awake_event s up rfl
  case source =>
    rintro dt s m rfl up heard open_ lost charging switched ac pilot proximity
    exact awake_event s up (sourceLost_fails heard (Bool.eq_false_of_not_eq_true' open_) lost charging switched
      (Bool.eq_false_of_not_eq_true' ac) pilot proximity)
  case idle =>
    rintro dt s m rfl up idle
    exact awake_event s up (chEvaluate_idle (Bool.eq_false_of_not_eq_true' idle))
  case charging =>
    rintro dt m1 s m rfl up due ticked seven eight
    refine awake_event s up ((chEvaluate_due due ticked).trans ?_)
    rw [if_neg (not_or.2 ⟨seven, eight⟩)]
  case feeding =>
    rintro dt m1 s m rfl up due ticked feeds
    refine awake_event s up ((chEvaluate_due due ticked).trans ?_)
    rw [if_pos (by simpa using feeds)]
  case plaus =>
    rintro dt k s m rfl up on driven lasted_
    exact awake_event s up (cvFault_raises on driven lasted_)

end Sys2Proof.Machine

namespace Sys2Proof.Machine

/-! ## One island updated -/

theorem updIsland_island (i : Fin 36) (f : Island → Island) (m : Module) : (updIsland i f m).islands[i] = f m.islands[i] :=
  getElem_upd_self ..

theorem updIsland_congr {i : Fin 36} {f g : Island → Island} {m : Module} (same : f m.islands[i] = g m.islands[i]) :
    updIsland i f m = updIsland i g m := by
  rw [updIsland, upd_congr same, updIsland]

theorem updIsland_twice (i : Fin 36) (f g : Island → Island) (m : Module) :
    updIsland i g (updIsland i f m) = updIsland i (fun x => g (f x)) m := by
  simp only [updIsland, upd_upd]
  rfl

/-! ## Latching (R361, R374) -/

section
variable {i : Fin 36} {cause : Nat} {soft : Bool} {m : Module} (used : m.unused i = false)
include used

/-- The first fault of an island latches it off, softly or at once. -/
theorem latch_free (free : (m.islands[i]).held = false) : latch i cause soft m = updIsland i (fun x => { x with
    state := if soft then .softOff else .latched, cause := cause, condition := true, also := 0, alsoReported := 0,
    output := false, latchedAt := m.time.elapsed, stage := if soft then 1 else 0, stageAt := m.time.elapsed,
    reported := false }) m := by
  unfold latch
  dsimp only
  rw [used, if_neg (by decide), free, if_neg (by decide)]

/-- A further cause is noted beside the one that holds the island. -/
theorem latch_held (held : (m.islands[i]).held = true) (other : (m.islands[i]).cause ≠ cause)
    (new : (m.islands[i]).also.testBit cause = false) : latch i cause soft m = updIsland i (fun x => { x with
      also := x.also ||| 2 ^ cause, alsoAt := m.time.elapsed,
      alsoReported := if x.alsoReported.testBit cause then x.alsoReported - 2 ^ cause else x.alsoReported }) m := by
  unfold latch
  dsimp only
  rw [used, if_neg (by decide), if_pos held, if_neg (by rw [new]; simpa using other)]

end

/-! ## Frames and links (R359 … R364) -/

section
variable {i : Fin 36} {m : Module}

theorem countLinkError_below (low : (m.islands[i]).window < 100) : countLinkError i m = updIsland i (fun x => { x with
    linkErrors := satAdd 255 x.linkErrors 1, window := (m.islands[i]).window + 1 }) m := by
  have below : ¬100 < (m.islands[i]).window + 1 := by omega
  unfold countLinkError
  dsimp only
  rw [decide_eq_false below]
  rfl

theorem countLinkError_above (high : 100 ≤ (m.islands[i]).window) (new : (m.islands[i]).windowRaised = false)
    (used : m.unused i = false) : countLinkError i m = raise F.gdLinkErrorRate i.val false
      (updIsland i (fun x => { x with windowRaised := true }) (updIsland i (fun x => { x with
        linkErrors := satAdd 255 x.linkErrors 1, window := (m.islands[i]).window + 1 }) m)) := by
  have above : 100 < (m.islands[i]).window + 1 := by omega
  unfold countLinkError
  dsimp only
  rw [decide_eq_true above, new, used]
  rfl

section
variable (supplied : m.islandSupplied i = true) (runs : m.dieRuns 7 = true)
include supplied runs

section
variable (listens : (m.islands[i]).ignoresLink = false)
include listens

theorem islandFrame_good : islandFrame i true m = followCond i (followGate m.time.elapsed i (updIsland i (fun x =>
    { x with frameOff := false, waits := false, linkDown := false, goodFrameAt := m.time.elapsed }) m)) := by
  unfold islandFrame
  dsimp only
  rw [supplied, runs, listens]
  rfl

theorem islandFrame_bad : islandFrame i false m =
    countLinkError i (updIsland i (fun x => { x with frameOff := x.frameOff || x.output, output := false }) m) := by
  unfold islandFrame
  dsimp only
  rw [supplied, runs, listens]
  rfl

theorem islandFrame_counted (low : (m.islands[i]).window < 100) : islandFrame i false m = updIsland i (fun x => { x with
    linkErrors := satAdd 255 x.linkErrors 1, window := (m.islands[i]).window + 1, frameOff := x.frameOff || x.output,
    output := false }) m := by
  rw [islandFrame_bad supplied runs listens, countLinkError_below (by rw [updIsland_island]; exact low), updIsland_island,
    updIsland_twice]

theorem islandFrame_rate (high : 100 ≤ (m.islands[i]).window) (new : (m.islands[i]).windowRaised = false)
    (used : m.unused i = false) : islandFrame i false m = raise F.gdLinkErrorRate i.val false
      (updIsland i (fun x => { x with windowRaised := true }) (updIsland i (fun x => { x with
        linkErrors := satAdd 255 x.linkErrors 1, window := (m.islands[i]).window + 1,
        frameOff := x.frameOff || x.output, output := false }) m)) := by
  refine (islandFrame_bad supplied runs listens).trans ((countLinkError_above (by rw [updIsland_island]; exact high)
    (by rw [updIsland_island]; exact new) ?_).trans ?_)
  · exact used
  · rw [updIsland_island, updIsland_twice i _ _ m]

end

theorem islandStatusFrame_good : islandStatusFrame i true m =
    if (m.islands[i]).held then reportIsland i (followCond i (updIsland i (fun x => { x with
      goodStatusAt := m.time.elapsed, statusDown := false }) m))
    else followCond i (updIsland i (fun x => { x with goodStatusAt := m.time.elapsed, statusDown := false }) m) := by
  unfold islandStatusFrame
  rw [supplied, runs]
  rfl

theorem islandStatusFrame_bad : islandStatusFrame i false m = countLinkError i m := by
  unfold islandStatusFrame
  rw [supplied, runs]
  rfl

end

/-- A fault leaves the islands as they are. -/
theorem raise_islands (code detail : Nat) (cond : Bool) (m : Module) : (raise code detail cond m).islands = m.islands := by
  obtain ⟨_, _, _, _, _, _, _, only⟩ := raise_reactsOnly code detail cond m
  rw [only]

/-- The report of the one cause that holds an island (R364). -/
theorem reportIsland_one (cause : (m.islands[i]).cause ≠ 0) (new : (m.islands[i]).reported = false)
    (only : (m.islands[i]).others = []) : reportIsland i m = updIsland i (fun x => { x with
      alsoReported := (m.islands[i]).also }) (raise (causeFault (m.islands[i]).cause) i.val (m.islands[i]).condition
        (updIsland i (fun x => { x with reported := true }) m)) := by
  have first : ¬((m.islands[i]).cause = 0 ∨ (m.islands[i]).reported = true) :=
    not_or.2 ⟨cause, by rw [new]; decide⟩
  unfold reportIsland
  dsimp only
  rw [only, if_neg first]
  refine updIsland_congr ?_
  simp only [raise_islands, updIsland_island]

section
variable (rails : m.supply.railsRemoved = false)
include rails

theorem linkLost_island (supplied : m.islandSupplied i = true) (ready : (m.islands[i]).waits = false)
    (listens : (m.islands[i]).ignoresLink = false) (late : (m.islands[i]).goodFrameAt + 1200 ≤ m.time.elapsed) :
    linkLost i false m = followCond i (latch i 5 false (updIsland i (fun x => { x with
      output := false, linkDown := true }) m)) := by
  unfold linkLost
  dsimp only
  rw [rails, if_neg (by decide), if_neg (by decide), supplied, ready, listens, decide_eq_false (Nat.not_lt.2 late),
    if_neg (by decide)]

theorem linkLost_gdc (on : m.dies[(⟨10 + i.val, by omega⟩ : Fin 46)].supply ≠ 0) (runs : m.dieRuns 7 = true)
    (late : (m.islands[i]).goodStatusAt + 1200 ≤ m.time.elapsed) : linkLost i true m =
      reportIsland i (followCond i (latch i 5 false (updIsland i (fun x => { x with statusDown := true }) m))) := by
  unfold linkLost
  dsimp only
  rw [rails, if_neg (by decide), if_pos rfl,
    if_neg (not_or.2 ⟨on, not_or.2 ⟨by rw [runs]; decide, Nat.not_lt.2 late⟩⟩)]

end

/-! ## Rails (R365, R375) -/

section
variable (supplied : m.islandSupplied i = true)
include supplied

theorem uvlo_rail {pos : Bool} (watched : (!pos && !m.negMonitored i) = false) : uvlo i pos m =
    followCond i (if (m.islands[i]).railsSeen then
        latch i (if pos then 3 else 4) false (updIsland i (fun x => { x with output := false }) (setRail i pos false m))
      else updIsland i (fun x => { x with output := false }) (setRail i pos false m)) := by
  unfold uvlo
  dsimp only
  rw [supplied, watched, Bool.not_true, Bool.or_false, if_neg (by decide)]

theorem uvloRecovery_rail (pos : Bool) : uvloRecovery i pos m = followCond i (setRail i pos true m) :=
  if_neg (by rw [supplied]; decide)

section
variable (late : m.supply.rampAt + 8000000 ≤ m.time.elapsed) (unseen : (m.islands[i]).railsSeen = false)
include late unseen

theorem railTimeout_pos (low : (m.islands[i]).railPosOk = false) :
    railTimeout i m = followCond i (latch i 3 false m) := by
  unfold railTimeout
  dsimp only
  rw [supplied, decide_eq_false (Nat.not_lt.2 late), unseen, low]
  rfl

theorem railTimeout_neg (high : (m.islands[i]).railPosOk = true) (low : (m.islands[i]).railNegOk = false)
    (watched : m.negMonitored i = true) : railTimeout i m = followCond i (latch i 4 false m) := by
  unfold railTimeout
  dsimp only
  rw [supplied, decide_eq_false (Nat.not_lt.2 late), unseen, high, low, watched]
  rfl

end

end

/-- The positive rail of an island falls; whether the rails were seen stays as it was. -/
theorem setRail_posLow (i : Fin 36) (m : Module) : updIsland i (fun x => { x with output := false }) (setRail i true false m) =
    updIsland i (fun x => { x with railPosOk := false, uvloPos := true, output := false }) m := by
  rw [setRail, updIsland_twice]
  refine updIsland_congr ?_
  simp only [if_true, Bool.not_false, Bool.false_and, Bool.or_false]

theorem setRail_negLow (i : Fin 36) (m : Module) : updIsland i (fun x => { x with output := false }) (setRail i false false m) =
    updIsland i (fun x => { x with railNegOk := false, uvloNeg := true, output := false }) m := by
  rw [setRail, updIsland_twice]
  refine updIsland_congr ?_
  simp only [Bool.false_eq_true, if_false, Bool.not_false, Bool.and_false, Bool.or_false]

/-! ## Trips and the soft turn-off (R366, R376) -/

theorem desat_trips (on : (m.islands[i]).output = true)
    (late : (m.islands[i]).onAt + (m.gpar i P.gdDesatBlank).toNat + 40 ≤ m.time.elapsed) :
    desat i m = latch i 1 true m := if_neg (by rw [on, decide_eq_false (Nat.not_lt.2 late)]; decide)

theorem hardShort_trips (on : (m.islands[i]).output = true) (late : (m.islands[i]).onAt + 8 ≤ m.time.elapsed) :
    hardShort i m = latch i 2 true m := if_pos (by rw [on, decide_eq_true late]; rfl)

theorem softStage_eq (turning : (m.islands[i]).state = .softOff)
    (late : (m.islands[i]).stageAt + stageTicks m i (m.islands[i]).stage ≤ m.time.elapsed) : softStage i m =
      if (m.islands[i]).stage < 3 then updIsland i (fun x => { x with stage := x.stage + 1, stageAt := m.time.elapsed }) m
      else followCond i (updIsland i (fun x => { x with state := .latched, stage := 0 }) m) :=
  if_neg (by rw [turning, decide_eq_false (Nat.not_lt.2 late)]; decide)

end

/-- Settles O49: each event takes the branch its hypotheses name. -/
theorem islandEventsComplete : Obligations.IslandEventsComplete := by
  refine ⟨?good, ?counted, ?rate, ?reported, ?status, ?statusBad, ?linkHeld, ?linkFree, ?linkGdc, ?uvloPos, ?uvloNeg,
    ?uvloUnseen, ?recovery, ?timeoutPos, ?timeoutNeg, ?desat, ?short, ?stage, ?last⟩
  case good =>
    rintro dt i s m rfl up supplied runs listens
    exact awake_event s up (islandFrame_good supplied runs (Bool.eq_false_of_not_eq_true' listens))
  case counted =>
    rintro dt i s m rfl up supplied runs listens low
    exact awake_event s up (islandFrame_counted supplied runs (Bool.eq_false_of_not_eq_true' listens) low)
  case rate =>
    rintro dt i s m rfl up supplied runs listens high new used
    exact awake_event s up (islandFrame_rate supplied runs (Bool.eq_false_of_not_eq_true' listens) high
      (Bool.eq_false_of_not_eq_true' new) (Bool.eq_false_of_not_eq_true' used))
  case reported =>
    rintro dt i q s m rfl up supplied runs held rfl cause new only
    exact awake_event s up ((islandStatusFrame_good supplied runs).trans ((if_pos held).trans
      (reportIsland_one cause (Bool.eq_false_of_not_eq_true' new) only)))
  case status =>
    rintro dt i s m rfl up supplied runs free
    exact awake_event s up ((islandStatusFrame_good supplied runs).trans (if_neg (by simpa using free)))
  case statusBad =>
    rintro dt i s m rfl up supplied runs low
    exact awake_event s up ((islandStatusFrame_bad supplied runs).trans (countLinkError_below low))
  case linkHeld =>
    rintro dt i s m rfl up supplied rails used held other new ready listens late
    refine awake_event s up ((linkLost_island (Bool.eq_false_of_not_eq_true' rails) supplied
      (Bool.eq_false_of_not_eq_true' ready) (Bool.eq_false_of_not_eq_true' listens) late).trans (congrArg (followCond i) ?_))
    exact latch_held (Bool.eq_false_of_not_eq_true' used) (by rw [updIsland_island]; exact held)
      (by rw [updIsland_island]; exact other) (by rw [updIsland_island]; exact Bool.eq_false_of_not_eq_true' new)
  case linkFree =>
    rintro dt i s m rfl up supplied rails used free ready listens late
    refine awake_event s up ((linkLost_island (Bool.eq_false_of_not_eq_true' rails) supplied
      (Bool.eq_false_of_not_eq_true' ready) (Bool.eq_false_of_not_eq_true' listens) late).trans (congrArg (followCond i) ?_))
    exact latch_free (Bool.eq_false_of_not_eq_true' used)
      (by rw [updIsland_island]; exact Bool.eq_false_of_not_eq_true' free)
  case linkGdc =>
    rintro dt i s m rfl up rails on runs used free late
    refine awake_event s up ((linkLost_gdc (Bool.eq_false_of_not_eq_true' rails) on runs late).trans
      (congrArg (fun x => reportIsland i (followCond i x)) ?_))
    exact latch_free (Bool.eq_false_of_not_eq_true' used)
      (by rw [updIsland_island]; exact Bool.eq_false_of_not_eq_true' free)
  case uvloPos =>
    rintro dt i pos q s m rfl up supplied rfl seen used free rfl
    refine island_event s up supplied ((uvlo_rail supplied rfl).trans (congrArg (followCond i) ((if_pos seen).trans ?_)))
    rw [setRail_posLow]
    exact latch_free (Bool.eq_false_of_not_eq_true' used)
      (by rw [updIsland_island]; exact Bool.eq_false_of_not_eq_true' free)
  case uvloNeg =>
    rintro dt i pos q s m rfl up supplied neg watched seen used free rfl
    obtain rfl := Bool.eq_false_of_not_eq_true' neg
    refine island_event s up supplied ((uvlo_rail supplied (by rw [watched]; rfl)).trans
      (congrArg (followCond i) ((if_pos seen).trans ?_)))
    rw [setRail_negLow]
    exact latch_free (Bool.eq_false_of_not_eq_true' used)
      (by rw [updIsland_island]; exact Bool.eq_false_of_not_eq_true' free)
  case uvloUnseen =>
    rintro dt i pos s m rfl up supplied rfl unseen
    refine island_event s up supplied ((uvlo_rail supplied rfl).trans
      (congrArg (followCond i) ((if_neg (by simpa using unseen)).trans (setRail_posLow i _))))
  case recovery =>
    rintro dt i pos s m rfl up supplied
    exact island_event s up supplied (uvloRecovery_rail supplied pos)
  case timeoutPos =>
    rintro dt i s m rfl up supplied late unseen low used free
    exact island_event s up supplied ((railTimeout_pos supplied late (Bool.eq_false_of_not_eq_true' unseen)
      (Bool.eq_false_of_not_eq_true' low)).trans (congrArg (followCond i)
        (latch_free (Bool.eq_false_of_not_eq_true' used) (Bool.eq_false_of_not_eq_true' free))))
  case timeoutNeg =>
    rintro dt i s m rfl up supplied late unseen high low watched used free
    exact island_event s up supplied ((railTimeout_neg supplied late (Bool.eq_false_of_not_eq_true' unseen) high
      (Bool.eq_false_of_not_eq_true' low) watched).trans (congrArg (followCond i)
        (latch_free (Bool.eq_false_of_not_eq_true' used) (Bool.eq_false_of_not_eq_true' free))))
  case desat =>
    rintro dt i s m rfl up supplied used free on late
    exact island_event s up supplied ((desat_trips on late).trans
      (latch_free (Bool.eq_false_of_not_eq_true' used) (Bool.eq_false_of_not_eq_true' free)))
  case short =>
    rintro dt i s m rfl up supplied used free on late
    exact island_event s up supplied ((hardShort_trips on late).trans
      (latch_free (Bool.eq_false_of_not_eq_true' used) (Bool.eq_false_of_not_eq_true' free)))
  case stage =>
    rintro dt i s m rfl up supplied turning late low
    exact island_event s up supplied ((softStage_eq turning late).trans (if_pos low))
  case last =>
    rintro dt i s m rfl up supplied turning late high
    exact island_event s up supplied ((softStage_eq turning late).trans (if_neg (Nat.not_lt.2 high)))

end Sys2Proof.Machine

namespace Sys2Proof.Machine

/-! ## EN (R355) -/

theorem ready_of_driven {m : Module} (driven : m.driven = true) : m.atLeastReady = true := by
  simp only [Module.driven, Module.atLeastReady, decide_eq_true_eq] at driven ⊢
  omega

/-- Patterns leave the label: each function gets its pattern for GD_EN_OFF while the module is driven. -/
theorem foldl_setPattern_driven (l : List Func) {m : Module} (driven : m.driven = true) :
    l.foldl (fun m f => setPattern f .off (if m.driven then F.gdEnOff else 0) 0 m) m =
      l.foldl (fun m f => setPattern f .off F.gdEnOff 0 m) m := by
  induction l generalizing m with
  | nil => rfl
  | cons f fs ih =>
    have still : (setPattern f .off F.gdEnOff 0 m).driven = true := by
      rw [Module.driven, label_of_reactsOnly (setPattern_reactsOnly ..)]
      exact driven
    rw [List.foldl_cons, List.foldl_cons, if_pos driven, ih still]

theorem enFallen_asleep {m : Module} (asleep : m.atLeastReady = false) (still : m.supply.transition = none) :
    enFallen m = { m with supply := { m.supply with en := false, enFellAt := m.time.elapsed - 80 } } :=
  (enFallen_eq still).trans (if_pos (by rw [asleep]; rfl))

theorem enFallen_driven {m : Module} (driven : m.driven = true) (runs : m.dieRuns 7 = true)
    (still : m.supply.transition = none) :
    enFallen m = Func.all.foldl (fun x f => setPattern f .off F.gdEnOff 0 x) (raise F.gdEnOff 0 true (enLowOff m)) := by
  have after : (raise F.gdEnOff 0 true (enLowOff m)).driven = true := by
    rw [Module.driven, label_of_reactsOnly (raise_reactsOnly ..)]
    exact driven
  rw [enFallen_eq still, enFall_eq (ready_of_driven driven) runs, enLowOutputs, if_pos driven,
    foldl_setPattern_driven _ after]

section
variable {m : Module} (low : m.supply.en = false)
include low

theorem enRise_clears (ready : m.atLeastReady = true) (runs : m.dieRuns 7 = true)
    (long : Nat.max m.supply.enFellAt m.gate.enSeenAt + 4000 ≤ m.time.elapsed) : enRise m =
      (List.finRange 36).foldl (clearIsland (Nat.max m.supply.enFellAt m.gate.enSeenAt))
        { m with supply := { m.supply with en := true, enRoseAt := m.time.elapsed } } := by
  unfold enRise
  dsimp only
  rw [if_neg (Bool.eq_false_iff.1 low), decide_eq_false (Nat.not_lt.2 long), ready, runs, if_neg (by decide)]

theorem enRise_only (rest : (!m.atLeastReady || !m.dieRuns 7 ||
      m.time.elapsed < Nat.max m.supply.enFellAt m.gate.enSeenAt + 4000) = true) :
    enRise m = { m with supply := { m.supply with en := true, enRoseAt := m.time.elapsed } } := by
  refine (if_neg (Bool.eq_false_iff.1 low)).trans (if_pos ?_)
  rw [← rest]
  generalize decide (m.time.elapsed < Nat.max m.supply.enFellAt m.gate.enSeenAt + 4000) = short
  cases short <;> cases m.atLeastReady <;> cases m.dieRuns 7 <;> rfl

end

/-! ## Tests of the islands (R367, R371) -/

section
variable {m : Module}

/-- The test of an island ends with its findings; the reply crosses. -/
theorem islandSelftestDone_ends {desat hard pos neg sto : Bool} {i : Fin 36} (running : m.gate.test = 1)
    (named : i.val = m.gate.testIsland) {bad : Bool}
    (findings : bad = (desat || hard || pos || (neg && m.negMonitored i) || sto)) {q : Module}
    (replied_ : q = crossWords 5 1 (resolveWaiting [0x71] (· == 10 + i.val) 0 0
      [selftestWord desat hard pos (neg && m.negMonitored i) sto] { m with gate := { m.gate with test := 0 } })) :
    islandSelftestDone desat hard pos neg sto m = followCond i (if bad then
      latch i 6 false (updIsland i (fun x => { x with selftest := if bad then 2 else 1 }) q)
      else updIsland i (fun x => { x with selftest := if bad then 2 else 1 }) q) := by
  obtain rfl : i = ⟨m.gate.testIsland % 36, Nat.mod_lt _ (by decide)⟩ :=
    Fin.ext (named.trans (Nat.mod_eq_of_lt (named ▸ i.isLt)).symm)
  subst findings replied_
  exact if_neg (by rw [running]; decide)

theorem gateDiagStep_step {u v w : Word} (running : m.gate.test = 2)
    (settled : m.gate.testAt + 2000000 ≤ m.time.elapsed) (more : m.gate.diagStep < 3) :
    gateDiagStep u v w m = { m with gate := { m.gate with
      diagReadings := m.gate.diagReadings ++ [[u, v, w]], diagStep := m.gate.diagStep + 1,
      testAt := m.time.elapsed } } :=
  (if_neg (by rw [running, decide_eq_false (Nat.not_lt.2 settled)]; decide)).trans (if_pos more)

theorem gateDiagStep_last {u v w : Word} (running : m.gate.test = 2)
    (settled : m.gate.testAt + 2000000 ≤ m.time.elapsed) (last : m.gate.diagStep = 3) {rs : List (List Word)}
    (readings : rs = m.gate.diagReadings ++ [[u, v, w]]) : gateDiagStep u v w m =
      crossWords 5 1 (resolveWaiting [0x78] (fun _ => true) 0 0
        [diagWord rs m.gate.diagVdc, reading rs 1 0, reading rs 2 1, reading rs 3 2, m.gate.diagVdc]
        { m with gate := { m.gate with test := 0, diagReadings := rs } }) := by
  subst readings
  exact (if_neg (by rw [running, decide_eq_false (Nat.not_lt.2 settled)]; decide)).trans
    (if_neg (by rw [last]; decide))

/-! ## The pattern check (R582) -/

section
variable {i : Fin 36} (wanted : m.wantedBy i = some false) (healthy : (m.islands[i]).healthy = true)
  (supplied : m.islandSupplied i = true) (driven : m.driven = true)
include wanted healthy supplied driven

/-- An island that is on against its pattern: the first time is noted, the second removes the rails. -/
theorem patternVerify_on : patternVerify i true m =
    if (m.islands[i]).contradicted = 0 then updIsland i (fun x => { x with contradicted := 1 }) m
    else raise F.patternVerifyFail i.val true (updIsland i (fun x => { x with contradicted := 2 }) { m with
      supply := { m.supply with railsRemoved := true },
      islands := m.islands.map (fun x => { (Island.unpowered x) with
        state := if x.held then .latched else .disabled }) }) := by
  unfold patternVerify
  rw [wanted]
  dsimp only
  rw [healthy, supplied, driven]
  rfl

end

end

/-- Settles O50: each event takes the branch its hypotheses name. -/
theorem enableAndTestEventsComplete : Obligations.EnableAndTestEventsComplete := by
  refine ⟨?fallAsleep, ?fallDriven, ?riseClears, ?riseOnly, ?passed, ?failed, ?step, ?last, ?first, ?second⟩
  case fallAsleep =>
    rintro dt s m rfl asleep still
    exact event s (enFallen_asleep (Bool.eq_false_of_not_eq_true' asleep) still)
  case fallDriven =>
    rintro dt s m rfl driven runs still
    exact event s (enFallen_driven driven runs still)
  case riseClears =>
    rintro dt low s m rfl off ready runs rfl long
    exact event s (enRise_clears (Bool.eq_false_of_not_eq_true' off) ready runs long)
  case riseOnly =>
    rintro dt s m rfl off rest
    exact event s (enRise_only (Bool.eq_false_of_not_eq_true' off) rest)
  case passed =>
    rintro dt desat hard pos neg sto i q s m rfl up runs running named none_ replied_
    obtain ⟨⟨⟨⟨rfl, rfl⟩, rfl⟩, rfl⟩, rfl⟩ :
        (((desat = false ∧ hard = false) ∧ pos = false) ∧ neg = false) ∧ sto = false := by simpa using none_
    exact gdc_event s up runs (islandSelftestDone_ends (bad := false) running named rfl replied_)
  case failed =>
    rintro dt desat hard pos neg sto i q s m rfl up runs running named rfl replied_
    exact gdc_event s up runs (islandSelftestDone_ends (bad := true) running named
      (by simp only [Bool.true_or]) replied_)
  case step =>
    rintro dt u v w s m rfl up runs running settled more
    exact gdc_event s up runs (gateDiagStep_step running settled more)
  case last =>
    rintro dt u v w rs s m rfl up runs running settled last readings
    exact gdc_event s up runs (gateDiagStep_last running settled last readings)
  case first =>
    rintro dt i s m rfl up wanted healthy supplied driven first
    exact awake_event s up ((patternVerify_on wanted healthy supplied driven).trans (if_pos first))
  case second =>
    rintro dt i s m rfl up wanted healthy supplied driven again
    exact awake_event s up ((patternVerify_on wanted healthy supplied driven).trans (if_neg again))

end Sys2Proof.Machine

namespace Sys2Proof.Machine

/-! ## One actuator updated -/

theorem updActuator_actuator (a : Fin 4) (f : Actuator → Actuator) (m : Module) :
    (updActuator a f m).actuators[a] = f m.actuators[a] := getElem_upd_self ..

theorem updActuator_congr {a : Fin 4} {f g : Actuator → Actuator} {m : Module}
    (same : f m.actuators[a] = g m.actuators[a]) : updActuator a f m = updActuator a g m := by
  rw [updActuator, upd_congr same, updActuator]

section
variable {a : Fin 4} {m : Module}

/-! ## The carrier valley (R393 … R396) -/

section
variable {iu iv iw vax : Word} (valley : m.atValley a = true) (runs : m.dieRuns 7 = true) (valid : m.time.valid = true)
include valley runs valid

theorem carrierValley_off (off : m.bridgeOn a = false) : carrierValley a iu iv iw vax m =
    endCond F.axOvercurrent a.val (updActuator a (fun x => { x with
      uNow := x.u, duty := 0, current := 0, supply := vax, refreshing := Vector.replicate 3 false,
      refreshNext := Vector.replicate 3 false, legs := Vector.replicate 3 0, sinceRefresh := Vector.replicate 3 0,
      valleyAt := m.time.elapsed, lowSeen := m.time.elapsed, lowFrom := Vector.replicate 3 none,
      lowBest := Vector.replicate 3 0 }) m) :=
  (if_neg (by rw [valley, runs, valid]; decide)).trans (if_pos (by rw [off]; rfl))

/-- With the bridge on and a legal Hall state the currents are taken; a leg above the trip level trips the bridge. -/
theorem carrierValley_on {m1 : Module} {k : Vector Nat 3 × Vector Bool 3} (on : m.bridgeOn a = true)
    (followed : m1 = followLow a m) (legal : (hallPosition (m1.feedback[axPort a]).hallNow).isSome = true)
    (step : k = m1.refreshStep a) {trip : Bool} (trips : (List.finRange 3).any (fun j => m1.legValid a j &&
      F32.lt (m1.apar a P.axITrip) (F32.abs (#v[iu, iv, iw] : Vector Word 3)[j])) = trip) {n : Module}
    (turned : n = turnValley a k.1 k.2 vax
      (updActuator a (fun x => { x with current := bridgeCurrent x.legs #v[iu, iv, iw] }) m1)) :
    carrierValley a iu iv iw vax m = if trip then raise F.axOvercurrent a.val true n
      else if (List.finRange 3).any (fun j => (m1.actuators[a]).legs[j] == 2) then endCond F.axOvercurrent a.val n
      else n := by
  subst turned step
  refine (if_neg (by rw [valley, runs, valid]; decide)).trans ((if_neg (by rw [on]; decide)).trans ?_)
  dsimp only
  rw [← followed, legal, trips]
  rfl

end

/-! ## The bootstrap supplies and the position (R389, R397) -/

theorem bootUvlo_raises {leg : Fin 3} (runs : m.dieRuns 8 = true) : bootUvlo a leg m = raise F.axBootUvlo a.val true
    (updActuator a (fun x => { x with bootLow := x.bootLow ||| 2 ^ leg.val }) m) := if_neg (by rw [runs]; decide)

theorem bootRelease_last {leg : Fin 3} (only : (m.actuators[a]).bootLow = 2 ^ leg.val) :
    bootRelease a leg m = endCond F.axBootUvlo a.val (updActuator a (fun x => { x with bootLow := 0 }) m) := by
  have whole : updActuator a (fun x => { x with
        bootLow := if x.bootLow.testBit leg.val then x.bootLow - 2 ^ leg.val else x.bootLow }) m =
      updActuator a (fun x => { x with bootLow := 0 }) m := by
    refine updActuator_congr ?_
    rw [only, Nat.testBit_two_pow_self, if_pos rfl, Nat.sub_self]
  unfold bootRelease
  rw [whole]
  exact if_pos (by rw [updActuator_actuator])

theorem axPositionLost_raises (lost : m.axLost a = true) : axPositionLost a m =
    raise F.axPositionLost a.val false (updActuator a (fun x => { abandonAx x with homed := false }) m) :=
  if_neg (by rw [lost]; decide)

/-! ## Moves (R386 … R392) -/

section
variable (runs : m.movesRun a = true)
include runs

theorem homingStall_homes (homing : (m.actuators[a]).move = 3)
    (late : (m.actuators[a]).stepAt + m.aus a P.axStallTime ≤ m.time.elapsed) : homingStall a m =
      moveResult (updActuator a (fun x => { x with
        h0 := m.hallCount a, homed := true, move := 0, u := 0, nextClosed := some true }) m) :=
  if_neg (by rw [runs, homing, decide_eq_false (Nat.not_lt.2 late)]; decide)

theorem axMoveTimeout_torque (waiting : (m.actuators[a]).move = 1)
    (late : (m.actuators[a]).moveAt + m.aus a P.axTorqueWait ≤ m.time.elapsed) : axMoveTimeout a m =
      moveResult (raise F.axMoveTimeout a.val false (updActuator a (fun x => { x with move := 0 }) m)) :=
  (if_neg (by rw [runs]; decide)).trans (if_pos (by rw [waiting, decide_eq_true late]; rfl))

theorem axMoveTimeout_shift (moving : (m.actuators[a]).move = 2)
    (late : (m.actuators[a]).stepAt + m.aus a P.axMoveTimeout ≤ m.time.elapsed) : axMoveTimeout a m =
      moveResult (stopMove a m) :=
  (if_neg (by rw [runs]; decide)).trans ((if_neg (by rw [moving]; simp)).trans
    (if_pos (by rw [moving, decide_eq_true late]; rfl)))

theorem axMoveTimeout_homing (homing : (m.actuators[a]).move = 3)
    (late : (m.actuators[a]).moveAt + m.aus a P.axMoveTimeout ≤ m.time.elapsed) : axMoveTimeout a m =
      moveResult (raise F.axMoveTimeout a.val false (updActuator a abandonAx m)) :=
  (if_neg (by rw [runs]; decide)).trans ((if_neg (by rw [homing]; simp)).trans ((if_neg (by rw [homing]; simp)).trans
    (if_pos (by rw [homing, decide_eq_true late]; rfl))))

theorem moveComplete_ends (moving : (m.actuators[a]).move = 2)
    (settled : lasted m.time.elapsed (m.actuators[a]).settleSince (m.aus a P.axSettle) = true) : moveComplete a m =
      moveResult (updActuator a (fun x => { x with
        move := 0, gear := x.moveGear, clamp := false, settleSince := none }) m) :=
  if_pos (by rw [runs, moving, settled]; rfl)

end

end

/-- Settles O51: each event takes the branch its hypotheses name. -/
theorem actuatorEventsComplete : Obligations.ActuatorEventsComplete := by
  refine ⟨?hall, ?off, ?calm, ?ended, ?trips, ?uvlo, ?release, ?lost, ?stall, ?torque, ?shift, ?homing, ?complete⟩
  case hall =>
    rintro dt a m1 s m rfl up runs rfl
    exact gdc_event s up runs rfl
  case off =>
    rintro dt a iu iv iw vax s m rfl up valley runs valid off
    exact awake_event s up (carrierValley_off valley runs valid (Bool.eq_false_of_not_eq_true' off))
  case calm =>
    rintro dt a iu iv iw vax m1 k s m rfl up valley runs valid on followed legal step calm legs
    exact awake_event s up ((carrierValley_on valley runs valid on followed legal step
      (Bool.eq_false_of_not_eq_true' calm) rfl).trans ((if_neg Bool.false_ne_true).trans
      (if_neg (Bool.eq_false_iff.1 (Bool.eq_false_of_not_eq_true' legs)))))
  case ended =>
    rintro dt a iu iv iw vax m1 k s m rfl up valley runs valid on followed legal step calm legs
    exact awake_event s up ((carrierValley_on valley runs valid on followed legal step
      (Bool.eq_false_of_not_eq_true' calm) rfl).trans ((if_neg Bool.false_ne_true).trans (if_pos legs)))
  case trips =>
    rintro dt a iu iv iw vax m1 k s m rfl up valley runs valid on followed legal step trips
    exact awake_event s up ((carrierValley_on valley runs valid on followed legal step trips rfl).trans (if_pos rfl))
  case uvlo =>
    rintro dt a leg s m rfl up runs
    exact awake_event s up (bootUvlo_raises runs)
  case release =>
    rintro dt a leg s m rfl up only
    exact awake_event s up (bootRelease_last only)
  case lost =>
    rintro dt a s m rfl up lost
    exact awake_event s up (axPositionLost_raises lost)
  case stall =>
    rintro dt a s m rfl up runs homing late
    exact awake_event s up (homingStall_homes runs homing late)
  case torque =>
    rintro dt a s m rfl up runs waiting late
    exact awake_event s up (axMoveTimeout_torque runs waiting late)
  case shift =>
    rintro dt a s m rfl up runs moving late
    exact awake_event s up (axMoveTimeout_shift runs moving late)
  case homing =>
    rintro dt a s m rfl up runs homing late
    exact awake_event s up (axMoveTimeout_homing runs homing late)
  case complete =>
    rintro dt a s m rfl up runs moving settled
    exact awake_event s up (moveComplete_ends runs moving settled)

end Sys2Proof.Machine

namespace Sys2Proof.Machine

/-! ## One analog front end updated -/

theorem updAfe_congr {a : Fin 2} {f g : Afe → Afe} {m : Module} (same : f m.afe[a] = g m.afe[a]) :
    updAfe a f m = updAfe a g m := by
  rw [updAfe, upd_congr same, updAfe]

section
variable {a : Fin 2} {m : Module}

/-! ## Triggers and the queue (R405, R406, R411) -/

/-- The entries that the words of the due triggers make in the queue. -/
def newEntries (a : Fin 2) (m : Module) : List QueueEntry :=
  (byTrigger ((m.afe[a]).fired.filter (fun x => x.due m.time.count))).flatMap (fun x =>
    x.words.map (fun w => { word := w, cf0 := x.dest % 2 == 1, cf1 := x.dest / 2 % 2 == 1 }))

section
variable (runs : m.afeRuns a = true)
  (due : byTrigger ((m.afe[a]).fired.filter (fun x => x.due m.time.count)) ≠ [])
include runs due

theorem queueEntry_due : queueEntry a m = if ((m.afe[a]).queue ++ newEntries a m).length - 1024 = 0
    then updAfe a (fun f => { f with
      queue := ((m.afe[a]).queue ++ newEntries a m).drop (((m.afe[a]).queue ++ newEntries a m).length - 1024),
      discarded := satAdd 0xFFFFFFFF f.discarded (((m.afe[a]).queue ++ newEntries a m).length - 1024),
      fired := f.fired.filter (fun x => !x.due m.time.count) }) m
    else raise F.afeQueueDiscard (afeDetail a 0) false (updAfe a (fun f => { f with
      queue := ((m.afe[a]).queue ++ newEntries a m).drop (((m.afe[a]).queue ++ newEntries a m).length - 1024),
      discarded := satAdd 0xFFFFFFFF f.discarded (((m.afe[a]).queue ++ newEntries a m).length - 1024),
      fired := f.fired.filter (fun x => !x.due m.time.count) }) m) :=
  if_neg (by simpa [runs] using due)

theorem queueEntry_fits (fits : (m.afe[a]).queue.length + (newEntries a m).length ≤ 1024)
    (counted : (m.afe[a]).discarded ≤ 0xFFFFFFFF) : queueEntry a m = updAfe a (fun f => { f with
      queue := (m.afe[a]).queue ++ newEntries a m, fired := f.fired.filter (fun x => !x.due m.time.count) }) m := by
  have none_over : ((m.afe[a]).queue ++ newEntries a m).length - 1024 = 0 := by rw [List.length_append]; omega
  rw [queueEntry_due runs due, if_pos none_over, none_over]
  refine updAfe_congr ?_
  rw [List.drop_zero, show satAdd 0xFFFFFFFF (m.afe[a]).discarded 0 = (m.afe[a]).discarded from Nat.min_eq_right counted]

theorem queueEntry_discards {d : Nat} (surplus : d = ((m.afe[a]).queue ++ newEntries a m).length - 1024) (some_go : d ≠ 0) :
    queueEntry a m = raise F.afeQueueDiscard (afeDetail a 0) false (updAfe a (fun f => { f with
      queue := ((m.afe[a]).queue ++ newEntries a m).drop d, discarded := satAdd 0xFFFFFFFF f.discarded d,
      fired := f.fired.filter (fun x => !x.due m.time.count) }) m) := by
  rw [queueEntry_due runs due, ← surplus, if_neg some_go]

end

/-! ## Slices (R413 … R415) -/

theorem sliceRotation_turns {i o : Fin 20} (runs : m.afeRuns a = true)
    (due : ((m.afe[a]).sweep || decide ((m.afe[a]).rotatedAt + F32.usTicks (m.par (P.afeRotateInterval + 0x400 * a.val)) ≤
      m.time.elapsed)) = true) (healthy : 19 ≤ (m.afe[a]).healthy)
    (spare : (m.afe[a]).pick (fun x => !x.failed && x.position.isNone && !x.calibrating) true = some i)
    (oldest : (m.afe[a]).pick (fun x => x.position.isSome && !x.failed && (!(m.afe[a]).sweep || x.sweepDue)) false = some o)
    (idle : m.positionIdle a ⟨((m.afe[a]).slices[o]).position.getD 0 % 18, Nat.mod_lt _ (by decide)⟩ = true) :
    sliceRotation a m = updAfe a (fun f => { f with
      rotatedAt := m.time.elapsed
      slices := Vector.upd (Vector.upd f.slices o
        (fun x => { x with position := none, calibrating := true, rotated := false })) i
        (fun x => { x with position := ((m.afe[a]).slices[o]).position, seen := 0, rotated := true }) }) m := by
  refine (if_neg ?_).trans ?_
  · rw [runs, due, decide_eq_false (Nat.not_lt.2 healthy)]
    decide
  · dsimp only
    rw [spare, oldest]
    exact if_neg (by rw [idle]; decide)

section
variable {i : Fin 20} {gain offset inl : Word} (runs : m.afeRuns a = true)
  (calibrating : ((m.afe[a]).slices[i]).calibrating = true) (sound : ((m.afe[a]).slices[i]).failed = false)
include runs calibrating sound

theorem sliceCalibrated_good (good : sliceGood gain offset inl = true) : sliceCalibrated a i gain offset inl m =
    updAfe a (fun f => endSweep { f with slices := Vector.upd f.slices i (fun x => { x with
      calibrating := false, calibratedAt := m.time.elapsed, sweepDue := false, gain := gain, offset := offset }) }) m :=
  (if_neg (by rw [runs, calibrating, sound]; decide)).trans (if_pos good)

/-- A slice that fails its calibration is reported by what is left: no slice too many, no spare, or a position lost. -/
theorem sliceCalibrated_bad (bad : sliceGood gain offset inl = false) {m1 : Module}
    (made : m1 = updAfe a (fun f => endSweep { f with slices := Vector.upd f.slices i (fun x => { x with
      calibrating := false, failed := true, sweepDue := false }) }) m) : sliceCalibrated a i gain offset inl m =
    raise (if (m1.afe[a]).healthy ≤ 17 then F.afeSliceLost else if (m1.afe[a]).healthy = 18 then F.afeNoSpare
      else F.afeSliceFail) (afeDetail a i.val) false m1 := by
  subst made
  exact (if_neg (by rw [runs, calibrating, sound]; decide)).trans (if_neg (by rw [bad]; decide))

end

/-! ## Modulators, detectors and comparators (R420 … R430) -/

theorem sdLost_raises {i : Fin 4} (runs : m.afeRuns a = true) (used : (m.sdFuncs a.val i.val).any m.enabled = true) :
    sdLost a i m = raise F.afeSdLost (afeDetail a i.val) true (updAfe a (fun f => { f with
      sdLost := f.sdLost ||| 2 ^ i.val
      detectors := Vector.ofFn (fun k => if k.val / 2 = i.val && m.sdOn a i.val then { f.detectors[k] with decision := 2 }
        else f.detectors[k]) }) m) :=
  (if_neg (by rw [runs]; decide)).trans (if_pos used)

theorem sdRecovered_ends {i : Fin 4} (lost : ((m.afe[a]).sdLost).testBit i.val = true) : sdRecovered a i m =
    endCond F.afeSdLost (afeDetail a i.val) (updAfe a (fun f => { f with sdLost := f.sdLost - 2 ^ i.val }) m) := by
  refine congrArg (endCond F.afeSdLost (afeDetail a i.val)) (updAfe_congr ?_)
  rw [if_pos lost]

theorem detectorTrip_decides {k : Fin 8} {window : Nat} (runs : m.afeRuns a = true) (on : m.sdOn a (k.val / 2) = true)
    (free : ((m.afe[a]).detectors[k]).underTest = false) (fresh : ((m.afe[a]).detectors[k]).decision ≠ 2)
    (trips : m.sdTrips a (k.val / 2) window = true) : detectorTrip a k window m =
      if m.drives a true k.val (m.afe[a]).detectors[k] then
        reportTrip (F.afeSdOvercurrent, afeDetail a (k.val / 2)) (updDetector a k (fun x => { x with decision := 2 }) m)
      else updDetector a k (fun x => { x with decision := 2 }) m :=
  if_neg (by rw [runs, on, free, trips, decide_eq_false fresh]; decide)

theorem comparatorTrip_decides {k : Fin 32} {levels : List Word} (runs : m.afeRuns a = true)
    (protects : cmpRole a.val k.val = 1) (free : ((m.afe[a]).comparators[k]).underTest = false)
    (fresh : ((m.afe[a]).comparators[k]).decision ≠ 2) (trips : m.cmpDecides a k.val true levels = true) :
    comparatorTrip a k levels m = if m.drives a false k.val (m.afe[a]).comparators[k] then
        reportTrip (comparatorFault a k.val) (updComparator a k (fun x => { x with decision := 2 }) m)
      else updComparator a k (fun x => { x with decision := 2 }) m :=
  if_neg (by rw [runs, protects, free, trips, decide_eq_false fresh]; decide)

theorem comparatorRelease_decides {k : Fin 32} {levels : List Word} (runs : m.afeRuns a = true)
    (role : cmpRole a.val k.val ≠ 0) (free : ((m.afe[a]).comparators[k]).underTest = false)
    (clear : (if cmpRole a.val k.val == 2 then m.diBelow (k.val - 18) levels else m.cmpDecides a k.val false levels) = true) :
    comparatorRelease a k levels m = settleTrip a false k.val (updComparator a k (fun x => { x with decision := 1 }) m) :=
  if_neg (by rw [runs, free, clear, beq_false_of_ne role]; decide)

theorem detectorRelease_decides {k : Fin 8} {window : Nat} (runs : m.afeRuns a = true) (on : m.sdOn a (k.val / 2) = true)
    (alive : ((m.afe[a]).sdLost).testBit (k.val / 2) = false) (free : ((m.afe[a]).detectors[k]).underTest = false)
    (clear : m.sdReleases a (k.val / 2) window = true) :
    detectorRelease a k window m = settleTrip a true k.val (updDetector a k (fun x => { x with decision := 1 }) m) :=
  if_neg (by rw [runs, on, alive, free, clear]; decide)

theorem settleTrip_comparator_ends {k : Nat} (protects : cmpRole a.val k = 1)
    (last : m.faultStands a (comparatorFault a k) = false) :
    settleTrip a false k m = endCond (comparatorFault a k).1 (comparatorFault a k).2 m :=
  (if_neg Bool.false_ne_true).trans (if_neg (by rw [protects, last]; decide))

theorem settleTrip_regulation {k : Nat} (regulates : cmpRole a.val k = 2) : settleTrip a false k m = m :=
  (if_neg Bool.false_ne_true).trans (if_pos (by rw [regulates]; rfl))

theorem settleTrip_detector {k : Nat} : settleTrip a true k m =
    if m.detectorStands a (k / 2) then m else endCond F.afeSdOvercurrent (afeDetail a (k / 2)) m := if_pos rfl

/-! ## Twin tests (R431, R432, R596) -/

/-- The reply of a twin test: the word answers the waiting command and crosses to the supervisor. -/
def answerTwin (a : Fin 2) (k : TwinTest) (w : Word) (m : Module) : Module :=
  crossWords (if a.val = 0 then 1 else 3) 1 (resolveWaiting [0x71] (· == twinTarget a k.detector) 0 0 [w] m)

section
variable {k : TwinTest} {reads : List Bool} (runs : m.afeRuns a = true) (test : (m.afe[a]).test = some k)
include runs test

theorem twinTestDone_tests (first : k.passed = false) : twinTestDone a reads m =
    if k.fails reads 2 || k.fails reads 1 || k.fails reads 0 then
      answerTwin a k (twinWord false (k.fails reads 2) (k.fails reads 1) (k.fails reads 0))
        (raise F.afeTwinFail (afeDetail a (if k.detector then k.index / 2 else k.index)) false (updAfe a (fun f =>
          { updPair k (fun x => { x with failed := true, underTest := false }) id f with test := none }) m))
    else if !k.detector && cmpRole a.val k.index == 2 then
      answerTwin a k (twinWord false false false false) (updAfe a (fun f =>
        { updPair k (fun x => { x with underTest := false, decision := 1 }) id f with test := none }) m)
    else updAfe a (fun f => { updPair k (fun x => { x with underTest := false, decision := 1 }) id f with
      test := some { k with passed := true, at_ := m.time.elapsed } }) m := by
  unfold twinTestDone
  rw [test]
  exact (if_neg (by rw [runs]; decide)).trans (if_neg (by rw [first]; decide))

theorem twinTestDone_swaps (passed : k.passed = true)
    (late : k.at_ + 32 * m.samplePeriod a k.detector (k.index / 2) ≤ m.time.elapsed) : twinTestDone a reads m =
    answerTwin a k (twinWord true false false false)
      (endCond F.twinTestOverdue (afeDetail a (if k.detector then k.index / 2 else k.index / 2 * 2))
        (settleTrip a k.detector k.index (updAfe a (fun f =>
          { updPair k (fun x => { x with active := true, passedAt := m.drivenTime })
              (fun x => { x with active := false, passedAt := m.drivenTime }) f with test := none }) m))) := by
  unfold twinTestDone
  rw [test]
  exact (if_neg (by rw [runs]; decide)).trans ((if_pos passed).trans (if_neg (Nat.not_lt.2 late)))

end

theorem twinOverdue_comparator {pair : Nat} (limited : m.us P.safetyTwinTestInterval ≠ 0)
    (protects : cmpRole a.val (2 * pair) = 1) (used : (comparatorFuncs a (2 * pair)).any m.enabled = true)
    (late : (m.afe[a].comparators.toList.getD (2 * pair) (Member.init false)).passedAt + m.us P.safetyTwinTestInterval <
      m.drivenTime) : twinOverdue a false pair m = raise F.twinTestOverdue (afeDetail a (2 * pair)) true m :=
  if_neg (by
    rw [if_neg Bool.false_ne_true, if_neg Bool.false_ne_true, used, protects, decide_eq_false limited,
      decide_eq_false (Nat.not_le.2 late)]
    decide)

end

/-- Settles O52: each event takes the branch its hypotheses name. -/
theorem analogEventsComplete : Obligations.AnalogEventsComplete := by
  refine ⟨?trigger, ?fits, ?discards, ?rotation, ?calibrated, ?failed, ?noSpare, ?sliceLost, ?modulator, ?recovery,
    ?detector, ?idleDetector, ?comparator, ?idleComparator, ?release, ?regulation, ?detectorEnds, ?detectorStands,
    ?passes, ?lone, ?fails, ?swaps, ?overdue⟩
  case trigger =>
    rintro dt a t sar pv sd ports m1 k s m rfl up runs due rfl rfl rfl
    exact awake_event s up (if_neg (by rw [runs, due]; decide))
  case fits =>
    rintro dt a due new s m rfl up runs rfl some_due rfl fits counted
    exact awake_event s up (queueEntry_fits runs some_due fits counted)
  case discards =>
    rintro dt a due new d s m rfl up runs rfl some_due rfl surplus some_go
    exact awake_event s up (queueEntry_discards runs some_due surplus some_go)
  case rotation =>
    rintro dt a i o s m rfl up runs due healthy spare oldest idle
    exact awake_event s up (sliceRotation_turns runs (by simpa using due) healthy spare oldest idle)
  case calibrated =>
    rintro dt a i gain offset inl s m rfl up runs calibrating sound good
    exact awake_event s up (sliceCalibrated_good runs calibrating (Bool.eq_false_of_not_eq_true' sound) good)
  case failed =>
    rintro dt a i gain offset inl m1 s m rfl up runs calibrating sound bad made left
    refine awake_event s up ((sliceCalibrated_bad runs calibrating (Bool.eq_false_of_not_eq_true' sound)
      (Bool.eq_false_of_not_eq_true' bad) made).trans ?_)
    rw [if_neg (by omega), if_neg (by omega)]
  case noSpare =>
    rintro dt a i gain offset inl m1 s m rfl up runs calibrating sound bad made left
    refine awake_event s up ((sliceCalibrated_bad runs calibrating (Bool.eq_false_of_not_eq_true' sound)
      (Bool.eq_false_of_not_eq_true' bad) made).trans ?_)
    rw [if_neg (by omega), if_pos left]
  case sliceLost =>
    rintro dt a i gain offset inl m1 s m rfl up runs calibrating sound bad made left
    refine awake_event s up ((sliceCalibrated_bad runs calibrating (Bool.eq_false_of_not_eq_true' sound)
      (Bool.eq_false_of_not_eq_true' bad) made).trans ?_)
    rw [if_pos (by omega)]
  case modulator =>
    rintro dt a i m1 s m rfl up runs rfl used
    exact awake_event s up (sdLost_raises runs used)
  case recovery =>
    rintro dt a i s m rfl up lost
    exact awake_event s up (sdRecovered_ends lost)
  case detector =>
    rintro dt a k window s m rfl up runs on free fresh trips drives
    exact awake_event s up ((detectorTrip_decides runs on (Bool.eq_false_of_not_eq_true' free) fresh trips).trans
      (if_pos drives))
  case idleDetector =>
    rintro dt a k window s m rfl up runs on free fresh trips idle
    exact awake_event s up ((detectorTrip_decides runs on (Bool.eq_false_of_not_eq_true' free) fresh trips).trans
      (if_neg (Bool.eq_false_iff.1 (Bool.eq_false_of_not_eq_true' idle))))
  case comparator =>
    rintro dt a k levels s m rfl up runs protects free fresh trips drives
    exact awake_event s up ((comparatorTrip_decides runs protects (Bool.eq_false_of_not_eq_true' free) fresh trips).trans
      (if_pos drives))
  case idleComparator =>
    rintro dt a k levels s m rfl up runs protects free fresh trips idle
    exact awake_event s up ((comparatorTrip_decides runs protects (Bool.eq_false_of_not_eq_true' free) fresh trips).trans
      (if_neg (Bool.eq_false_iff.1 (Bool.eq_false_of_not_eq_true' idle))))
  case release =>
    rintro dt a levels window k m1 s m rfl up runs protects free clear rfl last
    refine awake_event s up ((comparatorRelease_decides runs (by rw [protects]; decide)
      (Bool.eq_false_of_not_eq_true' free) ?_).trans
      (settleTrip_comparator_ends protects (Bool.eq_false_of_not_eq_true' last)))
    rw [protects]
    exact clear
  case regulation =>
    rintro dt a levels window k s m rfl up runs regulates free below
    refine awake_event s up ((comparatorRelease_decides runs (by rw [regulates]; decide)
      (Bool.eq_false_of_not_eq_true' free) ?_).trans (settleTrip_regulation regulates))
    rw [regulates]
    exact below
  case detectorEnds =>
    rintro dt a levels window k m1 s m rfl up runs on alive free clear rfl last
    exact awake_event s up ((detectorRelease_decides runs on (Bool.eq_false_of_not_eq_true' alive)
      (Bool.eq_false_of_not_eq_true' free) clear).trans (settleTrip_detector.trans
      (if_neg (Bool.eq_false_iff.1 (Bool.eq_false_of_not_eq_true' last)))))
  case detectorStands =>
    rintro dt a levels window k m1 s m rfl up runs on alive free clear rfl stands
    exact awake_event s up ((detectorRelease_decides runs on (Bool.eq_false_of_not_eq_true' alive)
      (Bool.eq_false_of_not_eq_true' free) clear).trans (settleTrip_detector.trans (if_pos stands)))
  case passes =>
    rintro dt a reads k s m rfl up runs test first r0 r1 r2 paired
    refine awake_event s up ((twinTestDone_tests runs test (Bool.eq_false_of_not_eq_true' first)).trans
      ((if_neg ?_).trans (if_neg ?_)))
    · rw [Bool.eq_false_of_not_eq_true' r0, Bool.eq_false_of_not_eq_true' r1, Bool.eq_false_of_not_eq_true' r2]
      decide
    · rintro lone
      obtain ⟨single, regulates⟩ := Bool.and_eq_true_iff.1 lone
      rw [Bool.eq_false_of_not_eq_true' single, Bool.false_or] at paired
      exact of_decide_eq_true paired (eq_of_beq regulates)
  case lone =>
    rintro dt a reads k s m rfl up runs test first r0 r1 r2 single regulates
    refine awake_event s up ((twinTestDone_tests runs test (Bool.eq_false_of_not_eq_true' first)).trans
      ((if_neg ?_).trans (if_pos ?_)))
    · rw [Bool.eq_false_of_not_eq_true' r0, Bool.eq_false_of_not_eq_true' r1, Bool.eq_false_of_not_eq_true' r2]
      decide
    · rw [single, regulates]
      rfl
  case fails =>
    rintro dt a reads k s m rfl up runs test first wrong
    exact awake_event s up ((twinTestDone_tests runs test (Bool.eq_false_of_not_eq_true' first)).trans (if_pos wrong))
  case swaps =>
    rintro dt a reads k s m rfl up runs test passed late
    exact awake_event s up (twinTestDone_swaps runs test passed late)
  case overdue =>
    rintro dt a detector pair s m rfl up single limited protects used late
    rw [Bool.eq_false_of_not_eq_true' single]
    exact awake_event s up (twinOverdue_comparator limited protects used late)

end Sys2Proof.Machine

namespace Sys2Proof.Machine

/-- An epoch with another identifier for the commands on CN1 was left at count 1: a frame that began at count 0 completes
under it (R470), and the identifier of the present epoch finds no element. -/
def switchedMidFrame : Module :=
  { tReady with epochs := { tReady.epochs with lastSwitch := 1, previous := factoryImage.write P.cn1ReqId 1 } }

/-- The module carries the frame, which has the identifier of the ACTIVE epoch, and the FIFO has room. -/
theorem switchedMidFrame_meets :
    (advance 0 switchedMidFrame).up = true ∧ (advance 0 switchedMidFrame).dieRuns 0 = true ∧
    (advance 0 switchedMidFrame).dieRuns 6 = true ∧ ((advance 0 switchedMidFrame).can[(1 : Fin 4)]).active = true ∧
    tFrame.ident = (advance 0 switchedMidFrame).num P.cn1ReqId ∧
    (tFrame.extended == ((advance 0 switchedMidFrame).num P.cn1Ext == 1)) = true ∧
    ((takeFrames 0 0 ((advance 0 switchedMidFrame).can[(1 : Fin 4)]).goodReceive.rx).filter (fun x => x.1 == 0)).length < 32 := by
  decide +kernel

/-- The frame is filtered under the epoch it began in and reaches no FIFO. -/
theorem switchedMidFrame_filtered :
    (((canFrame 1 tFrame 0 0 (advance 0 switchedMidFrame)).can[(1 : Fin 4)]).rx).length = 0 := by decide +kernel

theorem became_inj {m n : Module} {s : State} (same : became m s = became n s) : m = n := by
  injection same with states
  exact congrArg State.mod states

theorem exec_canFrameReceived {dt : Nat} {p : Fin 4} {f : CanFrame} {stamp : Tick} {taken : Nat} (s : State)
    (up : (advance dt s.mod).up = true) (sup : (advance dt s.mod).dieRuns 0 = true)
    (phy : (advance dt s.mod).dieRuns 6 = true) :
    exec (.canFrameReceived dt p f stamp taken) s = became (canFrame p f stamp taken (advance dt s.mod)) s :=
  bus_event s up sup phy rfl

theorem noteEvent_can (i : Fin 22) (m : Module) : (noteEvent i m).can = m.can := rfl

/-- Refutes O53: a frame on CN1 with the identifier of the ACTIVE epoch is not stored where it began before the last
switch and the epoch of then names another identifier (R470). -/
theorem not_busEventsComplete : ¬ Obligations.BusEventsComplete := by
  rintro ⟨-, stored, -⟩
  obtain ⟨up, sup, phy, active, ident, extended, room⟩ := switchedMidFrame_meets
  have kept := stored 0 tFrame 0 0 _ ⟨switchedMidFrame, []⟩ _ rfl up sup phy active rfl rfl (by decide) ident extended room
  rw [exec_canFrameReceived ⟨switchedMidFrame, []⟩ up sup phy] at kept
  have filtered := switchedMidFrame_filtered
  rw [became_inj kept, noteEvent_can, updCan_can, getElem_upd_self, List.length_append,
    List.length_singleton] at filtered
  exact absurd filtered (Nat.add_one_ne_zero _)

end Sys2Proof.Machine

namespace Sys2Proof.Machine

section
variable {m : Module}

/-! ## Frames of the axle link (R460 … R466) -/

theorem hearFrame_straps (p : Fin 2) (n : Fin 16) : (hearFrame p n m).straps = m.straps := by
  unfold hearFrame
  dsimp only
  split_ifs <;> rfl

theorem axleFrame_perPort {p : Fin 2} {n : Fin 16} {seq : Byte} {k : AxlePayload} (up : m.up = true)
    (each : perPort k = true) : axleFrame p n seq k m = axlePayload p n seq k (hearFrame p n m) :=
  (if_neg (of_decide_eq_false (not_down up))).trans (if_pos each)

/-- A payload that both ports carry is taken from the copy that comes first. -/
theorem axleFrame_first {p : Fin 2} {n : Fin 16} {seq : Byte} {k : AxlePayload} (up : m.up = true)
    (shared : perPort k = false) (fresh : (hearFrame p n m).copySeen (payloadId n k) n.val seq.toNat = false) :
    axleFrame p n seq k m =
      axlePayload p n seq k (noteCopy (payloadId n k) n.val seq.toNat (hearFrame p n m)) :=
  (if_neg (of_decide_eq_false (not_down up))).trans ((if_neg (by rw [shared]; decide)).trans
    (if_neg (by rw [fresh]; decide)))

theorem axlePayload_sync {p : Fin 2} {n : Fin 16} {seq : Byte} {rx : Tick} (tail : m.isHead = false) :
    axlePayload p n seq (.sync rx) m = syncArrives p seq.toNat rx (headHeard m) := if_neg (by rw [tail]; decide)

theorem axlePayload_alloc {p : Fin 2} {n : Fin 16} {seq : Byte} {high : Bool} {mask : BitVec 8} {instant : Tick}
    {shares : List (Word × Word)} (tail : m.isHead = false) : axlePayload p n seq (.alloc high mask instant shares) m =
      allocArrives high mask.toNat instant shares (headHeard m) := if_neg (by rw [tail]; decide)

theorem axlePayload_status {p : Fin 2} {n : Fin 16} {seq : Byte} {flags patterns cls : BitVec 8} {epoch crc : Word}
    {setCrc : Option Word} (other : n ≠ m.straps.node) :
    axlePayload p n seq (.status flags patterns cls epoch crc setCrc) m = noteStatus n flags epoch setCrc m :=
  if_neg (by rw [beq_false_of_ne other]; decide)

theorem axlePayload_event {p : Fin 2} {n : Fin 16} {seq : Byte} {causes : BitVec 8} {instant : Tick}
    (tail : (m.sys.nodes[n]).head = false) : axlePayload p n seq (.event causes instant) m =
      nodeEvent n causes.toNat instant m :=
  congrArg (nodeEvent n causes.toNat instant) (if_neg (by rw [tail]; decide))

theorem not_and_of_not_or_not {x y : Bool} (either : (!x || !y) = true) : ¬ (x && y) = true := by
  rw [← Bool.not_and, Bool.not_eq_true'] at either
  rw [either]
  decide

theorem portDown_one {p : Fin 2} {q : Fin 4} {m1 : Module} (port : q = ⟨p.val + 2, by omega⟩)
    (was : (m.can[q]).down = false) (off : (m.can[q]).isOff = true)
    (made : m1 = raise F.alPortDown q.val true
      (updCan q (fun c => { c with down := true }) { m with sys := { m.sys with lastDown := q.val } }))
    (left : (!(m1.can[(2 : Fin 4)]).down || !(m1.can[(3 : Fin 4)]).down) = true) : portDown p m = m1 := by
  subst port made
  refine (if_neg ?_).trans (if_neg ?_)
  · rw [was, off, Bool.true_or]
    decide
  · exact not_and_of_not_or_not left

/-! ## Time agreement (R476 … R487) -/

section
variable (up : m.up = true)
include up

theorem syncSend_frame (head : m.isHead = true) (due : m.time.count.toNat % m.num P.alSyncPeriod = 0) : syncSend m =
    if m.num P.tsMode = 3 then emit (.tsPulse 100) (strobe 12 (updSys (fun x => { x with tsUntil := m.time.elapsed + 100 })
      (offerAxle 0x010 true [0, 0, 0] none m)))
    else offerAxle 0x010 true [0, 0, 0] none m :=
  if_neg (by rw [head, not_down up, due]; decide)

theorem syncReceived_follows {p : Fin 2} {n : Fin 16} {seq answered : Byte} {rx tx : Tick} {gap : Nat}
    (tail : m.isHead = false) (near : gap ≤ m.num P.alSyncPeriod) : syncReceived p n seq answered rx tx gap m =
      syncFuArrives p answered.toNat tx (syncArrives p seq.toNat rx (headHeard (hearFrame p n m))) :=
  (if_neg (by rw [tail, not_down up]; decide)).trans (if_pos near)

theorem wiredEdge_slewing {edge nearest : Nat} {xs : List Rat} (tail : m.isHead = false) (wired : m.num P.tsMode = 2)
    (slewing : m.sys.timeState = .slewing)
    (at_ : nearest = (edge + 5 * m.num P.alSyncPeriod) / (10 * m.num P.alSyncPeriod) * m.num P.alSyncPeriod)
    (offsets : xs = last8 (m.sys.wired ++
      [(edge : Rat) / 10 - (nearest : Rat) - F32.rat (m.par P.sysTsCableDelay) / (5 / 2)])) :
    wiredEdge edge m = updSys (fun x => { x with
      wired := xs, missingPulses := 0, wiredCount := if ratAbs (mean xs) ≤ 2 then x.wiredCount + 1 else 0 })
      (noteEvent 13 m) := by
  subst at_ offsets
  refine (if_neg (by rw [tail, wired, not_down up]; decide)).trans ?_
  dsimp only
  rw [show (noteEvent 13 m).sys = m.sys from rfl, slewing]
  simp only [decide_eq_true_eq]
  rfl

theorem statusSend_due (heard : m.axleSilent = false) (due : m.statusDue = true) (alone : m.sys.nodeConflict = false) :
    statusSend m = updSys (fun x => { x with statusAt := some m.time.elapsed })
      (offerAxle (0x080 + m.straps.node.val) false (statusBytes m) none m) := by
  refine (if_neg (by rw [heard, not_down up, due]; decide)).trans ?_
  dsimp only
  rw [alone]
  rfl

theorem eventSend_due (heard : m.axleSilent = false) (some_cause : m.sys.causes ≠ 0) : eventSend m =
    updSys (fun x => { x with causes := 0, causeAt := 0 }) (offerAxle m.straps.node.val false
      ([BitVec.ofNat 8 m.sys.causes, 0, 0] ++ tickBytes m.sys.causeAt) none m) :=
  if_neg (by rw [heard, not_down up, decide_eq_false some_cause]; decide)

end

theorem wiredMissing_unlocks (tail : m.isHead = false) (wired : m.num P.tsMode = 2)
    (locked : m.sys.timeState = .wiredLock) : wiredMissing m =
      enterTime .linkLock (updSys (fun x => { x with wired := [], wiredCount := 0 }) m) :=
  (if_neg (by rw [tail, wired]; decide)).trans (if_pos locked)

theorem syncHoldover_ends (tail : m.isHead = false) (locked : m.sys.timeState ≠ .unlocked)
    (late : m.sys.sampleAt + m.us P.sysSyncHoldover ≤ m.time.elapsed) : syncHoldover m = enterTime .unlocked m :=
  if_neg (by rw [tail, beq_false_of_ne locked, decide_eq_false (Nat.not_lt.2 late)]; decide)

theorem listenEnd_ends (listening : m.sys.listening = true)
    (late : m.sys.listenAt + 2 * m.num P.alStatusPeriod ≤ m.time.elapsed) :
    listenEnd m = updSys (fun x => { x with listening := false }) m :=
  if_pos (by rw [listening, decide_eq_true late]; rfl)

section
variable {x : Measurement} (running : m.sys.measurement = some x)
include running

theorem delayProbe_finish {d : Rat} (all : m.num P.sysDelaySamples + 1 ≤ x.sent)
    (delay : x.delay (m.num P.sysDelaySamples) = some d) : delayProbe .finish m =
      emit (.pathDelay (x.nodes.headD 0) (2 + x.port) d) (updSys (fun y => { y with measurement := x.next }) m) := by
  unfold delayProbe
  dsimp only
  rw [running]
  refine (if_neg (Nat.not_lt.2 all)).trans ?_
  rw [delay]

theorem delayProbe_send {t1 : Tick} (head : m.isHead = true) (heard : m.axleSilent = false)
    (more : x.sent ≤ m.num P.sysDelaySamples) (spaced : x.sent = 0 ∨ x.sentAt + 400000 ≤ m.time.elapsed) :
    delayProbe (.send t1) m = bumpSeq (0x100 + x.nodes.headD 0)
      (offer (if x.port = 0 then 2 else 3) 0 15 (0x100 + x.nodes.headD 0) false
        (BitVec.ofNat 8 (m.seqOf (0x100 + x.nodes.headD 0)) ::
          (segments 109 110 ((probeWords x.sent).flatMap wordBytes)).headD []) none
        (updSys (fun y => { y with measurement := some { x with
          sent := x.sent + 1, sentAt := m.time.elapsed
          stamps := x.stamps ++ [(some (m.stampOf t1), none, none, none)] } }) m)) := by
  unfold delayProbe
  dsimp only
  rw [running]
  refine if_neg ?_
  simp only [head, heard, Bool.not_true, Bool.false_or, Bool.or_eq_true, Bool.and_eq_true, decide_eq_true_eq, bne_iff_ne]
  omega

end

end

/-- Settles O54: each event takes the branch its hypotheses name. -/
theorem axleLinkEventsComplete : Obligations.AxleLinkEventsComplete := by
  refine ⟨?sync, ?status, ?event, ?alloc, ?down, ?pulse, ?syncSend, ?received, ?edge, ?missing, ?holdover, ?listen,
    ?statusSend, ?eventSend, ?finish, ?send, ?delay⟩
  case sync =>
    rintro dt p n seq rx s m rfl up sup phy tail
    refine bus_event s up sup phy ((axleFrame_perPort up rfl).trans (axlePayload_sync ?_))
    rw [Module.isHead, hearFrame_straps]
    exact Bool.eq_false_of_not_eq_true' tail
  case status =>
    rintro dt p n seq flags patterns cls epoch crc setCrc s m rfl up sup phy other fresh
    refine bus_event s up sup phy ((axleFrame_first up rfl (Bool.eq_false_of_not_eq_true' fresh)).trans
      (axlePayload_status ?_))
    rw [← hearFrame_straps p n] at other
    exact other
  case event =>
    rintro dt p n seq causes instant m1 s m rfl up sup phy rfl fresh tail
    exact bus_event s up sup phy ((axleFrame_first up rfl (Bool.eq_false_of_not_eq_true' fresh)).trans
      (axlePayload_event (Bool.eq_false_of_not_eq_true' tail)))
  case alloc =>
    rintro dt p n seq mask instant shares s m rfl up sup phy tail fresh
    refine bus_event s up sup phy ((axleFrame_first up rfl (Bool.eq_false_of_not_eq_true' fresh)).trans
      (axlePayload_alloc ?_))
    rw [Module.isHead, ← hearFrame_straps p n] at tail
    exact Bool.eq_false_of_not_eq_true' tail
  case down =>
    rintro dt p q m1 s m rfl up sup phy port was off made left
    exact bus_event s up sup phy (portDown_one port (Bool.eq_false_of_not_eq_true' was) off made left)
  case pulse =>
    rintro dt s m rfl up sup phy head due mode
    exact bus_event s up sup phy ((syncSend_frame up head due).trans (if_pos mode))
  case syncSend =>
    rintro dt s m rfl up sup phy head due mode
    exact bus_event s up sup phy ((syncSend_frame up head due).trans (if_neg mode))
  case received =>
    rintro dt p n seq answered rx tx gap s m rfl up sup phy tail near
    exact bus_event s up sup phy (syncReceived_follows up (Bool.eq_false_of_not_eq_true' tail) near)
  case edge =>
    rintro dt edge nearest xs s m rfl up tail wired slewing at_ offsets
    exact awake_event s up (wiredEdge_slewing up (Bool.eq_false_of_not_eq_true' tail) wired slewing at_ offsets)
  case missing =>
    rintro dt s m rfl up tail wired locked
    exact awake_event s up (wiredMissing_unlocks (Bool.eq_false_of_not_eq_true' tail) wired locked)
  case holdover =>
    rintro dt s m rfl up sup phy tail locked late
    exact bus_event s up sup phy (syncHoldover_ends (Bool.eq_false_of_not_eq_true' tail) locked late)
  case listen =>
    rintro dt s m rfl up sup phy listening late
    exact bus_event s up sup phy (listenEnd_ends listening late)
  case statusSend =>
    rintro dt s m rfl up sup phy heard due alone
    exact bus_event s up sup phy (statusSend_due up (Bool.eq_false_of_not_eq_true' heard) due
      (Bool.eq_false_of_not_eq_true' alone))
  case eventSend =>
    rintro dt s m rfl up sup phy heard some_cause
    exact bus_event s up sup phy (eventSend_due up (Bool.eq_false_of_not_eq_true' heard) some_cause)
  case finish =>
    rintro dt x d s m rfl up sup phy running all delay
    exact bus_event s up sup phy (delayProbe_finish running all delay)
  case send =>
    rintro dt x t1 s m rfl up sup phy head heard running more spaced
    exact bus_event s up sup phy (delayProbe_send running head (Bool.eq_false_of_not_eq_true' heard) more spaced)
  case delay =>
    rintro dt p d s m rfl up sup phy tail
    exact bus_event s up sup phy (if_neg (Bool.eq_false_iff.1 (Bool.eq_false_of_not_eq_true' tail)))

end Sys2Proof.Machine

namespace Sys2Proof.Machine

section
variable {m : Module}

/-! ## Allocations (R498 … R505) -/

/-- The share of node `k` in an allocation, none where it names none. -/
def shareOf (q : Allocation) (k : Nat) : Word × Word := ((q.shares.find? (fun x => x.1 == k)).map (·.2)).getD (0, 0)

/-- The system state once the oldest held allocation is in force. -/
def inForce (q : Allocation) (rest : List Allocation) (now : Nat) (y : System) : System :=
  { y with
    held := rest, lastAllocTick := q.instant, allocAt := some now, stale := false
    nodes := Vector.ofFn (fun n => { y.nodes[n] with shareA := (shareOf q n.val).1, shareB := (shareOf q n.val).2 }) }

theorem allocationInstant_takes {q : Allocation} {rest : List Allocation} (held : m.sys.held = q :: rest)
    (due : q.instant.toNat ≤ m.time.count.toNat) (free : m.sys.rateHeld = false)
    (runs : m.regionRuns m.epochs.active.sysFin = true) (inSet : m.isAdmitted = true) : allocationInstant m =
      endCond F.sysAllocStale 0 (takeShares (shareOf q m.straps.node.val).1 (shareOf q m.straps.node.val).2
        (updSys (inForce q rest m.time.elapsed) m)) := by
  unfold allocationInstant
  rw [held]
  exact (if_neg (by rw [free, runs, decide_eq_false (Nat.not_lt.2 due)]; decide)).trans
    (if_neg (by rw [inSet]; decide))

theorem allocStale_raises {t : Nat} (last : m.sys.allocAt = some t) (inSet : m.isAdmitted = true)
    (fresh : m.sys.stale = false) (late : t + m.us P.sysAllocTimeout ≤ m.time.elapsed) : allocStale m =
      raise F.sysAllocStale 0 true (takeShares 0 0 (updSys (fun y => { y with
        stale := true, nodes := y.nodes.map (fun x => { x with shareA := 0, shareB := 0 }) }) m)) := by
  unfold allocStale
  rw [last]
  exact if_neg (by rw [inSet, fresh, decide_eq_false (Nat.not_lt.2 late)]; decide)

/-! ## The commit of the set and its deadlines (R510, R511, R523) -/

section
variable {p : Provisional} (asked : m.epochs.provisional = some p)
include asked

section
variable (head : m.isHead = true) (due : p.instant.toNat ≤ m.time.count.toNat + m.num P.sysCommitVote)
include head due

theorem commitVote_carried (vote : voteStatus p = none) : commitVote m =
    resolveWaiting [0x21, 0x23] (fun _ => true) 1 0 [] (makePending p.revert p.instant true
      ((setBits 16 p.asked).foldl (fun x n => relayTo n (confirmWords 1) x) m)) := by
  unfold commitVote
  rw [asked]
  dsimp only
  rw [vote]
  exact if_neg (by rw [head]; simpa using due)

theorem commitVote_aborted {k : Nat × Nat} (vote : voteStatus p = some k) : commitVote m =
    raise F.sysCommitAborted k.2 false (resolveWaiting [0x21, 0x23] (fun _ => true) k.1 k.2 []
      (updEpochs (fun e => { e with provisional := none })
        (((setBits 16 p.asked).filter (fun n => p.replies.contains (n, 1))).foldl
          (fun x n => relayTo n (confirmWords 0) x) m))) := by
  unfold commitVote
  rw [asked]
  dsimp only
  rw [vote]
  exact if_neg (by rw [head]; simpa using due)

end

theorem confirmDeadline_drops (tail : m.isHead = false)
    (due : p.instant.toNat ≤ m.time.count.toNat + m.num P.sysCommitConfirm) :
    confirmDeadline m = updEpochs (fun e => { e with provisional := none }) m := by
  unfold confirmDeadline
  rw [asked]
  exact if_neg (by rw [tail]; simpa using due)

end

theorem replyTimeout_relay {x : Waiting} (overdue : m.interp.waiting.find? (replyOverdue m) = some x)
    (relay : x.opcode = 0x84) : replyTimeout m = touchWaiting (replyOverdue m)
      (fun w => { w with result := some (Status.tailstockUnknown.code, x.target, []) }) m := by
  unfold replyTimeout
  rw [overdue]
  exact if_pos relay

theorem admissionLoss_idle {c : LossCause} (tail : m.isHead = false) (inSet : m.sys.admitted = true)
    (lost : lossPresent c m = true) (idle : m.driven = false) : admissionLoss c m =
      raise (lossFault c) (if c = .linkLost then m.sys.lastDown else 0) true
        (updSys (fun y => { y with admitted := false }) m) :=
  (if_pos lost).trans ((if_neg (by rw [tail, inSet]; decide)).trans (if_neg (Bool.eq_false_iff.1 idle)))

end

/-- Settles O55: each event takes the branch its hypotheses name. -/
theorem systemEventsComplete : Obligations.SystemEventsComplete := by
  refine ⟨?loss, ?removal, ?allocation, ?stale, ?carried, ?aborted, ?confirm, ?reply⟩
  case loss =>
    rintro dt c m1 s m rfl up tail inSet lost idle rfl -
    exact awake_event s up (admissionLoss_idle (Bool.eq_false_of_not_eq_true' tail) inSet lost
      (Bool.eq_false_of_not_eq_true' idle))
  case removal =>
    rintro dt n s m rfl up sup phy silent
    exact bus_event s up sup phy (if_neg (Bool.eq_false_iff.1 (Bool.eq_false_of_not_eq_true' silent)))
  case allocation =>
    rintro dt q rest k s m rfl up held due free runs inSet rfl
    exact awake_event s up (allocationInstant_takes held due (Bool.eq_false_of_not_eq_true' free) runs inSet)
  case stale =>
    rintro dt t0 s m rfl up sup phy last inSet fresh late
    exact bus_event s up sup phy (allocStale_raises last inSet (Bool.eq_false_of_not_eq_true' fresh) late)
  case carried =>
    rintro dt p s m rfl up head asked due vote
    exact awake_event s up (commitVote_carried asked head due vote)
  case aborted =>
    rintro dt p k s m rfl up head asked due vote
    exact awake_event s up (commitVote_aborted asked head due vote)
  case confirm =>
    rintro dt p s m rfl up tail asked due
    exact awake_event s up (confirmDeadline_drops asked (Bool.eq_false_of_not_eq_true' tail) due)
  case reply =>
    rintro dt x s m rfl up overdue relay
    exact awake_event s up (replyTimeout_relay overdue relay)

end Sys2Proof.Machine

namespace Sys2Proof.Machine

section
variable {m : Module}

/-! ## The switch to an epoch and its programming (R566, R567) -/

theorem epochSwitch_head {head : Option Word} (lead : m.isHead = true)
    (switched : (switchEpoch m).epochs.lastSwitch ≠ m.epochs.lastSwitch) :
    epochSwitch head m = takeReference (takeBusEnable (switchEpoch m)) := (if_pos lead).trans (if_neg switched)

theorem flashDone_idle (programs : m.epochs.flashPending = true) (idle : m.epochs.pending = none) :
    flashDone m = updEpochs (fun e => writeRole { e with programmed := true }) m := by
  refine (if_neg (by rw [programs]; decide)).trans ?_
  unfold updEpochs
  dsimp only
  rw [idle]
  rfl

theorem flashDone_pending {p : Pending} (programs : m.epochs.flashPending = true) (pending : m.epochs.pending = some p)
    (waits : p.switched = false) (onward : p.revert = false) :
    flashDone m = updEpochs (fun e => { e with programmed := true }) m := by
  refine (if_neg (by rw [programs]; decide)).trans (congrArg (fun e => { m with epochs := e }) ?_)
  refine (if_pos ?_).trans (if_neg ?_)
  · rw [pending, Option.any_some, waits]
    rfl
  · rw [pending, Option.any_some, onward]
    decide

/-! ## Power transitions (R549 … R552) -/

section
variable {t : Transition} (moving : m.supply.transition = some t)
include moving

theorem transitionFail_bad {d : Nat} (source : t.source = .standby) (dest : t.dest = .ready)
    (late : 2000000 ≤ m.time.elapsed - t.started) (bad : m.badDie = some d) : transitionFail m = abandon d m := by
  unfold transitionFail
  rw [moving, bad]
  exact if_pos (by rw [source, dest, decide_eq_true late]; rfl)

theorem powerProgress_ready {b : Boot} (source : t.source = .standby) (dest : t.dest = .ready) (sound : m.badDie = none)
    (late : 8000000 ≤ m.time.elapsed - t.started) : powerProgress b m =
      updSupply (fun x => { x with readyAt := m.time.elapsed }) (finishLeg t m) := by
  unfold powerProgress
  rw [moving]
  dsimp only
  rw [source, dest]
  dsimp only
  rw [sound]
  exact if_pos (by rw [decide_eq_true late, Bool.or_true])

theorem powerProgress_run {b : Boot} (source : t.source = .armed) (dest : t.dest = .run)
    (boundary : m.time.count.toNat % 4000 = 0) : powerProgress b m = finishLeg t m := by
  unfold powerProgress
  rw [moving]
  dsimp only
  rw [source, dest]
  exact if_pos boundary

theorem powerProgress_sleep {b : Boot} (source : t.source = .standby) (dest : t.dest = .sleep)
    (undisturbed : m.supply.wakeHeld = false) : powerProgress b m =
      updSupply (fun x => { x with label := .sleep, transition := none }) { programLog m with
        time := { (programLog m).time with retained := (programLog m).time.count, running := false }
        dies := sleepDies (programLog m)
        can := (programLog m).can.map (fun c => { c with state := 5 })
        eth := (programLog m).eth.map (fun e => { e with linkUp := false }) } := by
  unfold powerProgress
  rw [moving]
  dsimp only
  rw [source, dest]
  exact if_neg (Bool.eq_false_iff.1 undisturbed)

end

/-! ## The supply of a die (R42 … R44) -/

theorem dieSupply_back {d : Fin 46} (lost : (m.dies[d]).supply = 2) : dieSupply d true m =
    resolveWaiting [0xF1] (· == d.val) 0 0 [] (releaseDie d (updDie d (fun x => { x with supply := 1 }) m)) := by
  unfold dieSupply
  dsimp only
  rw [lost]
  rfl

theorem dieSupply_lost {d : Fin 46} (on : (m.dies[d]).supply = 1) (inner : d.val < 10) :
    dieSupply d false m = holdDie d (updDie d (fun x => { x with supply := 2 }) m) :=
  (if_neg (by rw [on]; decide)).trans ((if_neg Bool.false_ne_true).trans (dif_neg (Nat.not_le.2 inner)))

theorem dieSupply_island {d : Fin 46} {i : Fin 36} (on : (m.dies[d]).supply = 1) (island : d.val = 10 + i.val) :
    dieSupply d false m = updIsland i Island.unpowered (updDie d (fun x => { x with supply := 2 }) m) := by
  have gate : (⟨d.val - 10, by omega⟩ : Fin 36) = i := Fin.ext (by rw [Fin.val_mk]; omega)
  refine (if_neg (by rw [on]; decide)).trans ((if_neg Bool.false_ne_true).trans ((dif_pos (by omega)).trans ?_))
  rw [gate]

end

/-- Settles O56: each event takes the branch its hypotheses name. -/
theorem epochEventsComplete : Obligations.EpochEventsComplete := by
  refine ⟨?switch, ?done, ?pending, ?fails, ?bad, ?ready, ?run, ?sleep, ?start, ?back, ?lost, ?island⟩
  case switch =>
    rintro dt head p m1 s m rfl up lead - - - changed rfl switched
    exact awake_event s up (epochSwitch_head lead (switched.trans_ne changed))
  case done =>
    rintro dt s m rfl up runs programs idle
    exact flash_event s up runs (flashDone_idle programs idle)
  case pending =>
    rintro dt p s m rfl up runs programs pending waits onward
    exact flash_event s up runs (flashDone_pending programs pending (Bool.eq_false_of_not_eq_true' waits)
      (Bool.eq_false_of_not_eq_true' onward))
  case fails =>
    rintro dt s m rfl up programs
    exact awake_event s up (if_pos programs)
  case bad =>
    rintro dt t d s m rfl up moving source dest late bad
    exact awake_event s up (transitionFail_bad moving source dest late bad)
  case ready =>
    rintro dt b t s m rfl up moving source dest sound late
    exact awake_event s up (powerProgress_ready moving source dest sound late)
  case run =>
    rintro dt b t s m rfl up moving source dest boundary
    exact awake_event s up (powerProgress_run moving source dest boundary)
  case sleep =>
    rintro dt b t m1 s m rfl up moving source dest undisturbed rfl
    exact awake_event s up (powerProgress_sleep moving source dest (Bool.eq_false_of_not_eq_true' undisturbed))
  case start =>
    rintro dt b lvin s m rfl off
    exact event s (if_neg (by rw [off]; decide))
  case back =>
    rintro dt d s m rfl up lost
    exact awake_event s up (dieSupply_back lost)
  case lost =>
    rintro dt d s m rfl up on inner
    exact awake_event s up (dieSupply_lost on inner)
  case island =>
    rintro dt d i s m rfl up on island
    exact awake_event s up (dieSupply_island on island)

end Sys2Proof.Machine

namespace Sys2Proof.Machine

section
variable {m : Module}

/-! ## LVIN, HVAUX and the hold-up store (R635 … R638) -/

theorem label_ne_of_up {l : Power} (up : m.up = true) (down : l.code < 2) : m.label ≠ l := by
  rintro rfl
  exact absurd down (of_decide_eq_false (not_down up))

section
variable {lvin : Word} (was : m.supply.lvinOk = true)
include was

theorem lvinLost_holds (up : m.up = true) (other : m.supply.hvauxOk = true) : lvinLost lvin m =
    raise F.pwrLvinLost 0 true (updSupply (fun x => { x with lvinOk := false, lvin := lvin, holdup := true }) m) := by
  refine (if_neg (by rw [was]; decide)).trans ((if_neg ?_).trans (if_neg ?_))
  · rw [other, beq_false_of_ne (label_ne_of_up up (by decide))]
    decide
  · rw [beq_false_of_ne (label_ne_of_up up (by decide))]
    decide

theorem lvinLost_off (started : m.label ≠ .off) (other : m.supply.hvauxOk = false) : lvinLost lvin m =
    goOff (updSupply (fun x => { x with lvinOk := false, lvin := lvin }) m) :=
  (if_neg (by rw [was]; decide)).trans (if_pos (by rw [other, beq_false_of_ne started]; rfl))

theorem lvinLost_asleep (asleep : m.label = .sleep) (other : m.supply.hvauxOk = true) : lvinLost lvin m =
    updSupply (fun x => { x with lvinOk := false, lvin := lvin, holdup := true }) m :=
  (if_neg (by rw [was]; decide)).trans ((if_neg (by rw [asleep, other]; decide)).trans
    (if_pos (by rw [asleep]; rfl)))

end

theorem lvinReturn_ends {lvin : Word} (held : m.supply.holdup = true) : lvinReturn lvin m =
    endCond F.pwrLvinLost 0 (updSupply (fun x => { x with lvinOk := true, lvin := lvin, holdup := false }) m) :=
  if_neg (by rw [held]; decide)

theorem holdupCharged_charges (up : m.up = true) (aux : m.supply.hvauxOk = true) (lv : m.supply.lvinOk = true) :
    holdupCharged m = updSupply (fun x => { x with store := true }) m :=
  if_pos (by rw [aux, lv, Bool.and_self, Bool.true_and]; exact up)

/-! ## HVIL (R492, R640) -/

/-- A current below 4 mA is no closed loop. -/
theorem below_not_closed {current : Word} (below : F32.lt current (F32.ofNat 4) = true) :
    F32.le (F32.ofNat 8) current = false := by
  have four_lt_eight : F32.key (F32.ofNat 4) < F32.key (F32.ofNat 8) := by decide
  simp only [F32.lt, F32.le, decide_eq_true_eq, decide_eq_false_iff_not, not_le] at *
  exact below.trans four_lt_eight

section
variable {current : Word} (up : m.up = true)
include up

theorem hvilChange_closed (low : F32.le (F32.ofNat 8) current = true) (high : F32.le current (F32.ofNat 12) = true) :
    hvilChange current m = endCond F.sysHvilOpen 0 (updSupply (fun x => { x with hvil := true }) m) :=
  (if_neg (of_decide_eq_false (not_down up))).trans (if_pos (by rw [low, high]; rfl))

theorem hvilChange_broken (closed : m.supply.hvil = true) (below : F32.lt current (F32.ofNat 4) = true) :
    hvilChange current m = loseAdmission F.sysHvilOpen 0 (dcExportEnd .hvil
      (noteCause 0 m.time.count (updSupply (fun x => { x with hvil := false }) m))) :=
  (if_neg (of_decide_eq_false (not_down up))).trans ((if_neg (by rw [below_not_closed below, Bool.false_and]; decide)).trans
    (if_pos (by rw [below, closed]; rfl)))

end

/-! ## The port supplies (R274, R286) -/

theorem fbSupplyLimit_line {q : Fin 6} (ready : m.atLeastReady = true) : fbSupplyLimit (.fb q) m =
    allLines.foldl (fun x l => lineBreak q l x)
      (updSupply (fun x => { x with fbLimited := x.fbLimited ||| 2 ^ q.val }) m) := if_neg (by rw [ready]; decide)

theorem fbSupplyLimit_sensor {i : Fin 8} (ready : m.atLeastReady = true) : fbSupplyLimit (.cs i) m =
    sdLost ⟨i.val / 4, by omega⟩ ⟨i.val % 4, by omega⟩ m := if_neg (by rw [ready]; decide)

end

/-- Settles O57: each event takes the branch its hypotheses name. -/
theorem supplyEventsComplete : Obligations.SupplyEventsComplete := by
  refine ⟨?lost, ?both, ?asleep, ?back, ?auxHeld, ?aux, ?auxBack, ?store, ?closed, ?broken, ?limit, ?sensor, ?recovery,
    ?sensorBack, ?rate⟩
  case lost =>
    rintro dt lvin s m rfl up was other
    exact event s (lvinLost_holds was up other)
  case both =>
    rintro dt lvin s m rfl was started other
    exact event s (lvinLost_off was started (Bool.eq_false_of_not_eq_true' other))
  case asleep =>
    rintro dt lvin s m rfl was asleep other
    exact event s (lvinLost_asleep was asleep other)
  case back =>
    rintro dt lvin s m rfl held
    exact event s (lvinReturn_ends held)
  case auxHeld =>
    rintro dt hvaux s m rfl held
    exact event s (if_pos held)
  case aux =>
    rintro dt hvaux s m rfl free
    exact event s (if_neg (Bool.eq_false_iff.1 (Bool.eq_false_of_not_eq_true' free)))
  case auxBack =>
    rintro dt hvaux s m rfl
    rfl
  case store =>
    rintro dt s m rfl up aux lv
    exact event s (holdupCharged_charges up aux lv)
  case closed =>
    rintro dt current s m rfl up low high
    exact event s (hvilChange_closed up low high)
  case broken =>
    rintro dt current s m rfl up closed below
    exact event s (hvilChange_broken up closed below)
  case limit =>
    rintro dt q s m rfl up ready
    exact awake_event s up
      (congrArg (fun n => axAfterPort q (advance dt s.mod) (noteHallEdge q (advance dt s.mod) n)) (fbSupplyLimit_line ready))
  case sensor =>
    rintro dt i s m rfl up ready
    exact awake_event s up (fbSupplyLimit_sensor ready)
  case recovery =>
    rintro dt q s m rfl up
    exact awake_event s up rfl
  case sensorBack =>
    rintro dt i s m rfl up
    exact awake_event s up rfl
  case rate =>
    rintro dt s m rfl up
    exact awake_event s up rfl

end Sys2Proof.Machine

namespace Sys2Proof.Machine

section
variable {m : Module}

/-! ## Faults and the log (R577, R585, R591) -/

theorem faultRaised_listed {code detail : Nat} {cond : Bool} (up : m.up = true)
    (listed : (faultInfo code).isSome = true) (word : detail < 65536) :
    faultRaised code detail cond m = raise code detail cond m := by
  refine (if_neg ?_).trans (congrArg (raise code · cond m) (Nat.mod_eq_of_lt word))
  rw [not_down up, Option.isNone_eq_false_iff.2 listed]
  decide

theorem flogProgram_writes {ok : Bool} (up : m.up = true) (waiting : m.faults.buffer ≠ []) : flogProgram ok m =
    if ok then endCond F.flogWriteFail 0 (programLog m) else raise F.flogWriteFail 0 true m :=
  if_neg (by rw [not_down up, List.isEmpty_eq_false_iff.2 waiting]; decide)

/-! ## Memory words that read wrong, and the scrubbers (R600 … R605) -/

section
variable {block addr entry : Nat} {again : Bool} (valid : blockValid block = true) (inside : addr < blockWords block)
  (runs : m.dieRuns (blockDie block) = true)
include valid inside runs

theorem readError_decides {bad : Bool} : readError block addr bad again entry m =
    if bad then uncorrectable block addr again entry m else noteCorrected block addr m :=
  if_neg (by rw [valid, runs, decide_eq_false (Nat.not_le.2 inside)]; decide)

theorem readErrorDrain_corrected
    (rare : (m.memory.scrubbers[scrubberOf block]).window + 1 ≤ m.num P.memCorrectedRateLimit) :
    readErrorDrain block addr false again entry m = drainQueue (updScrubber (scrubberOf block) (fun x => { x with
      corrected := inc32 x.corrected, window := x.window + 1, lastError := pack [(block, 24), (addr % 2 ^ 20, 1)] }) m) :=
  congrArg drainQueue ((readError_decides valid inside runs).trans ((if_neg Bool.false_ne_true).trans
    (if_neg (by rw [decide_eq_false (Nat.not_lt.2 rare), Bool.false_and]; decide))))

theorem readErrorDrain_supervisor (boot : block = 4) : readErrorDrain block addr true again entry m =
    drainQueue (raise F.memUncorrSup (blockDetail block) true (markBad block addr
      (updScrubber (scrubberOf block) (fun x => { x with
        uncorrected := inc32 x.uncorrected, lastError := pack [(block, 24), (addr % 2 ^ 20, 1), (1, 0)] }) m))) :=
  congrArg drainQueue ((readError_decides valid inside runs).trans ((if_pos rfl).trans (if_pos (Or.inl boot))))

end

section
variable {c : Fin 5} (runs : m.dieRuns (scrubberDie c) = true)
include runs

theorem scrub_advances (due : m.scrubTick c = true)
    (inside : (m.memory.scrubbers[c]).address + 1 < blockWords (m.memory.scrubbers[c]).block)
    (free : m.memory.filling.contains (m.memory.scrubbers[c]).block = false) :
    scrub c m = updScrubber c (fun x => { x with address := x.address + 1 }) m :=
  (if_neg (by rw [runs, due]; decide)).trans (if_pos (by rw [free, decide_eq_true inside]; rfl))

theorem scrubLap_late
    (late : m.num (P.memScrubLapLimit + c.val) < m.time.elapsed - (m.memory.scrubbers[c]).lapStart) :
    scrubLap c m = raise F.memScrubLap (c.val * 2 ^ 8) true m :=
  (if_neg (by rw [runs]; decide)).trans (if_pos late)

end

/-! ## Temperatures (R612 … R617) -/

/-- A temperature reaches the supervisor over the crossing of its die, where it has one. -/
def overReply (d : Fin 46) (n : Module) : Module :=
  match replyCrossing d.val with
  | some i => crossWords i 1 n
  | none => n

theorem overReply_none {d : Fin 46} {n : Module} (inner : replyCrossing d.val = none) : overReply d n = n := by
  rw [overReply, inner]

theorem overReply_some {d : Fin 46} {i : Fin 22} {n : Module} (crosses : replyCrossing d.val = some i) :
    overReply d n = crossWords i 1 n := by
  rw [overReply, crosses]

section
variable {d : Fin 46} {v10 v100 temp : Word} (supplied : (m.dies[d]).supply ≠ 0) (wanted : m.wantsTemp d = true)
  (clocked : m.clockedStopped d.val = false) (routine : m.memory.scanRequest ≠ some d.val)
include supplied wanted clocked routine

theorem tempMeasured_good (sound : diodeBroken v10 v100 = false) {m1 : Module}
    (made : m1 = endCond F.thermSensorBroken d.val (endCond F.thermStale d.val
      (updDie d (fun x => { x with temp := temp, measuredAt := some m.time.elapsed }) m))) :
    tempMeasured d v10 v100 temp m =
      answerTemps d (overReply d (setLevel d (m.newLevel d.val (m.dies[d]).throttle temp) m1)) := by
  subst made
  refine (if_neg (by rw [wanted, clocked, decide_eq_false supplied]; decide)).trans ?_
  dsimp only
  rw [if_neg routine, sound]
  rfl

theorem tempMeasured_broken (broken : diodeBroken v10 v100 = true) : tempMeasured d v10 v100 temp m =
    answerTemps d (overReply d (raise F.thermSensorBroken d.val true (endCond F.thermStale d.val
      (updDie d (fun x => { x with temp := F32.ofNat 200, measuredAt := some m.time.elapsed }) m)))) := by
  refine (if_neg (by rw [wanted, clocked, decide_eq_false supplied]; decide)).trans ?_
  dsimp only
  rw [if_neg routine, broken]
  rfl

end

theorem thermStale_raises {d : Fin 46} (ready : m.atLeastReady = true) (scanned : m.scanned d = true)
    (late : Nat.max ((m.dies[d]).measuredAt.getD 0) m.supply.readyAt + m.us P.thermStaleLimit < m.time.elapsed) :
    thermStale d m = raise F.thermStale d.val true m :=
  if_neg (by rw [ready, scanned, decide_eq_false (Nat.not_le.2 late)]; decide)

/-! ## Blocks filled, words written again, the operating time (R604, R606, R607) -/

theorem fillDone_fills {d : Fin 46} {blocks : List Nat} {m1 : Module}
    (these : blocks = m.memory.filling.filter (fun c => blockDie c == d)) (some_fill : blocks ≠ [])
    (made : m1 = blocks.foldl (fun x c => filled c x) m) : fillDone d m =
      { m1 with regions := Vector.ofFn (fun n => if regionDie n == d then (m1.regions[n]).resume else m1.regions[n]) } := by
  subst these made
  exact if_neg (by rw [List.isEmpty_eq_false_iff.2 some_fill]; decide)

theorem wordRewrite_fabric {block addr : Nat} (valid : blockValid block = true) (fabric : 16 ≤ block) {m1 : Module}
    (made : m1 = { m with memory :=
      { m.memory with bad := m.memory.bad.filter (fun p => !(p.1 == block && p.2 == addr)) } }) :
    wordRewrite block addr m = if blockK block = 2
      then updRegion (blockRegion block) (fun x => { x with affected := x.affected.filter (· != addr) }) m1 else m1 := by
  subst made
  exact if_neg (by rw [valid, decide_eq_false (Nat.not_lt.2 fabric)]; decide)

end

/-- Settles O58: each event takes the branch its hypotheses name. -/
theorem faultAndMemoryEventsComplete : Obligations.FaultAndMemoryEventsComplete := by
  refine ⟨?raised, ?written, ?unwritten, ?corrected, ?supervisor, ?scrub, ?lap, ?fill, ?good, ?broken, ?crossed, ?stale,
    ?rewritten, ?released, ?time⟩
  case raised =>
    rintro dt code detail cond s m rfl up listed word
    exact event s (faultRaised_listed up listed word)
  case written =>
    rintro dt s m rfl up runs waiting
    exact flash_event s up runs ((flogProgram_writes up waiting).trans (if_pos rfl))
  case unwritten =>
    rintro dt s m rfl up runs waiting
    exact flash_event s up runs ((flogProgram_writes up waiting).trans (if_neg Bool.false_ne_true))
  case corrected =>
    rintro dt block addr again entry s m rfl up valid inside runs rare
    exact awake_event s up (readErrorDrain_corrected valid inside runs rare)
  case supervisor =>
    rintro dt block addr again entry s m rfl up valid inside runs boot
    exact awake_event s up (readErrorDrain_supervisor valid inside runs boot)
  case scrub =>
    rintro dt c s m rfl up runs due inside free
    exact awake_event s up (scrub_advances runs due inside (Bool.eq_false_of_not_eq_true' free))
  case lap =>
    rintro dt c s m rfl up runs late
    exact awake_event s up (scrubLap_late runs late)
  case fill =>
    rintro dt d blocks m1 s m rfl up these some_fill made
    exact awake_event s up (fillDone_fills these some_fill made)
  case good =>
    rintro dt d v10 v100 temp m1 s m rfl up supplied wanted clocked routine inner sound made
    refine awake_event s up ((tempMeasured_good supplied wanted (Bool.eq_false_of_not_eq_true' clocked) routine
      (Bool.eq_false_of_not_eq_true' sound) made).trans ?_)
    rw [overReply_none inner]
  case broken =>
    rintro dt d v10 v100 temp s m rfl up supplied wanted clocked routine inner broken
    refine awake_event s up ((tempMeasured_broken supplied wanted (Bool.eq_false_of_not_eq_true' clocked) routine
      broken).trans ?_)
    rw [overReply_none inner]
  case crossed =>
    rintro dt d v10 v100 temp x m1 s m rfl up supplied wanted clocked routine crosses sound made
    refine awake_event s up ((tempMeasured_good supplied wanted (Bool.eq_false_of_not_eq_true' clocked) routine
      (Bool.eq_false_of_not_eq_true' sound) made).trans ?_)
    rw [overReply_some crosses]
  case stale =>
    rintro dt d s m rfl up ready scanned late
    exact awake_event s up (thermStale_raises ready scanned late)
  case rewritten =>
    rintro dt block addr m1 s m rfl up valid fabric made other
    exact awake_event s up ((wordRewrite_fabric valid fabric made).trans (if_neg other))
  case released =>
    rintro dt block addr m1 s m rfl up valid fabric made table
    exact awake_event s up ((wordRewrite_fabric valid fabric made).trans (if_pos table))
  case time =>
    rintro dt s m rfl up runs due
    exact flash_event s up runs (if_neg (Nat.not_lt.2 due))

end Sys2Proof.Machine
